-- ==== Sys2Proof/Word.lean ====
section
/-! DEFINITION. The byte type of the model and the names of the widths the manual uses. -/
namespace Sys2Proof

/-- One byte (R6: every structure of the manual is a string of bytes). -/
abbrev Byte := BitVec 8

/-- A string of bytes, the byte at the lowest offset first (R6). -/
abbrev Bytes := List Byte

end Sys2Proof
end

