-- ==== Sys2Proof/Kinds.lean ====
section
/-! DEFINITION. The small types that commands carry as operands: who asks for an operation, what a read over PCIe or from
DDR-5 returned, which port, mailbox or slice is meant. -/
namespace Sys2Proof

/-- Who asks for an operation: a work item of Chuck's buffer (R235) or an engine ticket of a Chisel core (R275). -/
inductive Requester where
  | item (n : Nat)
  | ticket (core t : Nat)
  deriving DecidableEq, Repr

/-- What a read over PCIe brought back (R71): data, or one of the failures that the rule names. -/
inductive DmaRead where
  | data (b : Bytes)
  | unsupportedRequest
  | completerAbort
  | timeout
  | poisoned
  deriving DecidableEq, Repr

/-- What becomes of a posted write (R71): issued, or lost to an uncorrectable error in the egress buffer. -/
inductive Egress where
  | issued
  | bufferError
  deriving DecidableEq, Repr

/-- A line of Sump's external memory: a record's ciphertext, a tag, or a version block (R213, R217). -/
inductive DdrLine where
  | record (i : Nat)
  | tag (i : Nat)
  | node (level i : Nat)
  deriving DecidableEq, Repr

/-- What the DDR-5 devices return on a read: what was last written, what somebody put in place of it (the memory is not
trusted), or an error the ECC cannot correct (R211, R223). -/
inductive DdrReturn where
  | faithful
  | altered (lines : List (DdrLine × Bytes))
  | uncorrectable (level : Nat)
  /-- What was last written, after so many errors corrected on each channel (R211). -/
  | corrected (dc0 dc1 : Nat)
  /-- Zeros: what a read leaves that the Ferrule of the Sump DMA engine denies (R416). -/
  | zeroed
  deriving DecidableEq, Repr

/-- The two Kerard ports (R464). -/
inductive KPort where
  | ka
  | kb
  deriving DecidableEq, Repr

/-- The six Bimor mailboxes (R336): the PF's, the four slices' and the sideband's. -/
inductive Mbx where
  | pf
  | so
  | au
  | ce
  | op
  | sb
  deriving DecidableEq, Repr

/-- A chain of Flowstone (R191): a chamber's or the system chain. -/
inductive ChainId where
  | chamber (c : Nat)
  | system
  deriving DecidableEq, Repr

/-- An access to a register: aligned 32 bits, or any other size or alignment (R56, R234, R406). -/
inductive Access where
  | word
  | other
  deriving DecidableEq, Repr

/-- The size of a write: 32 or 64 bits, or another (R337). -/
inductive WSize where
  | word
  | dword
  | other
  deriving DecidableEq, Repr

/-- An access of the host without a row of its own (R4): a write to a window or a plain read of one, a BAR 2 table entry, or a bit of a configuration
space that the manual names (R533, R537, R539). The table has no row for a plain read (log entry 18). -/
inductive HostWrite where
  /-- The PF window, with the PASID of the request, if any (R328). -/
  | pf (pasid : Option Nat) (off : Nat) (size : WSize) (v : BitVec 64)
  /-- The window of chamber `c`'s VF. -/
  | vf (c off : Nat) (size : WSize) (v : BitVec 64)
  /-- Reads of the PF window and of the window of chamber `c`'s VF. -/
  | readPf (pasid : Option Nat) (off : Nat) (size : WSize)
  | readVf (c off : Nat) (size : WSize)
  /-- An MSI-X table entry's address and data, and its mask bit set; function 0 is the PF, c + 1 the VF of chamber c. -/
  | vector (fn vec addr data : Nat)
  | mask (fn vec : Nat)
  | msixEnable (fn : Nat) (on : Bool)
  | busMaster (fn : Nat) (on : Bool)
  | vfEnable
  | d3hot (on : Bool)
  /-- A poisoned write to a window of a function. -/
  | poisoned (fn : Nat)
  deriving DecidableEq, Repr

/-- Which Auger unit a slot belongs to (R148). -/
inductive AugerUnit where
  | keccak (core : Nat)
  | sha2
  deriving DecidableEq, Repr

/-- The 16-bit registers that a 16-bit code names (R287). -/
inductive Reg16 where
  | pair (n : BitVec 3)
  | x
  | y
  | sp
  deriving DecidableEq, Repr

/-- The pointer of a format-M access (R286). -/
inductive Ptr where
  | x
  | y
  deriving DecidableEq, Repr

/-- Whose HEARTBEAT an interval has passed without (R487): the peer's, the referee's, or, at a referee, the active's or the standby's of a
pair it serves. -/
inductive Party where
  | peer
  | referee
  | served (pairNo : Nat) (standby : Bool)
  deriving DecidableEq, Repr

/-- What a system record that a mirror frame carries sets up on the standby (R482, R485). The records' layout is the firmware's own (R213),
so the command that brings such a frame in says what its system records mean. -/
inductive Setup where
  /-- A chamber's configuration record, with its creation number and handle key. -/
  | chamber (c creation : Nat) (handleKey : Bytes) (pinpol : Nat) (weights : List Nat) (interval : Nat) (uread : Bool) (k : Nat)
      (custodians : List Bytes)
  /-- A decimalisation table of a chamber. -/
  | table (c n : Nat) (digits : Bytes)
  /-- A chamber deleted. -/
  | noChamber (c : Nat)
  | sq (c g base depthLog2 cq fmt : Nat)
  | cq (c q base depthLog2 : Nat) (vecEn : Bool) (vector fmt coalCount coalTime : Nat)
  | noSq (c g : Nat)
  | noCq (c q : Nat)
  | ring (i : ChainId) (leafBase hdrBase llog2 hlog2 : Nat) (vecEn : Bool) (vector : Nat)
  | noRing (i : ChainId)
  /-- A chain record, with the public audit keys and the global indices of the private ones. -/
  | chain (i : ChainId) (pq : Bool) (chainNo recBatch recSeq markEpoch mark : Nat) (digest edPub pqPub : Bytes)
      (edGidx pqGidx : Nat)
  /-- The system handle key. -/
  | systemKey (key : Bytes)
  /-- An entry of the recipe table, and instructions of the recipe store. -/
  | recipe (id entry len mask maxcyc : Nat) (words : List Nat)
  | noRecipe (id : Nat)
  /-- The decode image. -/
  | decode (image : Bytes)
  deriving DecidableEq, Repr

/-- What a detector delivers (R424, R425): the samples of its raw output that its filter takes next, the oldest first, or a pulse that a pulse
detector passes. -/
inductive DetEvent where
  | samples (raw : List Bool)
  | pulse
  deriving DecidableEq, Repr

namespace Machine

/-- A region rule of a Ferrule (R411): granules BASE to LIMIT, rights, OWNER and EN. -/
structure Region where
  base : Nat
  limit : Nat
  r : Bool
  w : Bool
  x : Bool
  /-- OWNER: bit 6 SYSTEM, bits 5:0 chamber. -/
  owner : Nat
  en : Bool
  deriving DecidableEq, Repr

/-- What the patrol scrub meets on a line (R211). -/
inductive ScrubResult where
  | clean
  /-- An error corrected and written back, on channel DC0 or DC1. -/
  | corrected (dc1 : Bool)
  /-- An error that the retry meets again, at a record's line or in a version block. -/
  | uncorrectable (line : DdrLine)
  deriving DecidableEq, Repr

end Machine

end Sys2Proof
end

