-- ==== Sys2Proof/Syntax.lean ====
section
/-! DEFINITION. The commands of the device: one constructor for each row of spec/opcode_table.json, with the operands the rule of the row gives it.
A core is named by 8 * cluster + core, a chain by its chamber or 64 for the system chain, a PF request by its PASID if it has one. -/
namespace Sys2Proof

/-- A command. -/
inductive Instr where
  /-- SQ_DOORBELL (R58): A host write to VFQ_SQDB sets a submission queue's new tail, or records a QERR error and is otherwise ignored. -/
  | sqDoorbell (c : Fin 64) (g : Fin 8) (a : Access) (v : BitVec 32)
  /-- CQ_DOORBELL (R65): A host write to VFQ_CQDB releases completion-queue entries up to the new head, or sets CQ_HEAD. -/
  | cqDoorbell (c : Fin 64) (q : Fin 8) (a : Access) (v : BitVec 32)
  /-- FETCH_ISSUE (R240): A host DMA engine issues a fetch of up to 64 descriptors once credit, group room and completion entries allow. -/
  | fetchIssue (e : Fin 8)
  /-- DESCRIPTOR_FETCH (R576): Submission-queue read data arrives and the entries become fetched in index order, or a failed read quiesces the
  chamber. -/
  | descriptorFetch (c : Fin 64) (g : Fin 8) (first : Nat) (x : DmaRead)
  /-- CHUCK_SELECT (R244): Chuck's dispatch port selects one dispatchable work item by class, chamber and group rotation and sends it to its
  consumer. -/
  | chuckSelect
  /-- KEY_LOOKUP (R46): A key-cache lookup returns a record on a hit, or on a miss starts a Sump fill and withdraws a direct item as HELD MISS. -/
  | keyLookup (r : Requester)
  /-- KEY_CACHE_FILL (R219): The Sump controller's reads return, the record is unsealed and verified up the version tree, and the slot is filled
  or the lookup fails with SUMP_INTEGRITY. -/
  | keyCacheFill (gidx : Nat) (ret : DdrReturn)
  /-- KEY_PORT_RELEASE (R49): The last engine reference to a key-cache slot is released, letting a deleted slot be zeroised or a waiting fill
  proceed. -/
  | keyPortRelease (gidx : Nat)
  /-- PIN_REFETCH (R51): After a wake the device refetches pinned records in the background. -/
  | pinRefetch
  /-- COUNTER_RESERVE (R39): The device reserves the next block of 4,096 counts of a counted key through a Sump commit. -/
  | counterReserve (gidx : Nat)
  /-- OPERAND_BUFFER_READ (R62): Operand buffer read data arrives, or the read fails and the descriptor completes with BUFFER_ACCESS. -/
  | operandBufferRead (n : Nat) (x : DmaRead)
  /-- COMPLETION_WRITE (R64): A completion is written to its completion queue once its leaf is accepted and any FENCE allows, followed by any
  due MSI-X message. -/
  | completionWrite (n : Nat) (e : Egress)
  /-- COALESCE_TIMER (R82): COAL_TIME expires after the first unsignalled completion and the completion queue's MSI-X message is issued. -/
  | coalesceTimer (c : Fin 64) (q : Fin 8)
  /-- MSIX_UNMASK (R537): A masked MSI-X vector is unmasked and its pending message is sent. -/
  | msixUnmask (fn : Fin 65) (vec : Fin 64)
  /-- NOP (R69): Queue-control NOP completes OK without engine work. -/
  | nop (r : Requester)
  /-- FENCE (R76): Queue-control FENCE stops fetching for the chamber until every earlier descriptor has completed. -/
  | fence (r : Requester)
  /-- AUDIT_FLUSH (R69): Closes the chamber's open batch and completes once the covering headers are signed, recorded and mirrored. -/
  | auditFlush (r : Requester)
  /-- PIN_TRANSLATE (R95): Translates a PIN block between formats and keys on a fused Spindle pair under the format-conversion policy. -/
  | pinTranslate (r : Requester)
  /-- PIN_TRANSLATE_DUKPT (R98): Derives the DUKPT transaction key and translates the terminal's PIN block. -/
  | pinTranslateDukpt (r : Requester)
  /-- PIN_VERIFY_OFFSET (R101): Verifies a PIN by the IBM 3624 offset method. -/
  | pinVerifyOffset (r : Requester)
  /-- PIN_VERIFY_PVV (R102): Verifies a PIN by the PIN verification value method. -/
  | pinVerifyPvv (r : Requester)
  /-- PIN_VERIFY_COMPARE (R103): Compares the transaction PIN with a reference PIN block. -/
  | pinVerifyCompare (r : Requester)
  /-- MAC_GENERATE (R106): Generates a MAC under the algorithm selected by the key's usage. -/
  | macGenerate (r : Requester)
  /-- MAC_VERIFY (R106): Verifies a MAC in constant time. -/
  | macVerify (r : Requester)
  /-- MAC_GENERATE_DUKPT (R107): Generates a MAC under a DUKPT-derived key. -/
  | macGenerateDukpt (r : Requester)
  /-- MAC_VERIFY_DUKPT (R107): Verifies a MAC under a DUKPT-derived key. -/
  | macVerifyDukpt (r : Requester)
  /-- EMV_ARQC_VERIFY (R109): Verifies an ARQC and optionally generates the ARPC. -/
  | emvArqcVerify (r : Requester)
  /-- CVC_GENERATE (R111): Generates a card verification code. -/
  | cvcGenerate (r : Requester)
  /-- CVC_VERIFY (R111): Verifies a card verification code. -/
  | cvcVerify (r : Requester)
  /-- TR31_IMPORT (R113): Unwraps a TR-31 key block and stores its key in a new record. -/
  | tr31Import (r : Requester)
  /-- TR31_EXPORT (R116): Wraps a key as a TR-31 key block. -/
  | tr31Export (r : Requester)
  /-- DUKPT_IK_EXPORT (R117): Derives a terminal's DUKPT initial key and exports it as a TR-31 block. -/
  | dukptIkExport (r : Requester)
  /-- CIPHER_ENCRYPT (R143): Encrypts the buffer input in the selected mode. -/
  | cipherEncrypt (r : Requester)
  /-- CIPHER_DECRYPT (R143): Decrypts the buffer input in the selected mode. -/
  | cipherDecrypt (r : Requester)
  /-- HASH (R152): Hashes the buffer input with the selected algorithm. -/
  | hash (r : Requester)
  /-- PK_SIGN (R167): Signs a message or digest on a Gallery core. -/
  | pkSign (r : Requester)
  /-- PK_VERIFY (R172): Verifies a signature on a Gallery core. -/
  | pkVerify (r : Requester)
  /-- PK_BATCH_VERIFY (R185): Verifies up to 64 EdDSA signatures by batch check and bisection. -/
  | pkBatchVerify (r : Requester)
  /-- PK_KEYGEN (R174): Generates a key pair and creates private and public records. -/
  | pkKeygen (r : Requester)
  /-- PK_DERIVE (R175): Performs key agreement and creates a symmetric record from the shared secret. -/
  | pkDerive (r : Requester)
  /-- PK_ENCAPSULATE (R175): ML-KEM encapsulation creating a symmetric record and writing the ciphertext. -/
  | pkEncapsulate (r : Requester)
  /-- PK_DECAPSULATE (R176): ML-KEM decapsulation with implicit rejection creating a symmetric record. -/
  | pkDecapsulate (r : Requester)
  /-- PK_ENCRYPT (R177): RSA encryption of a message. -/
  | pkEncrypt (r : Requester)
  /-- PK_DECRYPT (R177): RSA-OAEP decryption of a ciphertext. -/
  | pkDecrypt (r : Requester)
  /-- RECIPE_RUN (R268): Runs a recipe named by identifier on a Chisel core. -/
  | recipeRun (n : Nat)
  /-- OUTPUT (R278): Port-only engine call writing recipe bytes to the host buffer's output area. -/
  | output (k : Fin 64) (t : Fin 16) (e : Egress)
  /-- SPINDLE_ISSUE (R126): Each Spindle pipeline chooses a reserved pass or the next eligible request to enter stage 1. -/
  | spindleIssue
  /-- PASS_COMPLETE (R118): A block leaves stage 28 of a Spindle pipeline and its result is delivered or passed on. -/
  | passComplete (pipe : Fin 4) (e : Egress)
  /-- AUGER_ISSUE (R150): Auger grants a permutation or compression slot to a waiting port. -/
  | augerIssue (u : AugerUnit)
  /-- AUGER_RESULT (R150): An Auger message's digest is delivered and its state cleared. -/
  | augerResult (id : Nat) (e : Egress)
  /-- GALLERY_DISPATCH (R159): An idle Gallery core takes the next eligible request from the command queue. -/
  | galleryDispatch
  /-- VALIDATION_WINDOW_END (R179): A Gallery operation's fixed validation window ends and it reports PK_REJECT or continues. -/
  | validationWindowEnd (k : Fin 20)
  /-- GALLERY_OP_COMPLETE (R190): A Gallery core delivers its result at the commit point and zeroises secret operand memory. -/
  | galleryOpComplete (k : Fin 20) (bad : Option (BitVec 21)) (e : Egress)
  /-- GALLERY_ABORT (R189): An abort request reaches a Gallery core, which stops its datapath and starts zeroising operand memory. -/
  | galleryAbort (k : Fin 20)
  /-- ABORTED_SIGNALLED (R189): Operand-memory zeroisation ends and ABORTED is signalled on the requester's channel. -/
  | abortedSignalled (k : Fin 20)
  /-- ENGINE_LOCAL_ABORT (R514): Headstock aborts one Gallery core or all of Gallery. -/
  | engineLocalAbort (core : Option (Fin 20))
  /-- TICKET_COMPLETE (R276): An engine call completes its ticket area and any EWAIT on it returns. -/
  | ticketComplete (k : Fin 64) (t : Fin 16)
  /-- ECALL_QUEUE_ACCEPT (R18): A full engine queue accepts a stalled ECALL request and the core resumes. -/
  | ecallQueueAccept (k : Fin 64)
  /-- WINDOW_PAGE_LOAD (R264): A 4 KiB page of a core's message window is loaded, releasing any stall, or the load fails and ends the work item
  with BUFFER_ACCESS. -/
  | windowPageLoad (k : Fin 64) (x : DmaRead)
  /-- CC_WINPOS (R264): A write to CC_WINPOS moves the message window and reloads it. -/
  | ccWinpos (k : Fin 64) (v : BitVec 8)
  /-- CC_RNGDATA (R263): A core read of CC_RNGDATA consumes one Lantern byte or returns zero and sets ERR. -/
  | ccRngdata (k : Fin 64)
  /-- COUNTER_LOW_BYTE_READ (R527): A core read of a counter's lowest byte latches its other bytes. -/
  | counterLowByteRead (k : Fin 64) (n : Option (Fin 8))
  /-- NOP_INSTR (R290): Chisel NOP instruction. -/
  | nopInstr (k : Fin 64) (cond : BitVec 4)
  /-- BR (R290): Relative branch. -/
  | br (k : Fin 64) (cond : BitVec 4) (off : BitVec 14)
  /-- CALL (R302): Relative call pushing a three-byte frame. -/
  | call (k : Fin 64) (cond : BitVec 4) (off : BitVec 14)
  /-- RET (R302): Return popping the frame and applying loop closure to the return address. -/
  | ret (k : Fin 64) (cond : BitVec 4)
  /-- JR (R290): Absolute jump through a register pair. -/
  | jr (k : Fin 64) (cond : BitVec 4) (p : BitVec 3)
  /-- CALLR (R290): Absolute call through a register pair. -/
  | callr (k : Fin 64) (cond : BitVec 4) (p : BitVec 3)
  /-- LOOP (R298): Opens a loop level with the count in a register pair. -/
  | loop (k : Fin 64) (cond : BitVec 4) (p : BitVec 3) (off : BitVec 11)
  /-- LOOPI (R298): Opens a loop level with an immediate count. -/
  | loopi (k : Fin 64) (cond : BitVec 4) (count : BitVec 6) (off : BitVec 8)
  /-- ECALL (R275): Copies the call block and issues an engine call, returning a ticket number. -/
  | ecall (k : Fin 64) (cond : BitVec 4) (d : BitVec 4)
  /-- EWAIT (R275): Blocks until a ticket completes. -/
  | ewait (k : Fin 64) (cond : BitVec 4) (w : BitVec 4)
  /-- TAKE (R248): The core joins its cluster's TAKE set and sleeps. -/
  | take (k : Fin 64) (cond : BitVec 4)
  /-- DONE (R271): Ends the work item with DSTATUS and DRESULT; `e` says how its write of OUT_LEN ends (R71), where it makes one. -/
  | done (k : Fin 64) (cond : BitVec 4) (e : Egress)
  /-- CORE_CLEAR (R272): After DONE or a fault, and any Gallery aborts reporting, the core zeroises its state and returns to TAKE. -/
  | coreClear (k : Fin 64)
  /-- WATCHDOG (R279): A recipe exceeds MAXCYC x 1,024 execution cycles and faults. -/
  | watchdog (k : Fin 64)
  /-- MOV (R291): Byte register move. -/
  | mov (k : Fin 64) (cond : BitVec 4) (d w : BitVec 4)
  /-- MOVI (R291): Byte immediate move. -/
  | movi (k : Fin 64) (cond : BitVec 4) (d : BitVec 4) (imm : BitVec 8)
  /-- ADD (R291): Byte add. -/
  | add (k : Fin 64) (cond : BitVec 4) (d w : BitVec 4)
  /-- ADDI (R291): Byte add immediate. -/
  | addi (k : Fin 64) (cond : BitVec 4) (d : BitVec 4) (imm : BitVec 8)
  /-- ADC (R291): Byte add with carry. -/
  | adc (k : Fin 64) (cond : BitVec 4) (d w : BitVec 4)
  /-- SUB (R291): Byte subtract. -/
  | sub (k : Fin 64) (cond : BitVec 4) (d w : BitVec 4)
  /-- SUBI (R291): Byte subtract immediate. -/
  | subi (k : Fin 64) (cond : BitVec 4) (d : BitVec 4) (imm : BitVec 8)
  /-- SBC (R291): Byte subtract with borrow. -/
  | sbc (k : Fin 64) (cond : BitVec 4) (d w : BitVec 4)
  /-- CMP (R291): Byte compare. -/
  | cmp (k : Fin 64) (cond : BitVec 4) (d w : BitVec 4)
  /-- CMPI (R291): Byte compare immediate. -/
  | cmpi (k : Fin 64) (cond : BitVec 4) (d : BitVec 4) (imm : BitVec 8)
  /-- AND (R291): Byte AND. -/
  | and (k : Fin 64) (cond : BitVec 4) (d w : BitVec 4)
  /-- ANDI (R291): Byte AND immediate. -/
  | andi (k : Fin 64) (cond : BitVec 4) (d : BitVec 4) (imm : BitVec 8)
  /-- OR (R291): Byte OR. -/
  | or (k : Fin 64) (cond : BitVec 4) (d w : BitVec 4)
  /-- ORI (R291): Byte OR immediate. -/
  | ori (k : Fin 64) (cond : BitVec 4) (d : BitVec 4) (imm : BitVec 8)
  /-- XOR (R291): Byte XOR. -/
  | xor (k : Fin 64) (cond : BitVec 4) (d w : BitVec 4)
  /-- XORI (R291): Byte XOR immediate. -/
  | xori (k : Fin 64) (cond : BitVec 4) (d : BitVec 4) (imm : BitVec 8)
  /-- TSTI (R291): Byte test against an immediate. -/
  | tsti (k : Fin 64) (cond : BitVec 4) (d : BitVec 4) (imm : BitVec 8)
  /-- SHL (R291): Unary shift left. -/
  | shl (k : Fin 64) (cond : BitVec 4) (r : BitVec 4)
  /-- SHR (R291): Unary logical shift right. -/
  | shr (k : Fin 64) (cond : BitVec 4) (r : BitVec 4)
  /-- ASR (R291): Unary arithmetic shift right. -/
  | asr (k : Fin 64) (cond : BitVec 4) (r : BitVec 4)
  /-- ROL (R291): Unary rotate left through carry. -/
  | rol (k : Fin 64) (cond : BitVec 4) (r : BitVec 4)
  /-- ROR (R291): Unary rotate right through carry. -/
  | ror (k : Fin 64) (cond : BitVec 4) (r : BitVec 4)
  /-- SWAP (R291): Unary nibble exchange. -/
  | swap (k : Fin 64) (cond : BitVec 4) (r : BitVec 4)
  /-- INC (R291): Unary increment. -/
  | inc (k : Fin 64) (cond : BitVec 4) (r : BitVec 4)
  /-- DEC (R291): Unary decrement. -/
  | dec (k : Fin 64) (cond : BitVec 4) (r : BitVec 4)
  /-- NOT (R291): Unary complement. -/
  | not (k : Fin 64) (cond : BitVec 4) (r : BitVec 4)
  /-- NEG (R291): Unary negate. -/
  | neg (k : Fin 64) (cond : BitVec 4) (r : BitVec 4)
  /-- MUL (R294): Unsigned 8x8 multiply into a pair. -/
  | mul (k : Fin 64) (cond : BitVec 4) (d : BitVec 3) (x y : BitVec 4)
  /-- DIVU (R294): Unsigned 16/8 divide. -/
  | divu (k : Fin 64) (cond : BitVec 4) (d : BitVec 3) (w : BitVec 4)
  /-- GETF (R291): Reads the flag byte into a register. -/
  | getf (k : Fin 64) (cond : BitVec 4) (d : BitVec 4)
  /-- SETF (R291): Sets Z, C, N and V from a register. -/
  | setf (k : Fin 64) (cond : BitVec 4) (w : BitVec 4)
  /-- MOVW (R292): 16-bit move. -/
  | movw (k : Fin 64) (cond : BitVec 4) (d w : Reg16)
  /-- LPI (R292): Loads one byte of a 16-bit register from an immediate. -/
  | lpi (k : Fin 64) (cond : BitVec 4) (d : Reg16) (high : Bool) (imm : BitVec 8)
  /-- ADDW (R292): 16-bit add. -/
  | addw (k : Fin 64) (cond : BitVec 4) (d w : Reg16)
  /-- ADDWI (R292): 16-bit add of a signed immediate. -/
  | addwi (k : Fin 64) (cond : BitVec 4) (d : Reg16) (imm : BitVec 10)
  /-- LD (R288): Byte load through X or Y with displacement and optional post-increment. -/
  | ld (k : Fin 64) (cond : BitVec 4) (d : BitVec 4) (p : Ptr) (inc : Bool) (disp : BitVec 8)
  /-- ST (R288): Byte store through X or Y. -/
  | st (k : Fin 64) (cond : BitVec 4) (w : BitVec 4) (p : Ptr) (inc : Bool) (disp : BitVec 8)
  /-- LDW (R288): 16-bit load. -/
  | ldw (k : Fin 64) (cond : BitVec 4) (d : BitVec 3) (p : Ptr) (inc : Bool) (disp : BitVec 8)
  /-- STW (R288): 16-bit store. -/
  | stw (k : Fin 64) (cond : BitVec 4) (w : BitVec 3) (p : Ptr) (inc : Bool) (disp : BitVec 8)
  /-- MOVB (R292): Copies a byte from [X] to [Y] and advances both. -/
  | movb (k : Fin 64) (cond : BitVec 4)
  /-- CMPB (R292): Compares the byte at [X] with a register and advances X. -/
  | cmpb (k : Fin 64) (cond : BitVec 4) (w : BitVec 4)
  /-- PUSH (R293): Pushes a byte onto the stack. -/
  | push (k : Fin 64) (cond : BitVec 4) (w : BitVec 4)
  /-- POP (R293): Pops a byte from the stack. -/
  | pop (k : Fin 64) (cond : BitVec 4) (d : BitVec 4)
  /-- PUSHW (R293): Pushes a pair onto the stack. -/
  | pushw (k : Fin 64) (cond : BitVec 4) (w : BitVec 3)
  /-- POPW (R293): Pops a pair from the stack. -/
  | popw (k : Fin 64) (cond : BitVec 4) (d : BitVec 3)
  /-- CX (R310): Executes a decode-table instruction CX0-CX7 as its microword sequence. -/
  | cx (k : Fin 64) (cond : BitVec 4) (n : BitVec 3) (opnd : BitVec 14)
  /-- MICRO (R313): A CX execution reaches its 257th microword and faults. -/
  | micro (k : Fin 64) (cond : BitVec 4) (n : BitVec 3) (opnd : BitVec 14)
  /-- FERRULE_COMMIT (R413): Headstock requests a Ferrule commit and the shadow set is checked for overlaps. -/
  | ferruleCommit (m : Fin 80) (rules : List Machine.Region)
  /-- FERRULE_COMMIT_POINT (R414): At the master's next cycle boundary the shadow set becomes active and the epoch increments. -/
  | ferruleCommitPoint (m : Fin 80) (outstanding : Bool)
  /-- FERRULE_DRAIN_END (R414): The last access of an earlier epoch completes and DRAINING clears. -/
  | ferruleDrainEnd (m : Fin 80)
  /-- FERRULE_REPORT_TIMER (R420): The 100 ms interval passes and Belay writes a further violation record carrying the count. -/
  | ferruleReportTimer (m : Fin 80)
  /-- BELAY_INTAKE (R418): Belay takes a held report from its intake queue, stamps it and executes its class. -/
  | belayIntake
  /-- LOCKSTEP_MISMATCH (R418): The Headstock lockstep checker reports a mismatch, raising class L. -/
  | lockstepMismatch (pc : BitVec 32) (verdicts : Bool)
  /-- DETECTOR_EVENT (R425): A monitor detector's filtered output changes or passes a pulse, counting an event or entering REARMING. -/
  | detectorEvent (k : Fin 19) (detB : Bool) (e : DetEvent)
  /-- SUSTAINED_EVENT (R425): An interval of W/M passes with a filtered output still active and one further event is counted. -/
  | sustainedEvent (k : Fin 19) (detB : Bool)
  /-- EVENT_WINDOW_EXPIRY (R425): An event leaves a detector's trailing window W and its count falls. -/
  | eventWindowExpiry (k : Fin 19) (detB : Bool)
  /-- REARM_HOLD_EXPIRY (R426): A monitor stays inactive in REARMING for 10 ms and returns to IDLE. -/
  | rearmHoldExpiry (k : Fin 19)
  /-- DETECTOR_FAULT (R427): Detectors disagree for 1 s, or one fails its stimulus, raising a class L detector fault. -/
  | detectorFault (k : Fin 19)
  /-- BUILTIN_STIMULUS (R427): Once each second Belay applies its built-in stimulus to a detector. -/
  | builtinStimulus (k : Fin 19) (detB answers : Bool)
  /-- DFAULT_CLEAR (R427): Detectors agree for 1 s and answer the next stimulus, and DFAULT clears. -/
  | dfaultClear (k : Fin 19)
  /-- CLASS_Z_RESPONSE (R434): Belay executes zeroisation on main power and transitions to ZEROISED. -/
  | classZResponse
  /-- CLASS_L_RESPONSE (R436): Belay executes a lock and transitions to LOCKED. -/
  | classLResponse
  /-- BATTERY_RESPONSE (R442): On battery an alarm zeroises the key area or sets L_DONE and writes a pending evidence slot. -/
  | batteryResponse
  /-- EVIDENCE_WRITE (R455): Belay appends an evidence record to the next Strata OTP slot, retrying a failed slot. -/
  | evidenceWrite (torn : List Bytes)
  /-- RECORDER_WRITE (R457): Belay writes a recorder record to its slot by SERIAL. -/
  | recorderWrite
  /-- RECORDER_FULL_UPDATE (R458): Once per second the RECORDER_FULL record is rewritten with its changed count. -/
  | recorderFullUpdate
  /-- OPT_BASE_WRITE (R451): Once per second of operating time the operating-time base is written to the state area. -/
  | optBaseWrite
  /-- BATTERY_SECOND (R452): The battery seconds counter advances once per second on battery. -/
  | batterySecond
  /-- SUPPLY_SWITCHOVER (R556): The always-on supply switches between VMAIN_AON and VBAT. -/
  | supplySwitchover (battery : Bool)
  /-- MAIN_POWER_LOSS (R555): Main power-good falls and the device opens every switch, stops PLLs and holds power-on reset. -/
  | mainPowerLoss
  /-- LEAF_ACCEPT (R199): Flowstone assigns a leaf its SEQ, hashes it and accepts it into the chain's open batch. -/
  | leafAccept (chain : Fin 65)
  /-- BATCH_INTERVAL_EXPIRY (R201): A chain's batch interval passes since the batch's first leaf and the batch closes. -/
  | batchIntervalExpiry (chain : Fin 65)
  /-- SEQ_RESERVE (R197): Flowstone reserves the next block of sequence numbers through a chain-record commit. -/
  | seqReserve (chain : Fin 65)
  /-- CHAIN_RETIRE (R193): A chain's sequence numbers are exhausted and it is retired into a successor chain. -/
  | chainRetire (chain : Fin 65)
  /-- HEADER_SIGNED (R205): A batch header's signature returns from Gallery. -/
  | headerSigned (chain : Fin 65) (batch : Nat) (pq : Bool)
  /-- HEADER_RELEASE (R206): A header whose leaves, signatures, chain record and mirror ack are done is released to the stream ring. -/
  | headerRelease (chain : Fin 65)
  /-- STREAM_RING_WRITE (R207): Flowstone writes a held leaf or header entry to a stream ring part as space allows. -/
  | streamRingWrite (chain : Fin 65) (header : Bool) (e : Egress)
  /-- CHAIN_COMMIT_RETRY (R577): Every millisecond a stalled chain repeats its failed chain-record commit. -/
  | chainCommitRetry (chain : Fin 65)
  /-- VFA_LHEAD (R207): A host write of the leaf-part head frees leaf ring entries or sets HEAD_RANGE. -/
  | vfaLhead (c : Fin 64) (a : Access) (v : BitVec 32)
  /-- VFA_HHEAD (R207): A host write of the header-part head frees header ring entries or sets HEAD_RANGE. -/
  | vfaHhead (c : Fin 64) (a : Access) (v : BitVec 32)
  /-- SUMP_COMMIT (R220): The Sump controller starts a commit of queued record writes, sealing, tagging and updating the version tree. -/
  | sumpCommit (ret : DdrReturn)
  /-- SUMP_HEAD_WRITE (R221): The Sump head is written to Strata and the commit is complete. -/
  | sumpHeadWrite
  /-- SMP_JHEAD (R221): A host write of SMP_JHEAD releases journal entries, letting waiting commits proceed. -/
  | smpJhead (pasid : Option Nat) (a : Access) (v : BitVec 32)
  /-- SYNC_RELEASE_TIMEOUT (R222): A warm reset's 100 ms wait for SYNC release expires and the commit completes as in ASYNC mode. -/
  | syncReleaseTimeout
  /-- PATROL_SCRUB (R211): The patrol scrub reads lines and writes corrected ones back. -/
  | patrolScrub (r : Machine.ScrubResult)
  /-- SAVE_COPY_END (R229): The SUMP_SAVE copy finishes and SAVING clears. -/
  | saveCopyEnd
  /-- ERASE_RANGE (R231): The background chamber erase commits one range of up to 4,096 slots. -/
  | eraseRange (c : Fin 64)
  /-- SUMP_START (R225): After DDR-5 training the level-D block is verified and Sump STATE set. -/
  | sumpStart (trained : Bool) (ret : DdrReturn)
  /-- LANTERN_SAMPLE (R397): Each source yields a raw sample that is health-tested. -/
  | lanternSample (raw : BitVec 5)
  /-- CONDITIONER_BLOCK (R398): Every 96 us the conditioner forms a new block from 256 samples of each source. -/
  | conditionerBlock
  /-- EXPANDER_GENERATE (R399): The DRBG generates 1,024 bytes into the central buffer while it has room. -/
  | expanderGenerate
  /-- EXPANDER_RESEED (R399): After 4,096 generate calls the DRBG reseeds from the newest conditioner block. -/
  | expanderReseed
  /-- LANTERN_KAT (R400): At every 65,536th reseed both known-answer tests run. -/
  | lanternKat (bad : Option Bool)
  /-- LANTERN_STARTUP (R401): Lantern starts from nothing and runs its start-up test. -/
  | lanternStartup
  /-- LANTERN_RUNNING (R401): The start-up test passes, the central buffer reaches 64 bytes and STATE becomes RUNNING. -/
  | lanternRunning
  /-- PORT_REFILL (R404): Lantern tops up a core, VF or PF port buffer to 16 bytes. -/
  | portRefill (p : Fin 129)
  /-- LAN_DATA (R405): A PF read of LAN_DATA consumes four bytes or returns zero and sets ERR. -/
  | lanData (pasid : Option Nat) (a : Access)
  /-- VFL_DATA (R405): A VF read of VFL_DATA consumes four bytes or returns zero and sets ERR. -/
  | vflData (c : Fin 64) (a : Access)
  /-- HELLO (R343): Negotiates the mailbox's Bimor version. -/
  | hello (m : Mbx)
  /-- AUTH_CHALLENGE (R349): Opens an AUTHREF with a nonce for a class C command. -/
  | authChallenge (m : Mbx)
  /-- AUTH_SUBMIT (R351): Delivers custodian tokens for an AUTHREF. -/
  | authSubmit (m : Mbx)
  /-- AUTH_CANCEL (R355): Cancels an open AUTHREF. -/
  | authCancel (m : Mbx)
  /-- AUTHREF_EXPIRY (R349): An AUTHREF expires 300 s after issue. -/
  | authrefExpiry (ref : Nat)
  /-- CHAMBER_CREATE (R357): Creates a chamber with its custodians, handle key and audit chain. -/
  | chamberCreate (m : Mbx)
  /-- CHAMBER_DELETE (R326): Deletes a chamber and starts its Sump erase. -/
  | chamberDelete (m : Mbx)
  /-- CHAMBER_QUIESCE (R357): Quiesces a chamber by command. -/
  | chamberQuiesce (m : Mbx)
  /-- CHAMBER_RESET (R333): Resets a chamber by command. -/
  | chamberReset (m : Mbx)
  /-- CHAMBER_CONFIG (R357): Sets group weights, batch interval or user read for a chamber. -/
  | chamberConfig (m : Mbx)
  /-- CHAMBER_PINPOL (R91): Sets a chamber's PIN policy word. -/
  | chamberPinpol (m : Mbx)
  /-- DECTAB_LOAD (R92): Loads a chamber decimalisation table. -/
  | dectabLoad (m : Mbx)
  /-- CHAMBER_INFO (R356): Returns a chamber's configuration and state. -/
  | chamberInfo (m : Mbx)
  /-- CQ_CREATE (R53): Creates a completion queue. -/
  | cqCreate (m : Mbx)
  /-- SQ_CREATE (R53): Creates a submission queue bound to a completion queue. -/
  | sqCreate (m : Mbx)
  /-- QUEUE_DELETE (R357): Deletes a submission or completion queue. -/
  | queueDelete (m : Mbx)
  /-- SLICE_BIND (R327): Binds or unbinds a privileged slice to a PASID. -/
  | sliceBind (m : Mbx)
  /-- CEREMONY_OPEN (R359): Opens a ceremony session with an X448 key pair. -/
  | ceremonyOpen (m : Mbx)
  /-- KEY_COMPONENT (R359): Delivers an encrypted key component and forms the key on the last part. -/
  | keyComponent (m : Mbx)
  /-- KEY_GENERATE (R358): Generates a key inside the device by ceremony. -/
  | keyGenerate (m : Mbx)
  /-- CEREMONY_CLOSE (R359): Ends the ceremony session. -/
  | ceremonyClose (m : Mbx)
  /-- SESSION_EXPIRY (R359): A ceremony session ends 3,600 s after it opened. -/
  | sessionExpiry (id : Nat)
  /-- KEY_DELETE (R358): Deletes a key record. -/
  | keyDelete (m : Mbx) (ret : DdrReturn)
  /-- KEY_INFO (R358): Returns a key record's attributes. -/
  | keyInfo (m : Mbx) (ret : DdrReturn)
  /-- KEY_LIST (R358): Lists key records of a scope. -/
  | keyList (m : Mbx) (ret : DdrReturn)
  /-- KEY_PIN (R48): Pins or unpins a record in the key cache. -/
  | keyPin (m : Mbx)
  /-- CUSTODIAN_SET (R358): Replaces a scope's custodian set. -/
  | custodianSet (m : Mbx)
  /-- AUDIT_RING_CREATE (R360): Creates a chain's audit stream ring. -/
  | auditRingCreate (m : Mbx)
  /-- AUDIT_RING_DELETE (R360): Deletes a chain's audit stream ring. -/
  | auditRingDelete (m : Mbx)
  /-- AUDIT_KEYS (R360): Returns a signed statement of a chain's audit public keys. -/
  | auditKeys (m : Mbx)
  /-- AUDIT_FLUSH_SYSTEM (R360): Flushes the system chain's open batch. -/
  | auditFlushSystem (m : Mbx)
  /-- RECIPE_STAGE (R361): Stages recipe instructions. -/
  | recipeStage (m : Mbx)
  /-- RECIPE_LOAD (R361): Loads a staged customer recipe into the recipe table and stores. -/
  | recipeLoad (m : Mbx)
  /-- RECIPE_MASK (R361): Changes a recipe's allowed-chamber mask. -/
  | recipeMask (m : Mbx)
  /-- RECIPE_DELETE (R361): Deletes a recipe. -/
  | recipeDelete (m : Mbx)
  /-- RECIPE_LIST (R361): Lists recipe table entries. -/
  | recipeList (m : Mbx)
  /-- DECODE_LOAD (R316): Checks and replaces the decode image. -/
  | decodeLoad (m : Mbx)
  /-- DECODE_MASK (R317): Replaces the MASK of one decode-table entry. -/
  | decodeMask (m : Mbx)
  /-- DECODE_READ (R315): Returns the decode image and its digest. -/
  | decodeRead (m : Mbx)
  /-- CONFIG_READ (R362): Returns the settings in force and pending. -/
  | configRead (m : Mbx)
  /-- CONFIG_COMMIT (R363): Writes a settings block to the next OTP configuration generation. -/
  | configCommit (m : Mbx)
  /-- SUMP_JOURNAL (R362): Sets the journal mode and ring. -/
  | sumpJournal (m : Mbx)
  /-- SUMP_SAVE (R229): Starts a snapshot copy of Sump to a host buffer. -/
  | sumpSave (m : Mbx)
  /-- SUMP_RESTORE (R229): Restores Sump from an image and replays the journal. -/
  | sumpRestore (m : Mbx) (header : Bytes) (lines : List (DdrLine × Bytes)) (hint : List Nat) (journal : List Bytes)
  /-- SUMP_INIT (R230): Initialises Sump, deleting every chamber. -/
  | sumpInit (m : Mbx)
  /-- TALLY_READ (R364): Returns Tally counter values. -/
  | tallyRead (m : Mbx)
  /-- COUNTER_CONFIG (R523): Configures, takes or frees a programmable counter for the PF. -/
  | counterConfig (m : Mbx)
  /-- STRATA_READ (R461): Returns evidence or recorder records. -/
  | strataRead (m : Mbx)
  /-- PAIR_STATUS (R365): Returns the device's pair state. -/
  | pairStatus (m : Mbx)
  /-- PAIR_CREATE (R477): Forms a twin pair by handshake. -/
  | pairCreate (m : Mbx)
  /-- PAIR_DISSOLVE (R498): Dissolves the pair. -/
  | pairDissolve (m : Mbx)
  /-- CLAIM_GRANT (R365): A host referee grants a claim to a member. -/
  | claimGrant (m : Mbx)
  /-- ATTEST (R393): Returns a signed attestation report. -/
  | attest (m : Mbx)
  /-- LIFECYCLE_SET (R371): Makes a lifecycle transition, including commissioning. -/
  | lifecycleSet (m : Mbx)
  /-- UNLOCK (R445): Returns a LOCKED device to the state it left. -/
  | unlock (m : Mbx)
  /-- ZEROISE (R366): Executes a class Z response by command. -/
  | zeroise (m : Mbx)
  /-- FW_STAGE (R366): Stages firmware image bytes. -/
  | fwStage (m : Mbx)
  /-- FW_COMMIT (R544): Verifies the staged image and writes it to the slot that did not boot. -/
  | fwCommit (m : Mbx)
  /-- TAMPER_SET (R431): Sets a monitor's M and W within its bounds. -/
  | tamperSet (m : Mbx)
  /-- DEVICE_RESET (R516): Responds OK and schedules a warm reset. -/
  | deviceReset (m : Mbx)
  /-- IO_CONFIG (R548): Configures GPIO functions and LED modes. -/
  | ioConfig (m : Mbx)
  /-- IO_STATUS (R548): Returns GPIO levels and suppressed-wake bits. -/
  | ioStatus (m : Mbx)
  /-- BIMOR_RESPONSE (R338): The device writes a Bimor response, clears BUSY, sets DONE and signals the vector. -/
  | bimorResponse (m : Mbx)
  /-- STATUS (R541): SMBus block read of device status answered by the AON domain. -/
  | status (temp : BitVec 8)
  /-- MBX_REQ (R542): SMBus write into the sideband mailbox request buffer. -/
  | mbxReq (d : Bytes) (pec : BitVec 8)
  /-- MBX_GO (R542): SMBus submission of the sideband mailbox request. -/
  | mbxGo (v pec : BitVec 8)
  /-- MBX_STAT (R541): SMBus read of the sideband mailbox status. -/
  | mbxStat
  /-- MBX_RSP (R542): SMBus process call reading the sideband response buffer. -/
  | mbxRsp (off : BitVec 16) (count : BitVec 8)
  /-- MBX_ACK (R541): SMBus write clearing DONE and error bits. -/
  | mbxAck (v pec : BitVec 8)
  /-- HOSTBEAT (R541): SMBus host referee beat. -/
  | hostbeat (v pec : BitVec 8)
  /-- SMBUS_TIMEOUT (R563): SCL held low 25-35 ms and the target releases the bus and resets its interface. -/
  | smbusTimeout
  /-- KRD_HOSTBEAT (R490): A write of 1 to KRD_HOSTBEAT gives one host referee beat. -/
  | krdHostbeat (pasid : Option Nat) (a : Access) (v : BitVec 32)
  /-- REFEREE_HEARTBEAT_INPUT (R550): A filtered transition on a referee heartbeat GPIO gives one beat. -/
  | refereeHeartbeatInput (n : Fin 8) (v : Bool) (samples : Nat)
  /-- GPIO_WAKE (R550): A filtered transition to active on a wake GPIO wakes the device or is suppressed. -/
  | gpioWake (n : Fin 8) (v : Bool) (samples : Nat)
  /-- HOST_TIMEOUT (R489): No host beat arrives within HOST_TIMEOUT and the referee counts as lost. -/
  | hostTimeout
  /-- CHK_CLRMAX (R254): A write of CLR clears every CHK_GWMAX and its VF copies. -/
  | chkClrmax (pasid : Option Nat) (a : Access) (v : BitVec 32)
  /-- VFC_CLRMAX (R255): A chamber write clears selected group maximum waits. -/
  | vfcClrmax (c : Fin 64) (a : Access) (v : BitVec 32)
  /-- VFE_CFG (R528): A chamber write binds, reconfigures or frees a counter, or sets REFUSED. -/
  | vfeCfg (c : Fin 64) (slot : Fin 16) (a : Access) (v : BitVec 32)
  /-- PMC_RAIL (R510): A write of a rail's CAP and REFILL takes effect at the next microsecond. -/
  | pmcRail (pasid : Option Nat) (r : Fin 4) (a : Access) (v : BitVec 32)
  /-- SMP_ROOTV_L (R234): A read of SMP_ROOTV_L latches ROOTV_H. -/
  | smpRootvL (pasid : Option Nat) (a : Access)
  /-- BLY_FLAST0 (R421): A read of BLY_FLAST0 latches BLY_FLAST1 and BLY_FLAST2. -/
  | blyFlast0 (pasid : Option Nat) (a : Access)
  /-- TLY_UCNT (R529): A read of a unit counter latches every counter of the unit. -/
  | tlyUcnt (pasid : Option Nat) (u : Fin 73) (n : Fin 8) (a : Access)
  /-- TLY_T_L (R529): A read of a Tally low word latches its high word. -/
  | tlyTL (pasid : Option Nat) (k : Fin 256) (a : Access)
  /-- TLY_CYC_L (R529): A read of a cycle counter low word latches its high word. -/
  | tlyCycL (pasid : Option Nat) (k : Fin 64) (a : Access)
  /-- REGISTER_WRITE (R4): A write to a register without its own row applies its access codes, or is dropped with a SIZE or range error or
  PF-window rejection. -/
  | registerWrite (w : HostWrite)
  /-- GET_VERSION (R395): SPDM GET_VERSION request. -/
  | getVersion (msg : Bytes)
  /-- GET_CAPABILITIES (R395): SPDM GET_CAPABILITIES request. -/
  | getCapabilities (msg : Bytes)
  /-- NEGOTIATE_ALGORITHMS (R395): SPDM NEGOTIATE_ALGORITHMS request. -/
  | negotiateAlgorithms (msg : Bytes)
  /-- GET_DIGESTS (R395): SPDM GET_DIGESTS request. -/
  | getDigests (msg : Bytes)
  /-- GET_CERTIFICATE (R395): SPDM GET_CERTIFICATE request. -/
  | getCertificate (msg : Bytes)
  /-- CHALLENGE (R395): SPDM CHALLENGE request. -/
  | challenge (msg : Bytes)
  /-- GET_MEASUREMENTS (R395): SPDM GET_MEASUREMENTS request. -/
  | getMeasurements (msg : Bytes)
  /-- SPDM_UNSUPPORTED (R395): Any other SPDM request receives ERROR UnsupportedRequest. -/
  | spdmUnsupported (msg : Bytes)
  /-- DOE_DISCOVERY (R395): DOE Discovery request. -/
  | doeDiscovery (index : Nat)
  /-- DOE_ABORT (R395): An abort through the DOE control register discards the object being answered. -/
  | doeAbort
  /-- EXTEST (R545): JTAG EXTEST instruction, permitted under the debug policy. -/
  | extest
  /-- IDCODE (R545): JTAG IDCODE instruction. -/
  | idcode
  /-- SAMPLE_PRELOAD (R545): JTAG SAMPLE/PRELOAD instruction. -/
  | samplePreload
  /-- HIGHZ (R545): JTAG HIGHZ instruction. -/
  | highz
  /-- CLAMP (R545): JTAG CLAMP instruction. -/
  | clamp
  /-- DAP (R547): JTAG DAP instruction connecting the memory-access port. -/
  | dap
  /-- BYPASS (R545): JTAG BYPASS instruction, also used for any instruction not permitted. -/
  | bypass
  /-- DAP_ACCESS (R547): A debug access port read or write at a device address, checked by Ferrule 79. -/
  | dapAccess (write : Bool) (addr : BitVec 40)
  /-- VF_FLR (R333): A function-level reset of a VF begins a chamber reset. -/
  | vfFlr (c : Fin 64)
  /-- PF_FLR (R514): A function-level reset of the PF clears VF Enable and resets the mailbox registers. -/
  | pfFlr
  /-- VF_ENABLE_CLEAR (R333): The PF clears VF Enable and every chamber is reset. -/
  | vfEnableClear
  /-- CHAMBER_RESET_COMPLETE (R333): A chamber reset finishes and the chamber becomes ACTIVE with no queues. -/
  | chamberResetComplete (c : Fin 64)
  /-- DL_DOWN (R532): A hot reset or DL_Down acts as PERST_N. -/
  | dlDown
  /-- PME_TURN_OFF (R503): The host sends PME_Turn_Off and the device answers and enters Dormant. -/
  | pmeTurnOff
  /-- LADDER_ENTRY (R503): An idle time passes and the device moves down one power state. -/
  | ladderEntry
  /-- LADDER_EXIT (R504): A wake event returns the device to Twilight. -/
  | ladderExit
  /-- DOMAIN_OFF (R505): An engine domain idle for OFF_DELAY is switched off. -/
  | domainOff (d : Fin 24)
  /-- WAKE_REQUEST (R508): A domain wake request is queued. -/
  | wakeRequest (d : Fin 24)
  /-- WAKE_GRANT (R508): The head wake request is granted when every rail holds its tokens. -/
  | wakeGrant
  /-- WARMING_END (R509): A domain's switch-on and clock ramp end and it stops warming. -/
  | warmingEnd (d : Fin 24) (ret : DdrReturn)
  /-- COLD_RESET (R518): Main power-good rises and the device runs its power-up sequence. -/
  | coldReset
  /-- SYS_RST_N_ASSERT (R514): A filtered falling edge of SYS_RST_N begins a warm reset. -/
  | sysRstNAssert (samples : Nat)
  /-- WARM_RESET_RELEASE (R515): A warm reset is released and boot begins. -/
  | warmResetRelease
  /-- PERST_N_ASSERT (R514): PERST_N is asserted and the PCI domain, chambers and mailboxes reset. -/
  | perstNAssert (samples : Nat)
  /-- PERST_N_RELEASE (R518): PERST_N is released and PCIe link training begins. -/
  | perstNRelease (samples : Nat)
  /-- DEVICE_RESET_TIMER (R516): 10 us after DONE of DEVICE_RESET a warm reset begins. -/
  | deviceResetTimer
  /-- BOOT (R390): The boot ROM verifies and loads firmware, commits pending evidence and the firmware restores state. -/
  | boot (flash : Option (Bytes × Bytes × Bytes × Bytes)) (errA errB lost : Bool) (badTable : Option (BitVec 32))
  /-- READY (R390): The device sets MBX_STATUS.READY and clears BUSY. -/
  | ready
  /-- VERSION (R468): A VERSION frame from a neighbour port sets the link protocol version. -/
  | version (p : KPort) (node gen : Nat) (lo hi : Nat × Nat)
  /-- KERARD_TRAIN (R467): A Kerard port detects the far end and trains to UP or fails. -/
  | kerardTrain (p : KPort) (good lanes2 : Bool)
  /-- RETRAIN_TIMER (R467): 1 ms after a failed training the port repeats the sequence. -/
  | retrainTimer (p : KPort)
  /-- BYPASS_OPEN (R470): The device opens its bypass once its conditions hold. -/
  | bypassOpen
  /-- BYPASS_UP_TIMEOUT (R470): A port fails to reach UP within 100 us and the bypass closes again. -/
  | bypassUpTimeout
  /-- BYPASS_RETRY (R470): 10 ms after a failed insertion the device retries opening its bypass. -/
  | bypassRetry
  /-- FRAME_FORWARD (R466): A frame not addressed to the node is forwarded cut-through with TTL decremented. -/
  | frameForward (p : KPort) (f : Bytes)
  /-- DISCOVER_SEND (R474): Every 1 ms the node sends DISCOVER on both ports. -/
  | discoverSend
  /-- DISCOVER (R465): A DISCOVER frame is received, updating SEEN or setting DUPID. -/
  | discover (p : KPort) (f : Bytes)
  /-- PAIR_JOIN (R478): A PAIR_JOIN frame is received and the handshake advances. -/
  | pairJoin (p : KPort) (f : Bytes) (pk : Bytes)
  /-- PAIR_JOIN_TIMEOUT (R477): A peer or referee PAIR_JOIN has not arrived within 1 s and PAIR_CREATE is refused with BUSY. -/
  | pairJoinTimeout
  /-- HEARTBEAT_SEND (R487): Every 50 us a member or referee sends HEARTBEAT. -/
  | heartbeatSend
  /-- HEARTBEAT (R487): A verified HEARTBEAT frame is received and the missed count restarts. -/
  | heartbeat (p : KPort) (f : Bytes)
  /-- HEARTBEAT_MISSED (R488): A heartbeat interval passes with no verified HEARTBEAT, possibly declaring failure or isolation. -/
  | heartbeatMissed (who : Party)
  /-- CLAIM (R492): A CLAIM frame is received and a higher claim is accepted. -/
  | claim (p : KPort) (f : Bytes)
  /-- DISSOLVE (R498): A DISSOLVE frame is received and the pair is dissolved at this node. -/
  | dissolve (p : KPort) (f : Bytes)
  /-- MIRROR (R483): A MIRROR frame is received and the standby commits it in MSEQ order. -/
  | mirror (p : KPort) (f : Bytes) (iv : Bytes) (setups : List Setup) (last : Bool)
  /-- MIRROR_HDR (R484): A MIRROR_HDR frame is received and the standby keeps the chain's last header entry. -/
  | mirrorHdr (p : KPort) (f : Bytes) (iv : Bytes)
  /-- MIRROR_ACK (R474): A MIRROR_ACK frame is received acknowledging a commit, header or resync. -/
  | mirrorAck (p : KPort) (f : Bytes)
  /-- MIRROR_RESEND (R476): An unacknowledged mirror frame is resent after 50 us. -/
  | mirrorResend (hdr : Option Nat) (no : Nat)
  /-- RESYNC_COPY (R480): The active copies mirrored-scope records to the standby in SYNC frames. -/
  | resyncCopy (ret : DdrReturn)
  /-- REJOIN (R481): A former member rejoins its recorded pair with a REJOIN handshake. -/
  | rejoin
  /-- LEAF (R484): A LEAF frame from the standby is received and its leaf accepted into the system chain. -/
  | leaf (p : KPort) (f : Bytes)
  /-- LEAF_ACK (R484): A LEAF_ACK frame is received and the standby's command proceeds. -/
  | leafAck (p : KPort) (f : Bytes)
  /-- LEAF_ACK_TIMEOUT (R484): No LEAF_ACK within 1 ms and the standby's command is refused with BUSY. -/
  | leafAckTimeout
  /-- KERARD_LINK_LOSS (R470): An UP Kerard port loses its far end, for example when a neighbour closes its bypass, and the link goes down and
  retrains. -/
  | kerardLinkLoss (p : KPort)
  /-- RAIL_OUT_OF_RANGE (R555): A main rail not named in R500, such as VDD_RING or a SerDes or DDR-5 rail, leaves its range while power-good is
  high, closing the bypass or failing its links. -/
  | railOutOfRange (ring : Bool) (link : Option KPort)
  /-- TAP_RESET (R545): The JTAG TAP is reset through TRST_N or TMS and IDCODE becomes the current instruction. -/
  | tapReset
  /-- TMP_POWER_ON (R446): The TMP domain powers on after both main power and VBAT were absent, resetting the Belay registers and bringing every
  monitor to IDLE with default M and W. -/
  | tmpPowerOn
  /-- BATTERY_LOSS (R444): VBAT is removed or goes flat while main power is absent, and BBRAM and the TMP state are lost. -/
  | batteryLoss
  /-- DORMANT_RESTORE_COMPLETE (R504): After a wake from Dormant, Headstock finishes restoring its state, within 50 ms, and mailboxes stop
  answering every command other than HELLO with BUSY. -/
  | dormantRestoreComplete (badTable : Option (BitVec 32))
  /-- DISCOVER_SEEN_EXPIRY (R499): 3 ms pass without a DISCOVER frame from a node and its SEEN bit clears, which changes the path choice of
  R476. -/
  | discoverSeenExpiry (n : Nat)
  /-- BUSY_WINDOW_END (R253): A Chuck measurement window of 2^(16+BUSY_WIN) cycles ends, and every CHK_BUSY busy fraction is updated. -/
  | busyWindowEnd
  deriving DecidableEq, Repr

end Sys2Proof
end

