-- ==== Sys2Proof/Decode.lean ====
section
/-! DEFINITION. Words and commands. The opcode table gives no row bits, so no word of the table spells a command. The device itself decodes one kind
of word, the 24-bit instructions of its Chisel cores (R282 to R292): a decoder and an encoder for them. -/
namespace Sys2Proof

/-- The command that a word spells by the table's bits: the table gives no row any. -/
def decodeTableWord (_nbits _w : Nat) : Option Instr := none

/-! ### Chisel instruction words (R282, R286, R287) -/

/-- A field of an instruction word, from bit `lo` on. -/
def wordField (w : BitVec 24) (lo n : Nat) : BitVec n := w.extractLsb' lo n

/-- The condition of an instruction word. -/
def wordCond (w : BitVec 24) : BitVec 4 := wordField w 20 4

/-- The opcode. -/
def wordOp (w : BitVec 24) : BitVec 6 := wordField w 14 6

/-- The 16-bit register a code names; none where the code is reserved (R287). -/
def reg16Of (c : BitVec 4) : Option Reg16 :=
  if c.toNat < 8 then some (.pair (c.extractLsb' 0 3))
  else if c = 8 then some .x else if c = 9 then some .y else if c = 10 then some .sp else none

/-- The code of a 16-bit register. -/
def codeOf : Reg16 → BitVec 4
  | .pair n => (0 : BitVec 1) ++ n
  | .x => 8
  | .y => 9
  | .sp => 10

/-- The pointer a bit selects. -/
def ptrOf (b : BitVec 1) : Ptr := if b = 1 then .y else .x

/-- The bit of a pointer. -/
def ptrBit : Ptr → BitVec 1
  | .x => 0
  | .y => 1

/-- A result where the reserved bits are zero (R285). -/
def reserved {n : Nat} (r : BitVec n) (i : Option Instr) : Option Instr := if r = 0 then i else none

/-- Format N. -/
def formN (w : BitVec 24) (i : Instr) : Option Instr := reserved (wordField w 0 14) (some i)

/-- Format RR. -/
def formRR (w : BitVec 24) (f : BitVec 4 → BitVec 4 → Instr) : Option Instr :=
  reserved (wordField w 0 6) (some (f (wordField w 10 4) (wordField w 6 4)))

/-- Format RI. -/
def formRI (w : BitVec 24) (f : BitVec 4 → BitVec 8 → Instr) : Option Instr :=
  reserved (wordField w 8 2) (some (f (wordField w 10 4) (wordField w 0 8)))

/-- Format R. -/
def formR (w : BitVec 24) (f : BitVec 4 → Instr) : Option Instr := reserved (wordField w 0 10) (some (f (wordField w 10 4)))

/-- Format R with a pair in [12:10] and [13] reserved. -/
def formP (w : BitVec 24) (f : BitVec 3 → Instr) : Option Instr :=
  reserved (wordField w 0 10) (reserved (wordField w 13 1) (some (f (wordField w 10 3))))

/-- Format WW. -/
def formWW (w : BitVec 24) (f : Reg16 → Reg16 → Instr) : Option Instr :=
  reserved (wordField w 0 6) (match reg16Of (wordField w 10 4), reg16Of (wordField w 6 4) with
    | some d, some s => some (f d s)
    | _, _ => none)

/-- Format WI. -/
def formWI (w : BitVec 24) (f : Reg16 → BitVec 10 → Instr) : Option Instr := (reg16Of (wordField w 10 4)).map fun d => f d (wordField w 0 10)

/-- Format LP. -/
def formLP (w : BitVec 24) (f : Reg16 → Bool → BitVec 8 → Instr) : Option Instr :=
  reserved (wordField w 8 1) ((reg16Of (wordField w 10 4)).map fun d => f d (wordField w 9 1 == 1) (wordField w 0 8))

/-- Format M with a byte register. -/
def formM (w : BitVec 24) (f : BitVec 4 → Ptr → Bool → BitVec 8 → Instr) : Option Instr :=
  some (f (wordField w 10 4) (ptrOf (wordField w 9 1)) (wordField w 8 1 == 1) (wordField w 0 8))

/-- Format M with a pair. -/
def formMP (w : BitVec 24) (f : BitVec 3 → Ptr → Bool → BitVec 8 → Instr) : Option Instr :=
  reserved (wordField w 13 1) (some (f (wordField w 10 3) (ptrOf (wordField w 9 1)) (wordField w 8 1 == 1) (wordField w 0 8)))

/-- Format J. -/
def formJ (w : BitVec 24) (jump call : BitVec 3 → Instr) : Option Instr :=
  reserved (wordField w 3 10) (some (if wordField w 13 1 = 1 then call (wordField w 0 3) else jump (wordField w 0 3)))

/-- Format MD. -/
def formMD (w : BitVec 24) (f : BitVec 3 → BitVec 4 → BitVec 4 → Instr) : Option Instr :=
  reserved (wordField w 0 3) (some (f (wordField w 11 3) (wordField w 7 4) (wordField w 3 4)))

/-- Format RR with a pair as destination (DIVU). -/
def formDP (w : BitVec 24) (f : BitVec 3 → BitVec 4 → Instr) : Option Instr :=
  reserved (wordField w 0 6) (reserved (wordField w 13 1) (some (f (wordField w 10 3) (wordField w 6 4))))

/-- Format U: the sub-operations of 0x19 (R291); 10 to 15 are reserved. -/
def formU (k : Fin 64) (w : BitVec 24) : Option Instr :=
  let c := wordCond w
  reserved (wordField w 0 6) (
    let r := wordField w 10 4
    match (wordField w 6 4).toNat with
    | 0 => some (.shl k c r)
    | 1 => some (.shr k c r)
    | 2 => some (.asr k c r)
    | 3 => some (.rol k c r)
    | 4 => some (.ror k c r)
    | 5 => some (.swap k c r)
    | 6 => some (.inc k c r)
    | 7 => some (.dec k c r)
    | 8 => some (.not k c r)
    | 9 => some (.neg k c r)
    | _ => none)

/-- The control instructions, opcodes 0x00 to 0x07 and 0x2C to 0x3F (R290). -/
def decodeControl (k : Fin 64) (w : BitVec 24) : Option Instr :=
  let c := wordCond w
  match (wordOp w).toNat with
  | 0x00 => formN w (.nopInstr k c)
  | 0x01 => some (.br k c (wordField w 0 14))
  | 0x02 => some (.call k c (wordField w 0 14))
  | 0x03 => formN w (.ret k c)
  | 0x04 => formJ w (.jr k c) (.callr k c)
  | 0x05 => some (.loop k c (wordField w 11 3) (wordField w 0 11))
  | 0x06 => some (.loopi k c (wordField w 8 6) (wordField w 0 8))
  | 0x2C => formR w (.ecall k c)
  | 0x2D => formR w (.ewait k c)
  | 0x2E => formN w (.take k c)
  | 0x2F => formN w (.done k c .issued)
  | n => if 0x38 ≤ n then some (.cx k c (wordField w 14 3) (wordField w 0 14)) else none

/-- The byte operations, opcodes 0x08 to 0x1B, 0x2A and 0x2B (R291). -/
def decodeByte (k : Fin 64) (w : BitVec 24) : Option Instr :=
  let c := wordCond w
  match (wordOp w).toNat with
  | 0x08 => formRR w (.mov k c)
  | 0x09 => formRI w (.movi k c)
  | 0x0A => formRR w (.add k c)
  | 0x0B => formRI w (.addi k c)
  | 0x0C => formRR w (.adc k c)
  | 0x0D => formRR w (.sub k c)
  | 0x0E => formRI w (.subi k c)
  | 0x0F => formRR w (.sbc k c)
  | 0x10 => formRR w (.cmp k c)
  | 0x11 => formRI w (.cmpi k c)
  | 0x12 => formRR w (.and k c)
  | 0x13 => formRI w (.andi k c)
  | 0x14 => formRR w (.or k c)
  | 0x15 => formRI w (.ori k c)
  | 0x16 => formRR w (.xor k c)
  | 0x17 => formRI w (.xori k c)
  | 0x18 => formRI w (.tsti k c)
  | 0x19 => formU k w
  | 0x1A => formMD w (.mul k c)
  | 0x1B => formDP w (.divu k c)
  | 0x2A => formR w (.getf k c)
  | 0x2B => formR w (.setf k c)
  | _ => none

/-- The 16-bit, memory and stack instructions, opcodes 0x1C to 0x29 (R292). -/
def decodeWide (k : Fin 64) (w : BitVec 24) : Option Instr :=
  let c := wordCond w
  match (wordOp w).toNat with
  | 0x1C => formWW w (.movw k c)
  | 0x1D => formLP w (.lpi k c)
  | 0x1E => formWW w (.addw k c)
  | 0x1F => formWI w (.addwi k c)
  | 0x20 => formM w (.ld k c)
  | 0x21 => formM w (.st k c)
  | 0x22 => formMP w (.ldw k c)
  | 0x23 => formMP w (.stw k c)
  | 0x24 => formN w (.movb k c)
  | 0x25 => formR w (.cmpb k c)
  | 0x26 => formR w (.push k c)
  | 0x27 => formR w (.pop k c)
  | 0x28 => formP w (.pushw k c)
  | 0x29 => formP w (.popw k c)
  | _ => none

/-- The instruction that a word spells on core `k`; none where it is not defined (R285). -/
def decodeChisel (k : Fin 64) (w : BitVec 24) : Option Instr :=
  let n := (wordOp w).toNat
  if n < 0x08 then decodeControl k w
  else if n < 0x1C then decodeByte k w
  else if n < 0x2A then decodeWide k w
  else if n < 0x2C then decodeByte k w
  else decodeControl k w

/-! ### The encoder -/

/-- A word from its condition, opcode and operand field. -/
def chiselWord (c : BitVec 4) (op : BitVec 6) (opnd : BitVec 14) : BitVec 24 := c ++ op ++ opnd

/-- Operand fields by format (R286). -/
def putRR (d s : BitVec 4) : BitVec 14 := d ++ s ++ (0 : BitVec 6)
/-- RI. -/
def putRI (d : BitVec 4) (imm : BitVec 8) : BitVec 14 := d ++ (0 : BitVec 2) ++ imm
/-- R. -/
def putR (r : BitVec 4) : BitVec 14 := r ++ (0 : BitVec 10)
/-- R with a pair. -/
def putP (p : BitVec 3) : BitVec 14 := (0 : BitVec 1) ++ p ++ (0 : BitVec 10)
/-- U. -/
def putU (r sub : BitVec 4) : BitVec 14 := r ++ sub ++ (0 : BitVec 6)
/-- M with a byte register. -/
def putM (r : BitVec 4) (p : Ptr) (inc : Bool) (d : BitVec 8) : BitVec 14 := r ++ ptrBit p ++ BitVec.ofBool inc ++ d
/-- M with a pair. -/
def putMP (r : BitVec 3) (p : Ptr) (inc : Bool) (d : BitVec 8) : BitVec 14 := (0 : BitVec 1) ++ r ++ ptrBit p ++ BitVec.ofBool inc ++ d

/-- The word of an instruction of the Chisel set; none for another command. -/
def encodeChisel : Instr → Option (BitVec 24)
  | .nopInstr _ c => some (chiselWord c 0x00 0)
  | .br _ c off => some (chiselWord c 0x01 off)
  | .call _ c off => some (chiselWord c 0x02 off)
  | .ret _ c => some (chiselWord c 0x03 0)
  | .jr _ c p => some (chiselWord c 0x04 ((0 : BitVec 11) ++ p))
  | .callr _ c p => some (chiselWord c 0x04 ((1 : BitVec 1) ++ (0 : BitVec 10) ++ p))
  | .loop _ c p off => some (chiselWord c 0x05 (p ++ off))
  | .loopi _ c n off => some (chiselWord c 0x06 (n ++ off))
  | .ecall _ c d => some (chiselWord c 0x2C (putR d))
  | .ewait _ c w => some (chiselWord c 0x2D (putR w))
  | .take _ c => some (chiselWord c 0x2E 0)
  | .done _ c .issued => some (chiselWord c 0x2F 0)
  | .done _ _ .bufferError => none
  | .mov _ c d w => some (chiselWord c 0x08 (putRR d w))
  | .movi _ c d i => some (chiselWord c 0x09 (putRI d i))
  | .add _ c d w => some (chiselWord c 0x0A (putRR d w))
  | .addi _ c d i => some (chiselWord c 0x0B (putRI d i))
  | .adc _ c d w => some (chiselWord c 0x0C (putRR d w))
  | .sub _ c d w => some (chiselWord c 0x0D (putRR d w))
  | .subi _ c d i => some (chiselWord c 0x0E (putRI d i))
  | .sbc _ c d w => some (chiselWord c 0x0F (putRR d w))
  | .cmp _ c d w => some (chiselWord c 0x10 (putRR d w))
  | .cmpi _ c d i => some (chiselWord c 0x11 (putRI d i))
  | .and _ c d w => some (chiselWord c 0x12 (putRR d w))
  | .andi _ c d i => some (chiselWord c 0x13 (putRI d i))
  | .or _ c d w => some (chiselWord c 0x14 (putRR d w))
  | .ori _ c d i => some (chiselWord c 0x15 (putRI d i))
  | .xor _ c d w => some (chiselWord c 0x16 (putRR d w))
  | .xori _ c d i => some (chiselWord c 0x17 (putRI d i))
  | .tsti _ c d i => some (chiselWord c 0x18 (putRI d i))
  | .shl _ c r => some (chiselWord c 0x19 (putU r 0))
  | .shr _ c r => some (chiselWord c 0x19 (putU r 1))
  | .asr _ c r => some (chiselWord c 0x19 (putU r 2))
  | .rol _ c r => some (chiselWord c 0x19 (putU r 3))
  | .ror _ c r => some (chiselWord c 0x19 (putU r 4))
  | .swap _ c r => some (chiselWord c 0x19 (putU r 5))
  | .inc _ c r => some (chiselWord c 0x19 (putU r 6))
  | .dec _ c r => some (chiselWord c 0x19 (putU r 7))
  | .not _ c r => some (chiselWord c 0x19 (putU r 8))
  | .neg _ c r => some (chiselWord c 0x19 (putU r 9))
  | .mul _ c d x y => some (chiselWord c 0x1A (d ++ x ++ y ++ (0 : BitVec 3)))
  | .divu _ c d w => some (chiselWord c 0x1B ((0 : BitVec 1) ++ d ++ w ++ (0 : BitVec 6)))
  | .getf _ c d => some (chiselWord c 0x2A (putR d))
  | .setf _ c w => some (chiselWord c 0x2B (putR w))
  | .movw _ c d w => some (chiselWord c 0x1C (putRR (codeOf d) (codeOf w)))
  | .lpi _ c d high i => some (chiselWord c 0x1D (codeOf d ++ BitVec.ofBool high ++ (0 : BitVec 1) ++ i))
  | .addw _ c d w => some (chiselWord c 0x1E (putRR (codeOf d) (codeOf w)))
  | .addwi _ c d i => some (chiselWord c 0x1F (codeOf d ++ i))
  | .ld _ c d p inc x => some (chiselWord c 0x20 (putM d p inc x))
  | .st _ c w p inc x => some (chiselWord c 0x21 (putM w p inc x))
  | .ldw _ c d p inc x => some (chiselWord c 0x22 (putMP d p inc x))
  | .stw _ c w p inc x => some (chiselWord c 0x23 (putMP w p inc x))
  | .movb _ c => some (chiselWord c 0x24 0)
  | .cmpb _ c w => some (chiselWord c 0x25 (putR w))
  | .push _ c w => some (chiselWord c 0x26 (putR w))
  | .pop _ c d => some (chiselWord c 0x27 (putR d))
  | .pushw _ c w => some (chiselWord c 0x28 (putP w))
  | .popw _ c d => some (chiselWord c 0x29 (putP d))
  | .cx _ c n opnd => some (chiselWord c ((7 : BitVec 3) ++ n) opnd)
  | _ => none

/-- The core that an instruction of the Chisel set runs on; 0 for another command. -/
def chiselCore : Instr → Fin 64
  | .nopInstr k _ => k
  | .br k _ _ => k
  | .call k _ _ => k
  | .ret k _ => k
  | .jr k _ _ => k
  | .callr k _ _ => k
  | .loop k _ _ _ => k
  | .loopi k _ _ _ => k
  | .ecall k _ _ => k
  | .ewait k _ _ => k
  | .take k _ => k
  | .done k _ _ => k
  | .mov k _ _ _ => k
  | .movi k _ _ _ => k
  | .add k _ _ _ => k
  | .addi k _ _ _ => k
  | .adc k _ _ _ => k
  | .sub k _ _ _ => k
  | .subi k _ _ _ => k
  | .sbc k _ _ _ => k
  | .cmp k _ _ _ => k
  | .cmpi k _ _ _ => k
  | .and k _ _ _ => k
  | .andi k _ _ _ => k
  | .or k _ _ _ => k
  | .ori k _ _ _ => k
  | .xor k _ _ _ => k
  | .xori k _ _ _ => k
  | .tsti k _ _ _ => k
  | .shl k _ _ => k
  | .shr k _ _ => k
  | .asr k _ _ => k
  | .rol k _ _ => k
  | .ror k _ _ => k
  | .swap k _ _ => k
  | .inc k _ _ => k
  | .dec k _ _ => k
  | .not k _ _ => k
  | .neg k _ _ => k
  | .mul k _ _ _ _ => k
  | .divu k _ _ _ => k
  | .getf k _ _ => k
  | .setf k _ _ => k
  | .movw k _ _ _ => k
  | .lpi k _ _ _ _ => k
  | .addw k _ _ _ => k
  | .addwi k _ _ _ => k
  | .ld k _ _ _ _ _ => k
  | .st k _ _ _ _ _ => k
  | .ldw k _ _ _ _ _ => k
  | .stw k _ _ _ _ _ => k
  | .movb k _ => k
  | .cmpb k _ _ => k
  | .push k _ _ => k
  | .pop k _ _ => k
  | .pushw k _ _ => k
  | .popw k _ _ => k
  | .cx k _ _ _ => k
  | _ => 0

end Sys2Proof
end

