-- ==== Sys2Proof/Config.lean ====
section
/-! DEFINITION. What an implementation fixes and the manual leaves open: constants without a body, so that no proof can see
a value of them. -/
namespace Sys2Proof

/-- A free value: one the manual leaves open, of `n` bytes, the `k`-th one drawn
(log entry 2). -/
opaque Config.freeBytes : Nat → Nat → Bytes

end Sys2Proof
end

