-- ==== Sys2Proof/Machine/Bytes.lean ====
section
/-! DEFINITION. Byte strings: little- and big-endian integers (R6), slices, XOR, and bit fields of integers. -/
namespace Sys2Proof.Machine

/-- The `n` bytes of `v`, least significant first (R6). -/
def leBytes (n v : Nat) : Bytes :=
  (List.range n).map fun i => BitVec.ofNat 8 (v >>> (8 * i))

/-- The `n` bytes of `v`, most significant first. -/
def beBytes (n v : Nat) : Bytes := (leBytes n v).reverse

/-- The integer that little-endian bytes hold (R6). -/
def ofLe (b : Bytes) : Nat := b.foldr (fun x a => x.toNat + 256 * a) 0

/-- The integer that big-endian bytes hold. -/
def ofBe (b : Bytes) : Nat := b.foldl (fun a x => x.toNat + 256 * a) 0

/-- `n` zero bytes. -/
def zeros (n : Nat) : Bytes := List.replicate n 0

/-- The `n` bytes at offset `off`; fewer where the string ends before. -/
def slice (b : Bytes) (off n : Nat) : Bytes := (b.drop off).take n

/-- The little-endian integer field of `n` bytes at offset `off` (R6). -/
def leField (b : Bytes) (off n : Nat) : Nat := ofLe (slice b off n)

/-- The byte at offset `i`, zero beyond the end. -/
def byteAt (b : Bytes) (i : Nat) : Byte := b.getD i 0

/-- `b` cut or extended with zero bytes to exactly `n` bytes. -/
def fit (n : Nat) (b : Bytes) : Bytes := b.take n ++ zeros (n - b.length)

/-- `b` with the bytes from `off` replaced by `d`, the length of `b` kept. -/
def patch (b : Bytes) (off : Nat) (d : Bytes) : Bytes :=
  (b.take off ++ d ++ b.drop (off + d.length)).take b.length

/-- Byte-wise XOR; the result is as long as the shorter string. -/
def xorBytes (a b : Bytes) : Bytes := List.zipWith (· ^^^ ·) a b

/-- The ASCII bytes of a string. -/
def ascii (s : String) : Bytes := s.toList.map fun c => BitVec.ofNat 8 c.toNat

/-- `b` cut into pieces of `n` bytes, the last one possibly shorter; `fuel` bounds the number of pieces. -/
def chunksFuel (n : Nat) : Nat → Bytes → List Bytes
  | 0, _ => []
  | fuel + 1, b => if b.isEmpty then [] else b.take n :: chunksFuel n fuel (b.drop n)

/-- `b` cut into pieces of `n` bytes, the last one possibly shorter. -/
def chunks (n : Nat) (b : Bytes) : List Bytes := chunksFuel n b.length b

/-- Bits `[hi:lo]` of `v` (the manual's notation of a bit range). -/
def bits (v hi lo : Nat) : Nat := (v >>> lo) % 2 ^ (hi + 1 - lo)

/-- Bit `[n]` of `v`. -/
def bit (v n : Nat) : Bool := v.testBit n

/-- A flag as a bit. -/
def b2n (b : Bool) : Nat := if b then 1 else 0

/-- `v` rounded up to a multiple of `m`. -/
def roundUp (v m : Nat) : Nat := ((v + m - 1) / m) * m

/-- The number of decimal digits' nibble `i` of a packed string, the high nibble of byte 0 first. -/
def nibbleAt (b : Bytes) (i : Nat) : Nat :=
  let x := (byteAt b (i / 2)).toNat
  if i % 2 = 0 then x / 16 else x % 16

/-- Nibbles packed two to a byte, the first in the high half; an odd last nibble is padded with zero. -/
def packNibbles : List Nat → Bytes
  | [] => []
  | [a] => [BitVec.ofNat 8 (16 * a)]
  | a :: b :: r => BitVec.ofNat 8 (16 * a + b) :: packNibbles r

/-- The nibbles of a byte string, high half first. -/
def nibbles (b : Bytes) : List Nat := b.flatMap fun x => [x.toNat / 16, x.toNat % 16]

/-- The bytes of a string of nibbles are all decimal digits. -/
def allDigits (l : List Nat) : Bool := l.all (· < 10)

/-- The floor of the base-two logarithm; zero at zero. -/
def log2 (n : Nat) : Nat := Nat.log2 n

/-- Every byte is zero. -/
def allZero (b : Bytes) : Bool := b.all (· == 0)

end Sys2Proof.Machine
end

