-- ==== Sys2Proof/Machine/Mem.lean ====
section
/-! DEFINITION. Addressed buffers (a core's data regions, a mailbox's buffers): lists of (address, byte) in one canonical form,
addresses strictly rising and no zero byte listed, an unlisted address reading as zero. Log entry 4. -/
namespace Sys2Proof.Machine

/-- An addressed buffer. -/
abbrev Memory := List Host.Cell

/-- The canonical form: addresses strictly rising, no cell equal to what an unlisted address reads as. -/
abbrev Memory.wf (m : Memory) : Prop := m.Pairwise (fun a b => a.1 < b.1) ∧ ∀ p ∈ m, p.2 ≠ 0

/-- The byte at an address. -/
def Memory.read (m : Memory) (a : Nat) : Byte := ((m.find? fun p => p.1 == a).map (·.2)).getD 0

/-- A cell put in its place in rising order of address. -/
def Memory.insert (a : Nat) (b : Byte) : Memory → Memory
  | [] => [(a, b)]
  | p :: r => if p.1 < a then p :: Memory.insert a b r else (a, b) :: p :: r

/-- The byte at an address set; zero removes the cell. -/
def Memory.write (m : Memory) (a : Nat) (b : Byte) : Memory :=
  let m' := m.filter fun p => p.1 != a
  if b = 0 then m' else Memory.insert a b m'

/-- `n` bytes from an address on. -/
def Memory.readBytes (m : Memory) (a n : Nat) : Bytes := (List.range n).map fun i => Memory.read m (a + i)

/-- Bytes written from an address on. -/
def Memory.writeBytes (m : Memory) (a : Nat) : Bytes → Memory
  | [] => m
  | b :: r => Memory.writeBytes (Memory.write m a b) (a + 1) r

end Sys2Proof.Machine
end

