-- ==== Sys2Proof/Machine/Tab.lean ====
section
/-! DEFINITION. Tables by number: plain data lists of (index, value) pairs in rising order of index, each holding only the
entries that differ from nothing having been put there. Used for chambers, cores, ports and the like. -/
namespace Sys2Proof.Machine

/-- A table from numbers to values, as a list of pairs. -/
abbrev Tab (α : Type) := List (Nat × α)

/-- The entry at `i`, if one has been put there. -/
def Tab.get? {α : Type} (t : Tab α) (i : Nat) : Option α := (t.find? fun p => p.1 == i).map (·.2)

/-- The entry at `i`, or the default. -/
def Tab.get {α : Type} (t : Tab α) (d : α) (i : Nat) : α := (Tab.get? t i).getD d

/-- The entry at `i` removed. -/
def Tab.erase {α : Type} (t : Tab α) (i : Nat) : Tab α := t.filter fun p => p.1 != i

/-- `(i, v)` put in its place in rising order before the entries beyond `i`. -/
def Tab.insertSorted {α : Type} (i : Nat) (v : α) : Tab α → Tab α
  | [] => [(i, v)]
  | p :: r => if p.1 < i then p :: Tab.insertSorted i v r else (i, v) :: p :: r

/-- The entry at `i` set to `v`. -/
def Tab.set {α : Type} (t : Tab α) (i : Nat) (v : α) : Tab α := Tab.insertSorted i v (Tab.erase t i)

/-- The entry at `i` changed by `f`, from the default where nothing was put. -/
def Tab.modify {α : Type} (t : Tab α) (d : α) (i : Nat) (f : α → α) : Tab α := Tab.set t i (f (Tab.get t d i))

/-- Every entry changed by `f`. -/
def Tab.mapVals {α : Type} (t : Tab α) (f : Nat → α → α) : Tab α := t.map fun p => (p.1, f p.1 p.2)

end Sys2Proof.Machine
end

