-- ==== Sys2Proof/Machine/StateJobs.lean ====
section
/-! DEFINITION. State of the work itself: what the device puts on its pins, the key records of Sump and the key cache, the work
items of Chuck's buffer and the engine requests made for them (chapters 02, 03, 08 and 09 of the manual). -/
namespace Sys2Proof.Machine

/-- What the device puts on its pins, in order of issue. Log entry 3. -/
inductive Out where
  /-- A posted write by function `fn` (0 the PF, c + 1 the VF of chamber c). -/
  | write (fn addr : Nat) (data : Bytes)
  /-- An MSI-X message of a function, with the address and data its table entry gives (R537). -/
  | msix (fn vec addr data : Nat)
  /-- The value a register read returns. -/
  | read (v : Nat)
  /-- An Unsupported Request completion for a rejected read of the PF window (R328). -/
  | unsupportedRead
  /-- An error reported through AER (R539): the function, and the name of the error. -/
  | aer (fn : Nat) (error : String)
  /-- A status bit set in a function's configuration space, without an error message (R539). -/
  | statusBit (fn : Nat) (bit : String)
  /-- A read request of a host DMA engine: function, address, bytes (R240, R538). -/
  | readRequest (fn addr len : Nat)
  /-- A Kerard frame sent on a port. -/
  | frame (p : KPort) (data : Bytes)
  /-- What the device answers on SMBus; nothing stands for a NACK. -/
  | smbus (data : Option Bytes)
  /-- A DOE data object answered (R395). -/
  | doe (data : Bytes)
  /-- A datum shifted out of the debug access port. -/
  | jtag (v : Nat)
  /-- A PCIe message the device sends (PME_TO_Ack, PM_PME). -/
  | message (name : String)
  deriving DecidableEq, Repr

/-! ### Keys -/

/-- A slot of the key cache (R43, R47, R49), or of the system cache (R45). -/
structure Slot where
  /-- The global index of the record it holds a copy of (R212). -/
  gidx : Nat
  /-- The unsealed record, 64 bytes (R24, R31). -/
  line : Bytes
  /-- The 56-bit composite version of the record (R216). -/
  version : Nat
  pinned : Bool
  /-- References held by engine operations in progress (R47). -/
  refs : Nat
  /-- References whose operation is over and whose key port is about to release them. -/
  toRelease : Nat
  /-- The key was deleted or replaced: zeroised when the last reference goes (R49). -/
  stale : Bool
  /-- The global index of the head slot of its record (R31, R34). -/
  head : Nat
  /-- The next count to use under a counted record (R39, R40). -/
  nextCount : Nat
  /-- The companion word: the last 32 bytes of the expanded AES key (R122). -/
  companion : Bytes
  deriving DecidableEq, Repr

/-- A lookup that missed and waits for the Sump controller (R46). -/
structure Miss where
  /-- Global index of the head slot that was asked for. -/
  gidx : Nat
  /-- The chamber charged, 64 for the system. -/
  payer : Nat
  waiters : List Requester
  /-- KEY_PIN asked for it: the mailbox that waits. -/
  pinFor : List Mbx
  /-- A background refetch of a pinned record (R51). -/
  refetch : Bool
  deriving DecidableEq, Repr

/-- A key a requester has resolved (R37): the handle as presented, the whole stored material, the record's head line, its
global index, and the slots it holds references to. -/
structure Resolved where
  handle : Nat
  head : Bytes
  material : Bytes
  gidx : Nat
  /-- The count drawn under a counted key, if any: epoch and count (R138). -/
  drawn : Option (Nat × Nat)
  /-- The companion word that travels with the record (R122). -/
  companion : Bytes
  deriving DecidableEq, Repr

/-! ### Jobs -/

/-- How far a job has come: keys to look up, buffer to read, ready to run, in an engine, waiting for a commit, done. -/
inductive Phase where
  | keys
  | buffer
  /-- The tags of a GCM decryption match, and its ciphertext is read again (R136). -/
  | reread
  /-- The operation is over, and its operand buffer is read for the digest of its leaf (R195). -/
  | digest
  | ready
  | engine
  | commit
  | done
  deriving DecidableEq, Repr

/-- The outcome of an operation: status, RESULT, and the output to write where there is one (R63, R64). -/
structure Outcome where
  status : Nat
  result : Bytes
  output : Option Bytes
  deriving DecidableEq, Repr

/-- An item of a batch verification (R184): its status where its key did not resolve, its public key, message and signature. -/
structure BatchEntry where
  failed : Option Nat
  key : Bytes
  msg : Bytes
  sig : Bytes
  deriving DecidableEq, Repr

/-- A key record to create or rewrite, as a request to the Sump controller carries it (R220). -/
structure NewRecord where
  /-- Global index of the head slot. -/
  gidx : Nat
  /-- The 64-byte lines of its slots (R24, R31). -/
  lines : List Bytes
  /-- The handle CLASS given with a new key; none for a rewrite of the record in place. In a write mirrored from the active, which
  brings its VERSION and CLASS along (R228): 4 + 4 * VERSION + CLASS. -/
  newClass : Option Nat
  deriving DecidableEq, Repr

/-- An operation asked for by a descriptor (R59) or an engine call (R274), with its progress. -/
structure Job where
  opcode : Nat
  flags : Nat
  tag : Nat
  keyIn : Nat
  keyOut : Nat
  /-- Operand bytes: 32, or 40 with INLINE set. -/
  operands : Bytes
  ext : Nat
  /-- The chamber it runs for. -/
  chamber : Nat
  phase : Phase
  rIn : Option Resolved
  rOut : Option Resolved
  inLen : Nat
  outCap : Nat
  /-- The operand buffer's header has been read and found valid (R62). -/
  headerOk : Bool
  input : Bytes
  /-- The outcome computed and still inside the engine. -/
  held : Option Outcome
  /-- Records to create once the engine's work is done (R115, R173). -/
  creates : List NewRecord
  /-- The outcome delivered. -/
  outcome : Option Outcome
  /-- Commits and mirror acknowledgements still awaited (R115, R221). -/
  waits : Nat
  /-- The Spindle pipeline its request goes to (R124, R139). -/
  pipe : Nat
  /-- Keys of a batch whose fill failed, with the status (R184). -/
  keyErrors : List (Nat × Nat)
  /-- The items of a batch verification as its core has them (R184). -/
  batch : List BatchEntry
  /-- References that fills have taken for it and no lookup has used yet (R47). -/
  filled : List Resolved
  /-- The number of its request or message at the engine. -/
  engId : Option Nat
  /-- PINPOL and the decimalisation tables, read once for its descriptor at dispatch (R93). -/
  pinpol : BitVec 32
  decTabs : Tab Bytes
  /-- The read of its operand buffer that it waits for has been issued (R240). -/
  asked : Bool
  /-- The buffer's input as the second read of a GCM decryption has returned it (R136). -/
  again : Option Bytes
  deriving DecidableEq, Repr

/-- Why a work item is held (R241), in the order of the table. -/
inductive Hold where
  | fence
  | miss
  | counter
  | leaf
  | power
  | full
  deriving DecidableEq, Repr

/-- The five consumer classes (R242), in the order of selection. -/
inductive Cls where
  | spa
  | spb
  | aug
  | gal
  | chs
  deriving DecidableEq, Repr

/-- The states of a work item (R235). -/
inductive ItemState where
  | ready
  | held (why : Hold)
  | dispatched
  | closing
  deriving DecidableEq, Repr

/-- What has become of an item's or a command's leaf. -/
inductive LeafState where
  /-- No leaf is to be made. -/
  | none
  /-- A leaf is to be made and no entry is held yet. -/
  | wanted
  /-- An entry of the leaf buffer is held (R198). -/
  | entry
  /-- The leaf is built and waits for its SEQ. -/
  | waiting
  /-- Accepted, with its SEQ (R199). -/
  | accepted (seq : Nat)
  /-- No leaf can be accepted (R200). -/
  | dropped
  deriving DecidableEq, Repr

/-- A work item of Chuck's buffer (R235). -/
structure Item where
  chamber : Nat
  group : Nat
  /-- Index of the entry in its submission queue. -/
  index : Nat
  /-- The completion queue of its reserved entry (R79). -/
  cq : Nat
  desc : Bytes
  /-- The CLK_DP cycle at which it became resident (R253). -/
  residence : Nat
  st : ItemState
  /-- The class it is assigned to (R242, R243). -/
  cls : Cls
  /-- The Spindle pipeline it targets (R243). -/
  pipe : Nat
  /-- Its fill completed after a withdrawal: dispatched ahead of its group (R249). -/
  ahead : Bool
  /-- It needs a count under a key whose current block is used up (R41). -/
  needCount : Bool
  /-- The records whose fills it waits to ask for, because its chamber has 64 misses outstanding (R46, R241). -/
  needMiss : List Nat
  /-- Its wait up to its dispatch, where that is not yet known to be its final one (R253). -/
  waited : Option Nat
  /-- Its DONE has retired (R281). -/
  done : Bool
  /-- The output that its recipe has written to the operand buffer (R195, R278). -/
  written : Option Bytes
  /-- The device has learnt of a higher claim since it was fetched: it has no completion (R66, R252). -/
  mute : Bool
  /-- The core that runs it, once delivered. -/
  core : Option Nat
  job : Job
  leaf : LeafState
  /-- The step index of the next step leaf of the work item (R194). -/
  step : Nat
  /-- For an AUDIT_FLUSH: the BATCH_NO up to which headers must be recorded, and the RESULT (R69). -/
  flushTo : Option Nat
  deriving DecidableEq, Repr

/-! ### Spindle and Auger -/

/-- Sources of a pipeline's request queue, in the order of R124. -/
inductive SpSource where
  | direct
  | chisel
  | headstock
  | sump
  deriving DecidableEq, Repr

/-- How the passes of a request pair up (R128, R129). -/
inductive Fuse where
  | none
  /-- The second half follows the last pass of the first by 32 cycles (R13). -/
  | after32
  /-- Both halves issue in the same cycle (R129). -/
  | sameCycle
  deriving DecidableEq, Repr

/-- The passes that a request makes on its first pipeline, in order, in runs: how many, and whether each of them is chained, waiting for the pass
before it to leave the pipeline (R130). -/
abbrev Pace := List (Nat × Bool)

/-- A request in a pipeline's queue (R124). -/
structure SpReq where
  id : Nat
  /-- The requester, none for a request of Headstock or of the Sump controller. -/
  owner : Option Requester
  /-- The chamber charged. -/
  payer : Nat
  source : SpSource
  pipe : Nat
  fuse : Fuse
  /-- Passes of the first pipeline still to issue. -/
  pace : Pace
  /-- Passes of the second pipeline, reserved when the first issues. -/
  second : Nat
  /-- The earliest Spindle cycle at which the next pass may issue. -/
  notBefore : Nat
  deriving DecidableEq, Repr

/-- A pass reserved at stage 1 of a pipeline for a cycle to come (R126). -/
structure SpReserved where
  pipe : Nat
  due : Nat
  id : Nat
  owner : Option Requester
  payer : Nat
  deriving DecidableEq, Repr

/-- A pass in the 28 stages of a pipeline (R118). -/
structure SpPass where
  issued : Nat
  id : Nat
  owner : Option Requester
  payer : Nat
  /-- What it carries in the key lane of the stage it is in (R120 to R122). -/
  lane : Bytes
  /-- Its result is to be discarded (R127). -/
  discard : Bool
  deriving DecidableEq, Repr

/-- Spindle (R118 to R129). -/
structure Spindle where
  /-- Cycles of issue, counted from reset. -/
  cycle : Nat
  queue : List SpReq
  reserved : List SpReserved
  /-- In-flight passes of each pipeline, oldest first. -/
  flight : Tab (List SpPass)
  /-- The source issued last, by pipeline (R126). -/
  last : Tab SpSource
  /-- Requests of Headstock and of the Sump controller that wait for an entry (R124). -/
  waiting : List SpReq
  /-- The output registers of stage 28 that hold a cleartext block, by pipeline (R12, R104). -/
  outReg : Tab Bytes
  /-- Blocks in the format converter of a pair: the cycle in which each was taken, the pipeline, and its cleartext (R128). -/
  converter : List (Nat × Nat × Bytes)
  /-- The input registers of stage 1 of the second pipelines, with what the converter has put there (R12, R104). -/
  inReg : Tab Bytes
  nextId : Nat
  deriving DecidableEq, Repr

/-- The five ports of Auger (R150). -/
inductive AuPort where
  | flowstone
  | gallery
  | chisel
  | direct
  | headstock
  deriving DecidableEq, Repr

/-- A message at Auger (R148, R150). -/
structure AuMsg where
  id : Nat
  /-- The requester, none for a message of Flowstone, Gallery or Headstock. -/
  owner : Option Requester
  port : AuPort
  /-- The cycles that one of its permutations or compressions takes (R148): 12 on a Keccak core, 16 or 20 in the SHA-2 unit. -/
  latency : Nat
  /-- Permutations or compressions still to be granted. -/
  left : Nat
  /-- The Keccak core that serves it, or its message context in the SHA-2 unit, from its first slot on (R148). -/
  place : Option Nat
  /-- The cycle of its unit at which the last permutation or compression granted is done. -/
  doneAt : Nat
  deriving DecidableEq, Repr

/-- Auger (R148 to R152). -/
structure Auger where
  /-- Cycles of issue of each unit, counted from reset: the Keccak cores are 0 and 1, the SHA-2 unit 2. -/
  cycles : Tab Nat
  msgs : List AuMsg
  /-- The port served last of the four that rotate (R150). -/
  last : AuPort
  /-- On each Keccak core, the last slot went to Flowstone. -/
  flowLast : Tab Bool
  nextId : Nat
  deriving DecidableEq, Repr

/-! ### Gallery -/

/-- Sources of Gallery's command queue, in the order of R157. -/
inductive GaSource where
  | direct
  | chisel
  | headstock
  | flowstone
  deriving DecidableEq, Repr

/-- Whose request it is (R160). -/
inductive GaOwner where
  | job (r : Requester)
  /-- A header's signature: the header's place in its chain. -/
  | header (chain : ChainId) (pos : Nat) (pq : Bool)
  /-- An operation of Headstock's, which gets an interrupt (R160). -/
  | headstock
  deriving DecidableEq, Repr

/-- A request of Gallery's command queue (R157). -/
structure GaReq where
  id : Nat
  owner : GaOwner
  /-- The chamber charged, 64 for the system. -/
  payer : Nat
  source : GaSource
  lattice : Bool
  /-- Random bytes drawn for it (R182, R205). -/
  drawn : Bytes
  /-- Its message at Auger's Gallery port, once dispatched (R150, R154). -/
  message : Option Nat
  /-- The operation has a validation window (R181), and its checks fail (R179). -/
  windowed : Bool
  rejects : Bool
  deriving DecidableEq, Repr

/-- What a Gallery core is doing (R153, R189). -/
inductive GaCoreState where
  | idle
  /-- In its validation window (R179). -/
  | validating (r : GaReq)
  | working (r : GaReq)
  /-- Operand memory being zeroised after an abort (R189). -/
  | aborting (r : GaReq)
  deriving DecidableEq, Repr

/-- Gallery (R153 to R160). -/
structure Gallery where
  queue : List GaReq
  /-- Requests of Headstock that wait for an entry (R157). -/
  held : List GaReq
  cores : Tab GaCoreState
  /-- Cores an abort request is on its way to (R189). -/
  abortReq : List Nat
  /-- The words of the cores' operand memories that hold private key material, a nonce or a blinding value (R154, R156). -/
  secret : Tab Bytes
  /-- The public contents of the operand memories, which the last operation leaves in place (R154, R156). -/
  operands : Tab Bytes
  /-- Interrupts to Headstock: results that it has had (R160). -/
  interrupts : Nat
  /-- Sub-batch checks made so far in the bisection that runs (R185, R526). -/
  subChecks : Nat
  last : GaSource
  /-- Dispatches to curve and to lattice cores, for the 1,000th (R158). -/
  curveCount : Nat
  latticeCount : Nat
  /-- The shared tables are filled and their digest was checked (R155). -/
  tablesOk : Bool
  nextId : Nat
  deriving DecidableEq, Repr

end Sys2Proof.Machine
end

