-- ==== Sys2Proof/Machine/StateStore.lean ====
section
/-! DEFINITION. State of the key cache and system key file (chapter 02), of Sump and its external memory (chapter 08), of
Flowstone's chains (chapter 07) and of Lantern (chapter 16). -/
namespace Sys2Proof.Machine

/-- The key cache (R43 to R51) and the system key file (R45). -/
structure Keys where
  /-- Slots by set * 16 + way. -/
  cache : Tab Slot
  /-- The fifteen tree pseudo-LRU bits of a set, as a number (R47). -/
  plru : Tab Nat
  /-- The system cache, most recently used first (R45). -/
  sysCache : List Slot
  /-- Pinned records: global index of the head slot, and the number of slots (R48). -/
  pins : List (Nat × Nat)
  misses : List Miss
  /-- Counted keys whose next block is being reserved (R41), by global index. -/
  reserving : List Nat
  /-- The system chain's audit keys in the fixed part (R45, R192): seeds by the global index of their records. -/
  auditSeeds : Tab Bytes
  /-- DRK-derived keys of the fixed part (R21, R45). -/
  sealKey : Bytes
  tagKey : Bytes
  treeKey : Bytes
  /-- Handle keys of the chambers, and the system's (R21). -/
  handleKeys : Tab Bytes
  sysHandleKey : Bytes
  /-- The background refetch of pinned records is running (R51). -/
  refetching : Bool
  deriving DecidableEq, Repr

/-- The external DDR-5 memory (R213): ciphertext lines, tags and version blocks, as last written. -/
structure Ddr where
  records : Tab Bytes
  tags : Tab Bytes
  /-- Version blocks by level * 2^40 + index. -/
  nodes : Tab Bytes
  /-- The allocation hint map: global indices shown as used. -/
  hint : List Nat
  /-- Training is complete and memory was not blank (R225). -/
  trained : Bool
  /-- SUMP_INIT or a restore has written to it since it was last without supply (R225). -/
  init : Bool
  deriving DecidableEq, Repr

/-- Sump's state (R234). -/
inductive SumpState where
  | empty
  | restoring
  | ready
  | erased
  deriving DecidableEq, Repr

/-- The journal modes (R221). -/
inductive JMode where
  | off
  | async
  | sync
  deriving DecidableEq, Repr

/-- Who waits for a commit (R221). -/
inductive Waiter where
  | nobody
  | job (r : Requester)
  | mailbox (m : Mbx)
  /-- A key cache slot whose next block of counts is reserved: global index, new mark (R39). -/
  | counter (gidx epoch count : Nat)
  /-- RETIRED set in a record (R42). -/
  | retire (gidx : Nat)
  /-- A chain's sequence reservation: the new mark (R197). -/
  | seqMark (ch : ChainId) (epoch count : Nat)
  /-- A chain's header record (R206): the header's place in the chain. -/
  | header (ch : ChainId) (pos : Nat)
  /-- The records of a successor chain's audit keys (R193). -/
  | auditKeys (ch : ChainId)
  /-- A mirror frame being committed on a standby: its MSEQ (R483). -/
  | mirror (mseq : Nat)
  /-- A range of a chamber's erase (R231), and the index after it. -/
  | erase (c next : Nat)
  /-- The pair transport key's record (R478): the new mark. Pair records are not mirrored (R482). -/
  | transport (mark : Nat)
  deriving DecidableEq, Repr

/-- A request queued for a commit: the records it writes (R220). -/
structure SumpReq where
  writes : List NewRecord
  /-- An erase range: first index and number of indices (R226, R231). -/
  range : Option (Nat × Nat)
  waiter : Waiter
  deriving DecidableEq, Repr

/-- The commit in progress (R220, R221). -/
structure Commit where
  reqs : List SumpReq
  /-- Journal entries not yet written to the ring (R226). -/
  entries : List Bytes
  rootv : Nat
  jmac : Bytes
  mode : JMode
  /-- In SYNC mode, the value of `SMP_JHEAD` that releases the commit. -/
  releaseAt : Option Nat
  deriving DecidableEq, Repr

/-- A SUMP_SAVE in progress (R229). -/
structure Save where
  base : Nat
  started : Bool
  /-- The snapshot: records, tags, nodes, ROOTV and JMAC at the commit boundary. -/
  snapshot : Ddr
  rootv : Nat
  jmac : Bytes
  deriving DecidableEq, Repr

/-- A SUMP_RESTORE in progress (R229): the replay's ROOTV and JMAC so far. -/
structure Restore where
  rootv : Nat
  jmac : Bytes
  deriving DecidableEq, Repr

/-- The Sump controller (R210 to R234). -/
structure Sump where
  st : SumpState
  ddr : Ddr
  /-- The on-chip ROOTV register, 56 bits (R217). -/
  rootv : Nat
  /-- JMAC of the last journal entry (R226). -/
  jmac : Bytes
  /-- Verified version blocks in SRAM, most recently used first (R218): key and contents. -/
  nodeCache : List (Nat × Bytes)
  /-- Subtrees marked bad (R223): level and index. -/
  bad : List (Nat × Nat)
  queue : List SumpReq
  commit : Option Commit
  jmode : JMode
  jbase : Nat
  jlog2 : Nat
  jhead : Nat
  jtail : Nat
  /-- Commits are waiting for ring space (R227). -/
  jfull : Bool
  save : Option Save
  restore : Option Restore
  /-- Chambers being erased and the next slot to look at (R231). -/
  erasing : List (Nat × Nat)
  faultsTag : Nat
  faultsNode : Nat
  faultsEcc : Nat
  err : BitVec 32
  /-- ROOTV_H as the last read of `SMP_ROOTV_L` latched it (R234). -/
  rootvLatch : Nat
  /-- Times of the tag and block failures of the last second, for class L (R223). -/
  failTimes : List Nat
  /-- The patrol scrub's next line (R211). -/
  scrub : Nat
  deriving DecidableEq, Repr

/-! ### Flowstone -/

/-- Where a leaf comes from (R194, R196, R484). -/
inductive LeafSrc where
  | item (n : Nat)
  /-- A recipe step: core, ticket. -/
  | step (core t : Nat)
  | mailbox (m : Mbx)
  /-- A leaf the standby sent: its reference (R484). -/
  | remote (ref : Nat)
  deriving DecidableEq, Repr

/-- A leaf waiting for its SEQ: the 64 bytes with SEQ, CLAIM and TIME still zero (R194). -/
structure LeafReq where
  src : LeafSrc
  body : Bytes
  deriving DecidableEq, Repr

/-- The open batch of a chain (R201). -/
structure Batch where
  firstSeq : Nat
  openTime : Nat
  /-- The interval in force when the first leaf was accepted, ms. -/
  interval : Nat
  /-- The claim under which its leaves were accepted (R204). -/
  claim : Nat
  /-- Leaf hashes in order of SEQ (R203). -/
  hashes : List Bytes
  deriving DecidableEq, Repr

/-- A header from its making to its release (R204 to R206). -/
structure Header where
  /-- CHAIN_NO and BATCH_NO. -/
  chainNo : Nat
  batch : Nat
  signed : Bytes
  /-- The number after the last leaf of the batch. -/
  nextSeq : Nat
  /-- The chain's accepted leaves, its retired predecessors' among them, up to the end of the batch. -/
  upTo : Nat
  /-- Global indices of the records of the audit keys that sign it (R192, R205). -/
  edGidx : Nat
  pqGidx : Nat
  /-- Signatures as they return (R205). -/
  sigEd : Option Bytes
  sigPq : Option Bytes
  /-- Signatures Gallery has made, on their way back. -/
  backEd : Option Bytes
  backPq : Option Bytes
  /-- The chain record holds it (R206). -/
  recorded : Bool
  /-- The record's commit has been asked for. -/
  asked : Bool
  /-- The signature requests have entered Gallery's queue (R157). -/
  askedEd : Bool
  askedPq : Bool
  /-- The standby acknowledged the entry (R206). -/
  mirrored : Bool
  deriving DecidableEq, Repr

/-- A stream ring of a chain (R207). -/
structure Ring where
  en : Bool
  leafBase : Nat
  hdrBase : Nat
  llog2 : Nat
  hlog2 : Nat
  vecEn : Bool
  vector : Nat
  lhead : Nat
  ltail : Nat
  hhead : Nat
  htail : Nat
  err : BitVec 32
  /-- Writing has stopped after a failed write (R578). -/
  stopped : Bool
  deriving DecidableEq, Repr

/-- The audit keys of the chain before this one, where it has retired one (R193, R360): public keys and record indices. -/
structure FormerKeys where
  edPub : Bytes
  pqPub : Bytes
  edGidx : Nat
  pqGidx : Nat
  deriving DecidableEq, Repr

/-- An audit chain (R191 to R208, R577). -/
structure Chain where
  present : Bool
  pq : Bool
  chainNo : Nat
  /-- BATCH_NO of the next header. -/
  nextBatch : Nat
  nextSeq : Nat
  /-- The reservation mark: epoch and count one beyond the reserved block (R197). -/
  markEpoch : Nat
  mark : Nat
  reserving : Bool
  /-- The digest of the last header made. -/
  prev : Bytes
  /-- What the chain record in Sump holds of the last header recorded, if there is one: CHAIN_NO, digest, BATCH_NO, next sequence
  number (R206). -/
  recNo : Option Nat
  recDigest : Bytes
  recBatch : Nat
  recSeq : Nat
  /-- Audit public keys and their identifiers (R192, R204); the private keys are records (R10). -/
  edPub : Bytes
  pqPub : Bytes
  kidEd : Bytes
  kidPq : Bytes
  before : Option FormerKeys
  /-- Global indices of the audit key records. -/
  edGidx : Nat
  pqGidx : Nat
  interval : Nat
  /-- SEQ of the last leaf accepted, where the chain has one (R69). -/
  lastLeaf : Option Nat
  batch : Option Batch
  headers : List Header
  /-- Leaves waiting for a SEQ, oldest first. -/
  waiting : List LeafReq
  /-- Leaves accepted since the device's reset. -/
  accepted : Nat
  /-- Leaf-buffer entries taken (R198). -/
  entries : Nat
  /-- Accepted leaves not yet written to the ring, oldest first (R207). -/
  heldLeaves : List Bytes
  /-- Header entries released and not yet written to the ring. -/
  heldHeaders : List Bytes
  ring : Ring
  /-- The status of the failed commit that stalls the chain (R577). -/
  stalled : Option Nat
  /-- The failed commits that are to be repeated (R577). -/
  failed : List SumpReq
  /-- The CLOSE code of the first event that would have closed the open batch of a stalled chain (R201, R577). -/
  closeDue : Option Nat
  retiring : Bool
  /-- The final header waits for new keys (R193, R200). -/
  unsignedStop : Bool
  deriving DecidableEq, Repr

/-! ### Lantern -/

/-- Lantern's states (R406). -/
inductive LanternState where
  | starting
  | running
  | failed
  | off
  deriving DecidableEq, Repr

/-- The tests running on one noise source (R397) and its samples of the block being packed (R398). -/
structure Source where
  /-- Last sample and how often in a row it has come. -/
  lastBit : Bool
  run : Nat
  /-- First sample of the adaptive-proportion window, samples seen in it, samples equal to the first. -/
  first : Bool
  seen : Nat
  same : Nat
  /-- Samples packed for the conditioner, the first sample first. -/
  packed : List Bool
  deriving DecidableEq, Repr

/-- A port buffer of Lantern (R404): its bytes and the ERR bit. -/
structure LanPort where
  buf : Bytes
  err : Bool
  /-- The microsecond of its last refill: a VF or PF buffer is refilled at most once in each (R404). -/
  filled : Option Nat
  deriving DecidableEq, Repr

/-- Lantern (R396 to R409). -/
structure Lantern where
  st : LanternState
  /-- `LAN_CAUSE`: SOURCE, TEST, KAT. -/
  causeSource : Nat
  causeTest : Nat
  causeKat : Nat
  sources : Tab Source
  /-- Samples of each source since the start, the 128 discarded ones included. -/
  samples : Nat
  /-- The newest conditioner block (R398). -/
  block : Option Bytes
  /-- The expander: Key, V, generate calls since the last reseed, reseeds (R399). -/
  key : Bytes
  v : Bytes
  instantiated : Bool
  calls : Nat
  reseeds : Nat
  /-- The known-answer tests of the start-up have passed. -/
  katOk : Bool
  central : Bytes
  /-- Port buffers: cores 0 to 63, chambers 64 to 127, the PF at 128. -/
  ports : Tab LanPort
  /-- The port refilled last in the round robin (R404). -/
  lastPort : Nat
  sizeErr : BitVec 32
  deriving DecidableEq, Repr

/-! ### Reset values -/

/-- An empty slot's place-holder, where a slot is asked for that holds nothing. -/
def Slot.none : Slot :=
  { gidx := 0, line := [], version := 0, pinned := false, refs := 0, toRelease := 0, stale := false
    head := 0, nextCount := 0, companion := [] }

/-- The key cache and key file after a cold reset: nothing resident, no key derived (R21, R51). -/
def Keys.reset : Keys :=
  { cache := [], plru := [], sysCache := [], pins := [], misses := [], reserving := [], auditSeeds := [], sealKey := [], tagKey := []
    treeKey := [], handleKeys := [], sysHandleKey := [], refetching := false }

/-- Memory after a loss of main power: nothing valid (R225). -/
def Ddr.blank : Ddr := { records := [], tags := [], nodes := [], hint := [], trained := false, init := false }

/-- Sump after a cold reset, before training (R225, R234). -/
def Sump.reset : Sump :=
  { st := .empty, ddr := Ddr.blank, rootv := 0, jmac := List.replicate 8 0, nodeCache := [], bad := [], queue := []
    commit := none, jmode := .off, jbase := 0, jlog2 := 0, jhead := 0, jtail := 0, jfull := false, save := none
    restore := none, erasing := [], faultsTag := 0, faultsNode := 0, faultsEcc := 0, err := 0, rootvLatch := 0
    failTimes := [], scrub := 0 }

/-- A ring that does not exist (R207). -/
def Ring.reset : Ring :=
  { en := false, leafBase := 0, hdrBase := 0, llog2 := 0, hlog2 := 0, vecEn := false, vector := 0, lhead := 0
    ltail := 0, hhead := 0, htail := 0, err := 0, stopped := false }

/-- A chain that does not exist. -/
def Chain.absent : Chain :=
  { present := false, pq := false, chainNo := 0, nextBatch := 0, nextSeq := 0, markEpoch := 0, mark := 0
    reserving := false, prev := List.replicate 64 0, recNo := none, recDigest := List.replicate 64 0, recBatch := 0, recSeq := 0
    edPub := [], pqPub := [], kidEd := [], kidPq := [], before := none, edGidx := 0, pqGidx := 0, interval := 5
    lastLeaf := none, batch := none, headers := [], waiting := [], accepted := 0, entries := 0, heldLeaves := [], heldHeaders := [], ring := Ring.reset
    stalled := none, failed := [], closeDue := none, retiring := false, unsignedStop := false }

/-- A source that has given no sample. -/
def Source.reset : Source :=
  { lastBit := false, run := 0, first := false, seen := 0, same := 0, packed := [] }

/-- An empty port buffer (R406). -/
def LanPort.reset : LanPort := { buf := [], err := false, filled := none }

/-- Lantern at the start of R401. -/
def Lantern.reset : Lantern :=
  { st := .starting, causeSource := 0, causeTest := 0, causeKat := 0, sources := [], samples := 0, block := none
    key := [], v := [], instantiated := false, calls := 0, reseeds := 0, katOk := false, central := [], ports := []
    lastPort := 128, sizeErr := 0 }

end Sys2Proof.Machine
end

