-- ==== Sys2Proof/Machine/StateChambers.lean ====
section
/-! DEFINITION. State of the chambers: their queues and registers (chapter 03), their policy (chapter 04), their groups, credits and
flags in Chuck, Spindle and Gallery (chapters 05, 06, 09 and 13), and of Chuck's dispatch port. -/
namespace Sys2Proof.Machine

/-- A chamber's state (R330). -/
inductive ChState where
  | none
  | active
  | quiesced
  deriving DecidableEq, Repr

/-- A submission queue (R52, R53, R57). -/
structure Sq where
  en : Bool
  base : Nat
  depthLog2 : Nat
  cq : Nat
  fmt : Nat
  /-- `VFQ_SQHEAD`: the next entry to become fetched (R576). -/
  head : Nat
  tail : Nat
  /-- The next entry whose read will be issued. -/
  issued : Nat
  /-- Reads issued whose data has not arrived: first entry and number of entries. -/
  reads : List (Nat × Nat)
  /-- Entries whose data has arrived and that are not fetched yet (R576). -/
  arrived : Tab Bytes
  /-- QUEUE_DELETE has stopped its fetching (R357). -/
  stopping : Bool
  deriving DecidableEq, Repr

/-- A completion queue (R53, R57, R65, R79, R82). -/
structure Cq where
  en : Bool
  base : Nat
  depthLog2 : Nat
  vecEn : Bool
  vector : Nat
  fmt : Nat
  coalCount : Nat
  coalTime : Nat
  tail : Nat
  phase : Bool
  /-- The next entry the host will read. -/
  head : Nat
  /-- Entries reserved at fetch (R79). -/
  reserved : Nat
  /-- Completions written with IRQ and not yet signalled. -/
  unsignalled : Nat
  deriving DecidableEq, Repr

/-- A service group in Chuck (R245, R253). -/
structure Group where
  weight : Nat
  deficit : Nat
  /-- Running maximum wait, ns. -/
  wmax : Nat
  /-- Mean wait in 1/256 ns. -/
  wavg : Nat
  deriving DecidableEq, Repr

/-- A custodian set: K and the Ed448 public keys (R356, R358). -/
structure Custodians where
  k : Nat
  keys : List Bytes
  deriving DecidableEq, Repr

/-- A slot of a chamber's own programmable counters, `VFE_CFG<i>` (R528). -/
structure VfeSlot where
  event : Nat
  level : Bool
  chain : Bool
  en : Bool
  counter : Nat
  unit : Nat
  bound : Bool
  refused : Bool
  deriving DecidableEq, Repr

/-- A chamber (R319 to R335). -/
structure Chamber where
  st : ChState
  /-- A chamber reset is running (R333). -/
  resetting : Bool
  /-- Created or restored since the last device reset (R323). -/
  restored : Bool
  qreason : BitVec 32
  lastFault : BitVec 32
  faultCnt : Nat
  pinpol : BitVec 32
  /-- Decimalisation tables loaded (R92). -/
  decTabs : Tab Bytes
  sqs : Tab Sq
  cqs : Tab Cq
  qerr : BitVec 32
  /-- The work item of the chamber FENCE that stops fetching (R76). -/
  fence : Option Nat
  groups : Tab Group
  /-- P[c] of R245. -/
  ptr : Nat
  /-- Fetch credit in units of 1/N (R238). -/
  credit : Nat
  borrow : Bool
  /-- Spindle credit in units of 1/N (R125). -/
  spCredit : Int
  /-- Gallery counters in units of 1/N ns (R158). -/
  curve : Int
  lattice : Int
  custodians : Custodians
  /-- User read of counters granted (R356, R524). -/
  uread : Bool
  vfe : Tab VfeSlot
  /-- Slots reserved for records being created (R166). -/
  reservedSlots : List Nat
  deriving DecidableEq, Repr

/-- Chuck (R235 to R255). -/
structure Chuck where
  items : Tab Item
  nextItem : Nat
  /-- The queue served last by each host DMA engine: chamber * 8 + queue (R240). -/
  lastQueue : Tab Nat
  lastClass : Cls
  /-- The chamber served last in each class (R244). -/
  lastChamber : Tab Nat
  /-- Cores in TAKE (R248). -/
  take : List Nat
  ewmaShift : Nat
  busyWin : Nat
  err : BitVec 32
  /-- Busy fractions as last computed, and busy cycles of the window running (R253). -/
  busy : Tab Nat
  busyCycles : Tab Nat
  deriving DecidableEq, Repr

/-- A queue that does not exist (R57). -/
def Sq.reset : Sq :=
  { en := false, base := 0, depthLog2 := 0, cq := 0, fmt := 0, head := 0, tail := 0, issued := 0, reads := []
    arrived := [], stopping := false }

/-- A completion queue that does not exist (R57). -/
def Cq.reset : Cq :=
  { en := false, base := 0, depthLog2 := 0, vecEn := false, vector := 0, fmt := 0, coalCount := 0, coalTime := 0
    tail := 0, phase := true, head := 0, reserved := 0, unsignalled := 0 }

/-- A group at the chamber's creation (R245). -/
def Group.reset : Group := { weight := 1, deficit := 0, wmax := 0, wavg := 0 }

/-- An unbound counter slot (R528). -/
def VfeSlot.reset : VfeSlot :=
  { event := 0, level := false, chain := false, en := false, counter := 0, unit := 0, bound := false, refused := false }

/-- A chamber that has not been created (R319). -/
def Chamber.absent : Chamber :=
  { st := .none, resetting := false, restored := false, qreason := 0, lastFault := 0, faultCnt := 0, pinpol := 0x00000C44
    decTabs := [], sqs := [], cqs := [], qerr := 0, fence := none, groups := [], ptr := 7, credit := 0, borrow := false
    spCredit := 0, curve := 0, lattice := 0, custodians := { k := 0, keys := [] }, uread := false, vfe := []
    reservedSlots := [] }

/-- Chuck after a warm or cold device reset (R240, R244, R254). -/
def Chuck.reset : Chuck :=
  { items := [], nextItem := 0, lastQueue := [], lastClass := .chs, lastChamber := [], take := [], ewmaShift := 4
    busyWin := 4, err := 0, busy := [], busyCycles := [] }

/-- Spindle after a warm or cold device reset (R126). -/
def Spindle.reset : Spindle :=
  { cycle := 0, queue := [], reserved := [], flight := [], last := [], waiting := [], outReg := [], converter := [], inReg := [], nextId := 0 }

/-- Auger after a reset. The manual does not say where its round robin starts: as though Headstock's port had been served last (DESIGN CHOICE, log
entry 105). -/
def Auger.reset : Auger := { cycles := [], msgs := [], last := .headstock, flowLast := [], nextId := 0 }

/-- Gallery after a warm or cold device reset (R159). -/
def Gallery.reset : Gallery :=
  { queue := [], held := [], cores := [], abortReq := [], secret := [], operands := [], interrupts := 0, subChecks := 0, last := .flowstone, curveCount := 0, latticeCount := 0
    tablesOk := false, nextId := 0 }

end Sys2Proof.Machine
end

