-- ==== Sys2Proof/Machine/StateBimor.lean ====
section
/-! DEFINITION. State of the mailboxes and of the commands they carry (chapter 14), and of the lifecycle, firmware, identity and SPDM
(chapter 15). -/
namespace Sys2Proof.Machine

/-- How far the command of a mailbox has come (R345). -/
inductive MbxPhase where
  /-- No command. -/
  | idle
  /-- Copied at GO and not yet taken up. -/
  | running
  /-- The effects are ordered and commits, mirror acknowledgements or other completions are awaited. -/
  | waiting
  /-- The response is made and its leaf is awaited. -/
  | leaf
  /-- The response may be written. -/
  | respond
  deriving DecidableEq, Repr

/-- What a waiting command awaits besides commits. -/
inductive MbxAwait where
  | nothing
  /-- A key record's fetch for KEY_PIN: its global index (R48). -/
  | pin (gidx : Nat)
  /-- Headers of the system chain recorded up to a batch (R360). -/
  | flush (batch : Nat)
  /-- The Kerard handshake of PAIR_CREATE (R477). -/
  | pair
  /-- The standby's LEAF_ACK (R484): the reference. -/
  | remoteLeaf (ref : Nat)
  /-- A chamber's reset (R333). -/
  | chamber (c : Nat)
  /-- Step 4 of R332: a quiesced chamber has no work item left and its completions are written. -/
  | quiesced (c : Nat)
  /-- Every work item fetched from a queue has had its completion written (R357). -/
  | queue (c g : Nat)
  /-- A quiesced chamber's chain has nothing left to write to its ring (R326). -/
  | drained (c : Nat)
  /-- The boundary of a snapshot (R229). -/
  | snapshot
  /-- An entry of the new system chain for the leaf of the commissioning (R376). -/
  | firstEntry
  /-- No commit in progress (R230). -/
  | noCommit
  deriving DecidableEq, Repr

/-- A Bimor mailbox (R336 to R341). -/
structure Mailbox where
  /-- The request and response buffers, 4 KiB each. -/
  req : Memory
  rsp : Memory
  busy : Bool
  done : Bool
  vmaj : Nat
  vmin : Nat
  irqEn : Bool
  vector : Nat
  /-- `MBX_ERR`. -/
  err : BitVec 32
  phase : MbxPhase
  /-- The request as copied at GO (R337). -/
  command : Bytes
  /-- What follows the command's commits and leaf: status and response payload. -/
  status : Nat
  detail : Nat
  payload : Bytes
  /-- What a command carries from one stage to the next. -/
  hold : List Bytes
  /-- The number of its GO (R339). -/
  goNo : Nat
  waits : Nat
  await : MbxAwait
  leaf : LeafState
  /-- Commits of the command have failed with this status. -/
  failed : Option Nat
  /-- The stage to run once the waits are over. -/
  cont : Nat
  /-- The mailbox was reset while its command ran: the response is discarded (R514). -/
  discard : Bool
  deriving DecidableEq, Repr

/-- An AUTHREF (R349 to R355). -/
structure AuthRef where
  ref : Nat
  nonce : Bytes
  command : Nat
  slice : Nat
  scope : Nat
  rdigest : Bytes
  /-- Operating time at issue, us. -/
  issued : Nat
  /-- Custodians whose tokens have been counted. -/
  counted : List Nat
  deriving DecidableEq, Repr

/-- A part of a key under formation (R359). -/
structure Component where
  part : Nat
  data : Bytes
  deriving DecidableEq, Repr

/-- A ceremony session (R359). -/
structure Session where
  id : Nat
  scope : Nat
  scalar : Bytes
  opened : Nat
  attributes : Bytes
  parts : List Component
  deriving DecidableEq, Repr

/-- Recipe instructions being staged (R361). -/
structure Staging where
  id : Nat
  image : Bytes
  deriving DecidableEq, Repr

/-- What Headstock holds for Bimor (R336 to R367). -/
structure Bimor where
  mbx : Tab Mailbox
  /-- The number of the next GO (R339). -/
  nextGo : Nat
  auths : List AuthRef
  nextRef : Nat
  /-- PASIDs of the four slices, by slice 0 to 3; a slice not listed is unbound (R327). -/
  binds : Tab Nat
  sessions : List Session
  nextSession : Nat
  staging : Option Staging
  /-- Firmware bytes staged (R366). -/
  fwStage : Memory
  fwStaged : Nat
  /-- The system custodian set (R374). -/
  custodians : Custodians
  /-- The settings in force and those pending, 76 bytes each (R362). -/
  settings : Bytes
  pending : Option Bytes
  deriving DecidableEq, Repr

/-- A firmware slot in flash (R384): header and body. -/
structure FwSlot where
  header : Bytes
  body : Bytes
  deriving DecidableEq, Repr

/-- What manufacture leaves in OTP and flash, and what the boot fixed (R384 to R394). -/
structure Identity where
  /-- The Ed448 identity seed and the SPDM alias scalar (R392). -/
  seed : Bytes
  aliasKey : Bytes
  /-- Certificates: Halsyn intermediate, identity, alias; hash of the root by SHA-384 and SHA-512 (R395). -/
  certInter : Bytes
  certIdentity : Bytes
  certAlias : Bytes
  root384 : Bytes
  root512 : Bytes
  /-- The four vendor key hashes and their revocation bits (R385). -/
  vkh : List Bytes
  revoked : BitVec 4
  /-- Set bits of the anti-rollback field (R388). -/
  arb : Nat
  slotA : FwSlot
  slotB : FwSlot
  /-- The seed of the shield's, mesh's and loops' patterns (R428, R447). -/
  loopSeed : Bytes
  /-- The slot that booted, 0 A or 1 B, and its header's first 140 bytes. -/
  slot : Nat
  running : Bytes
  /-- The boot ROM's contents (R394). -/
  rom : Bytes
  /-- Neither slot held a valid image (R387). -/
  noImage : Bool
  deriving DecidableEq, Repr

/-- An SPDM session (R395): what has been negotiated and the transcript. -/
structure Spdm where
  version : Nat
  caps : Bool
  algos : Bool
  asym448 : Bool
  sha512 : Bool
  /-- Transcript of the first messages (VCA), of GET_DIGESTS and GET_CERTIFICATE, and of the measurements. -/
  vca : Bytes
  certs : Bytes
  meas : Bytes
  /-- The object with which the DOE mailbox answers. -/
  answer : Option Bytes
  deriving DecidableEq, Repr

/-- A mailbox after a device reset (R337, R338, R390). -/
def Mailbox.reset : Mailbox :=
  { req := [], rsp := [], busy := true, done := false, vmaj := 0, vmin := 0, irqEn := false, vector := 0, err := 0
    phase := .idle, command := [], status := 0, detail := 0, payload := [], hold := [], goNo := 0, waits := 0, await := .nothing, leaf := .none
    failed := none, cont := 0, discard := false }

/-- The default bounds of a monitor's M and W codes, 4 bytes for each of the 15 monitors that have bounds, and the loops enabled (R429, R430). -/
def defaultBounds : Bytes :=
  [1, 8, 0, 6, 1, 8, 0, 6, 1, 4, 8, 12, 1, 4, 8, 14, 1, 4, 0, 8, 1, 4, 0, 8] ++ (List.replicate 8 [1, 4, 0, 8]).flatten
    ++ [1, 4, 2, 10, 0xFF, 0, 0, 0]

/-- The default settings block (R391): the layout is that of R362. -/
def defaultSettings : Bytes := [0, 1, 0, 0] ++ List.replicate 8 0 ++ defaultBounds

/-- Bimor before anything is configured. -/
def Bimor.reset : Bimor :=
  { mbx := [], nextGo := 1, auths := [], nextRef := 1, binds := [(2, 1)], sessions := [], nextSession := 1, staging := none, fwStage := []
    fwStaged := 0, custodians := { k := 0, keys := [] }, settings := defaultSettings, pending := none }

/-- What manufacture left: log entry 5 names every value. -/
def Identity.reset : Identity :=
  { seed := List.replicate 57 0, aliasKey := List.replicate 48 0, certInter := [], certIdentity := [], certAlias := []
    root384 := List.replicate 48 0, root512 := List.replicate 64 0, vkh := List.replicate 4 (List.replicate 32 0)
    revoked := 0, arb := 0, slotA := { header := [], body := [] }, slotB := { header := [], body := [] }, loopSeed := List.replicate 4 0, slot := 0
    running := [], rom := [], noImage := false }

/-- No SPDM connection. -/
def Spdm.reset : Spdm :=
  { version := 0, caps := false, algos := false, asym448 := false, sha512 := false, vca := [], certs := [], meas := []
    answer := none }

end Sys2Proof.Machine
end

