-- ==== Sys2Proof/Machine/StateChisel.lean ====
section
/-! DEFINITION. State of the Chisel cores, the recipe store and the decode table (chapters 10 to 12). -/
namespace Sys2Proof.Machine

/-- The flags Z, C, N, V and LAST of a core (R258, R289). -/
structure Flags where
  z : Bool
  c : Bool
  n : Bool
  v : Bool
  last : Bool
  deriving DecidableEq, Repr

/-- Why a running core issues nothing (R18, R198, R264, R317). -/
inductive Stall where
  /-- An ECALL whose engine entries are full: the register that takes the ticket number. -/
  | engine (wd : BitVec 4)
  /-- No leaf-buffer entry is free for an ECALL's step leaf. -/
  | leaf (wd : BitVec 4)
  /-- A read of a window page not yet loaded: the page. -/
  | window (page : Nat)
  /-- A delivery whose operand buffer's header has not been read yet (R70, R262). -/
  | header
  /-- A CX instruction while a committed decode image is not in force yet (R317). -/
  | decode
  deriving DecidableEq, Repr

/-- What a core is doing (R248, R270, R272, R275). -/
inductive CoreState where
  /-- Its cluster's domain has not let it start, or it waits to join TAKE. -/
  | idle
  | take
  | running
  /-- Running a Halsyn standard recipe bound to its item's opcode (R267), whose instructions only the firmware holds. -/
  | standard
  | stalled (why : Stall)
  /-- In EWAIT on a ticket. -/
  | waiting (t : Nat)
  /-- Its work item is over and it waits for aborts, then zeroises (R272, R280). -/
  | clearing
  deriving DecidableEq, Repr

/-- The status of a ticket number (R275). -/
inductive TicketState where
  | free
  | outstanding
  | complete
  deriving DecidableEq, Repr

/-- A ticket of a core: its area's contents (R276) and the call in progress. -/
structure Ticket where
  st : TicketState
  job : Job
  /-- The result waits for its step leaf: STEP and RDATA (R277). -/
  stepAudit : Bool
  rdata : Bytes
  stepIndex : Nat
  leaf : LeafState
  /-- Output placement: address and capacity in scratch. -/
  outAddr : Nat
  outCap : Nat
  /-- The area's fields, once the call has completed. -/
  area : Bytes
  /-- The result is discarded: the item faulted or its chamber stopped (R280). -/
  aborted : Bool
  deriving DecidableEq, Repr

/-- A sequence of microwords that waits for a window page at a LOAD (R310, R312). -/
structure MicroState where
  /-- The words of the sequence, which runs to its end although the table changes (R317). -/
  code : List (BitVec 48)
  /-- OPND of the CX instruction. -/
  opnd : BitVec 14
  /-- T0 to T3. -/
  t : List Byte
  /-- The microword that waits. -/
  ix : Nat
  /-- Microwords that may still run (R313). -/
  left : Nat
  deriving DecidableEq, Repr

/-- A Chisel core (R256 to R281). -/
structure Core where
  st : CoreState
  item : Option Nat
  recipe : Nat
  /-- Bounds of the running recipe's fetch range and its budget (R266). -/
  entry : Nat
  len : Nat
  maxcyc : Nat
  w : Tab Byte
  x : BitVec 16
  y : BitVec 16
  sp : BitVec 16
  flags : Flags
  pc : BitVec 16
  ls : Tab (BitVec 16)
  le : Tab (BitVec 16)
  lc : Tab (BitVec 16)
  /-- Open loop levels and the base below which the current frame's loops lie (R297, R302). -/
  depth : Nat
  base : Nat
  /-- Cycles of execution of the work item (R279). -/
  cycles : Nat
  /-- Cycles that the last instruction still takes before the next one issues (R296). -/
  busy : Nat
  /-- The sequence of microwords under way, where it waits (R312). -/
  micro : Option MicroState
  scratch : Memory
  window : Memory
  /-- Pages loaded, `CC_WINST.LOADED`, and `CC_WINPOS.POS`. -/
  loaded : Nat
  winpos : Nat
  tickets : Tab Ticket
  /-- Context region from 0xE000: DESC, BUFHDR, CHAMBER, GROUP, RECIPE, DSTATUS, DRESULT and the handle slots. -/
  context : Memory
  rngErr : Bool
  /-- Step-audited calls made in the work item (R277). -/
  steps : Nat
  /-- OUTPUT: highest end requested and written, and an overflow has happened (R278). -/
  outReq : Nat
  outDone : Nat
  outOver : Bool
  /-- The bytes OUTPUT has written (R278). -/
  output : Memory
  /-- The work item ended by a fault or stop, and its completion is due when the core clears. -/
  ended : Option Nat
  deriving DecidableEq, Repr

/-- An entry of the recipe table (R266). -/
structure Recipe where
  id : Nat
  entry : Nat
  len : Nat
  mask : BitVec 64
  maxcyc : Nat
  deriving DecidableEq, Repr

/-- An entry of the decode table (R305). -/
structure DecodeEntry where
  valid : Bool
  start : Nat
  len : Nat
  mask : BitVec 64
  deriving DecidableEq, Repr

/-- The recipe stores (identical in the eight clusters), the recipe table, the decode tables and microcode stores. -/
structure Chisel where
  cores : Tab Core
  store : Tab (BitVec 24)
  table : List Recipe
  decode : Tab DecodeEntry
  micro : Tab (BitVec 48)
  /-- Ranges of deleted recipes still run by a core (R269). -/
  deleted : List (Nat × Nat)
  deriving DecidableEq, Repr

/-- Flags at delivery (R258). -/
def Flags.reset : Flags := { z := false, c := false, n := false, v := false, last := false }

/-- A job that asks for nothing. -/
def Job.none : Job :=
  { opcode := 0, flags := 0, tag := 0, keyIn := 0, keyOut := 0, operands := [], ext := 0, chamber := 0, phase := .keys
    rIn := Option.none, rOut := Option.none, inLen := 0, outCap := 0, headerOk := false, input := [], held := Option.none
    creates := [], outcome := Option.none, waits := 0, pipe := 0, keyErrors := [], batch := [], filled := []
    engId := Option.none, pinpol := 0, decTabs := [], asked := false, again := Option.none }

/-- A free ticket. -/
def Ticket.reset : Ticket :=
  { st := .free, job := Job.none, stepAudit := false, rdata := [], stepIndex := 0, leaf := .none, outAddr := 0, outCap := 0
    area := [], aborted := false }

/-- A core with no work item: everything zero (R272). -/
def Core.reset : Core :=
  { st := .idle, item := Option.none, recipe := 0, entry := 0, len := 0, maxcyc := 0, w := [], x := 0, y := 0
    sp := 0, flags := Flags.reset, pc := 0, ls := [], le := [], lc := [], depth := 0, base := 0, cycles := 0, busy := 0, micro := Option.none
    scratch := [], window := [], loaded := 0, winpos := 0, tickets := [], context := [], rngErr := false, steps := 0
    outReq := 0, outDone := 0, outOver := false, output := [], ended := Option.none }

/-- No entry of the decode table. -/
def DecodeEntry.reset : DecodeEntry := { valid := false, start := 0, len := 0, mask := 0 }

/-- The word at instruction 0x0000: the TAKE of idle cores, under condition ALWAYS (R266, R284). -/
def takeWord : BitVec 24 := 0x0B8000

/-- The cores after a reset, before the firmware has loaded the stores: of them only the TAKE of idle cores is there. -/
def Chisel.reset : Chisel :=
  { cores := [], store := [(0, takeWord)], table := [], decode := [], micro := [], deleted := [] }

end Sys2Proof.Machine
end

