-- ==== Sys2Proof/Machine/StateDevice.lean ====
section
/-! DEFINITION. State of the always-on side: Ferrules and Belay (chapter 17), the monitors and BBRAM (chapter 18), Strata (chapter 19),
the power manager (chapter 21), the counters of events (chapter 22) and the host, sideband and debug ports (chapter 23). -/
namespace Sys2Proof.Machine

/-! ### Ferrules and Belay -/

/-- A Ferrule (R410 to R421). -/
structure Ferrule where
  active : List Region
  shadow : List Region
  /-- Shadow writes held while a commit is pending (R415). -/
  heldShadow : Option (List Region)
  pendingCommit : Bool
  epoch : Nat
  /-- Accesses checked under an earlier epoch and not yet complete (R414). -/
  draining : Bool
  commitFault : Bool
  viol : Nat
  /-- A Chisel core's fetch region, set at delivery (R411): first and last instruction address. -/
  fetch : Option (Nat × Nat)
  /-- Violations since the master's previous record (R420), the first one's FLAST0 and address, and the 100 ms timer. -/
  since : Nat
  firstFlast : Nat
  firstAddr : Nat
  timer : Bool
  /-- A violation met a full intake queue since the last record (R418). -/
  overrun : Bool
  deriving DecidableEq, Repr

/-- The classes of a report (R433), and none. -/
inductive RClass where
  | w
  | l
  | z
  | none
  deriving DecidableEq, Repr

/-- A record to write to Strata (R449, R453), without its time stamp. -/
structure Report where
  code : Nat
  src : Nat
  cls : RClass
  p0 : Nat
  p1 : Nat
  p2 : Nat
  /-- Made by the boot ROM (FLG ROM). -/
  rom : Bool
  /-- Details of violations were lost at the full intake queue (FLG OVERRUN). -/
  overrun : Bool
  /-- The chamber an escalation quiesces (R419), 64 for none. -/
  quiesce : Nat
  /-- Operating time at detection, us (R439). -/
  detected : Nat
  deriving DecidableEq, Repr

/-- The state of a monitor (R426). -/
inductive MonState where
  | idle
  | alarm
  | rearming
  deriving DecidableEq, Repr

/-- The glitch filter of a detector (R424), whose output is the monitor's ACT bit. -/
structure Filter where
  /-- The last sample, and how often in a row it has come, up to 4. -/
  last : Bool
  same : Nat
  /-- Consecutive samples at which the raw output changed, up to 3. -/
  changes : Nat
  deriving DecidableEq, Repr

/-- A monitor of Belay (R422 to R427, R446). -/
structure Monitor where
  m : Nat
  wcode : Nat
  countA : Nat
  countB : Nat
  actA : Bool
  actB : Bool
  filterA : Filter
  filterB : Filter
  st : MonState
  dfault : Bool
  /-- A built-in stimulus is outstanding for a detector (R427). -/
  stimA : Bool
  stimB : Bool
  /-- The stimulus after the fault has been answered. -/
  answered : Bool
  deriving DecidableEq, Repr

/-- A response that is due (R434, R436): the class to execute under R378, the report that asks for it, if one does, and the CAUSE of the
lifecycle entry (R369). -/
structure Response where
  cls : RClass
  report : Option Report
  cause : Nat
  deriving DecidableEq, Repr

/-- Belay (R418 to R446). -/
structure Belay where
  flast0 : BitVec 32
  flast1 : BitVec 32
  flast2 : BitVec 32
  /-- The values of the last violation, which a read of FLAST0 latches (R421). -/
  live0 : BitVec 32
  live1 : BitVec 32
  live2 : BitVec 32
  err : BitVec 32
  /-- The intake queue (R418). -/
  intake : List Report
  /-- Records stamped and waiting for the evidence and the recorder area (R455, R457). -/
  evidence : List Bytes
  recorder : List Bytes
  /-- Work items with a denial already counted, and the times of such items by chamber (R419). -/
  deniedItems : List Nat
  chamberTimes : Tab (List Nat)
  dapTimes : List Nat
  armed : Bool
  /-- What Lantern has reseeded the twelve patterns with since the TMP domain's power-on; nothing where they run from the seed in OTP (R428). -/
  patterns : Option Bytes
  monitors : Tab Monitor
  loopEn : Nat
  loopL : Nat
  responses : List Response
  /-- ALARM output asserted since the last reset (R548). -/
  alarmOut : Bool
  /-- `BLY_PEND`. -/
  committed : Nat
  overflowCommitted : Nat
  deriving DecidableEq, Repr

/-- BBRAM (R441). -/
structure Bbram where
  /-- The DRK with its validity marker. -/
  drk : Option Bytes
  markerOk : Bool
  crcOk : Bool
  lifecycle : Nat
  zDone : Bool
  lDone : Bool
  overflow : Nat
  batSeconds : Nat
  pending : List Bytes
  deriving DecidableEq, Repr

/-- Strata (R447 to R461). -/
structure Strata where
  /-- Evidence slots used, in order, each as programmed (R455). -/
  evidence : List Bytes
  /-- Evidence records dropped for want of slots have set the device's state (R456). -/
  evidenceFull : Bool
  /-- Lifecycle log entries, 8 bytes each (R369). -/
  lifecycleLog : List Bytes
  /-- Recorder: records by slot, and the next SERIAL (R457). -/
  recorder : Tab Bytes
  serial : Nat
  fullCount : Nat
  fullLast : Nat
  /-- Committed configuration generations, 96 bytes each (R391). -/
  generations : List Bytes
  pcc : Nat
  optBase : Nat
  /-- The Sump head: blank, or ROOTV and JMAC (R221). -/
  sumpHead : Option (Nat × Bytes)
  creation : Tab Nat
  /-- The copy of the tamper settings: M and W code by monitor (R431). -/
  tamperCopy : Tab (Nat × Nat)
  deriving DecidableEq, Repr

/-! ### Power -/

/-- The power manager (R500 to R519). -/
structure Pmc where
  st : Nat
  cause : Nat
  perst : Bool
  floor : Nat
  darkIdle : Nat
  deepIdle : Nat
  offDelay : Nat
  /-- Domain masks, bit d of R519. -/
  on : BitVec 24
  warming : BitVec 24
  retain : BitVec 24
  keep : BitVec 24
  err : BitVec 32
  cap : Tab Nat
  refill : Tab Nat
  tokens : Tab Nat
  /-- A `PMC_RAIL` write that takes effect at the next microsecond: rail, CAP, REFILL (R510). -/
  pendingRail : List (Nat × Nat × Nat)
  wmax : Tab Nat
  /-- Queued wakes: domain and time of the request in CLK_DP cycles (R508). -/
  queue : List (Nat × Nat)
  /-- Granted wakes: domain and time of the request (R509). -/
  granted : List (Nat × Nat)
  /-- Main power good; SYS_RST_N and PERST_N asserted; a warm reset running and its cause. -/
  powerGood : Bool
  sysRst : Bool
  perstN : Bool
  /-- A reset of the PCI domain waits for the commit in progress (R222). -/
  perstDue : Bool
  warm : Option Nat
  /-- Operating time at the release of the last reset, the reference of R390. -/
  reference : Nat
  /-- A DEVICE_RESET has responded and its 10 us are running (R516). -/
  resetScheduled : Bool
  /-- Its warm reset waits for a response of Belay that is under way (R517). -/
  resetDue : Bool
  /-- The always-on supply is VBAT (R556). -/
  onBattery : Bool
  /-- The boot of R390 has run; the mailboxes are READY; restoring after Dormant (R504). -/
  booted : Bool
  ready : Bool
  restoring : Bool
  deriving DecidableEq, Repr

/-! ### Counters -/

/-- The owner of a programmable counter (R523): free, the PF, or a chamber. -/
inductive CtrOwner where
  | free
  | pf
  | chamber (c : Nat)
  deriving DecidableEq, Repr

/-- A programmable counter (R520 to R523). -/
structure Ctr where
  event : Nat
  level : Bool
  chain : Bool
  en : Bool
  owner : CtrOwner
  count : BitVec 32
  deriving DecidableEq, Repr

/-- The counters of events (R520 to R530). -/
structure Counters where
  /-- Programmable counters by unit * 8 + number. -/
  prog : Tab Ctr
  /-- Values latched by a read of a unit (R529), by unit * 8 + number, and the latched unit. -/
  latch : Tab Nat
  latchUnit : Option Nat
  cycles : Tab Nat
  /-- Latched high words: Tally counters 0 to 255, cycle counters from 256. -/
  highLatch : Tab Nat
  /-- A core's low-byte latch: core * 16 + counter (R527). -/
  byteLatch : Tab Nat
  /-- The events that last which were asserted in the cycle before (R521), by unit, code and chamber, with 64 for any. -/
  asserted : List (Nat × Nat × Nat)
  tally : Tab Nat
  tlyErr : BitVec 32
  deriving DecidableEq, Repr

/-! ### Ports -/

/-- PCIe (R532 to R539). -/
structure Pcie where
  vfEnable : Bool
  /-- Bus Master Enable and MSI-X Enable, by function. -/
  bme : Tab Bool
  msixEn : Tab Bool
  /-- The MSI-X table, address and data (R537); vectors whose mask bit is clear; pending ones: by function * 64 + vector. -/
  table : Tab (Nat × Nat)
  unmasked : List Nat
  pendingMsix : List Nat
  d3hot : Bool
  deriving DecidableEq, Repr

/-- The SMBus target (R540 to R542, R563). -/
structure Smbus where
  /-- The 7-bit address, from the strap balls (log entry 6). -/
  addr : Nat
  pec : Bool
  reqBusy : Bool
  overrun : Bool
  range : Bool
  deriving DecidableEq, Repr

/-- JTAG instructions (R545). -/
inductive JtagIr where
  | extest
  | idcode
  | sample
  | highz
  | clamp
  | dap
  | bypass
  deriving DecidableEq, Repr

/-- The low-speed I/O (R548 to R551) and the TAP (R545). -/
structure Io where
  /-- Configuration bytes of the GPIO pins and LEDs (R548). -/
  gpio : Tab Nat
  led : Tab Nat
  /-- The payload of the last IO_CONFIG, which its system record keeps; none before the first. -/
  config : Option Bytes
  inputs : BitVec 8
  suppressed : BitVec 8
  /-- The time of the last wake or beat a pin caused, us. -/
  lastWake : Tab Nat
  ir : JtagIr
  deriving DecidableEq, Repr

/-! ### Reset values -/

/-- A Ferrule with no rule, at epoch 0 (R421). -/
def Ferrule.reset : Ferrule :=
  { active := [], shadow := [], heldShadow := none, pendingCommit := false, epoch := 0, draining := false
    commitFault := false, viol := 0, fetch := none, since := 0, firstFlast := 0, firstAddr := 0, timer := false
    overrun := false }

/-- The default M and W code of a monitor (R430, R429 for those without bounds). -/
def Monitor.defaults (k : Nat) : Nat × Nat :=
  if k ≤ 1 then (4, 4)
  else if k = 2 then (2, 10)
  else if k = 3 then (2, 12)
  else if k ≤ 5 then (2, 4)
  else if k = 6 ∨ k = 7 then (1, 0)
  else if k ≤ 15 then (2, 4)
  else if k = 17 then (2, 6)
  else (1, 0)

/-- A filter before its first sample: as after inactive ones (DESIGN CHOICE, log entry 120). -/
def Filter.reset : Filter := { last := false, same := 4, changes := 0 }

/-- A monitor at TMP power-on (R426, R430). -/
def Monitor.reset (k : Nat) : Monitor :=
  { m := (Monitor.defaults k).1, wcode := (Monitor.defaults k).2, countA := 0, countB := 0, actA := false, actB := false
    filterA := Filter.reset, filterB := Filter.reset, st := .idle, dfault := false, stimA := false, stimB := false, answered := false }

/-- Belay at TMP power-on (R446) and after a reset (R421). -/
def Belay.reset : Belay :=
  { flast0 := 0, flast1 := 0, flast2 := 0, live0 := 0, live1 := 0, live2 := 0, err := 0, intake := [], evidence := []
    recorder := [], deniedItems := [], chamberTimes := [], dapTimes := [], armed := false, patterns := none
    monitors := (List.range 19).map fun k => (k, Monitor.reset k)
    loopEn := 0xFF, loopL := 0, responses := [], alarmOut := false, committed := 0, overflowCommitted := 0 }

/-- BBRAM before commissioning: no DRK, and a tamper state written at manufacture (R441). -/
def Bbram.reset : Bbram :=
  { drk := none, markerOk := false, crcOk := true, lifecycle := 0, zDone := false, lDone := false, overflow := 0
    batSeconds := 0, pending := [] }

/-- Strata at manufacture (R450). -/
def Strata.reset : Strata :=
  { evidence := [], evidenceFull := false, lifecycleLog := [], recorder := [], serial := 0, fullCount := 0, fullLast := 0
    generations := [], pcc := 0, optBase := 0, sumpHead := none, creation := [], tamperCopy := [] }

/-- The power manager after the power-up of R518 (R519). -/
def Pmc.reset : Pmc :=
  { st := 0, cause := 0, perst := false, floor := 3, darkIdle := 4, deepIdle := 10, offDelay := 0x64, on := 0x940003
    warming := 0, retain := 0, keep := 0, err := 0
    cap := [(0, 0x0C8), (1, 0x064), (2, 0x078), (3, 0x03C)], refill := [(0, 0x014), (1, 0x00A), (2, 0x00C), (3, 0x006)]
    tokens := [(0, 0x0C8), (1, 0x064), (2, 0x078), (3, 0x03C)]
    pendingRail := [], wmax := [], queue := [], granted := [], powerGood := true, sysRst := false, perstN := true
    perstDue := false, warm := none, reference := 1000000, resetScheduled := false, resetDue := false, onBattery := false, booted := false, ready := false, restoring := false }

/-- A counter that is free (R525). -/
def Ctr.reset : Ctr := { event := 0, level := false, chain := false, en := false, owner := .free, count := 0 }

/-- The counters after a cold reset (R525, R530). -/
def Counters.reset : Counters :=
  { prog := [], latch := [], latchUnit := none, cycles := [], highLatch := [], byteLatch := [], asserted := [], tally := [], tlyErr := 0 }

/-- PCIe before the host has enumerated the device: every vector masked. -/
def Pcie.reset : Pcie :=
  { vfEnable := false, bme := [], msixEn := [], table := [], unmasked := [], pendingMsix := [], d3hot := false }

/-- The SMBus target after a reset. -/
def Smbus.reset : Smbus := { addr := 0x58, pec := false, reqBusy := false, overrun := false, range := false }

/-- The low-speed I/O before its first configuration (R548) and the TAP after its reset (R545). -/
def Io.reset : Io :=
  { gpio := [], led := [], config := none, inputs := 0, suppressed := 0, lastWake := [], ir := .idcode }

end Sys2Proof.Machine
end

