-- ==== Sys2Proof/Machine/StateKerard.lean ====
section
/-! DEFINITION. State of the Kerard ring and the twin pair (chapter 20). -/
namespace Sys2Proof.Machine

/-- The state of a Kerard link (R499). -/
inductive LinkState where
  | down
  | training
  | up
  | version
  deriving DecidableEq, Repr

/-- A Kerard port (R464, R467, R499). -/
structure Link where
  st : LinkState
  gen2 : Bool
  lmaj : Nat
  lmin : Nat
  neighbour : Nat
  retrains : Nat
  /-- The highest generation and the versions the far end's VERSION frame offered (R468). -/
  peerGen : Nat
  deriving DecidableEq, Repr

/-- What the last DISCOVER frame of a node said (R474). -/
structure Seen where
  device : Bytes
  role : Nat
  pairNo : Nat
  pairRole : Nat
  /-- Nodes on the way, by the port the frame came in on. -/
  viaA : Option Nat
  viaB : Option Nat
  /-- Its SEEN bit. -/
  live : Bool
  deriving DecidableEq, Repr

/-- `KRD_PAIR.STATE` (R499). -/
inductive PState where
  | none
  | joining
  | syncing
  | inSync
  | degraded
  | stale
  | isolated
  deriving DecidableEq, Repr

/-- Roles in a pair (R478). -/
inductive PRole where
  | none
  | active
  | standby
  deriving DecidableEq, Repr

/-- Sequence counters of an endpoint under a key (R473, R475). -/
structure FSeq where
  sent : Nat
  accepted : Nat
  deriving DecidableEq, Repr

/-- A mirror frame not yet acknowledged (R476): its plaintext payload and kind. -/
structure MirrorOut where
  /-- MSEQ of a commit, BATCH_NO of a header entry. -/
  no : Nat
  /-- A header entry's SCOPE; none for a commit. -/
  hdrScope : Option Nat
  payload : Bytes
  sync : Bool
  waiters : List Waiter
  deriving DecidableEq, Repr

/-- A mirror frame that a standby has taken in and not yet wholly committed (R483): its plaintext, what its system records set up, whether it
is the last frame of a resynchronisation, and whether its commit has been asked for. -/
structure MirrorIn where
  payload : Bytes
  setups : List Setup
  last : Bool
  asked : Bool
  deriving DecidableEq, Repr

/-- A pair a ring referee serves (R479, R488, R491). -/
structure RefPair where
  pairId : Bytes
  activeNode : Nat
  standbyNode : Nat
  claim : Nat
  holder : Nat
  /-- Missed intervals and failure of each member. -/
  missA : Nat
  missS : Nat
  failedA : Bool
  failedS : Bool
  /-- The standby reported IN_SYNC in its last HEARTBEAT. -/
  sSync : Bool
  keyA : Bytes
  keyS : Bytes
  /-- The PAIR_JOIN payloads the members have sent while a pairing is under way, and the scalars drawn to answer them. -/
  joinA : Option Bytes
  joinS : Option Bytes
  scalarA : Bytes
  scalarS : Bytes
  rejoin : Bool
  deriving DecidableEq, Repr

/-- The Kerard block (R464 to R499). -/
structure Kerard where
  linkA : Link
  linkB : Link
  bypassOpen : Bool
  bypassTrying : Bool
  /-- The node ID sampled from the strap balls (R465). -/
  node : Nat
  seen : Tab Seen
  dupId : Bool
  /-- Pair state, persistent (R447, R491). -/
  st : PState
  role : PRole
  refHost : Bool
  peerNode : Nat
  peerDevice : Bytes
  referee : Nat
  refereeDevice : Bytes
  pairId : Bytes
  held : Nat
  claimSeen : Nat
  /-- Keys of R478: transport, member link, referee link. -/
  transport : Bytes
  linkKey : Bytes
  refKey : Bytes
  /-- Global index of the counted record of the transport key, its next count and mark. -/
  txGidx : Nat
  txEpoch : Nat
  txCount : Nat
  txMark : Nat
  /-- A handshake under way: ephemeral scalar, PAIR_JOIN payloads received from peer and referee (R11, R478). -/
  joinScalar : Bytes
  joinPeer : Option Bytes
  joinRef : Option Bytes
  joinRole : PRole
  rejoin : Bool
  /-- The mailbox whose PAIR_CREATE waits. -/
  joinMbx : Option Mbx
  fPeer : FSeq
  fRef : FSeq
  /-- FSEQ counters a referee keeps, by node. -/
  fMembers : Tab FSeq
  missPeer : Nat
  missRef : Nat
  refOk : Bool
  /-- HOST_TIMEOUT has passed without a beat of the host referee (R489). -/
  hostLost : Bool
  peerOk : Bool
  /-- MSEQ of the last commit sent (active) or committed (standby). -/
  mseq : Nat
  out : List MirrorOut
  /-- The MSEQ of the last SYNC frame, once it is known (R480). -/
  lastSync : Option Nat
  /-- Operating time of the last HEARTBEAT verified, us (R365). -/
  lastBeat : Nat
  /-- Mirror frames taken in and not yet committed, by MSEQ (R483). -/
  early : Tab MirrorIn
  /-- Waiters that no acknowledgement holds any more (R488, R493). -/
  released : List Waiter
  /-- The state that ISOLATED has taken the place of (R489). -/
  before : PState
  /-- The last header entry of each mirrored chain: BATCH_NO and entry (R484). -/
  headers : Tab (Nat × Bytes)
  /-- Records still to copy in a resynchronisation (R480). -/
  resync : List Nat
  /-- The copy under way has been announced and its last frame is sent. -/
  resyncing : Bool
  /-- LEAF frames sent and not acknowledged: reference and mailbox (R484). -/
  leafOut : List (Nat × Mbx)
  nextLeafRef : Nat
  /-- Pairs served as referee, by PAIRNO. -/
  served : Tab RefPair
  /-- Claim table of the receive ports: by PAIRNO (R492). -/
  table : Tab Nat
  dropsClaim : Nat
  dropsAuth : Nat
  gen1 : Bool
  vecEn : Bool
  vector : Nat
  hostTimeout : Nat
  err : BitVec 32
  /-- Egress closed: the device has learnt of a higher claim (R493), or is ISOLATED (R489). -/
  egressClosed : Bool
  deriving DecidableEq, Repr

/-- A port that is down. -/
def Link.reset : Link :=
  { st := .down, gen2 := false, lmaj := 0, lmin := 0, neighbour := 0, retrains := 0, peerGen := 0 }

/-- A pair of sequence counters under new keys (R475). -/
def FSeq.reset : FSeq := { sent := 0, accepted := 0 }

/-- A node never heard of. -/
def Seen.reset : Seen :=
  { device := [], role := 0, pairNo := 0xFF, pairRole := 0, viaA := none, viaB := none, live := false }

/-- Kerard at first power-on: in no pair, claim 0 (R491). -/
def Kerard.reset : Kerard :=
  { linkA := Link.reset, linkB := Link.reset, bypassOpen := false, bypassTrying := false, node := 0, seen := []
    dupId := false, st := .none, role := .none, refHost := false, peerNode := 0, peerDevice := [], referee := 0
    refereeDevice := [], pairId := [], held := 0, claimSeen := 0, transport := [], linkKey := [], refKey := []
    txGidx := 0, txEpoch := 0, txCount := 0, txMark := 0, joinScalar := [], joinPeer := none, joinRef := none
    joinRole := .none, rejoin := false, joinMbx := none, fPeer := FSeq.reset, fRef := FSeq.reset, fMembers := []
    missPeer := 0, missRef := 0, refOk := false, hostLost := false, peerOk := false, mseq := 0, out := [], lastSync := none, lastBeat := 0, early := [], released := []
    before := .none, headers := []
    resync := [], resyncing := false, leafOut := [], nextLeafRef := 1, served := [], table := [], dropsClaim := 0
    dropsAuth := 0, gen1 := false, vecEn := false, vector := 0, hostTimeout := 10, err := 0, egressClosed := false }

end Sys2Proof.Machine
end

