-- ==== Sys2Proof/Machine/Block.lean ====
section
/-! DEFINITION. The whole of the device but its queue of commands: every piece of state the manual gives it, as plain data. -/
namespace Sys2Proof.Machine

/-- What Sump's and Headstock's system records hold of the device's set-up while, after a reset, the device has not read them again (R213,
R390 step 8): chambers with their queues, chains, recipes and decode image, handle keys, and the I/O configuration. -/
structure Records where
  ch : Tab Chamber
  chains : Tab Chain
  chisel : Chisel
  handleKeys : Tab Bytes
  sysHandleKey : Bytes
  /-- The system chain's audit keys (R45, R192). -/
  auditSeeds : Tab Bytes
  io : Option Bytes
  deriving DecidableEq, Repr

/-- The device. -/
structure Block where
  /-- log2 of N, the chamber count in force (R319, R391). -/
  nlog2 : Nat
  /-- The board: DDR-5 size in GiB, one channel or two, and whether a battery is fitted (log entry 6). -/
  memGiB : Nat
  dual : Bool
  /-- Operating time in us (R451). -/
  now : Nat
  /-- Cycles of CLK_DP since the last device reset, and within the microsecond. -/
  cyc : Nat
  /-- Free values drawn (log entry 2). -/
  free : Nat
  /-- What the device has put on its pins. -/
  out : List Out
  /-- The lifecycle state's code (R368). -/
  life : Nat
  ch : Tab Chamber
  /-- Set-up not read back yet after a reset. -/
  records : Option Records
  /-- The recipes and the decode image as Sump and the firmware keep them, while the stores have lost them in Dormant (R257, R318). -/
  stored : Option Chisel
  chuck : Chuck
  spindle : Spindle
  auger : Auger
  gallery : Gallery
  keys : Keys
  sump : Sump
  /-- Chains 0 to 63 and the system chain, 64 (R191). -/
  chains : Tab Chain
  lantern : Lantern
  chisel : Chisel
  bimor : Bimor
  identity : Identity
  spdm : Spdm
  kerard : Kerard
  ferrules : Tab Ferrule
  belay : Belay
  bbram : Bbram
  strata : Strata
  pmc : Pmc
  counters : Counters
  pcie : Pcie
  smbus : Smbus
  io : Io
  deriving DecidableEq, Repr

/-- The device right after a cold reset of a part as Halsyn ships it (R368, R518): power good, nothing booted. Operating time starts 16 units
beyond a base of zero (R451). The board is the model's (log entry 6). -/
def Block.reset : Block :=
  { nlog2 := 0, memGiB := 128, dual := true, now := 1000000, cyc := 0, free := 0, out := [], life := 0, ch := [], records := none, stored := none
    chuck := Chuck.reset, spindle := Spindle.reset, auger := Auger.reset, gallery := Gallery.reset, keys := Keys.reset
    sump := Sump.reset, chains := [], lantern := Lantern.reset, chisel := Chisel.reset, bimor := Bimor.reset
    identity := Identity.reset, spdm := Spdm.reset, kerard := Kerard.reset, ferrules := [], belay := Belay.reset
    bbram := Bbram.reset, strata := Strata.reset, pmc := Pmc.reset, counters := Counters.reset, pcie := Pcie.reset
    smbus := Smbus.reset, io := Io.reset }

end Sys2Proof.Machine
end

