-- ==== Sys2Proof/Machine/Hash.lean ====
section
/-! DEFINITION. The hash functions of Auger (R152): Keccak with SHA-3 and SHAKE (FIPS 202), SHA-256, SHA-384 and SHA-512 (FIPS 180-4),
HMAC (FIPS 198-1). The manual names the standards and does not repeat them: log entry 1. -/
namespace Sys2Proof.Machine

/-- A Keccak state: 25 lanes, lane `x + 5 y` at index `x + 5 y`. -/
abbrev Lanes := Array (BitVec 64)

/-- The rotation of each lane, from the walk `(x, y) := (y, 2x + 3y)`. -/
def keccakRot : Array Nat :=
  ((List.range 24).foldl (fun (p : Array Nat × Nat × Nat) t =>
    (p.1.set! (p.2.1 + 5 * p.2.2) ((t + 1) * (t + 2) / 2 % 64), p.2.2, (2 * p.2.1 + 3 * p.2.2) % 5))
    (Array.replicate 25 0, 1, 0)).1

/-- One step of the round-constant register. -/
def keccakLfsr (r : Nat) : Nat := if r.testBit 7 then ((2 * r) ^^^ 0x71) % 256 else 2 * r

/-- The 24 round constants. -/
def keccakRC : List (BitVec 64) :=
  ((List.range 24).foldl (fun (p : List (BitVec 64) × Nat) _ =>
    let q := (List.range 7).foldl (fun (q : Nat × Nat) j =>
      ((if q.2 % 2 = 1 then q.1 + 2 ^ (2 ^ j - 1) else q.1), keccakLfsr q.2)) (0, p.2)
    (p.1 ++ [BitVec.ofNat 64 q.1], q.2)) ([], 1)).1

/-- One round of Keccak-f[1600]. -/
def keccakRound (a : Lanes) (rc : BitVec 64) : Lanes :=
  let c : Array (BitVec 64) := ((List.range 5).map fun x =>
    a.getD x 0 ^^^ a.getD (x + 5) 0 ^^^ a.getD (x + 10) 0 ^^^ a.getD (x + 15) 0 ^^^ a.getD (x + 20) 0).toArray
  let d : Array (BitVec 64) := ((List.range 5).map fun x =>
    c.getD ((x + 4) % 5) 0 ^^^ (c.getD ((x + 1) % 5) 0).rotateLeft 1).toArray
  let b : Lanes := (List.range 25).foldl (fun (b : Lanes) i =>
    let x := i % 5
    let y := i / 5
    b.set! (y + 5 * ((2 * x + 3 * y) % 5)) ((a.getD i 0 ^^^ d.getD x 0).rotateLeft (keccakRot.getD i 0)))
    (Array.replicate 25 0)
  let e : Lanes := ((List.range 25).map fun i =>
    let y := i / 5
    b.getD i 0 ^^^ (~~~ (b.getD (5 * y + (i + 1) % 5) 0) &&& b.getD (5 * y + (i + 2) % 5) 0)).toArray
  e.set! 0 (e.getD 0 0 ^^^ rc)

/-- Keccak-f[1600]: one Auger permutation. -/
def keccakF (a : Lanes) : Lanes := keccakRC.foldl keccakRound a

/-- A block XORed into the first lanes. -/
def keccakAbsorbBlock (a : Lanes) (blk : Bytes) : Lanes :=
  keccakF (((chunks 8 blk).zipIdx).foldl (fun (a : Lanes) p =>
    a.set! p.2 (a.getD p.2 0 ^^^ BitVec.ofNat 64 (ofLe p.1))) a)

/-- The bytes of the first `rate / 8` lanes. -/
def keccakOut (rate : Nat) (a : Lanes) : Bytes :=
  (List.range (rate / 8)).flatMap fun i => leBytes 8 (a.getD i 0).toNat

/-- Squeeze `n` blocks. -/
def keccakSqueeze (rate : Nat) : Nat → Lanes → Bytes
  | 0, _ => []
  | n + 1, a => keccakOut rate a ++ keccakSqueeze rate n (keccakF a)

/-- The sponge: `rate` bytes a block, domain suffix byte `dom`, `n` bytes of output. -/
def keccak (rate : Nat) (dom : Byte) (msg : Bytes) (n : Nat) : Bytes :=
  let padLen := rate - msg.length % rate
  let padded := msg ++ (if padLen = 1 then [dom ||| 0x80] else dom :: zeros (padLen - 2) ++ [0x80])
  let a := (chunks rate padded).foldl keccakAbsorbBlock (Array.replicate 25 0)
  (keccakSqueeze rate ((n + rate - 1) / rate) a).take n

/-- SHAKE256 with `n` bytes of output. -/
def shake256 (msg : Bytes) (n : Nat) : Bytes := keccak 136 0x1F msg n

/-- SHAKE128 with `n` bytes of output. -/
def shake128 (msg : Bytes) (n : Nat) : Bytes := keccak 168 0x1F msg n

/-- SHA3-256. -/
def sha3_256 (msg : Bytes) : Bytes := keccak 136 0x06 msg 32

/-- SHA3-384. -/
def sha3_384 (msg : Bytes) : Bytes := keccak 104 0x06 msg 48

/-- SHA3-512. -/
def sha3_512 (msg : Bytes) : Bytes := keccak 72 0x06 msg 64

/-- The largest `r < 2 ^ b` with `r ^ k ≤ n`, bit by bit from bit `b - 1`. -/
def rootFloor (k n : Nat) : Nat → Nat
  | 0 => 0
  | b + 1 =>
    let rec go : Nat → Nat → Nat
      | 0, r => r
      | i + 1, r => let r' := r + 2 ^ i; go i (if r' ^ k ≤ n then r' else r)
    go (b + 1) 0

/-- The first 80 primes. -/
def sha2Primes : List Nat := ((List.range 410).filter fun n => 2 ≤ n ∧ (List.range n).all fun d => d < 2 ∨ n % d ≠ 0).take 80

/-- The first 64 bits of the fractional part of the cube root of a prime. -/
def sha2K (p : Nat) : BitVec 64 := BitVec.ofNat 64 (rootFloor 3 (p * 2 ^ 192) 68)

/-- The first 64 bits of the fractional part of the square root of a prime. -/
def sha2H (p : Nat) : BitVec 64 := BitVec.ofNat 64 (rootFloor 2 (p * 2 ^ 128) 69)

/-- The eighty constants of SHA-512. -/
def sha512K : List (BitVec 64) := sha2Primes.map sha2K

/-- The sixty-four constants of SHA-256: the high halves of the first 64. -/
def sha256K : List (BitVec 32) := (sha512K.take 64).map fun k => k.extractLsb' 32 32

/-- The message schedule of SHA-2 of word width `w`, newest word first, extended by `n` words. -/
def sha2Extend {w : Nat} (s0 s1 : BitVec w → BitVec w) : Nat → List (BitVec w) → List (BitVec w)
  | 0, l => l
  | n + 1, l => sha2Extend s0 s1 n ((s1 (l.getD 1 0) + l.getD 6 0 + s0 (l.getD 14 0) + l.getD 15 0) :: l)

/-- The compression function of SHA-2 on one schedule. -/
def sha2Rounds {w : Nat} (e0 e1 : BitVec w → BitVec w) (ks ws : List (BitVec w)) (h : List (BitVec w)) : List (BitVec w) :=
  let r := (ks.zip ws).foldl (fun (v : List (BitVec w)) kw =>
    match v with
    | [a, b, c, d, e, f, g, hh] =>
      let t1 := hh + e1 e + ((e &&& f) ^^^ (~~~ e &&& g)) + kw.1 + kw.2
      let t2 := e0 a + ((a &&& b) ^^^ (a &&& c) ^^^ (b &&& c))
      [t1 + t2, a, b, c, d + t1, e, f, g]
    | v => v) h
  List.zipWith (· + ·) h r

/-- SHA-2 padding for blocks of `blk` bytes with a length field of `lf` bytes. -/
def sha2Pad (blk lf : Nat) (msg : Bytes) : Bytes :=
  let z := (2 * blk - 1 - lf - msg.length % blk) % blk
  msg ++ [0x80] ++ zeros z ++ beBytes lf (8 * msg.length)

/-- SHA-256. -/
def sha256 (msg : Bytes) : Bytes :=
  let s0 := fun (x : BitVec 32) => x.rotateRight 7 ^^^ x.rotateRight 18 ^^^ (x >>> 3)
  let s1 := fun (x : BitVec 32) => x.rotateRight 17 ^^^ x.rotateRight 19 ^^^ (x >>> 10)
  let e0 := fun (x : BitVec 32) => x.rotateRight 2 ^^^ x.rotateRight 13 ^^^ x.rotateRight 22
  let e1 := fun (x : BitVec 32) => x.rotateRight 6 ^^^ x.rotateRight 11 ^^^ x.rotateRight 25
  let iv : List (BitVec 32) := (sha2Primes.take 8).map fun p => (sha2H p).extractLsb' 32 32
  let h := (chunks 64 (sha2Pad 64 8 msg)).foldl (fun h b =>
    let w := (sha2Extend s0 s1 48 ((chunks 4 b).map fun x => BitVec.ofNat 32 (ofBe x)).reverse).reverse
    sha2Rounds e0 e1 sha256K w h) iv
  h.flatMap fun x => beBytes 4 x.toNat

/-- SHA-512 with the given initial value. -/
def sha512With (iv : List (BitVec 64)) (msg : Bytes) : Bytes :=
  let s0 := fun (x : BitVec 64) => x.rotateRight 1 ^^^ x.rotateRight 8 ^^^ (x >>> 7)
  let s1 := fun (x : BitVec 64) => x.rotateRight 19 ^^^ x.rotateRight 61 ^^^ (x >>> 6)
  let e0 := fun (x : BitVec 64) => x.rotateRight 28 ^^^ x.rotateRight 34 ^^^ x.rotateRight 39
  let e1 := fun (x : BitVec 64) => x.rotateRight 14 ^^^ x.rotateRight 18 ^^^ x.rotateRight 41
  let h := (chunks 128 (sha2Pad 128 16 msg)).foldl (fun h b =>
    let w := (sha2Extend s0 s1 64 ((chunks 8 b).map fun x => BitVec.ofNat 64 (ofBe x)).reverse).reverse
    sha2Rounds e0 e1 sha512K w h) iv
  h.flatMap fun x => beBytes 8 x.toNat

/-- SHA-512. -/
def sha512 (msg : Bytes) : Bytes := sha512With ((sha2Primes.take 8).map sha2H) msg

/-- SHA-384. -/
def sha384 (msg : Bytes) : Bytes := (sha512With (((sha2Primes.drop 8).take 8).map sha2H) msg).take 48

/-- HMAC over a hash of block size `blk` (R151). -/
def hmacWith (hash : Bytes → Bytes) (blk : Nat) (key msg : Bytes) : Bytes :=
  let k := fit blk (if blk < key.length then hash key else key)
  hash (k.map (· ^^^ 0x5C) ++ hash (k.map (· ^^^ 0x36) ++ msg))

/-- HMAC-SHA-256. -/
def hmacSha256 (key msg : Bytes) : Bytes := hmacWith sha256 64 key msg

/-- HMAC-SHA-384. -/
def hmacSha384 (key msg : Bytes) : Bytes := hmacWith sha384 128 key msg

/-- HMAC-SHA-512. -/
def hmacSha512 (key msg : Bytes) : Bytes := hmacWith sha512 128 key msg

end Sys2Proof.Machine
end

