-- ==== Sys2Proof/Machine/Curves.lean ====
section
/-! DEFINITION. The elliptic curves of Gallery (R153, R163): Ed25519 and Ed448 after RFC 8032, X25519 and X448 after RFC 7748, P-256
and P-384 with ECDSA after FIPS 186-5 and RFC 6979. What the standards hold is PRESUMED from them (log entry 1). -/
namespace Sys2Proof.Machine

/-- `b ^ e` modulo `m`. -/
def powMod (m b e : Nat) : Nat :=
  (List.range (log2 e + 1)).foldr (fun i a => let q := a * a % m; if e.testBit i then q * b % m else q) (1 % m)

/-- The inverse modulo a prime. -/
def invMod (p a : Nat) : Nat := powMod p a (p - 2)

/-- A square root modulo a prime that is 3 modulo 4 or 5 modulo 8, if there is one. -/
def sqrtMod (p a : Nat) : Option Nat :=
  let a := a % p
  let c := if p % 4 = 3 then powMod p a ((p + 1) / 4) else powMod p a ((p + 3) / 8)
  if c * c % p = a then some c
  else
    let c' := c * powMod p 2 ((p - 1) / 4) % p
    if c' * c' % p = a then some c' else none

/-! ### Edwards curves -/

/-- A twisted Edwards curve of RFC 8032. -/
structure EdCurve where
  p : Nat
  a : Nat
  d : Nat
  order : Nat
  cofactor : Nat
  /-- Bytes of an encoded point. -/
  len : Nat
  bx : Nat
  byy : Nat

/-- edwards25519. -/
def ed25519 : EdCurve :=
  { p := 2 ^ 255 - 19, a := 2 ^ 255 - 20
    d := 37095705934669439343138083508754565189542113879843219016388785533085940283555
    order := 2 ^ 252 + 27742317777372353535851937790883648493, cofactor := 8, len := 32
    bx := 15112221349535400772501151409588531511454012693041857206046113283949847762202
    byy := 46316835694926478169428394003475163141307993866256225615783033603165251855960 }

/-- edwards448. -/
def ed448 : EdCurve :=
  { p := 2 ^ 448 - 2 ^ 224 - 1, a := 1, d := 2 ^ 448 - 2 ^ 224 - 1 - 39081
    order := 2 ^ 446 - 13818066809895115352007386748515426880336692474882178609894547503885, cofactor := 4, len := 57
    bx := 224580040295924300187604334099896036246789641632564134246125461686950415467406032909029192869357953282578032075146446173674602635247710
    byy := 298819210078481492676017930443930673437544040154080242095928241372331506189835876003536878655418784733982303233503462500531545062832660 }

/-- A point in projective coordinates. -/
abbrev EdPoint := Nat × Nat × Nat

/-- The neutral element. -/
def edZero : EdPoint := (0, 1, 1)

/-- The base point. -/
def EdCurve.base (c : EdCurve) : EdPoint := (c.bx, c.byy, 1)

/-- The complete addition law. -/
def edAdd (c : EdCurve) (s t : EdPoint) : EdPoint :=
  let p := c.p
  let a := s.2.2 * t.2.2 % p
  let b := a * a % p
  let x := s.1 * t.1 % p
  let y := s.2.1 * t.2.1 % p
  let e := c.d * x % p * y % p
  let f := (b + p - e) % p
  let g := (b + e) % p
  let h := ((s.1 + s.2.1) * (t.1 + t.2.1) + 2 * p - x - y) % p
  (a * f % p * h % p, a * g % p * ((y + c.a * (p - x)) % p) % p, f * g % p)

/-- A scalar multiple. -/
def edMul (c : EdCurve) (k : Nat) (t : EdPoint) : EdPoint :=
  (List.range (log2 k + 1)).foldr (fun i r => let q := edAdd c r r; if k.testBit i then edAdd c q t else q) edZero

/-- Equality of points. -/
def edEq (c : EdCurve) (s t : EdPoint) : Bool :=
  s.1 * t.2.2 % c.p == t.1 * s.2.2 % c.p && s.2.1 * t.2.2 % c.p == t.2.1 * s.2.2 % c.p

/-- The encoding of a point (RFC 8032). -/
def edEncode (c : EdCurve) (t : EdPoint) : Bytes :=
  let z := invMod c.p t.2.2
  let x := t.1 * z % c.p
  leBytes c.len (t.2.1 * z % c.p + (x % 2) * 2 ^ (8 * c.len - 1))

/-- A point decoded, with the checks of R181: y below p, x recoverable, the sign consistent where x is zero. -/
def edDecode (c : EdCurve) (b : Bytes) : Option EdPoint :=
  let v := ofLe b
  let y := v % 2 ^ (8 * c.len - 1)
  let sign := v / 2 ^ (8 * c.len - 1)
  if b.length = c.len ∧ y < c.p then
    let y2 := y * y % c.p
    let u := (1 + c.p - y2) % c.p
    let w := (c.a + c.p - c.d * y2 % c.p) % c.p
    match sqrtMod c.p (u * invMod c.p w) with
    | some x =>
      if x = 0 then (if sign = 0 then some (0, y, 1) else none)
      else some ((if x % 2 = sign then x else c.p - x), y, 1)
    | none => none
  else none

/-- A point is the neutral element or of small order (R181). -/
def edSmall (c : EdCurve) (t : EdPoint) : Bool := edEq c (edMul c c.cofactor t) edZero

/-- `dom4` of RFC 8032 for Ed448. -/
def dom4 (ph : Bool) (ctx : Bytes) : Bytes :=
  ascii "SigEd448" ++ [BitVec.ofNat 8 (b2n ph), BitVec.ofNat 8 ctx.length] ++ ctx

/-- The hash of an EdDSA scheme: SHA-512 for Ed25519, SHAKE256 with dom4 for Ed448 and Ed448ph. -/
def edHash (is448 ph : Bool) (ctx data : Bytes) : Nat :=
  if is448 then ofLe (shake256 (dom4 ph ctx ++ data) 114) else ofLe (sha512 data)

/-- The curve of an EdDSA scheme. -/
def edCurve (is448 : Bool) : EdCurve := if is448 then ed448 else ed25519

/-- The secret scalar and prefix of a seed. -/
def edSecret (is448 : Bool) (seed : Bytes) : Nat × Bytes :=
  if is448 then
    let h := shake256 seed 114
    (ofLe (h.take 56) / 4 * 4 % 2 ^ 447 + 2 ^ 447, h.drop 57)
  else
    let h := sha512 seed
    (ofLe (h.take 32) / 8 * 8 % 2 ^ 254 + 2 ^ 254, h.drop 32)

/-- The public key of a seed. -/
def edPublic (is448 : Bool) (seed : Bytes) : Bytes :=
  edEncode (edCurve is448) (edMul (edCurve is448) (edSecret is448 seed).1 (edCurve is448).base)

/-- The signature of a message; with `ph` the message is the digest of Ed448ph. -/
def edSign (is448 ph : Bool) (ctx seed msg : Bytes) : Bytes :=
  let c := edCurve is448
  let (s, pre) := edSecret is448 seed
  let pk := edPublic is448 seed
  let r := edHash is448 ph ctx (pre ++ msg) % c.order
  let rb := edEncode c (edMul c r c.base)
  let k := edHash is448 ph ctx (rb ++ pk ++ msg) % c.order
  rb ++ leBytes c.len ((r + k * s) % c.order)

/-- The validation of R181: A and R decode, A is not of small order, S is below L. -/
def edValid (is448 : Bool) (pk sig : Bytes) : Bool :=
  let c := edCurve is448
  match edDecode c pk, edDecode c (sig.take c.len) with
  | some a, some _ => !edSmall c a && sig.length == 2 * c.len && decide (ofLe (sig.drop c.len) < c.order)
  | _, _ => false

/-- The cofactored equation of R168. -/
def edVerify (is448 ph : Bool) (ctx pk msg sig : Bytes) : Bool :=
  let c := edCurve is448
  match edDecode c pk, edDecode c (sig.take c.len) with
  | some a, some r =>
    let k := edHash is448 ph ctx (sig.take c.len ++ pk ++ msg) % c.order
    let lhs := edMul c c.cofactor (edMul c (ofLe (sig.drop c.len)) c.base)
    let rhs := edMul c c.cofactor (edAdd c r (edMul c k a))
    edEq c lhs rhs
  | _, _ => false

/-- Both the validation and the equation. -/
def edCheck (is448 ph : Bool) (ctx pk msg sig : Bytes) : Bool := edValid is448 pk sig && edVerify is448 ph ctx pk msg sig

/-! ### Montgomery curves -/

/-- One step of the ladder of RFC 7748 on (x2, z2, x3, z3). -/
def ladderStep (p a24 x1 : Nat) (s : Nat × Nat × Nat × Nat) (bitSet : Bool) : Nat × Nat × Nat × Nat :=
  let (x2, z2, x3, z3) := if bitSet then (s.2.2.1, s.2.2.2, s.1, s.2.1) else s
  let a := (x2 + z2) % p
  let aa := a * a % p
  let b := (x2 + p - z2) % p
  let bb := b * b % p
  let e := (aa + p - bb) % p
  let c := (x3 + z3) % p
  let d := (x3 + p - z3) % p
  let da := d * a % p
  let cb := c * b % p
  let s3 := (da + cb) % p
  let d3 := (da + p - cb) % p
  let r := (aa * bb % p, e * ((aa + a24 * e) % p) % p, s3 * s3 % p, x1 * (d3 * d3 % p) % p)
  if bitSet then (r.2.2.1, r.2.2.2, r.1, r.2.1) else r

/-- The function X25519 or X448 of a scalar and a u-coordinate, both as numbers, the scalar already decoded. -/
def montMul (is448 : Bool) (k u : Nat) : Nat :=
  let p := if is448 then 2 ^ 448 - 2 ^ 224 - 1 else 2 ^ 255 - 19
  let a24 := if is448 then 39081 else 121665
  let s := (List.range (if is448 then 448 else 255)).foldr (fun i s => ladderStep p a24 u s (k.testBit i)) (1, 0, u % p, 1)
  s.1 * invMod p s.2.1 % p

/-- A scalar decoded (RFC 7748). -/
def montScalar (is448 : Bool) (b : Bytes) : Nat :=
  if is448 then ofLe b / 4 * 4 % 2 ^ 447 + 2 ^ 447 else ofLe b / 8 * 8 % 2 ^ 254 + 2 ^ 254

/-- The bytes of a coordinate. -/
def montLen (is448 : Bool) : Nat := if is448 then 56 else 32

/-- The shared value of a private scalar and a peer's u-coordinate. -/
def montShared (is448 : Bool) (scalar u : Bytes) : Bytes :=
  leBytes (montLen is448) (montMul is448 (montScalar is448 scalar) (if is448 then ofLe u else ofLe u % 2 ^ 255))

/-- The public value of a private scalar. -/
def montPublic (is448 : Bool) (scalar : Bytes) : Bytes :=
  leBytes (montLen is448) (montMul is448 (montScalar is448 scalar) (if is448 then 5 else 9))

/-- The validation of R181 for a peer's u-coordinate: below p, none of the values of small order, on the curve and not on its twist. -/
def montValid (is448 : Bool) (b : Bytes) : Bool :=
  let p := if is448 then 2 ^ 448 - 2 ^ 224 - 1 else 2 ^ 255 - 19
  let a := if is448 then 156326 else 486662
  let u := ofLe b
  let rhs := (u * u % p * u + a * (u * u % p) + u) % p
  let small :=
    if is448 then u == 0 || u == 1 || u == p - 1
    else u == 0 || u == 1 || u == p - 1
      || u == 325606250916557431795983626356110631294008115727848805560023387167927233504
      || u == 39382357235489614581723060781553021112529911719440698176882885853963445705823
  b.length == montLen is448 && decide (u < p) && !small && (sqrtMod p rhs).isSome

/-! ### P-256 and P-384 -/

/-- A short Weierstrass curve with a = -3. -/
structure EcCurve where
  p : Nat
  b : Nat
  order : Nat
  gx : Nat
  gy : Nat
  /-- Bytes of a coordinate. -/
  len : Nat

/-- P-256. -/
def p256 : EcCurve :=
  { p := 2 ^ 256 - 2 ^ 224 + 2 ^ 192 + 2 ^ 96 - 1
    b := 0x5ac635d8aa3a93e7b3ebbd55769886bc651d06b0cc53b0f63bce3c3e27d2604b
    order := 0xffffffff00000000ffffffffffffffffbce6faada7179e84f3b9cac2fc632551
    gx := 0x6b17d1f2e12c4247f8bce6e563a440f277037d812deb33a0f4a13945d898c296
    gy := 0x4fe342e2fe1a7f9b8ee7eb4a7c0f9e162bce33576b315ececbb6406837bf51f5, len := 32 }

/-- P-384. -/
def p384 : EcCurve :=
  { p := 2 ^ 384 - 2 ^ 128 - 2 ^ 96 + 2 ^ 32 - 1
    b := 0xb3312fa7e23ee7e4988e056be3f82d19181d9c6efe8141120314088f5013875ac656398d8a2ed19d2a85c8edd3ec2aef
    order := 0xffffffffffffffffffffffffffffffffffffffffffffffffc7634d81f4372ddf581a0db248b0a77aecec196accc52973
    gx := 0xaa87ca22be8b05378eb1c71ef320ad746e1d3b628ba79b9859f741e082542a385502f25dbf55296c3a545e3872760ab7
    gy := 0x3617de4a96262c6f5d9e98bf9292dc29f8f41dbd289a147ce9da3113b5f0b8c00a60b1ce1d7e819d7a431d7c90ea0e5f, len := 48 }

/-- A point, the point at infinity as none. -/
abbrev EcPoint := Option (Nat × Nat)

/-- The group law. -/
def ecAdd (c : EcCurve) : EcPoint → EcPoint → EcPoint
  | none, t => t
  | s, none => s
  | some (x1, y1), some (x2, y2) =>
    let p := c.p
    if x1 = x2 ∧ (y1 + y2) % p = 0 then none
    else
      let l := if x1 = x2 then (3 * (x1 * x1) + 3 * (p - 1)) % p * invMod p (2 * y1 % p) % p
        else (y2 + p - y1) % p * invMod p ((x2 + p - x1) % p) % p
      let x := (l * l + 2 * p - x1 - x2) % p
      some (x, (l * ((x1 + p - x) % p) + p - y1) % p)

/-- A scalar multiple. -/
def ecMul (c : EcCurve) (k : Nat) (t : EcPoint) : EcPoint :=
  (List.range (log2 k + 1)).foldr (fun i r => let q := ecAdd c r r; if k.testBit i then ecAdd c q t else q) none

/-- The base point. -/
def EcCurve.base (c : EcCurve) : EcPoint := some (c.gx, c.gy)

/-- A point is on the curve. -/
def ecOn (c : EcCurve) (x y : Nat) : Bool :=
  decide (x < c.p) && decide (y < c.p) && (y * y % c.p == (x * x % c.p * x + (c.p - 3) * x + c.b) % c.p)

/-- The uncompressed encoding (R165). -/
def ecEncode (c : EcCurve) : EcPoint → Bytes
  | none => [0]
  | some (x, y) => 4 :: (beBytes c.len x ++ beBytes c.len y)

/-- The length of an encoded point, from its first byte (R164); 1 where the byte is none of the three. -/
def ecPointLen (c : EcCurve) (first : Byte) : Nat :=
  if first = 4 then 2 * c.len + 1 else if first = 2 ∨ first = 3 then c.len + 1 else 1

/-- A point decoded and validated (R165, R181). -/
def ecDecode (c : EcCurve) (b : Bytes) : Option (Nat × Nat) :=
  match b with
  | [] => none
  | t :: r =>
    if t = 4 ∧ r.length = 2 * c.len then
      let x := ofBe (r.take c.len)
      let y := ofBe (r.drop c.len)
      if ecOn c x y then some (x, y) else none
    else if (t = 2 ∨ t = 3) ∧ r.length = c.len then
      let x := ofBe r
      if x < c.p then
        match sqrtMod c.p ((x * x % c.p * x + (c.p - 3) * x + c.b) % c.p) with
        | some y => some (x, if y % 2 = t.toNat % 2 then y else (c.p - y) % c.p)
        | none => none
      else none
    else none

/-- A digest as an integer of the order's length (FIPS 186-5). -/
def ecBits (c : EcCurve) (h : Bytes) : Nat :=
  if c.len < h.length then ofBe (h.take c.len) else ofBe h

/-- The HMAC of RFC 6979 (R169): SHA-256 for P-256, SHA-384 for P-384. -/
def ecHmac (c : EcCurve) (k m : Bytes) : Bytes := if c.len = 32 then hmacSha256 k m else hmacSha384 k m

/-- Candidates for the nonce until one suits: K, V and the tries left. -/
def ecNonceLoop (c : EcCurve) (z d : Nat) : Nat → Bytes → Bytes → Nat × Nat
  | 0, _, _ => (0, 0)
  | n + 1, k, v =>
    let v := ecHmac c k v
    let t := ofBe v
    let r := match ecMul c t c.base with
      | some (x, _) => x % c.order
      | none => 0
    let s := powMod c.order t (c.order - 2) * ((z + r * d) % c.order) % c.order
    if 1 ≤ t ∧ t < c.order ∧ r ≠ 0 ∧ s ≠ 0 then (r, s)
    else
      let k := ecHmac c k (v ++ [0])
      ecNonceLoop c z d n k (ecHmac c k v)

/-- The hedged ECDSA signature of R169 over a digest: `extra` is the additional data of RFC 6979 section 3.6. -/
def ecdsaSign (c : EcCurve) (d : Nat) (digest extra : Bytes) : Bytes :=
  let z := ecBits c digest
  let seed := beBytes c.len d ++ beBytes c.len (z % c.order) ++ extra
  let k := zeros c.len
  let v := List.replicate c.len (1 : Byte)
  let k := ecHmac c k (v ++ [0] ++ seed)
  let v := ecHmac c k v
  let k := ecHmac c k (v ++ [1] ++ seed)
  let v := ecHmac c k v
  let (r, s) := ecNonceLoop c (z % c.order) d 128 k v
  beBytes c.len r ++ beBytes c.len s

/-- The range check of R181 on r and s. -/
def ecdsaRange (c : EcCurve) (sig : Bytes) : Bool :=
  let r := ofBe (sig.take c.len)
  let s := ofBe (sig.drop c.len)
  decide (1 ≤ r) && decide (r < c.order) && decide (1 ≤ s) && decide (s < c.order)

/-- The verification equation of ECDSA. -/
def ecdsaVerify (c : EcCurve) (q : Nat × Nat) (digest sig : Bytes) : Bool :=
  let r := ofBe (sig.take c.len)
  let s := ofBe (sig.drop c.len)
  let w := powMod c.order s (c.order - 2)
  let u1 := ecBits c digest * w % c.order
  let u2 := r * w % c.order
  match ecAdd c (ecMul c u1 c.base) (ecMul c u2 (some q)) with
  | some (x, _) => x % c.order == r
  | none => false

/-- A private scalar from random bytes by extra random bits (R174). -/
def ecScalar (c : EcCurve) (drawn : Bytes) : Nat := ofBe drawn % (c.order - 1) + 1

/-- The uncompressed public key of a scalar. -/
def ecPublic (c : EcCurve) (d : Nat) : Bytes := ecEncode c (ecMul c d c.base)

/-- The x-coordinate of the shared point (R175). -/
def ecShared (c : EcCurve) (d : Nat) (q : Nat × Nat) : Bytes :=
  match ecMul c d (some q) with
  | some (x, _) => beBytes c.len x
  | none => []

end Sys2Proof.Machine
end

