-- ==== Sys2Proof/Machine/Access.lean ====
section
/-! DEFINITION. The named operations over the device that every chapter uses: chambers and chains by number, what goes out on the pins,
reports to Belay, event counters, MSI-X messages and free values. -/
namespace Sys2Proof.Machine

/-- N, the chamber count in force (R319). -/
def Block.n (b : Block) : Nat := 2 ^ b.nlog2

/-- The chamber `c`. -/
def Block.chamber (b : Block) (c : Nat) : Chamber := Tab.get b.ch Chamber.absent c

/-- The chamber `c` changed by `f`. -/
def Block.modCh (b : Block) (c : Nat) (f : Chamber → Chamber) : Block :=
  { b with ch := Tab.modify b.ch Chamber.absent c f }

/-- The number of a chain in the table: a chamber's number, 64 for the system chain. -/
def chainIx : ChainId → Nat
  | .chamber c => c
  | .system => 64

/-- The chain charged for a chamber number, 64 meaning the system. -/
def chainOf (c : Nat) : ChainId := if c = 64 then .system else .chamber c

/-- A chain. -/
def Block.chain (b : Block) (i : ChainId) : Chain := Tab.get b.chains Chain.absent (chainIx i)

/-- A chain changed by `f`. -/
def Block.modChain (b : Block) (i : ChainId) (f : Chain → Chain) : Block :=
  { b with chains := Tab.modify b.chains Chain.absent (chainIx i) f }

/-- Something put on the pins. -/
def Block.emit (b : Block) (o : Out) : Block := { b with out := b.out ++ [o] }

/-- The value a register read returns, put on the pins. -/
def Block.answer (b : Block) (v : Nat) : Block := b.emit (.read v)

/-- The Chuck buffer changed by `f`. -/
def Block.modChuck (b : Block) (f : Chuck → Chuck) : Block := { b with chuck := f b.chuck }

/-- The Lantern block changed by `f`. -/
def Block.modLantern (b : Block) (f : Lantern → Lantern) : Block := { b with lantern := f b.lantern }

/-- Sump changed by `f`. -/
def Block.modSump (b : Block) (f : Sump → Sump) : Block := { b with sump := f b.sump }

/-- The key cache changed by `f`. -/
def Block.modKeys (b : Block) (f : Keys → Keys) : Block := { b with keys := f b.keys }

/-- Belay changed by `f`. -/
def Block.modBelay (b : Block) (f : Belay → Belay) : Block := { b with belay := f b.belay }

/-- Strata changed by `f`. -/
def Block.modStrata (b : Block) (f : Strata → Strata) : Block := { b with strata := f b.strata }

/-- The power manager changed by `f`. -/
def Block.modPmc (b : Block) (f : Pmc → Pmc) : Block := { b with pmc := f b.pmc }

/-- Kerard changed by `f`. -/
def Block.modKerard (b : Block) (f : Kerard → Kerard) : Block := { b with kerard := f b.kerard }

/-- Bimor changed by `f`. -/
def Block.modBimor (b : Block) (f : Bimor → Bimor) : Block := { b with bimor := f b.bimor }

/-- A Chisel core, by its number 8 * cluster + core. -/
def Block.core (b : Block) (k : Nat) : Core := Tab.get b.chisel.cores Core.reset k

/-- A Chisel core changed by `f`. -/
def Block.modCore (b : Block) (k : Nat) (f : Core → Core) : Block :=
  { b with chisel := { b.chisel with cores := Tab.modify b.chisel.cores Core.reset k f } }

/-- A work item of Chuck's buffer. -/
def Block.item? (b : Block) (n : Nat) : Option Item := Tab.get? b.chuck.items n

/-- A work item set. -/
def Block.setItem (b : Block) (n : Nat) (i : Item) : Block :=
  { b with chuck := { b.chuck with items := Tab.set b.chuck.items n i } }

/-- A work item, where it exists, changed by `f`. -/
def Block.modItem (b : Block) (n : Nat) (f : Item → Item) : Block :=
  match b.item? n with
  | some i => b.setItem n (f i)
  | none => b

/-- A ticket of a core. -/
def Block.ticket (b : Block) (k t : Nat) : Ticket := Tab.get (b.core k).tickets Ticket.reset t

/-- A ticket of a core changed by `f`. -/
def Block.modTicket (b : Block) (k t : Nat) (f : Ticket → Ticket) : Block :=
  b.modCore k fun c => { c with tickets := Tab.modify c.tickets Ticket.reset t f }

/-- A free value of `n` bytes (log entry 2). -/
def Block.fresh (b : Block) (n : Nat) : Bytes × Block :=
  (fit n (Config.freeBytes b.free n), { b with free := b.free + 1 })

/-- A sub-count of a Tally counter: saturates at 2^48 - 1 (R530). -/
def Block.tallyBy (b : Block) (k n : Nat) : Block :=
  { b with counters := { b.counters with tally := Tab.modify b.counters.tally 0 k fun v => min (2 ^ 48 - 1) (v + n) } }

/-- One more in a Tally counter (R530). -/
def Block.tally (b : Block) (k : Nat) : Block := b.tallyBy k 1

/-- The Tally counter `k` (R530). -/
def Block.tallyOf (b : Block) (k : Nat) : Nat := Tab.get b.counters.tally 0 k

/-! ### Programmable counters -/

/-- Programmable counters of a unit (R520). -/
def unitCounters (u : Nat) : Nat := if u < 64 then 8 else 4

/-- One event in a counter: none, or whether it wrapped (R521). -/
def Ctr.gain (c : Ctr) : Ctr × Bool := ({ c with count := c.count + 1 }, c.count == BitVec.allOnes 32)

/-- A counter of an owner counts an event of some chambers, or of none (R524). -/
def Ctr.counts (c : Ctr) (ev : Nat) (who : List Nat) : Bool :=
  c.en && !c.chain && c.event == ev &&
    match c.owner with
    | .pf => true
    | .free => false
    | .chamber x => who.contains x

/-- For whom a counter watches an event: its chamber, or 64 for any (R524). -/
def Ctr.watch (c : Ctr) : Nat :=
  match c.owner with
  | .chamber x => x
  | _ => 64

/-- The counters `i` and above of a unit that an event hits, `n` of them left; `carry` says that the counter below wrapped (R521, R522). -/
def countFrom (hit : Ctr → Bool) (u : Nat) : Nat → Nat → Bool → Tab Ctr → Tab Ctr
  | 0, _, _, t => t
  | n + 1, i, carry, t =>
    let c := Tab.get t Ctr.reset (8 * u + i)
    if (c.en && c.chain && carry) || hit c then
      let g := c.gain
      countFrom hit u n (i + 1) g.2 (Tab.set t (8 * u + i) g.1)
    else countFrom hit u n (i + 1) false t

/-- An event of a unit in one cycle, for some chambers or unit-wide (R521 to R526): a counter gains one however many it is for. -/
def Block.events (b : Block) (u ev : Nat) (who : List Nat) : Block :=
  { b with counters := { b.counters with prog := countFrom (·.counts ev who) u (unitCounters u) 0 false b.counters.prog } }

/-- An occurrence of an event in a unit, for a chamber or unit-wide. -/
def Block.event (b : Block) (u ev : Nat) (who : Option Nat) : Block := b.events u ev who.toList

/-- A cycle in which an event that lasts is asserted: counters in level mode count it, and those in edge mode where it was not asserted in the
cycle before (R521). -/
def Block.lasting (b : Block) (u ev : Nat) (who : List Nat) : Block :=
  { b with counters := { b.counters with
      prog := countFrom (fun c => c.counts ev who && (c.level || !b.counters.asserted.contains (u, ev, c.watch))) u (unitCounters u) 0 false
        b.counters.prog } }

/-! ### Reports and messages -/

/-- A report handed to Belay (R418): it enters the intake queue, or its source holds it until the queue takes it, which is the same
list. -/
def Block.report (b : Block) (code src : Nat) (cls : RClass) (p0 p1 p2 : Nat) : Block :=
  b.modBelay fun y => { y with intake := y.intake ++
    [{ code := code, src := src, cls := cls, p0 := p0, p1 := p1, p2 := p2, rom := false, overrun := false
       quiesce := 64, detected := b.now }] }

/-- An MSI-X message of function `fn` (0 the PF, c + 1 the VF of chamber c) on a vector: sent, pending where masked, nothing where
MSI-X Enable is clear (R537). -/
def Block.msix (b : Block) (fn vec : Nat) : Block :=
  if Tab.get b.pcie.msixEn false fn then
    if !b.pcie.unmasked.contains (64 * fn + vec) then
      { b with pcie := { b.pcie with pendingMsix := b.pcie.pendingMsix.filter (· != 64 * fn + vec) ++ [64 * fn + vec] } }
    else
      let e := Tab.get b.pcie.table (0, 0) (64 * fn + vec)
      b.emit (.msix fn vec e.1 e.2)
  else b

/-- Bus Master Enable of a function (R539). -/
def Block.bme (b : Block) (fn : Nat) : Bool := Tab.get b.pcie.bme false fn

/-- An error reported through AER (R539): correctable errors count in Tally 152, others in 153 (R530). -/
def Block.aer (b : Block) (fn : Nat) (error : String) (correctable : Bool) : Block :=
  (b.emit (.aer fn error)).tally (if correctable then 152 else 153)

/-- CRC-32C (R449). -/
def crc32c (d : Bytes) : Nat :=
  let step (c : Nat) : Nat := if c % 2 = 1 then (c / 2) ^^^ 0x82F63B78 else c / 2
  (d.foldl (fun c x => step (step (step (step (step (step (step (step (c ^^^ x.toNat))))))))) 0xFFFFFFFF) ^^^ 0xFFFFFFFF

/-- Domain indices of the power manager (R519). -/
def Block.domainOn (b : Block) (d : Nat) : Bool := b.pmc.on.getLsbD d && !b.pmc.warming.getLsbD d

/-- The power domain of a Spindle pair, 0 SPA and 1 SPB (R519). -/
def spDomain (pair : Nat) : Nat := 15 + pair

/-- The domain of a curve quad. -/
def gqDomain (q : Nat) : Nat := 10 + q

/-- The domain of the lattice cores. -/
def gltDomain : Nat := 14

/-- The domain of a Chisel cluster. -/
def ccDomain (k : Nat) : Nat := 2 + k

/-- The device is a member of a pair that is not DEGRADED or otherwise released from waiting for the standby (R471). -/
def Block.mirrored (b : Block) : Bool :=
  b.kerard.role == .active && (b.kerard.st == .inSync || b.kerard.st == .syncing)

/-- Operating time in whole seconds (R37). -/
def Block.seconds (b : Block) : Nat := b.now / 1000000

/-- The claim the device holds, 0 in no pair (R491). -/
def Block.claim (b : Block) : Nat := b.kerard.held

/-- DEVICE: the first 8 bytes of SHAKE256 over the identity public key (R204, R392). -/
def Block.device (b : Block) : Bytes := shake256 (edPublic true b.identity.seed) 8

end Sys2Proof.Machine
end

