-- ==== Sys2Proof/Machine/CounterOps.lean ====
section
/-! DEFINITION. The counters of events (chapter 22): how a counter is taken, configured and freed, and how the host and a recipe read
counters. -/
namespace Sys2Proof.Machine

/-- A unit code exists (R520). -/
def unitValid (u : Nat) : Bool := decide (u ≤ 72)

/-- The highest event code of a unit's column (R526). -/
def eventMax (u : Nat) : Nat := if u < 64 then 0x00F else if u ≤ 67 then 0x00B else if u ≤ 71 then 0x00A else 0x00B

/-- The programmable counter `n` of unit `u`. -/
def Block.ctr (b : Block) (u n : Nat) : Ctr := Tab.get b.counters.prog Ctr.reset (8 * u + n)

/-- A programmable counter set. -/
def Block.setCtr (b : Block) (u n : Nat) (c : Ctr) : Block :=
  { b with counters := { b.counters with prog := Tab.set b.counters.prog (8 * u + n) c } }

/-- The settings of R522 and R526 are admitted for counter `n` of unit `u` under an owner: a listed event; CHAIN not on counter 0, not
with an event or LEVEL, and only above a counter of the same owner. -/
def ctrAdmitted (b : Block) (u n event : Nat) (level chain : Bool) (owner : CtrOwner) : Bool :=
  decide (event ≤ eventMax u) &&
    (!chain || (n != 0 && event == 0 && !level && (b.ctr u (n - 1)).owner == owner))

/-- A counter taken or reconfigured: its count is zero (R521, R523). -/
def ctrTake (b : Block) (u n event : Nat) (level chain : Bool) (owner : CtrOwner) : Block :=
  b.setCtr u n { event := event, level := level, chain := chain, en := true, owner := owner, count := 0 }

/-- A counter stopped and freed, its value readable still (R523). -/
def ctrFree (b : Block) (u n : Nat) : Block :=
  b.setCtr u n { (b.ctr u n) with en := false, owner := .free }

/-- COUNTER_CONFIG on counter `n` of unit `u` (R364, R522, R523, R526): the status, and the device after. FORMAT is 0x0020 and
OBJECT_STATE 0x00A2 in the catalogue; the caller gives the codes. -/
def ctrConfig (b : Block) (u n word fmtCode stateCode okCode : Nat) : Nat × Block :=
  let event := bits word 9 0
  let level := bit word 10
  let chain := bit word 11
  let en := bit word 12
  if !unitValid u ∨ unitCounters u ≤ n ∨ 0 < word / 2 ^ 13 then (fmtCode, b)
  else
    match (b.ctr u n).owner with
    | .chamber _ => (stateCode, b)
    | _ =>
      if en then
        if ctrAdmitted b u n event level chain .pf then (okCode, ctrTake b u n event level chain .pf) else (fmtCode, b)
      else (okCode, ctrFree b u n)

/-- A slot of a chamber's counters. -/
def Block.vfe (b : Block) (c i : Nat) : VfeSlot := Tab.get (b.chamber c).vfe VfeSlot.reset i

/-- A slot set. -/
def Block.setVfe (b : Block) (c i : Nat) (s : VfeSlot) : Block := b.modCh c fun h => { h with vfe := Tab.set h.vfe i s }

/-- A chamber may bind a counter of these numbers (R520). -/
def vfePermitted (u n : Nat) : Bool :=
  unitValid u && (if u < 64 then decide (4 ≤ n ∧ n ≤ 7) else decide (2 ≤ n ∧ n ≤ 3))

/-- The counter a bound slot holds is freed. -/
def vfeRelease (b : Block) (c i : Nat) : Block :=
  let s := b.vfe c i
  if s.bound then ctrFree (b.setVfe c i { s with bound := false }) s.unit s.counter else b

/-- VFE_CFG: a chamber's write of slot `i` (R528). With EN the slot takes or reconfigures the counter named, or sets REFUSED and is left
unbound; without EN the counter is freed. REFUSED is cleared by writing 1. -/
def vfeCfg (b : Block) (c i : Nat) (a : Access) (word : Nat) : Block :=
  match a with
  | .other => b.modCh c fun h => { h with qerr := h.qerr ||| 4 }
  | .word =>
    let old := b.vfe c i
    let s : VfeSlot :=
      { event := bits word 9 0, level := bit word 10, chain := bit word 11, en := bit word 12, counter := bits word 15 13
        unit := bits word 22 16, bound := old.bound, refused := old.refused && !bit word 25 }
    if s.en then
      let same := old.bound && old.unit == s.unit && old.counter == s.counter
      let b := if same then b else vfeRelease b c i
      let free := (b.ctr s.unit s.counter).owner == .free
      if vfePermitted s.unit s.counter && (same || free) && ctrAdmitted b s.unit s.counter s.event s.level s.chain (.chamber c) then
        (ctrTake b s.unit s.counter s.event s.level s.chain (.chamber c)).setVfe c i { s with bound := true }
      else
        (if same then ctrFree b s.unit s.counter else b).setVfe c i { s with bound := false, refused := true }
    else (vfeRelease b c i).setVfe c i { s with bound := false }

/-- Every counter of a chamber freed and its slots reset (R523, R528). -/
def freeChamberCounters (b : Block) (c : Nat) : Block :=
  let free (k : Ctr) : Ctr := if k.owner = .chamber c then { k with en := false, owner := .free } else k
  let b := { b with counters := { b.counters with prog := Tab.mapVals b.counters.prog fun _ k => free k } }
  b.modCh c fun h => { h with vfe := [] }

/-! ### Reads -/

/-- A bad access to the TLY block (R529). -/
def tlySize (b : Block) : Block := { b with counters := { b.counters with tlyErr := b.counters.tlyErr ||| 1 } }

/-- TLY_UCNT: a read of any counter of a unit latches every counter of it, and returns the one asked for as just latched (R529). -/
def tlyUcnt (b : Block) (u n : Nat) (a : Access) : Block :=
  match a with
  | .other => tlySize b
  | .word =>
    let vals := (List.range 8).map fun i => (8 * u + i, (b.ctr u i).count.toNat)
    { b with counters := { b.counters with latch := vals, latchUnit := some u } }
      |>.answer (if n < unitCounters u then (b.ctr u n).count.toNat else 0)

/-- TLY_T_L: a read of a Tally counter's low word latches its high word (R529, R530). -/
def tlyTL (b : Block) (k : Nat) (a : Access) : Block :=
  match a with
  | .other => tlySize b
  | .word =>
    let v := b.tallyOf k
    { b with counters := { b.counters with highLatch := Tab.set b.counters.highLatch k (v / 2 ^ 32) } }.answer (v % 2 ^ 32)

/-- The cycle counter of a core (R525). -/
def Block.cycleCount (b : Block) (k : Nat) : Nat := Tab.get b.counters.cycles 0 k % 2 ^ 64

/-- TLY_CYC_L: a read of a cycle counter's low word latches its high word (R529). -/
def tlyCycL (b : Block) (k : Nat) (a : Access) : Block :=
  match a with
  | .other => tlySize b
  | .word =>
    let v := b.cycleCount k
    { b with counters := { b.counters with highLatch := Tab.set b.counters.highLatch (256 + k) (v / 2 ^ 32) } }.answer (v % 2 ^ 32)

/-- `TLY_UCFG` of a counter (R529). -/
def tlyUcfg (b : Block) (u n : Nat) : Nat :=
  let c := b.ctr u n
  let owner := match c.owner with
    | .free => (0, 0)
    | .pf => (0, 1)
    | .chamber x => (x, 2)
  if n < unitCounters u then
    c.event + 2 ^ 10 * b2n c.level + 2 ^ 11 * b2n c.chain + 2 ^ 12 * b2n c.en + 2 ^ 16 * owner.1 + 2 ^ 22 * owner.2
  else 0

/-- A recipe's byte read of a core's counters at `addr` from 0xF100 to 0xF1FF (R527): the value and the device after. -/
def coreCounterRead (b : Block) (k c addr : Nat) : Nat × Block :=
  let off := addr - 0xF100
  let uread := (b.chamber c).uread
  let ix := if off < 8 then 0 else 1 + (off - 8) / 4
  let lane := if off < 8 then off else (off - 8) % 4
  let readable :=
    if off < 8 then uread
    else if off < 0x28 then uread && (b.ctr k (ix - 1)).owner == .chamber c
    else false
  if !readable then (0, b)
  else
    let live := if ix = 0 then b.cycleCount k else (b.ctr k (ix - 1)).count.toNat
    if lane = 0 then
      (live % 256, { b with counters := { b.counters with byteLatch := Tab.set b.counters.byteLatch (16 * k + ix) live } })
    else ((Tab.get b.counters.byteLatch 0 (16 * k + ix) / 2 ^ (8 * lane)) % 256, b)

end Sys2Proof.Machine
end

