-- ==== Sys2Proof/Machine/FerruleOps.lean ====
section
/-! DEFINITION. Ferrules (chapter 17): the check of an access, the record of a violation, and the commit of a rule set. -/
namespace Sys2Proof.Machine

/-- The kinds of an access (R411, R421). -/
inductive AccessKind where
  | read
  | write
  | fetch
  deriving DecidableEq, Repr

/-- KIND of `BLY_FLAST0` (R421). -/
def AccessKind.code : AccessKind → Nat
  | .read => 0
  | .write => 1
  | .fetch => 2

/-- The Ferrule of master `m` (R410). -/
def Block.ferrule (b : Block) (m : Nat) : Ferrule := Tab.get b.ferrules Ferrule.reset m

/-- A Ferrule changed by `f`. -/
def Block.modFerrule (b : Block) (m : Nat) (f : Ferrule → Ferrule) : Block :=
  { b with ferrules := Tab.modify b.ferrules Ferrule.reset m f }

/-- Bytes of a granule of master `m` (R410). -/
def granuleBytes (m : Nat) : Nat := if m < 64 then 256 else 4096

/-- The regions a Ferrule has (R410). -/
def ferruleRegions (m : Nat) : Nat := if m < 64 then 16 else if m < 66 then 64 else 32

/-- A region grants a kind (R411). -/
def Region.grants (r : Region) : AccessKind → Bool
  | .read => r.r
  | .write => r.w
  | .fetch => r.x

/-- A region covers a granule and is in force (R411). -/
def Region.covers (r : Region) (g : Nat) : Bool := r.en && decide (r.base ≤ g) && decide (g ≤ r.limit)

/-- The verdict of a rule set on a granule: that of the lowest-numbered enabled region that covers it (R411, R413). -/
def rulesAdmit (rules : List Region) (g : Nat) (k : AccessKind) : Bool :=
  match rules.find? fun r => r.covers g with
  | some r => r.grants k
  | none => false

/-- Two enabled regions of different OWNER overlap in a granule (R413). -/
def regionsClash (a c : Region) : Bool :=
  a.en && c.en && a.owner != c.owner && decide (max a.base c.base ≤ min a.limit c.limit)

/-- Some two enabled regions of different OWNER overlap (R413). -/
def shadowClash : List Region → Bool
  | [] => false
  | r :: rest => rest.any (regionsClash r) || shadowClash rest

/-- The times of a window of one second that ends now (R419). -/
def withinSecond (now : Nat) (times : List Nat) : List Nat := times.filter fun t => decide (now < t + 1000000)

/-- `BLY_FLAST0` of a violation (R421): `who` is the chamber, none for the system. -/
def flast0Of (b : Block) (m : Nat) (k : AccessKind) (who : Option Nat) : Nat :=
  m + 2 ^ 8 * k.code + 2 ^ 10 * who.getD 0 + 2 ^ 16 * b2n who.isNone + 2 ^ 24 * ((b.ferrule m).epoch % 256)

/-- The P2 of a violation's record (R420). -/
def violationP2 (addr count : Nat) : Nat := addr / 2 ^ 32 % 256 + 256 * min count (2 ^ 24 - 1)

/-- A record of a master's violations goes to Belay, and its count starts again (R420). -/
def ferruleRecord (b : Block) (m code : Nat) (cls : RClass) (who : Nat) : Block :=
  let f := b.ferrule m
  let r : Report := { code := code, src := m, cls := cls, p0 := f.firstFlast, p1 := f.firstAddr % 2 ^ 32
                      p2 := violationP2 f.firstAddr f.since, rom := false, overrun := f.overrun
                      quiesce := if cls = .w ∧ code = 0x0110 then who else 64, detected := b.now }
  let b := b.modBelay fun y => { y with intake := y.intake ++ [r] }
  b.modFerrule m fun f => { f with since := 0, overrun := false }

/-- The escalation that a violation calls for (R419): the class of the evidence record, and Belay's counts after. A Chisel core's
denial counts once for its work item, and a host DMA engine's first one on a chamber's transfer quiesces the chamber. -/
def ferruleEscalate (b : Block) (m : Nat) (who : Option Nat) : Option RClass × Block :=
  if m < 64 then
    match (b.core m).item, who with
    | some n, some c =>
      if b.belay.deniedItems.contains n then (none, b)
      else
        let times := withinSecond b.now (Tab.get b.belay.chamberTimes [] c) ++ [b.now]
        let hit := decide (1024 ≤ times.length)
        let b := b.modBelay fun y =>
          { y with deniedItems := y.deniedItems ++ [n], chamberTimes := Tab.set y.chamberTimes c (if hit then [] else times) }
        (if hit then some .w else none, b)
    | _, _ => (none, b)
  else if 66 ≤ m ∧ m ≤ 73 then
    match who with
    | none => (some .l, b)
    | some c => (if (b.chamber c).st = .active ∧ b.belay.intake.all (fun r => r.quiesce != c) then some .w else none, b)
  else if m = 79 then
    let times := withinSecond b.now b.belay.dapTimes ++ [b.now]
    let hit := decide (16 ≤ times.length)
    (if hit then some .l else none, b.modBelay fun y => { y with dapTimes := if hit then [] else times })
  else (some .l, b)

/-- A denied access of master `m` (R416 to R421): the count, the last violation, the report, and the escalation. With the intake queue
full, a Ferrule report that does not escalate updates only the count and the first violation's details (R418). -/
def ferruleViolation (b : Block) (m : Nat) (k : AccessKind) (addr : Nat) (who : Option Nat) : Block :=
  let fl := flast0Of b m k who
  let b := b.tally 146
  let b := b.modFerrule m fun f =>
    { f with viol := min (2 ^ 24 - 1) (f.viol + 1), firstFlast := if f.since = 0 then fl else f.firstFlast
             firstAddr := if f.since = 0 then addr else f.firstAddr, since := f.since + 1 }
  let b := b.modBelay fun y =>
    { y with live0 := BitVec.ofNat 32 fl, live1 := BitVec.ofNat 32 addr, live2 := BitVec.ofNat 32 (addr / 2 ^ 32 % 256) }
  let e := ferruleEscalate b m who
  match e.1 with
  | some cls => ferruleRecord e.2 m 0x0110 cls (who.getD 64)
  | none =>
    if (e.2.ferrule m).timer then e.2
    else if 64 ≤ e.2.belay.intake.length then e.2.modFerrule m fun f => { f with overrun := true }
    else ferruleRecord (e.2.modFerrule m fun f => { f with timer := true }) m 0x0210 .w 64

/-- An access of master `m` checked by its Ferrule (R411, R412): the verdict on its first byte, and the device after. -/
def ferruleAccess (b : Block) (m : Nat) (k : AccessKind) (addr : Nat) (who : Option Nat) : Bool × Block :=
  if rulesAdmit (b.ferrule m).active (addr / granuleBytes m) k then (true, b) else (false, ferruleViolation b m k addr who)

/-! ### Transfers of the DMA engines (R9, R410, R412, R416)

The Ferrule of a DMA engine checks the on-chip side of a transfer. The manual gives no device addresses of the engines' buffers: each engine has
the granule of its own number (DESIGN CHOICE, log entry 119). -/

/-- The on-chip address of the transfers of engine `m`. -/
def dmaAddress (m : Nat) : Nat := 4096 * m

/-- The rule that admits them. -/
def dmaRules (m : Nat) : List Region := [{ base := m, limit := m, r := true, w := true, x := false, owner := 0x40, en := true }]

/-- The host DMA engine of a chamber as a master (R240, R410). -/
def hostMaster (c : Nat) : Nat := 66 + c % 8
/-- The first Sump DMA engine. -/
abbrev sumpMaster : Nat := 74
/-- The Flowstone DMA engine. -/
abbrev flowMaster : Nat := 78
/-- The Kerard DMA engine of a port. -/
def kerardMaster : KPort → Nat
  | .ka => 76
  | .kb => 77

/-- Bytes that an engine brings into the device: a denied write is dropped, and its buffer holds zeros (DESIGN CHOICE, log entry 119). -/
def dmaIn (b : Block) (m : Nat) (who : Option Nat) (d : Bytes) : Bytes × Block :=
  match ferruleAccess b m .write (dmaAddress m) who with
  | (true, b) => (d, b)
  | (false, b) => (zeros d.length, b)

/-- Bytes that an engine takes out of the device: those of a denied read are zero (R416). -/
def dmaOut (b : Block) (m : Nat) (who : Option Nat) (d : Bytes) : Bytes × Block :=
  match ferruleAccess b m .read (dmaAddress m) who with
  | (true, b) => (d, b)
  | (false, b) => (zeros d.length, b)

/-- A posted write of a chamber's function by its host DMA engine, or of bytes of Flowstone by its own. -/
def Block.dmaWrite (b : Block) (m : Nat) (who : Option Nat) (fn addr : Nat) (d : Bytes) : Block :=
  let p := dmaOut b m who d
  p.2.emit (.write fn addr p.1)

/-- What the host returned to a read of a chamber's DMA engine, as it comes into the device. -/
def dmaRead (b : Block) (c : Nat) (x : DmaRead) : DmaRead × Block :=
  match x with
  | .data d => let p := dmaIn b (hostMaster c) (some c) d; (.data p.1, p.2)
  | x => (x, b)

/-- What DDR-5 returned to a read of the Sump DMA engine (R416). -/
def sumpRead (b : Block) (ret : DdrReturn) : DdrReturn × Block :=
  match ferruleAccess b sumpMaster .read (dmaAddress sumpMaster) none with
  | (true, b) => (ret, b)
  | (false, b) => (.zeroed, b)

/-- The power domain of master `m`, which is its Ferrule's (R7). The manual names none for the host DMA engines and the debug access port: the model
takes PCI and HSK (DESIGN CHOICE, log entry 123). -/
def masterDomain (m : Nat) : Nat :=
  if m < 64 then ccDomain (m / 8) else if m < 66 ∨ m = 79 then 0 else if m < 74 then 20 else if m < 76 then 19
  else if m = 76 then 21 else if m = 77 then 22 else 17

/-- A master issues nothing, so that a commit point falls at once (R414, R415): its domain is off, or its core is stalled in EWAIT or TAKE. -/
def masterStill (b : Block) (m : Nat) : Bool :=
  !b.domainOn (masterDomain m) || (decide (m < 64) && match (b.core m).st with
    | .take => true
    | .waiting _ => true
    | _ => false)

/-- The shadow set of master `m` becomes active and the epoch increments (R414); `outstanding` says that accesses checked under an earlier epoch have
not completed. Held shadow writes go to the new shadow set (R415). -/
def Ferrule.commit (f : Ferrule) (outstanding : Bool) : Ferrule :=
  { f with active := f.shadow, shadow := f.heldShadow.getD f.shadow, heldShadow := none, pendingCommit := false
           epoch := (f.epoch + 1) % 65536, draining := f.draining || outstanding, commitFault := false }

/-- FERRULE_COMMIT: Headstock requests a commit of master `m`'s shadow set (R413). A set with an overlap of different owners is refused
with a class W report; a good one waits for the commit point, which falls at once where the master issues nothing. -/
def ferruleCommit (b : Block) (m : Nat) (rules : List Region) : Block :=
  let rules := rules.take (ferruleRegions m)
  let f := b.ferrule m
  if f.pendingCommit then b.modFerrule m fun f => { f with heldShadow := some rules }
  else
    let b := b.modFerrule m fun f => { f with shadow := rules }
    if shadowClash rules then
      (b.modFerrule m fun f => { f with commitFault := true }).report 0x0211 m .w (f.epoch % 65536) 0 0
    else b.modFerrule m fun f => if masterStill b m then f.commit false else { f with pendingCommit := true }

/-- FERRULE_COMMIT_POINT: the master's next cycle boundary (R414). -/
def ferruleCommitPoint (b : Block) (m : Nat) (outstanding : Bool) : Block :=
  if (b.ferrule m).pendingCommit then b.modFerrule m fun f => f.commit outstanding else b

/-- FERRULE_DRAIN_END: the last access of an earlier epoch has completed (R414). -/
def ferruleDrainEnd (b : Block) (m : Nat) : Block := b.modFerrule m fun f => { f with draining := false }

/-- FERRULE_REPORT_TIMER: 100 ms after a master's record, a further record with the count since (R420). -/
def ferruleReportTimer (b : Block) (m : Nat) : Block :=
  let f := b.ferrule m
  if !f.timer then b
  else if f.since = 0 then b.modFerrule m fun f => { f with timer := false }
  else if 64 ≤ b.belay.intake.length then b.modFerrule m fun f => { f with overrun := true }
  else ferruleRecord b m 0x0210 .w 64

/-- BLY_FLAST0: a read that latches the other two words (R421). -/
def blyFlast0 (b : Block) (a : Access) : Block :=
  match a with
  | .other => b.modBelay fun y => { y with err := y.err ||| 1 }
  | .word => (b.modBelay fun y => { y with flast0 := y.live0, flast1 := y.live1, flast2 := y.live2 }).answer b.belay.live0.toNat

/-- `BLY_FEPOCH` of master `m` (R421). -/
def blyFepoch (b : Block) (m : Nat) : Nat :=
  let f := b.ferrule m
  f.epoch % 65536 + 2 ^ 16 * b2n f.draining + 2 ^ 17 * b2n f.commitFault

end Sys2Proof.Machine
end

