-- ==== Sys2Proof/Machine/Aes.lean ====
section
/-! DEFINITION. AES (FIPS 197), the block cipher that Spindle, Sump, the handle check and Lantern use. The manual names the
standard and does not repeat it: log entry 1. -/
namespace Sys2Proof.Machine

/-- Multiplication by x in GF(2^8) with the AES polynomial. -/
def aesXtime (a : Byte) : Byte := (a <<< 1) ^^^ (if a.msb then 0x1B else 0)

/-- Multiplication in GF(2^8). -/
def aesMul (a b : Byte) : Byte :=
  ((List.range 8).foldl (fun (p : Byte × Byte) i =>
    (if b.getLsbD i then p.1 ^^^ p.2 else p.1, aesXtime p.2)) (0, a)).1

/-- The inverse in GF(2^8), zero at zero, as the 254th power. -/
def aesInv (a : Byte) : Byte :=
  let a2 := aesMul a a
  let a4 := aesMul a2 a2
  let a8 := aesMul a4 a4
  let a16 := aesMul a8 a8
  let a32 := aesMul a16 a16
  let a64 := aesMul a32 a32
  let a128 := aesMul a64 a64
  aesMul a2 (aesMul a4 (aesMul a8 (aesMul a16 (aesMul a32 (aesMul a64 a128)))))

/-- The S-box by its definition: inverse, then the affine map. -/
def aesSboxOf (a : Byte) : Byte :=
  let b := aesInv a
  b ^^^ b.rotateLeft 1 ^^^ b.rotateLeft 2 ^^^ b.rotateLeft 3 ^^^ b.rotateLeft 4 ^^^ 0x63

/-- The S-box as a table. -/
def aesSboxTable : Array Byte := ((List.range 256).map fun i => aesSboxOf (BitVec.ofNat 8 i)).toArray

/-- The inverse S-box as a table. -/
def aesInvSboxTable : Array Byte :=
  (List.range 256).foldl (fun (t : Array Byte) i =>
    t.set! (aesSboxOf (BitVec.ofNat 8 i)).toNat (BitVec.ofNat 8 i)) (Array.replicate 256 0)

/-- SubBytes on one byte. -/
def aesSbox (a : Byte) : Byte := aesSboxTable.getD a.toNat 0

/-- InvSubBytes on one byte. -/
def aesInvSbox (a : Byte) : Byte := aesInvSboxTable.getD a.toNat 0

/-- The key schedule: `4 * (Nk + 7)` words of four bytes, the newest first while it grows. -/
def aesExpandRev (key : Bytes) : List Bytes :=
  let nk := key.length / 4
  let start := (chunks 4 key).reverse
  ((List.range (4 * (nk + 7) - nk)).foldl (fun (p : List Bytes × Byte) j =>
    let i := j + nk
    let prev := p.1.headD []
    let t :=
      if i % nk = 0 then
        match prev.map aesSbox with
        | [a, b, c, d] => [b ^^^ p.2, c, d, a]
        | w => w
      else if 6 < nk ∧ i % nk = 4 then prev.map aesSbox
      else prev
    let w := xorBytes (p.1.getD (nk - 1) []) t
    (w :: p.1, if i % nk = 0 then aesXtime p.2 else p.2)) (start, 1)).1

/-- The round keys, sixteen bytes each, in order of use. -/
def aesRoundKeys (key : Bytes) : List Bytes := chunks 16 (aesExpandRev key).reverse.flatten

/-- ShiftRows. -/
def aesShiftRows (s : Bytes) : Bytes :=
  (List.range 16).map fun i => byteAt s ((i + 4 * (i % 4)) % 16)

/-- InvShiftRows. -/
def aesInvShiftRows (s : Bytes) : Bytes :=
  (List.range 16).map fun i => byteAt s ((i + 12 * (i % 4)) % 16)

/-- A column multiplied by the circulant matrix whose first row is `a b c d`. -/
def aesMixCol (a b c d : Byte) (col : Bytes) : Bytes :=
  (List.range 4).map fun r =>
    aesMul a (byteAt col r) ^^^ aesMul b (byteAt col ((r + 1) % 4)) ^^^
    aesMul c (byteAt col ((r + 2) % 4)) ^^^ aesMul d (byteAt col ((r + 3) % 4))

/-- MixColumns. -/
def aesMixColumns (s : Bytes) : Bytes := ((chunks 4 s).map (aesMixCol 2 3 1 1)).flatten

/-- InvMixColumns. -/
def aesInvMixColumns (s : Bytes) : Bytes := ((chunks 4 s).map (aesMixCol 14 11 13 9)).flatten

/-- One AES encryption of a 16-byte block; the key has 16, 24 or 32 bytes. -/
def aesEncrypt (key block : Bytes) : Bytes :=
  match aesRoundKeys key with
  | [] => block
  | k0 :: ks =>
    let mid := ks.dropLast.foldl (fun s k =>
      xorBytes (aesMixColumns (aesShiftRows (s.map aesSbox))) k) (xorBytes (fit 16 block) k0)
    xorBytes (aesShiftRows (mid.map aesSbox)) (ks.getLastD k0)

/-- One AES decryption of a 16-byte block. -/
def aesDecrypt (key block : Bytes) : Bytes :=
  match (aesRoundKeys key).reverse with
  | [] => block
  | k0 :: ks =>
    let mid := ks.dropLast.foldl (fun s k =>
      aesInvMixColumns (xorBytes ((aesInvShiftRows s).map aesInvSbox) k)) (xorBytes (fit 16 block) k0)
    xorBytes ((aesInvShiftRows mid).map aesInvSbox) (ks.getLastD k0)

end Sys2Proof.Machine
end

