-- ==== Sys2Proof/Machine/Des.lean ====
section
/-! DEFINITION. DES and TDES (SP 800-67), which Spindle offers beside AES. The manual names the standard and does not repeat it:
log entry 1. Blocks are integers with the standard's bit 1 as the most significant bit. -/
namespace Sys2Proof.Machine

/-- The bits of `x` (of `w` bits, the standard's bit 1 most significant) picked in the order of a table. -/
def desPermute (w : Nat) (table : List Nat) (x : Nat) : Nat :=
  table.foldl (fun a p => 2 * a + b2n (x.testBit (w - p))) 0

/-- The initial permutation, by its rule: even columns then odd, rows upward. -/
def desIP : List Nat :=
  [58, 60, 62, 64, 57, 59, 61, 63].flatMap fun s => (List.range 8).map fun j => s - 8 * j

/-- The final permutation: the inverse of the initial one. -/
def desFP : List Nat := (List.range 64).map fun i => desIP.idxOf (i + 1) + 1

/-- The expansion E. -/
def desE : List Nat := (List.range 8).flatMap fun r => (List.range 6).map fun j => (4 * r + j + 31) % 32 + 1

/-- The permutation P. -/
def desP : List Nat :=
  [16, 7, 20, 21, 29, 12, 28, 17, 1, 15, 23, 26, 5, 18, 31, 10,
   2, 8, 24, 14, 32, 27, 3, 9, 19, 13, 30, 6, 22, 11, 4, 25]

/-- Permuted choice 1. -/
def desPC1 : List Nat :=
  [57, 49, 41, 33, 25, 17, 9, 1, 58, 50, 42, 34, 26, 18, 10, 2, 59, 51, 43, 35, 27, 19, 11, 3, 60, 52, 44, 36,
   63, 55, 47, 39, 31, 23, 15, 7, 62, 54, 46, 38, 30, 22, 14, 6, 61, 53, 45, 37, 29, 21, 13, 5, 28, 20, 12, 4]

/-- Permuted choice 2. -/
def desPC2 : List Nat :=
  [14, 17, 11, 24, 1, 5, 3, 28, 15, 6, 21, 10, 23, 19, 12, 4, 26, 8, 16, 7, 27, 20, 13, 2,
   41, 52, 31, 37, 47, 55, 30, 40, 51, 45, 33, 48, 44, 49, 39, 56, 34, 53, 46, 42, 50, 36, 29, 32]

/-- The left shifts of the key schedule. -/
def desShifts : List Nat := [1, 1, 2, 2, 2, 2, 2, 2, 1, 2, 2, 2, 2, 2, 2, 1]

/-- The eight S-boxes, each as four rows of sixteen. -/
def desSboxes : List (List Nat) :=
  [[14, 4, 13, 1, 2, 15, 11, 8, 3, 10, 6, 12, 5, 9, 0, 7, 0, 15, 7, 4, 14, 2, 13, 1, 10, 6, 12, 11, 9, 5, 3, 8,
    4, 1, 14, 8, 13, 6, 2, 11, 15, 12, 9, 7, 3, 10, 5, 0, 15, 12, 8, 2, 4, 9, 1, 7, 5, 11, 3, 14, 10, 0, 6, 13],
   [15, 1, 8, 14, 6, 11, 3, 4, 9, 7, 2, 13, 12, 0, 5, 10, 3, 13, 4, 7, 15, 2, 8, 14, 12, 0, 1, 10, 6, 9, 11, 5,
    0, 14, 7, 11, 10, 4, 13, 1, 5, 8, 12, 6, 9, 3, 2, 15, 13, 8, 10, 1, 3, 15, 4, 2, 11, 6, 7, 12, 0, 5, 14, 9],
   [10, 0, 9, 14, 6, 3, 15, 5, 1, 13, 12, 7, 11, 4, 2, 8, 13, 7, 0, 9, 3, 4, 6, 10, 2, 8, 5, 14, 12, 11, 15, 1,
    13, 6, 4, 9, 8, 15, 3, 0, 11, 1, 2, 12, 5, 10, 14, 7, 1, 10, 13, 0, 6, 9, 8, 7, 4, 15, 14, 3, 11, 5, 2, 12],
   [7, 13, 14, 3, 0, 6, 9, 10, 1, 2, 8, 5, 11, 12, 4, 15, 13, 8, 11, 5, 6, 15, 0, 3, 4, 7, 2, 12, 1, 10, 14, 9,
    10, 6, 9, 0, 12, 11, 7, 13, 15, 1, 3, 14, 5, 2, 8, 4, 3, 15, 0, 6, 10, 1, 13, 8, 9, 4, 5, 11, 12, 7, 2, 14]] ++
  [[2, 12, 4, 1, 7, 10, 11, 6, 8, 5, 3, 15, 13, 0, 14, 9, 14, 11, 2, 12, 4, 7, 13, 1, 5, 0, 15, 10, 3, 9, 8, 6,
    4, 2, 1, 11, 10, 13, 7, 8, 15, 9, 12, 5, 6, 3, 0, 14, 11, 8, 12, 7, 1, 14, 2, 13, 6, 15, 0, 9, 10, 4, 5, 3],
   [12, 1, 10, 15, 9, 2, 6, 8, 0, 13, 3, 4, 14, 7, 5, 11, 10, 15, 4, 2, 7, 12, 9, 5, 6, 1, 13, 14, 0, 11, 3, 8,
    9, 14, 15, 5, 2, 8, 12, 3, 7, 0, 4, 10, 1, 13, 11, 6, 4, 3, 2, 12, 9, 5, 15, 10, 11, 14, 1, 7, 6, 0, 8, 13],
   [4, 11, 2, 14, 15, 0, 8, 13, 3, 12, 9, 7, 5, 10, 6, 1, 13, 0, 11, 7, 4, 9, 1, 10, 14, 3, 5, 12, 2, 15, 8, 6,
    1, 4, 11, 13, 12, 3, 7, 14, 10, 15, 6, 8, 0, 5, 9, 2, 6, 11, 13, 8, 1, 4, 10, 7, 9, 5, 0, 15, 14, 2, 3, 12],
   [13, 2, 8, 4, 6, 15, 11, 1, 10, 9, 3, 14, 5, 0, 12, 7, 1, 15, 13, 8, 10, 3, 7, 4, 12, 5, 6, 11, 0, 14, 9, 2,
    7, 11, 4, 1, 9, 12, 14, 2, 0, 6, 10, 13, 15, 3, 5, 8, 2, 1, 14, 7, 4, 10, 8, 13, 15, 12, 9, 0, 3, 5, 6, 11]]

/-- A 28-bit half of the key rotated left. -/
def desRotl28 (x n : Nat) : Nat := ((x <<< n) ||| (x >>> (28 - n))) % 2 ^ 28

/-- The sixteen round keys. -/
def desRoundKeys (key : Bytes) : List Nat :=
  let k := desPermute 64 desPC1 (ofBe key)
  ((desShifts.foldl (fun (p : List Nat × Nat × Nat) n =>
    let c := desRotl28 p.2.1 n
    let d := desRotl28 p.2.2 n
    (desPermute 56 desPC2 (c * 2 ^ 28 + d) :: p.1, c, d)) ([], k / 2 ^ 28, k % 2 ^ 28)).1).reverse

/-- The function f of one round. -/
def desF (r k : Nat) : Nat :=
  let x := desPermute 32 desE r ^^^ k
  let y := (List.range 8).foldl (fun a i =>
    let six := (x >>> (42 - 6 * i)) % 64
    let row := 2 * (six / 32) + six % 2
    16 * a + (desSboxes.getD i []).getD (16 * row + (six / 2) % 16) 0) 0
  desPermute 32 desP y

/-- DES on one 8-byte block with the given round keys in order. -/
def desBlock (keys : List Nat) (block : Bytes) : Bytes :=
  let x := desPermute 64 desIP (ofBe block)
  let p := keys.foldl (fun (p : Nat × Nat) k => (p.2, p.1 ^^^ desF p.2 k)) (x / 2 ^ 32, x % 2 ^ 32)
  beBytes 8 (desPermute 64 desFP (p.2 * 2 ^ 32 + p.1))

/-- Single DES encryption (used by ISO 9797 algorithm 3 and by CVV, PVV and offset rules). -/
def desEncrypt (key block : Bytes) : Bytes := desBlock (desRoundKeys key) block

/-- Single DES decryption. -/
def desDecrypt (key block : Bytes) : Bytes := desBlock (desRoundKeys key).reverse block

/-- The three component keys of a double- or triple-length TDES key. -/
def tdesParts (key : Bytes) : Bytes × Bytes × Bytes :=
  (slice key 0 8, slice key 8 8, if 24 ≤ key.length then slice key 16 8 else slice key 0 8)

/-- TDES encryption of an 8-byte block. -/
def tdesEncrypt (key block : Bytes) : Bytes :=
  let k := tdesParts key
  desEncrypt k.2.2 (desDecrypt k.2.1 (desEncrypt k.1 block))

/-- TDES decryption of an 8-byte block. -/
def tdesDecrypt (key block : Bytes) : Bytes :=
  let k := tdesParts key
  desDecrypt k.1 (desEncrypt k.2.1 (desDecrypt k.2.2 block))

end Sys2Proof.Machine
end

