-- ==== Sys2Proof/Machine/Cipher.lean ====
section
/-! DEFINITION. Spindle's modes at block and message boundaries (R130 to R137) and the message authentication codes over them,
and CTR_DRBG (SP 800-90A) for Lantern's expander (R400). What the manual takes from a named standard is log entry 1. -/
namespace Sys2Proof.Machine

/-- One block operation of a pass. -/
abbrev BlockFn := Bytes → Bytes

/-- ECB (R131): every block by itself. -/
def ecbMode (f : BlockFn) (bs : Nat) (data : Bytes) : Bytes := ((chunks bs data).map f).flatten

/-- CBC encryption (R131). -/
def cbcEncrypt (f : BlockFn) (bs : Nat) (iv data : Bytes) : Bytes :=
  ((chunks bs data).foldl (fun (p : List Bytes × Bytes) b =>
    let c := f (xorBytes b p.2)
    (c :: p.1, c)) ([], iv)).1.reverse.flatten

/-- CBC decryption (R131). -/
def cbcDecrypt (f : BlockFn) (bs : Nat) (iv data : Bytes) : Bytes :=
  ((chunks bs data).foldl (fun (p : List Bytes × Bytes) c =>
    (xorBytes (f c) p.2 :: p.1, c)) ([], iv)).1.reverse.flatten

/-- A counter block with its low 32 bits raised by `i` (R134). -/
def ctrBlock (icb : Bytes) (i : Nat) : Bytes :=
  icb.take 12 ++ beBytes 4 (ofBe (icb.drop 12) + i)

/-- CTR on a message (R134). -/
def ctrCrypt (key icb data : Bytes) : Bytes :=
  ((chunks 16 data).zipIdx.map fun p => xorBytes p.1 (aesEncrypt key (ctrBlock icb p.2))).flatten

/-- A message of `n` bytes whose 32-bit counter passes 0xFFFF_FFFF (R134). -/
def ctrOverflows (icb : Bytes) (n : Nat) : Bool := decide (2 ^ 32 < ofBe (slice icb 12 4) + (n + 15) / 16)

/-- Multiplication in GF(2^128) as GCM numbers its bits: bit 0 of the standard is the most significant here. -/
def ghashMul (x y : Nat) : Nat :=
  ((List.range 128).foldl (fun (p : Nat × Nat) i =>
    ((if x.testBit (127 - i) then p.1 ^^^ p.2 else p.1),
     (if p.2 % 2 = 1 then (p.2 / 2) ^^^ (0xE1 * 2 ^ 120) else p.2 / 2))) (0, y)).1

/-- Zero-padded to whole 16-byte blocks. -/
def pad16 (b : Bytes) : Bytes := b ++ zeros (roundUp b.length 16 - b.length)

/-- GHASH over AAD, ciphertext and the length block (R135). -/
def ghash (h aad ct : Bytes) : Bytes :=
  let blocks := chunks 16 (pad16 aad ++ pad16 ct ++ beBytes 8 (8 * aad.length) ++ beBytes 8 (8 * ct.length))
  beBytes 16 (blocks.foldl (fun y b => ghashMul (y ^^^ ofBe b) (ofBe h)) 0)

/-- The tag of GCM, `tagLen` bytes (R135). -/
def gcmTag (key iv aad ct : Bytes) (tagLen : Nat) : Bytes :=
  (xorBytes (aesEncrypt key (iv ++ [0, 0, 0, 1])) (ghash (aesEncrypt key (zeros 16)) aad ct)).take tagLen

/-- GCM encryption or decryption of the text; the tag apart (R135). -/
def gcmCrypt (key iv text : Bytes) : Bytes := ctrCrypt key (iv ++ [0, 0, 0, 2]) text

/-- GCM encryption: ciphertext, then tag. -/
def gcmSeal (key iv aad pt : Bytes) (tagLen : Nat) : Bytes :=
  let ct := gcmCrypt key iv pt
  ct ++ gcmTag key iv aad ct tagLen

/-- GCM decryption: the plaintext where the tag agrees, nothing otherwise (R136). -/
def gcmOpen (key iv aad ct tag : Bytes) : Option Bytes :=
  if gcmTag key iv aad ct tag.length = tag then some (gcmCrypt key iv ct) else none

/-- The plaintext of a GCM ciphertext (R135, R136). -/
def gcmText (key iv ct : Bytes) : Bytes := gcmCrypt key iv ct

/-- Multiplication of an XTS tweak by α, the tweak as a little-endian integer (R137). -/
def xtsAlpha (t : Nat) : Nat := (2 * t % 2 ^ 128) ^^^ (if t.testBit 127 then 0x87 else 0)

/-- The tweak of block `j`: `T·αʲ`. -/
def xtsTweak (t0 : Nat) (j : Nat) : Bytes := leBytes 16 ((List.range j).foldl (fun t _ => xtsAlpha t) t0)

/-- One XTS block. -/
def xtsBlock (f : BlockFn) (t b : Bytes) : Bytes := xorBytes (f (xorBytes b t)) t

/-- XTS over a whole message with ciphertext stealing (R137); `tweak` is the data unit's number. -/
def xtsCrypt (decrypt : Bool) (k1 k2 : Bytes) (tweak : Nat) (data : Bytes) : Bytes :=
  let f := if decrypt then aesDecrypt k1 else aesEncrypt k1
  let t0 := ofLe (aesEncrypt k2 (leBytes 16 tweak))
  let full := data.length / 16
  let rest := data.length % 16
  let plain := if rest = 0 then full else full - 1
  let head := ((chunks 16 (data.take (16 * plain))).foldl (fun (p : List Bytes × Nat) b =>
    (xtsBlock f (leBytes 16 p.2) b :: p.1, xtsAlpha p.2)) ([], t0))
  if rest = 0 then head.1.reverse.flatten
  else
    let ta := leBytes 16 head.2
    let tb := leBytes 16 (xtsAlpha head.2)
    let b1 := slice data (16 * plain) 16
    let b2 := slice data (16 * full) rest
    let cc := xtsBlock f (if decrypt then tb else ta) b1
    let last := xtsBlock f (if decrypt then ta else tb) (b2 ++ cc.drop rest)
    head.1.reverse.flatten ++ last ++ cc.take rest

/-- Doubling in GF(2^128) for CMAC. -/
def cmacDouble (b : Bytes) : Bytes :=
  let v := ofBe b
  let n := b.length
  beBytes n ((2 * v % 2 ^ (8 * n)) ^^^ (if v.testBit (8 * n - 1) then (if n = 16 then 0x87 else 0x1B) else 0))

/-- CMAC (R133) over a block function of block size `bs`; 8 only inside TR-31 (log entry 1). -/
def cmacWith (f : BlockFn) (bs : Nat) (msg : Bytes) : Bytes :=
  let k1 := cmacDouble (f (zeros bs))
  let k2 := cmacDouble k1
  let full := msg.length != 0 && msg.length % bs == 0
  let n := if full then msg.length / bs - 1 else msg.length / bs
  let last := msg.drop (bs * n)
  let lastBlk := if full then xorBytes last k1 else xorBytes (fit bs (last ++ [0x80])) k2
  let c := (chunks bs (msg.take (bs * n))).foldl (fun c b => f (xorBytes c b)) (zeros bs)
  f (xorBytes c lastBlk)

/-- AES-CMAC (R133). -/
def aesCmac (key msg : Bytes) : Bytes := cmacWith (aesEncrypt key) 16 msg

/-- ISO 9797-1 padding method 1 or 2 (R132). -/
def isoPad (method bs : Nat) (msg : Bytes) : Bytes :=
  if method = 2 then
    let m := msg ++ [0x80]
    m ++ zeros (roundUp m.length bs - m.length)
  else if msg.isEmpty then zeros bs
  else msg ++ zeros (roundUp msg.length bs - msg.length)

/-- ISO 9797-1 algorithm 1: CBC-MAC under the whole key, on a padded message (R132). -/
def macAlg1 (f : BlockFn) (bs : Nat) (padded : Bytes) : Bytes :=
  (chunks bs padded).foldl (fun c b => f (xorBytes c b)) (zeros bs)

/-- ISO 9797-1 algorithm 3 under a double-length key, on a padded message (R132). -/
def macAlg3 (key padded : Bytes) : Bytes :=
  let bl := chunks 8 padded
  let c := bl.dropLast.foldl (fun c b => desEncrypt (key.take 8) (xorBytes c b)) (zeros 8)
  tdesEncrypt (key.take 16) (xorBytes c (bl.getLastD (zeros 8)))

/-- Increment of the 128-bit V of CTR_DRBG. -/
def drbgInc (v : Bytes) : Bytes := beBytes 16 (ofBe v + 1)

/-- `n` output blocks of CTR_DRBG from V, with the V after them. -/
def drbgBlocks (key : Bytes) : Nat → Bytes → Bytes × Bytes
  | 0, v => ([], v)
  | n + 1, v =>
    let v' := drbgInc v
    let r := drbgBlocks key n v'
    (aesEncrypt key v' ++ r.1, r.2)

/-- CTR_DRBG_Update with AES-256: new Key and V from 48 bytes of data. -/
def drbgUpdate (key v data : Bytes) : Bytes × Bytes :=
  let t := xorBytes (drbgBlocks key 3 v).1 (fit 48 data)
  (t.take 32, t.drop 32)

/-- One generate call without additional input: output, new Key, new V. -/
def drbgGenerate (key v : Bytes) (n : Nat) : Bytes × Bytes × Bytes :=
  let r := drbgBlocks key ((n + 15) / 16) v
  let u := drbgUpdate key r.2 (zeros 48)
  (r.1.take n, u.1, u.2)

end Sys2Proof.Machine
end

