-- ==== Sys2Proof/Machine/LanternOps.lean ====
section
/-! DEFINITION. Lantern (chapter 16): samples and their health tests, the conditioner, the expander, the ports, and draws. -/
namespace Sys2Proof.Machine

/-- The repetition count that is a breach, for source `s` (R397). -/
def lanRepetition (s : Nat) : Nat := if s = 4 then 26 else 41

/-- The adaptive-proportion count that is a breach, for source `s` (R397). -/
def lanProportion (s : Nat) : Nat := if s = 4 then 667 else 797

/-- Every buffer and secret of Lantern zeroised. -/
def Lantern.wipe (l : Lantern) : Lantern :=
  { l with block := none, key := [], v := [], instantiated := false, central := []
           ports := Tab.mapVals l.ports fun _ p => { p with buf := [] }
           sources := Tab.mapVals l.sources fun _ s => { s with packed := [] } }

/-- A health failure (R407): the first breach is recorded, everything is zeroised and Belay hears of it as class W. -/
def lanFail (b : Block) (source test kat : Nat) : Block :=
  if b.lantern.st = .failed then b
  else
    let b := b.modLantern fun l =>
      { l.wipe with st := .failed, causeSource := source, causeTest := test, causeKat := kat }
    (b.report 0x0120 0 .w (source + 8 * test + 32 * kat) 0 0).tally 144

/-- One sample of one source put through the two tests: the source, and the test breached, 0 for none (R397). A window of the
adaptive-proportion test begins with its first sample. -/
def Source.sample (s : Source) (n : Nat) (x : Bool) : Source × Nat :=
  let run := if s.run ≠ 0 ∧ s.lastBit = x then s.run + 1 else 1
  let fresh := s.seen = 0 ∨ s.seen = 1024
  let first := if fresh then x else s.first
  let seen := if fresh then 1 else s.seen + 1
  let same := if fresh then 1 else s.same + b2n (s.first == x)
  let breach := if lanRepetition n ≤ run then 1 else if lanProportion n ≤ same then 2 else 0
  ({ s with lastBit := x, run := run, first := first, seen := seen, same := same }, breach)

/-- The first 128 samples of each source after the start are discarded (R401). -/
def lanSettled (l : Lantern) : Bool := decide (128 ≤ l.samples)

/-- One raw sample of every source, RO0 in bit 0 and LT in bit 4 (R396, R397): tested, and kept for the conditioner. Sampling goes
on while LAN is powered and has not failed (R403, R407). -/
def lanSample (b : Block) (raw : BitVec 5) : Block :=
  let l := b.lantern
  if l.st = .failed ∨ l.st = .off then b
  else if !lanSettled l then b.modLantern fun l => { l with samples := l.samples + 1 }
  else
    let step (acc : Tab Source × Option (Nat × Nat)) (n : Nat) : Tab Source × Option (Nat × Nat) :=
      let x := raw.getLsbD n
      let r := Source.sample (Tab.get l.sources Source.reset n) n x
      (Tab.set acc.1 n { r.1 with packed := if r.1.packed.length < 256 then r.1.packed ++ [x] else r.1.packed },
        if acc.2.isNone ∧ r.2 ≠ 0 then some (n, r.2) else acc.2)
    let r := (List.range 5).foldl step (l.sources, none)
    let b := b.modLantern fun l => { l with sources := r.1, samples := l.samples + 1 }
    match r.2 with
    | some (n, t) => lanFail b n t 0
    | none => b

/-- The samples of a source as 32 bytes, the first in bit 0 of the first byte (R398). -/
def packSamples (l : List Bool) : Bytes :=
  (List.range 32).map fun i => BitVec.ofNat 8 ((List.range 8).foldl (fun a j => a + b2n (l.getD (8 * i + j) false) * 2 ^ j) 0)

/-- The conditioner forms a block from 256 samples of each source, once it has them (R398). -/
def lanCondition (b : Block) : Block :=
  let l := b.lantern
  let full := (List.range 5).all fun n => decide (256 ≤ (Tab.get l.sources Source.reset n).packed.length)
  if (l.st = .starting ∨ l.st = .running) ∧ full then
    let packed := (List.range 5).flatMap fun n => packSamples (Tab.get l.sources Source.reset n).packed
    b.modLantern fun l =>
      { l with block := some (shake256 (9 :: packed) 64)
               sources := Tab.mapVals l.sources fun _ s => { s with packed := [] } }
  else b

/-- The personalisation string (R399): DEVICE, PCC and 36 zero bytes. -/
def lanPersonal (b : Block) : Bytes := b.device ++ leBytes 4 b.strata.pcc ++ zeros 36

/-- One call of the generator, 1,024 bytes (R399), and the reseed after the 4,096th call. -/
def Lantern.generate (l : Lantern) : Lantern × Bytes :=
  let (out, k, v) := drbgGenerate l.key l.v 1024
  ({ l with key := k, v := v, calls := l.calls + 1 }, out)

/-- A reseed from bytes 0 to 47 of the newest block (R399). -/
def Lantern.reseed (l : Lantern) : Lantern :=
  match l.block with
  | some x =>
    let (k, v) := drbgUpdate l.key l.v (x.take 48)
    { l with key := k, v := v, calls := 0, reseeds := l.reseeds + 1 }
  | none => l

/-- The expander fills the central buffer of 1 KiB while it has room (R399): what a call yields beyond the room stays for the next
time, which is the same bytes in order, so the model keeps the call's output whole. -/
def Lantern.refill (l : Lantern) (need : Nat) : Lantern :=
  if l.instantiated ∧ l.central.length < need then
    let r := (if l.calls = 4096 then l.reseed else l).generate
    { r.1 with central := r.1.central ++ r.2 }
  else l

/-- A draw of 1 to 1,024 bytes from the central buffer, delivered whole or not at all (R405). -/
def drawOne (b : Block) (n : Nat) : Option (Bytes × Block) :=
  if b.lantern.st = .running then
    let l := b.lantern.refill n
    some (fit n l.central,
      ({ b with lantern := { l with central := l.central.drop n } }).tallyBy 143 n)
  else none

/-- A draw of any number of bytes as draws of at most 1,024 (R405), `fuel` of them. -/
def drawMany : Nat → Block → Nat → Option (Bytes × Block)
  | 0, b, _ => some ([], b)
  | fuel + 1, b, n =>
    if n = 0 then some ([], b)
    else match drawOne b (min n 1024) with
      | none => none
      | some (x, b) =>
        match drawMany fuel b (n - min n 1024) with
        | none => none
        | some (y, b) => some (x ++ y, b)

/-- A draw: the bytes, or nothing while Lantern is not delivering (R405). -/
def Block.draw (b : Block) (n : Nat) : Option (Bytes × Block) := if n = 0 then some ([], b) else drawMany 64 b n

/-- Lantern is delivering (R405). -/
def Block.delivering (b : Block) : Bool := b.lantern.st == .running

/-- EXPANDER_GENERATE: the expander runs while the central buffer has room (R399). -/
def lanGenerate (b : Block) : Block :=
  if b.lantern.st = .failed ∨ b.lantern.st = .off then b
  else b.modLantern fun l => if l.calls = 4096 then l else l.refill 1024

/-- EXPANDER_RESEED: after 4,096 generate calls, from the newest block (R399). -/
def lanReseed (b : Block) : Block :=
  if b.lantern.instantiated ∧ b.lantern.calls = 4096 then b.modLantern Lantern.reseed else b

/-- LANTERN_KAT: the known-answer tests at start-up and at every 65,536th reseed (R400); `bad` says which mismatched, if any. -/
def lanKat (b : Block) (bad : Option Bool) : Block :=
  let l := b.lantern
  if l.st = .starting ∨ (l.st = .running ∧ l.reseeds ≠ 0 ∧ l.reseeds % 65536 = 0) then
    match bad with
    | some expander => lanFail b 0 3 (b2n expander)
    | none => b.modLantern fun l => { l with katOk := true }
  else b

/-- LANTERN_STARTUP: from nothing (R401, R402, R406). A Lantern that failed and was in Dormant stays failed (R409): a device reset
sets `.off` before it comes here. -/
def lanStart (b : Block) : Block :=
  if b.lantern.st = .failed then b
  else { b with lantern := { Lantern.reset with sizeErr := b.lantern.sizeErr
                                                ports := Tab.mapVals b.lantern.ports fun _ p => { p with buf := [] } } }

/-- LANTERN_RUNNING, the end of the start-up test (R401): both known-answer tests passed, 4,096 samples of each source tested without a
breach, and a block formed. The expander instantiates, and with 64 bytes in the central buffer STATE is RUNNING. The patterns of the shield, the mesh and
the loops are reseeded (R428), with bytes that the manual counts at no port of R404: they are free (log entry 124). -/
def lanRun (b : Block) : Block :=
  let l := b.lantern
  match l.block with
  | some x =>
    if l.st = .starting ∧ l.katOk ∧ 128 + 4096 ≤ l.samples then
      let (k, v) := drbgUpdate (zeros 32) (zeros 16) (xorBytes (x.take 48) (lanPersonal b))
      let (seed, b) := b.fresh 48
      (b.modBelay fun y => { y with patterns := some seed }).modLantern fun l =>
        { ({ l with key := k, v := v, instantiated := true, calls := 0, reseeds := 0 } : Lantern).refill 64 with st := .running }
    else b
  | none => b

/-! ### Ports -/

/-- Port numbers: cores 0 to 63, chambers 64 to 127, the PF 128. -/
def lanPortVf (c : Nat) : Nat := 64 + c

/-- The PF's port. -/
def lanPortPf : Nat := 128

/-- A port. -/
def Block.lanPort (b : Block) (p : Nat) : LanPort := Tab.get b.lantern.ports LanPort.reset p

/-- A port changed by `f`. -/
def Block.modLanPort (b : Block) (p : Nat) (f : LanPort → LanPort) : Block :=
  b.modLantern fun l => { l with ports := Tab.modify l.ports LanPort.reset p f }

/-- A port's buffer may be refilled (R404): it has room, and a VF or PF buffer has not been refilled in this microsecond. -/
def lanRoom (b : Block) (p : Nat) : Bool :=
  let q := b.lanPort p
  decide (q.buf.length < 16) && (decide (p < 64) || q.filled != some b.now) && (decide (p < 64) || p == lanPortPf || decide (p - 64 < b.n))

/-- The port that the round robin reaches next (R404). DESIGN CHOICE: the order is that of the port numbers. -/
def lanTurn (b : Block) : Option Nat :=
  ((List.range 129).map fun k => (b.lantern.lastPort + 1 + k) % 129).find? (lanRoom b)

/-- PORT_REFILL: the port is topped up to its 16 bytes when it is its turn (R404). -/
def lanPortRefill (b : Block) (p : Nat) : Block :=
  if b.lantern.st = .running ∧ lanTurn b = some p then
    match b.draw (16 - (b.lanPort p).buf.length) with
    | some (x, b) =>
      let b := b.modLanPort p fun q => { q with buf := q.buf ++ x, filled := some b.now }
      b.modLantern fun l => { l with lastPort := p }
    | none => b
  else b

/-- A read of `n` bytes at a port (R405): the bytes and the block after, ERR set where too few are there. -/
def lanPortRead (b : Block) (p n : Nat) : Bytes × Block :=
  let q := b.lanPort p
  if n ≤ q.buf.length then (q.buf.take n, b.modLanPort p fun q => { q with buf := q.buf.drop n })
  else (zeros n, b.modLanPort p fun q => { q with err := true })

/-- The value of `LAN_STATUS.STATE` (R406). -/
def lanStateCode : LanternState → Nat
  | .starting => 0
  | .running => 1
  | .failed => 2
  | .off => 3

/-- `LAN_STATUS` or `VFL_STATUS` of a port (R406): VALID clears on every port at a failure (R407). -/
def lanStatus (b : Block) (p : Nat) : Nat :=
  b2n (decide (4 ≤ (b.lanPort p).buf.length) && b.lantern.st == .running) + 2 * b2n (b.lanPort p).err
    + 4 * lanStateCode b.lantern.st

/-- `LAN_CAUSE` (R406). -/
def lanCause (b : Block) : Nat :=
  (if b.lantern.causeTest = 1 ∨ b.lantern.causeTest = 2 then b.lantern.causeSource else 0) + 8 * b.lantern.causeTest
    + 32 * b.lantern.causeKat

/-- LAN_DATA: a PF read of four bytes (R405, R406). -/
def lanPfData (b : Block) (a : Access) : Block :=
  match a with
  | .other => b.modLantern fun l => { l with sizeErr := l.sizeErr ||| 1 }
  | .word =>
    let r := lanPortRead b lanPortPf 4
    r.2.answer (ofLe r.1)

/-- VFL_DATA: a chamber's read of four bytes (R405, R406); bit 2 of `VFQ_QERR` is DB_SIZE (R57). -/
def lanVfData (b : Block) (c : Nat) (a : Access) : Block :=
  match a with
  | .other => b.modCh c fun h => { h with qerr := h.qerr ||| 4 }
  | .word =>
    let r := lanPortRead b (lanPortVf c) 4
    r.2.answer (ofLe r.1)

end Sys2Proof.Machine
end

