-- ==== Sys2Proof/Machine/Flags.lean ====
section
/-! DEFINITION. Conditions and the flag computations of the Chisel instruction set (R283, R289). -/
namespace Sys2Proof.Machine

/-- A condition holds (R283). -/
def condHolds (c : BitVec 4) (f : Flags) : Bool :=
  match c.toNat with
  | 0 => true
  | 1 => f.z
  | 2 => !f.z
  | 3 => f.c
  | 4 => !f.c
  | 5 => f.n
  | 6 => !f.n
  | 7 => f.v
  | 8 => !f.v
  | 9 => f.c && !f.z
  | 10 => !f.c || f.z
  | 11 => f.n == f.v
  | 12 => f.n != f.v
  | 13 => f.last
  | 14 => !f.last
  | _ => false

/-- A result with its carry and overflow. -/
structure Alu (w : Nat) where
  r : BitVec w
  c : Bool
  v : Bool

/-- The sum of two words and a carry: C when the unsigned sum exceeds the width, V when the result overflows as a two's-complement
value (R289). -/
def aluAdd {w : Nat} (a b : BitVec w) (cin : Bool) : Alu w :=
  let u := a.toNat + b.toNat + cin.toNat
  let s := a.toInt + b.toInt + cin.toNat
  { r := BitVec.ofNat w u, c := decide (2 ^ w ≤ u), v := decide (s < -(2 ^ (w - 1) : Int) ∨ (2 ^ (w - 1) : Int) ≤ s) }

/-- The difference of two words and a borrow: C when no borrow occurs (R289). -/
def aluSub {w : Nat} (a b : BitVec w) (borrow : Bool) : Alu w :=
  let s := a.toInt - b.toInt - borrow.toNat
  { r := a - b - BitVec.ofNat w borrow.toNat, c := decide (b.toNat + borrow.toNat ≤ a.toNat)
    v := decide (s < -(2 ^ (w - 1) : Int) ∨ (2 ^ (w - 1) : Int) ≤ s) }

/-- Z and N of a result (R289). -/
def Flags.zn {w : Nat} (f : Flags) (r : BitVec w) : Flags := { f with z := r == 0, n := r.msb }

/-- Z, N, C and V of a result. -/
def Flags.all {w : Nat} (f : Flags) (x : Alu w) : Flags := { f with z := x.r == 0, n := x.r.msb, c := x.c, v := x.v }

/-- As `all`, with Z chained (R289). -/
def Flags.chained {w : Nat} (f : Flags) (x : Alu w) : Flags := { f with z := x.r == 0 && f.z, n := x.r.msb, c := x.c, v := x.v }

/-- The flag byte (R289). -/
def Flags.byte (f : Flags) : Byte :=
  BitVec.ofNat 8 (f.z.toNat + 2 * f.c.toNat + 4 * f.n.toNat + 8 * f.v.toNat + 16 * f.last.toNat)

/-- SETF: Z, C, N and V from a byte; LAST and the rest ignored (R289). -/
def Flags.ofByte (f : Flags) (b : Byte) : Flags :=
  { f with z := b.getLsbD 0, c := b.getLsbD 1, n := b.getLsbD 2, v := b.getLsbD 3 }

/-- The unary operations of R291 on a byte: result and flags. -/
def unaryShl (f : Flags) (a : Byte) : Byte × Flags := let r := a <<< 1; (r, { f.zn r with c := a.msb })
/-- SHR. -/
def unaryShr (f : Flags) (a : Byte) : Byte × Flags := let r := a >>> 1; (r, { f.zn r with c := a.getLsbD 0 })
/-- ASR. -/
def unaryAsr (f : Flags) (a : Byte) : Byte × Flags := let r := a.sshiftRight 1; (r, { f.zn r with c := a.getLsbD 0 })
/-- ROL. -/
def unaryRol (f : Flags) (a : Byte) : Byte × Flags :=
  let r := (a <<< 1) ||| BitVec.ofNat 8 f.c.toNat; (r, { f.zn r with c := a.msb })
/-- ROR. -/
def unaryRor (f : Flags) (a : Byte) : Byte × Flags :=
  let r := (a >>> 1) ||| BitVec.ofNat 8 (128 * f.c.toNat); (r, { f.zn r with c := a.getLsbD 0 })
/-- SWAP's result. -/
def swapNibbles (a : Byte) : Byte := (a <<< 4) ||| (a >>> 4)
/-- SWAP. -/
def unarySwap (f : Flags) (a : Byte) : Byte × Flags := let r := swapNibbles a; (r, f.zn r)
/-- INC: Z, N and V. -/
def unaryInc (f : Flags) (a : Byte) : Byte × Flags :=
  let x := aluAdd a 1 false; (x.r, { f.zn x.r with v := x.v })
/-- DEC: Z, N and V. -/
def unaryDec (f : Flags) (a : Byte) : Byte × Flags :=
  let x := aluSub a 1 false; (x.r, { f.zn x.r with v := x.v })
/-- NOT. -/
def unaryNot (f : Flags) (a : Byte) : Byte × Flags := let r := ~~~a; (r, f.zn r)
/-- NEG. -/
def unaryNeg (f : Flags) (a : Byte) : Byte × Flags := let x := aluSub 0 a false; (x.r, f.all x)

end Sys2Proof.Machine
end

