-- ==== Sys2Proof/Machine/Operands.lean ====
section
/-! DEFINITION. The operand forms of the Chisel instruction set: registers, pairs, 16-bit codes and addresses (R286 to R288), and the
loop levels (R297 to R303). -/
namespace Sys2Proof.Machine

/-- An 8-bit register (R287). -/
def Core.reg (c : Core) (r : BitVec 4) : Byte := Tab.get c.w 0 r.toNat

/-- An 8-bit register set. -/
def Core.setReg (c : Core) (r : BitVec 4) (v : Byte) : Core := { c with w := Tab.set c.w r.toNat v }

/-- The low register of a pair. -/
def pairLo (p : BitVec 3) : BitVec 4 := BitVec.ofNat 4 (2 * p.toNat)

/-- The high register of a pair. -/
def pairHi (p : BitVec 3) : BitVec 4 := BitVec.ofNat 4 (2 * p.toNat + 1)

/-- A pair (R287). -/
def Core.pair (c : Core) (p : BitVec 3) : BitVec 16 := BitVec.ofNat 16 ((c.reg (pairLo p)).toNat + 256 * (c.reg (pairHi p)).toNat)

/-- A pair set. -/
def Core.setPair (c : Core) (p : BitVec 3) (v : BitVec 16) : Core :=
  (c.setReg (pairLo p) (v.extractLsb' 0 8)).setReg (pairHi p) (v.extractLsb' 8 8)

/-- A register of a 16-bit code (R287). -/
def Core.reg16 (c : Core) : Reg16 → BitVec 16
  | .pair n => c.pair n
  | .x => c.x
  | .y => c.y
  | .sp => c.sp

/-- A register of a 16-bit code set. -/
def Core.setReg16 (c : Core) (r : Reg16) (v : BitVec 16) : Core :=
  match r with
  | .pair n => c.setPair n v
  | .x => { c with x := v }
  | .y => { c with y := v }
  | .sp => { c with sp := v }

/-- A pointer. -/
def Core.ptr (c : Core) : Ptr → BitVec 16
  | .x => c.x
  | .y => c.y

/-- A pointer set. -/
def Core.setPtr (c : Core) (p : Ptr) (v : BitVec 16) : Core :=
  match p with
  | .x => { c with x := v }
  | .y => { c with y := v }

/-- The address of a format-M access (R288). -/
def Core.memAddr (c : Core) (p : Ptr) (d : BitVec 8) : BitVec 16 := c.ptr p + d.signExtend 16

/-- The pointer after a format-M access of `n` bytes (R288). -/
def Core.postInc (c : Core) (p : Ptr) (inc : Bool) (n : Nat) : Core :=
  if inc then c.setPtr p (c.ptr p + BitVec.ofNat 16 n) else c

/-! ### Loops -/

/-- A loop level's start, end and count. -/
def Core.loopS (c : Core) (l : Nat) : BitVec 16 := Tab.get c.ls 0 l
/-- LE of a level. -/
def Core.loopE (c : Core) (l : Nat) : BitVec 16 := Tab.get c.le 0 l
/-- LC of a level. -/
def Core.loopC (c : Core) (l : Nat) : BitVec 16 := Tab.get c.lc 0 l

/-- LAST kept in step: set while the innermost open level has LC equal to 1 (R289). -/
def Core.setLast (c : Core) : Core :=
  { c with flags := { c.flags with last := decide (0 < c.depth) && c.loopC (c.depth - 1) == 1 } }

/-- The innermost level closed: its registers are zero (R297). -/
def Core.closeLevel (c : Core) : Core :=
  let l := c.depth - 1
  { c with ls := Tab.set c.ls l 0, le := Tab.set c.le l 0, lc := Tab.set c.lc l 0, depth := l }

/-- A level opened (R298). -/
def Core.openLevel (c : Core) (s e n : BitVec 16) : Core :=
  let l := c.depth
  { c with ls := Tab.set c.ls l s, le := Tab.set c.le l e, lc := Tab.set c.lc l n, depth := l + 1 }

/-- The core after an instruction at `a` that transfers no control (R299): whether a loop went round, and the core with its next PC. -/
def Core.advance (a : BitVec 16) : Nat → Core → Bool × Core
  | 0, c => (false, { c with pc := a + 1 })
  | n + 1, c =>
    let l := c.depth - 1
    if c.base < c.depth ∧ c.loopE l = a then
      if c.loopC l = 1 then Core.advance a n c.closeLevel
      else (true, { c with lc := Tab.set c.lc l (c.loopC l - 1), pc := c.loopS l })
    else (false, { c with pc := a + 1 })

/-- Levels above the frame base that a transfer to the target does not leave open are closed, from the innermost outwards (R301):
a level stays open when its body holds the target or its LOOP instruction stands there. -/
def Core.closeFor (t : BitVec 16) : Nat → Core → Core
  | 0, c => c
  | n + 1, c =>
    if c.base < c.depth ∧ ¬((c.loopS (c.depth - 1) ≤ t ∧ t ≤ c.loopE (c.depth - 1)) ∨ c.loopS (c.depth - 1) = t + 1) then
      Core.closeFor t n c.closeLevel
    else c

/-- The instruction at PC is the last of the innermost open level above the frame base. -/
def Core.atLoopEnd (c : Core) : Bool := decide (c.base < c.depth) && c.loopE (c.depth - 1) == c.pc

/-- The instruction addresses of the running recipe (R266). -/
def Core.inRecipe (c : Core) (a : Nat) : Bool := decide (c.entry ≤ a ∧ a < c.entry + c.len)

end Sys2Proof.Machine
end

