-- ==== Sys2Proof/Machine/ChiselMap.lean ====
section
/-! DEFINITION. The data map of a Chisel core and the accesses that pass its Ferrule (R259 to R264, R274). -/
namespace Sys2Proof.Machine

/-- The chamber whose work item a core runs. -/
def coreChamber (b : Block) (k : Nat) : Option Nat := (b.core k).item.bind fun n => (b.item? n).map (·.chamber)

/-- An event of a core (R524, R526). -/
def coreEvent (b : Block) (k ev : Nat) : Block := b.event k ev (coreChamber b k)

/-! ### The data map (R259 to R263) -/

/-- The rules that Headstock commits for a core's data accesses (R259), in granules of 256 bytes. -/
def coreRules : List Region :=
  let rule (lo hi : Nat) (r w : Bool) : Region := { base := lo, limit := hi, r := r, w := w, x := false, owner := 0x40, en := true }
  [rule 0x00 0x7F true true, rule 0x80 0xBF true true, rule 0xC0 0xC1 true false, rule 0xE0 0xE1 true true, rule 0xF0 0xF1 true false
  , rule 0xF2 0xF3 true true, rule 0xF4 0xF5 true false]

/-- What the data map's own access column admits, address by address (R259, R262, R263). -/
def fieldAdmits (a : Nat) : AccessKind → Bool
  | .read => decide (a < 0xC200) || decide (0xE000 ≤ a ∧ a ≤ 0xE053) || decide (0xE080 ≤ a ∧ a ≤ 0xE081)
      || decide (0xE090 ≤ a ∧ a ≤ 0xE09F) || decide (0xE100 ≤ a ∧ a ≤ 0xE17F) || decide (0xF000 ≤ a ∧ a ≤ 0xF017)
      || decide (0xF100 ≤ a ∧ a ≤ 0xF1FF) || [0xF200, 0xF201, 0xF300, 0xF301, 0xF400, 0xF500].contains a
  | .write => decide (a < 0xC000) || decide (0xE080 ≤ a ∧ a ≤ 0xE081) || decide (0xE090 ≤ a ∧ a ≤ 0xE09F)
      || decide (0xE100 ≤ a ∧ a ≤ 0xE17F) || [0xF200, 0xF300].contains a
  | .fetch => false

/-- The verdict on an access of a core, from the address of its first byte (R260): a denial is counted and reported. -/
def coreAdmit (b : Block) (k : Nat) (kind : AccessKind) (a : Nat) : Bool × Block :=
  if rulesAdmit (b.ferrule k).active (a / 256) kind && fieldAdmits a kind then (true, b)
  else (false, ferruleViolation b k kind a (coreChamber b k))

/-- The window is loaded from a buffer (R264). -/
def windowLoads (b : Block) (k : Nat) : Bool :=
  match (b.core k).item.bind fun n => b.item? n with
  | some i => i.job.headerOk
  | none => false

/-- A page of the window that a read at `a` would have to wait for (R264). -/
def pageMissing (b : Block) (k a : Nat) : Option Nat :=
  if 0x8000 ≤ a ∧ a < 0xC000 ∧ windowLoads b k ∧ !(b.core k).loaded.testBit ((a - 0x8000) / 4096) then some ((a - 0x8000) / 4096)
  else none

/-- A byte of a loop register (R263). -/
def loopByte (c : Core) (off : Nat) : Byte :=
  let r := off / 2
  let v := if r < 4 then c.loopS r else if r < 8 then c.loopE (r - 4) else c.loopC (r - 8)
  if off % 2 = 0 then v.extractLsb' 0 8 else v.extractLsb' 8 8

/-- CC_RNGDATA: the next byte of the core's Lantern port, or zero with ERR set (R263, R405). -/
def rngDataRead (b : Block) (k : Nat) : Byte × Block :=
  let p := b.lanPort k
  if p.buf ≠ [] ∧ b.lantern.st = .running then
    let r := lanPortRead b k 1
    (byteAt r.1 0, r.2)
  else (0, b.modCore k fun c => { c with rngErr := true })

/-- The byte a core reads at an address, the access having been admitted (R259 to R264). -/
def rawRead (b : Block) (k a : Nat) : Byte × Block :=
  let c := b.core k
  if a < 0x8000 then (Memory.read c.scratch a, b)
  else if a < 0xC000 then (Memory.read c.window (a - 0x8000), b)
  else if a < 0xC200 then
    let t := b.ticket k ((a - 0xC000) / 32)
    (if t.st = .outstanding then 0 else byteAt t.area ((a - 0xC000) % 32), b)
  else if a < 0xF000 then (Memory.read c.context a, b)
  else if a < 0xF018 then (loopByte c (a - 0xF000), b)
  else if 0xF100 ≤ a ∧ a < 0xF200 then
    let r := coreCounterRead b k ((coreChamber b k).getD 64) a
    (BitVec.ofNat 8 r.1, r.2)
  else if a = 0xF200 then
    (BitVec.ofNat 8 (b2n (!(b.lanPort k).buf.isEmpty && b.lantern.st == .running) + 2 * b2n c.rngErr), b)
  else if a = 0xF201 then rngDataRead b k
  else if a = 0xF300 then (BitVec.ofNat 8 c.winpos, b)
  else if a = 0xF301 then (BitVec.ofNat 8 c.loaded, b)
  else if a = 0xF400 then (BitVec.ofNat 8 (b.ferrule k).epoch, b)
  else if a = 0xF500 then (BitVec.ofNat 8 k, b)
  else (0, b)

/-- CC_WINPOS: the window moves and is loaded anew; what was written to it is discarded (R264). -/
def winPos (b : Block) (k : Nat) (v : Byte) : Block :=
  b.modCore k fun c => { c with winpos := v.toNat, window := [], loaded := 0 }

/-- A byte a core writes at an address, the access having been admitted. -/
def rawWrite (b : Block) (k a : Nat) (v : Byte) : Block :=
  if a < 0x8000 then b.modCore k fun c => { c with scratch := Memory.write c.scratch a v }
  else if a < 0xC000 then b.modCore k fun c => { c with window := Memory.write c.window (a - 0x8000) v }
  else if a < 0xC200 then
    b.modTicket k ((a - 0xC000) / 32) fun t => { t with area := patch (fit 32 t.area) ((a - 0xC000) % 32) [v] }
  else if a < 0xF000 then b.modCore k fun c => { c with context := Memory.write c.context a v }
  else if a = 0xF200 then (if v.getLsbD 1 then b.modCore k fun c => { c with rngErr := false } else b)
  else if a = 0xF300 then winPos b k v
  else b

/-- A load of `n` bytes, one or two (R260, R261): the bytes and the device after, or the window page it waits for. -/
def coreLoad (b : Block) (k a n : Nat) : Except Nat (Bytes × Block) :=
  match pageMissing b k a, (if n = 2 then pageMissing b k (a + 1) else none) with
  | some p, _ => .error p
  | none, some p => .error p
  | none, none =>
    match coreAdmit b k .read a with
    | (false, b) => .ok (zeros n, b)
    | (true, b) =>
      let r := rawRead b k a
      if n = 2 then
        if a = 0xFFFF then .ok ([r.1, 0], r.2)
        else
          let r2 := rawRead r.2 k (a + 1)
          .ok ([r.1, r2.1], r2.2)
      else .ok ([r.1], r.2)

/-- A store of one or two bytes (R260, R261). -/
def coreStore (b : Block) (k a : Nat) (d : Bytes) : Block :=
  match coreAdmit b k .write a with
  | (false, b) => b
  | (true, b) =>
    let b := rawWrite b k a (byteAt d 0)
    if d.length = 2 ∧ a ≠ 0xFFFF then rawWrite b k (a + 1) (byteAt d 1) else b

/-- The further cycles of a read of the core control region (R296). -/
def controlCost (a : Nat) : Nat := if 0xF000 ≤ a then 1 else 0

/-- The port reads a call's input through the core's Ferrule, byte by byte (R274). -/
def portRead (b : Block) (k : Nat) : Nat → Nat → Bytes × Block
  | _, 0 => ([], b)
  | a, n + 1 =>
    let one : Byte × Block :=
      if 0xFFFF < a then (0, b)
      else match coreAdmit b k .read a with
        | (true, b) => rawRead b k a
        | (false, b) => (0, b)
    let rest := portRead one.2 k (a + 1) n
    (one.1 :: rest.1, rest.2)

/-- The port writes a call's output through the core's Ferrule, byte by byte (R274). -/
def portWrite (b : Block) (k : Nat) : Nat → Bytes → Block
  | _, [] => b
  | a, x :: rest =>
    let b := if 0xFFFF < a then b
      else match coreAdmit b k .write a with
        | (true, b) => rawWrite b k a x
        | (false, b) => b
    portWrite b k (a + 1) rest

end Sys2Proof.Machine
end

