-- ==== Sys2Proof/Machine/Lattice.lean ====
section
/-! DEFINITION. The lattice schemes of Gallery (R153, R163): ML-KEM-1024 after FIPS 203, ML-DSA-65 and ML-DSA-87 after FIPS 204, which are
PRESUMED (log entry 1). A polynomial is the array of its 256 coefficients, each below the modulus. -/
namespace Sys2Proof.Machine

/-- A polynomial, or its transform. -/
abbrev Poly := Array Nat

/-- The coefficient `i`. -/
def pc (f : Poly) (i : Nat) : Nat := f.getD i 0

/-- The polynomial of a function of the index. -/
def polyOf (f : Nat → Nat) : Poly := ((List.range 256).map f).toArray

/-- `n` bits of `v` in reverse order. -/
def bitRev (n v : Nat) : Nat := (List.range n).foldl (fun a i => 2 * a + b2n (v.testBit i)) 0

/-- A power modulo `q`. -/
def latPow (q b e : Nat) : Nat :=
  (List.range (log2 e + 1)).foldr (fun i a => let s := a * a % q; if e.testBit i then s * b % q else s) 1

/-- The zetas of a transform with `n`-bit indices. -/
def zetaTable (q root n : Nat) : Array Nat := ((List.range (2 ^ n)).map fun i => latPow q root (bitRev n i)).toArray

/-- One layer of the forward transform. -/
def nttLayer (q : Nat) (zs : Array Nat) (f : Poly) (len : Nat) : Poly :=
  polyOf fun j =>
    let z := zs.getD (128 / len + j / (2 * len)) 0
    if j % (2 * len) < len then (pc f j + z * pc f (j + len)) % q
    else (pc f (j - len) + (q - z * pc f j % q)) % q

/-- One layer of the inverse transform. -/
def nttInvLayer (q : Nat) (zs : Array Nat) (f : Poly) (len : Nat) : Poly :=
  polyOf fun j =>
    let z := zs.getD (256 / len - 1 - j / (2 * len)) 0
    if j % (2 * len) < len then (pc f j + pc f (j + len)) % q
    else z * (pc f j + q - pc f (j - len)) % q

/-- The sum of two polynomials. -/
def polyAdd (q : Nat) (f g : Poly) : Poly := polyOf fun i => (pc f i + pc g i) % q

/-- The difference of two polynomials. -/
def polySub (q : Nat) (f g : Poly) : Poly := polyOf fun i => (pc f i + q - pc g i) % q

/-- Numbers of `d` bits packed, the least significant bit first. -/
def packBits (d : Nat) (l : List Nat) : Bytes :=
  leBytes (l.length * d / 8) ((l.foldr (fun x a => a * 2 ^ d + x) 0))

/-- `n` numbers of `d` bits unpacked. -/
def unpackBits (d n : Nat) (b : Bytes) : List Nat :=
  let v := ofLe b
  (List.range n).map fun i => (v >>> (d * i)) % 2 ^ d

/-! ### ML-KEM-1024 -/

/-- The modulus of ML-KEM. -/
def kemQ : Nat := 3329

/-- The zetas of ML-KEM. -/
def kemZetas : Array Nat := zetaTable kemQ 17 7

/-- The forward transform. -/
def kemNtt (f : Poly) : Poly := [128, 64, 32, 16, 8, 4, 2].foldl (nttLayer kemQ kemZetas) f

/-- The inverse transform. -/
def kemNttInv (f : Poly) : Poly :=
  let g := [2, 4, 8, 16, 32, 64, 128].foldl (nttInvLayer kemQ kemZetas) f
  polyOf fun i => pc g i * 3303 % kemQ

/-- The product of two transforms. -/
def kemMul (f g : Poly) : Poly :=
  polyOf fun j =>
    let i := j / 2
    let gam := latPow kemQ 17 (2 * bitRev 7 i + 1)
    if j % 2 = 0 then (pc f j * pc g j + pc f (j + 1) * pc g (j + 1) % kemQ * gam) % kemQ
    else (pc f (j - 1) * pc g j + pc f j * pc g (j - 1)) % kemQ

/-- SampleNTT of FIPS 203. -/
def kemSample (seed : Bytes) : Poly :=
  let l := (chunks 3 (shake128 seed 1344)).flatMap fun c =>
    let d1 := (byteAt c 0).toNat + 256 * ((byteAt c 1).toNat % 16)
    let d2 := (byteAt c 1).toNat / 16 + 16 * (byteAt c 2).toNat
    [d1, d2].filter (· < kemQ)
  (l.take 256).toArray

/-- SamplePolyCBD of FIPS 203 with eta 2. -/
def kemCbd (b : Bytes) : Poly :=
  let v := ofLe b
  polyOf fun i =>
    let x := b2n (v.testBit (4 * i)) + b2n (v.testBit (4 * i + 1))
    let y := b2n (v.testBit (4 * i + 2)) + b2n (v.testBit (4 * i + 3))
    (x + kemQ - y) % kemQ

/-- The noise polynomial number `n` of a seed. -/
def kemNoise (seed : Bytes) (n : Nat) : Poly := kemCbd (shake256 (seed ++ [BitVec.ofNat 8 n]) 128)

/-- The entry (i, j) of the matrix. -/
def kemA (rho : Bytes) (i j : Nat) : Poly := kemSample (rho ++ [BitVec.ofNat 8 j, BitVec.ofNat 8 i])

/-- Compress of FIPS 203. -/
def kemCompress (d x : Nat) : Nat := ((2 ^ (d + 1) * x + kemQ) / (2 * kemQ)) % 2 ^ d

/-- Decompress of FIPS 203. -/
def kemDecompress (d y : Nat) : Nat := (2 * kemQ * y + 2 ^ d) / 2 ^ (d + 1)

/-- A sum of products of transforms. -/
def kemDot (fs gs : List Poly) : Poly :=
  (List.zipWith kemMul fs gs).foldl (polyAdd kemQ) (polyOf fun _ => 0)

/-- The secret vector of K-PKE and the encapsulation key, from the seed d. -/
def kemPke (d : Bytes) : List Poly × Bytes :=
  let g := sha3_512 (d ++ [4])
  let rho := g.take 32
  let sig := g.drop 32
  let s := (List.range 4).map fun i => kemNtt (kemNoise sig i)
  let t := (List.range 4).map fun i =>
    polyAdd kemQ (kemDot ((List.range 4).map (kemA rho i)) s) (kemNtt (kemNoise sig (4 + i)))
  (s, (t.map fun f => packBits 12 f.toList).flatten ++ rho)

/-- The encapsulation key of a private key's seeds d and z (R32). -/
def kemPublic (stored : Bytes) : Bytes := (kemPke (stored.take 32)).2

/-- K-PKE.Encrypt. -/
def kemEncrypt (ek m r : Bytes) : Bytes :=
  let t := (List.range 4).map fun i => (unpackBits 12 256 (slice ek (384 * i) 384)).toArray.map (· % kemQ)
  let rho := ek.drop 1536
  let y := (List.range 4).map fun i => kemNtt (kemNoise r i)
  let u := (List.range 4).map fun i =>
    polyAdd kemQ (kemNttInv (kemDot ((List.range 4).map fun j => kemA rho j i) y)) (kemNoise r (4 + i))
  let mu := polyOf fun i => kemDecompress 1 (b2n ((ofLe m).testBit i))
  let v := polyAdd kemQ (polyAdd kemQ (kemNttInv (kemDot t y)) (kemNoise r 8)) mu
  (u.map fun f => packBits 11 (f.toList.map (kemCompress 11))).flatten ++ packBits 5 (v.toList.map (kemCompress 5))

/-- ML-KEM.Encaps with the 32 bytes drawn: shared secret and ciphertext. -/
def kemEncaps (ek m : Bytes) : Bytes × Bytes :=
  let g := sha3_512 (m ++ sha3_256 ek)
  (g.take 32, kemEncrypt ek m (g.drop 32))

/-- ML-KEM.Decaps with implicit rejection (R176). -/
def kemDecaps (stored c : Bytes) : Bytes :=
  let (s, ek) := kemPke (stored.take 32)
  let u := (List.range 4).map fun i =>
    ((unpackBits 11 256 (slice c (352 * i) 352)).map (kemDecompress 11)).toArray
  let v := ((unpackBits 5 256 (c.drop 1408)).map (kemDecompress 5)).toArray
  let w := polySub kemQ v (kemNttInv (kemDot s (u.map kemNtt)))
  let m := packBits 1 (w.toList.map (kemCompress 1))
  let g := sha3_512 (m ++ sha3_256 ek)
  if kemEncrypt ek m (g.drop 32) = c then g.take 32 else shake256 (stored.drop 32 ++ c) 32

/-- The modulus check of FIPS 203 (R181). -/
def kemValid (ek : Bytes) : Bool :=
  ek.length == 1568 && (unpackBits 12 1024 (ek.take 1536)).all (· < kemQ)

/-! ### ML-DSA -/

/-- The modulus of ML-DSA. -/
def dsaQ : Nat := 8380417

/-- The zetas of ML-DSA. -/
def dsaZetas : Array Nat := zetaTable dsaQ 1753 8

/-- A parameter set of FIPS 204. -/
structure DsaParams where
  k : Nat
  l : Nat
  eta : Nat
  tau : Nat
  omega : Nat
  /-- Bytes of the challenge hash. -/
  clen : Nat

/-- ML-DSA-65. -/
def mldsa65 : DsaParams := { k := 6, l := 5, eta := 4, tau := 49, omega := 55, clen := 48 }

/-- ML-DSA-87. -/
def mldsa87 : DsaParams := { k := 8, l := 7, eta := 2, tau := 60, omega := 75, clen := 64 }

/-- gamma1 of both sets. -/
def dsaGamma1 : Nat := 2 ^ 19

/-- gamma2 of both sets. -/
def dsaGamma2 : Nat := (dsaQ - 1) / 32

/-- beta. -/
def DsaParams.beta (s : DsaParams) : Nat := s.tau * s.eta

/-- The forward transform. -/
def dsaNtt (f : Poly) : Poly := [128, 64, 32, 16, 8, 4, 2, 1].foldl (nttLayer dsaQ dsaZetas) f

/-- The inverse transform. -/
def dsaNttInv (f : Poly) : Poly :=
  let g := [1, 2, 4, 8, 16, 32, 64, 128].foldl (nttInvLayer dsaQ dsaZetas) f
  polyOf fun i => pc g i * 8347681 % dsaQ

/-- The product of two transforms. -/
def dsaMul (f g : Poly) : Poly := polyOf fun i => pc f i * pc g i % dsaQ

/-- A sum of products of transforms. -/
def dsaDot (fs gs : List Poly) : Poly := (List.zipWith dsaMul fs gs).foldl (polyAdd dsaQ) (polyOf fun _ => 0)

/-- The distance of a coefficient from zero. -/
def dsaAbs (x : Nat) : Nat := if x ≤ dsaQ / 2 then x else dsaQ - x

/-- The infinity norm of a vector is below a bound. -/
def dsaNormBelow (bound : Nat) (v : List Poly) : Bool := v.all fun f => f.toList.all fun x => decide (dsaAbs x < bound)

/-- An entry of the matrix: RejNTTPoly. -/
def dsaA (rho : Bytes) (r s : Nat) : Poly :=
  let l := (chunks 3 (shake128 (rho ++ [BitVec.ofNat 8 s, BitVec.ofNat 8 r]) 1680)).filterMap fun c =>
    let z := (byteAt c 0).toNat + 256 * (byteAt c 1).toNat + 65536 * ((byteAt c 2).toNat % 128)
    if z < dsaQ then some z else none
  (l.take 256).toArray

/-- RejBoundedPoly. -/
def dsaBounded (eta : Nat) (seed : Bytes) : Poly :=
  let one (b : Nat) : Option Nat :=
    if eta = 2 then (if b < 15 then some ((2 + dsaQ - b % 5) % dsaQ) else none)
    else if b < 9 then some ((4 + dsaQ - b) % dsaQ) else none
  let l := (shake256 seed 816).flatMap fun z => [z.toNat % 16, z.toNat / 16].filterMap one
  (l.take 256).toArray

/-- The key material of a seed: rho, K, s1, s2, t0 and the public key. -/
structure DsaKey where
  rho : Bytes
  kk : Bytes
  s1 : List Poly
  s2 : List Poly
  t0 : List Poly
  pk : Bytes

/-- ML-DSA.KeyGen_internal from the seed (R32). -/
def dsaKey (s : DsaParams) (xi : Bytes) : DsaKey :=
  let h := shake256 (xi ++ [BitVec.ofNat 8 s.k, BitVec.ofNat 8 s.l]) 128
  let rho := h.take 32
  let rho' := slice h 32 64
  let s1 := (List.range s.l).map fun r => dsaBounded s.eta (rho' ++ leBytes 2 r)
  let s2 := (List.range s.k).map fun r => dsaBounded s.eta (rho' ++ leBytes 2 (r + s.l))
  let s1h := s1.map dsaNtt
  let t := List.zipWith (polyAdd dsaQ)
    ((List.range s.k).map fun r => dsaNttInv (dsaDot ((List.range s.l).map (dsaA rho r)) s1h)) s2
  let t1 := t.map fun f => f.toList.map fun x => (x + 4095) / 8192
  let t0 := t.map fun f => f.map fun x => (x + dsaQ - (x + 4095) / 8192 * 8192) % dsaQ
  { rho := rho, kk := h.drop 96, s1 := s1, s2 := s2, t0 := t0, pk := rho ++ (t1.map (packBits 10)).flatten }

/-- The public key of a seed. -/
def dsaPublic (s : DsaParams) (xi : Bytes) : Bytes := (dsaKey s xi).pk

/-- Decompose: the high part and the low part, the low one modulo q. -/
def dsaDecompose (x : Nat) : Nat × Nat :=
  let r0 := x % (2 * dsaGamma2)
  let low : Nat := if r0 ≤ dsaGamma2 then r0 else r0 + dsaQ - 2 * dsaGamma2
  let hi := (x + dsaQ - low) % dsaQ
  if hi = dsaQ - 1 then (0, (low + dsaQ - 1) % dsaQ) else (hi / (2 * dsaGamma2), low)

/-- HighBits. -/
def dsaHigh (x : Nat) : Nat := (dsaDecompose x).1

/-- UseHint. -/
def dsaUseHint (h : Bool) (x : Nat) : Nat :=
  let (r1, r0) := dsaDecompose x
  if !h then r1 else if 0 < r0 ∧ r0 ≤ dsaQ / 2 then (r1 + 1) % 16 else (r1 + 15) % 16

/-- SampleInBall. -/
def dsaBall (tau : Nat) (c : Bytes) : Poly :=
  let b := shake256 c 1088
  let signs := ofLe (b.take 8)
  let go := (List.range tau).foldl
    (fun (st : Poly × Bytes) n =>
      let i := 256 - tau + n
      let rest := st.2.dropWhile fun z => decide (i < z.toNat)
      let j := (rest.headD 0).toNat
      ((st.1.setIfInBounds i (pc st.1 j)).setIfInBounds j (if signs.testBit n then dsaQ - 1 else 1), rest.drop 1))
    (polyOf fun _ => 0, b.drop 8)
  go.1

/-- HintBitPack. -/
def dsaHintPack (s : DsaParams) (h : List (List Bool)) : Bytes :=
  let idx := h.map fun f => (List.range 256).filter fun j => f.getD j false
  let ends := (List.range s.k).map fun i => ((idx.take (i + 1)).map List.length).sum
  fit s.omega (idx.flatten.map (BitVec.ofNat 8)) ++ ends.map (BitVec.ofNat 8)

/-- HintBitUnpack: none where the encoding is not well formed (R181). -/
def dsaHintUnpack (s : DsaParams) (b : Bytes) : Option (List (List Bool)) :=
  let ends := (b.drop s.omega).map BitVec.toNat
  let starts := 0 :: ends
  let idx := (List.zip starts ends).map fun (a, e) => (slice b a (e - a)).map BitVec.toNat
  let last := ends.getLastD 0
  if b.length = s.omega + s.k ∧ (List.zip starts ends).all (fun (a, e) => decide (a ≤ e ∧ e ≤ s.omega))
      ∧ idx.all (fun l => (List.zip l (l.drop 1)).all fun (x, y) => decide (x < y))
      ∧ allZero (slice b last (s.omega - last)) then
    some (idx.map fun l => (List.range 256).map fun j => l.contains j)
  else none

/-- The hash of a message representative with its context (pure form). -/
def dsaMu (pk ctx msg : Bytes) : Bytes :=
  shake256 (shake256 pk 64 ++ [0, BitVec.ofNat 8 ctx.length] ++ ctx ++ msg) 64

/-- w1Encode. -/
def dsaW1 (w1 : List Poly) : Bytes := (w1.map fun f => packBits 4 f.toList).flatten

/-- The loop of signing, `n` tries left. -/
def dsaSignLoop (s : DsaParams) (key : DsaKey) (a : List (List Poly)) (mu rho2 : Bytes) : Nat → Nat → Bytes
  | 0, _ => []
  | n + 1, kappa =>
    let y := (List.range s.l).map fun r =>
      ((unpackBits 20 256 (shake256 (rho2 ++ leBytes 2 (kappa + r)) 640)).map fun x => (dsaGamma1 + dsaQ - x) % dsaQ).toArray
    let yh := y.map dsaNtt
    let w := a.map fun row => dsaNttInv (dsaDot row yh)
    let ct := shake256 (mu ++ dsaW1 (w.map fun f => f.map dsaHigh)) s.clen
    let ch := dsaNtt (dsaBall s.tau ct)
    let scale (v : List Poly) := v.map fun f => dsaNttInv (dsaMul ch (dsaNtt f))
    let z := List.zipWith (polyAdd dsaQ) y (scale key.s1)
    let r := List.zipWith (polySub dsaQ) w (scale key.s2)
    let ct0 := scale key.t0
    let h := List.zipWith (fun f g => (List.range 256).map fun i => dsaHigh (pc f i) != dsaHigh ((pc f i + pc g i) % dsaQ)) r ct0
    let ones := (h.map fun f => f.countP id).sum
    if dsaNormBelow (dsaGamma1 - s.beta) z
        && dsaNormBelow (dsaGamma2 - s.beta) (r.map fun f => f.map fun x => (dsaDecompose x).2)
        && dsaNormBelow dsaGamma2 ct0 && decide (ones ≤ s.omega) then
      ct ++ (z.map fun f => packBits 20 (f.toList.map fun x => (dsaGamma1 + dsaQ - x) % dsaQ)).flatten ++ dsaHintPack s h
    else dsaSignLoop s key a mu rho2 n (kappa + s.l)

/-- ML-DSA.Sign of a message, with rnd (R171). -/
def dsaSign (s : DsaParams) (xi ctx msg rnd : Bytes) : Bytes :=
  let key := dsaKey s xi
  let mu := dsaMu key.pk ctx msg
  let a := (List.range s.k).map fun r => (List.range s.l).map (dsaA key.rho r)
  dsaSignLoop s key a mu (shake256 (key.kk ++ rnd ++ mu) 64) 814 0

/-- The length of a public key. -/
def DsaParams.pkLen (s : DsaParams) : Nat := 32 + 320 * s.k

/-- The length of a signature. -/
def DsaParams.sigLen (s : DsaParams) : Nat := s.clen + 640 * s.l + s.omega + s.k

/-- The validation of R181. -/
def dsaValid (s : DsaParams) (pk sig : Bytes) : Bool :=
  pk.length == s.pkLen && sig.length == s.sigLen && (dsaHintUnpack s (sig.drop (s.clen + 640 * s.l))).isSome

/-- ML-DSA.Verify. -/
def dsaVerify (s : DsaParams) (pk ctx msg sig : Bytes) : Bool :=
  let ct := sig.take s.clen
  let z := (List.range s.l).map fun i =>
    ((unpackBits 20 256 (slice sig (s.clen + 640 * i) 640)).map fun x => (dsaGamma1 + dsaQ - x) % dsaQ).toArray
  match dsaHintUnpack s (sig.drop (s.clen + 640 * s.l)) with
  | none => false
  | some h =>
    let ch := dsaNtt (dsaBall s.tau ct)
    let zh := z.map dsaNtt
    let w := (List.range s.k).map fun r =>
      let t1 := (unpackBits 10 256 (slice pk (32 + 320 * r) 320)).toArray.map fun x => x * 8192 % dsaQ
      dsaNttInv (polySub dsaQ (dsaDot ((List.range s.l).map (dsaA (pk.take 32) r)) zh) (dsaMul ch (dsaNtt t1)))
    let w1 := List.zipWith (fun f g => polyOf fun i => dsaUseHint (g.getD i false) (pc f i)) w h
    dsaNormBelow (dsaGamma1 - s.beta) z && shake256 (dsaMu pk ctx msg ++ dsaW1 w1) s.clen == ct

end Sys2Proof.Machine
end

