-- ==== Sys2Proof/Machine/Rsa.lean ====
section
/-! DEFINITION. RSA as Gallery performs it (R163, R165, R170, R177): RSASSA-PKCS1-v1_5, RSASSA-PSS, RSAES-OAEP and RSAES-PKCS1-v1_5,
after RFC 8017, which is PRESUMED (log entry 1). -/
namespace Sys2Proof.Machine

/-- The hash of HALG (R149), for the six algorithms with a fixed output. -/
def hashAlg (halg : Nat) (m : Bytes) : Bytes :=
  if halg = 0x01 then sha256 m
  else if halg = 0x02 then sha384 m
  else if halg = 0x03 then sha512 m
  else if halg = 0x11 then sha3_256 m
  else sha3_512 m

/-- The output length of HALG (R149); zero for SHAKE. -/
def hashLen (halg : Nat) : Nat :=
  if halg = 0x01 then 32
  else if halg = 0x02 then 48
  else if halg = 0x03 then 64
  else if halg = 0x11 then 32
  else if halg = 0x12 then 64
  else 0

/-- MGF1 with HASH. -/
def mgf1 (halg : Nat) (seed : Bytes) (n : Nat) : Bytes :=
  (((List.range (n / hashLen halg + 1)).map fun i => hashAlg halg (seed ++ beBytes 4 i)).flatten).take n

/-- The DigestInfo prefix of HASH in EMSA-PKCS1-v1_5. -/
def digestInfo (halg : Nat) : Bytes :=
  let oid : Byte := if halg = 0x01 then 1 else if halg = 0x02 then 2 else 3
  let n := hashLen halg
  [0x30, BitVec.ofNat 8 (n + 17), 0x30, 0x0d, 0x06, 0x09, 0x60, 0x86, 0x48, 0x01, 0x65, 0x03, 0x04, 0x02, oid, 0x05, 0x00, 0x04,
    BitVec.ofNat 8 n]

/-- EMSA-PKCS1-v1_5 over a digest, `k` bytes. -/
def emsaPkcs1 (halg : Nat) (digest : Bytes) (k : Nat) : Bytes :=
  let t := digestInfo halg ++ digest
  [0x00, 0x01] ++ List.replicate (k - t.length - 3) 0xFF ++ [0x00] ++ t

/-- EMSA-PSS over a digest with a salt, for a modulus of `8 k` bits. -/
def emsaPss (halg : Nat) (digest salt : Bytes) (k : Nat) : Bytes :=
  let h := hashAlg halg (zeros 8 ++ digest ++ salt)
  let db := zeros (k - salt.length - h.length - 2) ++ [0x01] ++ salt
  let masked := xorBytes db (mgf1 halg h db.length)
  (match masked with
    | [] => []
    | a :: r => (a &&& 0x7F) :: r) ++ h ++ [0xBC]

/-- The check of EMSA-PSS with a salt of HASH's output length. -/
def pssCheck (halg : Nat) (digest em : Bytes) : Bool :=
  let hl := hashLen halg
  let masked := em.take (em.length - hl - 1)
  let h := slice em (em.length - hl - 1) hl
  let db := xorBytes masked (mgf1 halg h masked.length)
  let db := match db with
    | [] => []
    | a :: r => (a &&& 0x7F) :: r
  let salt := db.drop (db.length - hl)
  decide (2 * hl + 2 ≤ em.length) && em.getLast? == some 0xBC && (byteAt em 0).toNat < 128
    && db == zeros (db.length - hl - 1) ++ [0x01] ++ salt
    && hashAlg halg (zeros 8 ++ digest ++ salt) == h

/-- EME-OAEP with a seed. -/
def oaepEncode (halg : Nat) (label msg seed : Bytes) (k : Nat) : Bytes :=
  let hl := hashLen halg
  let db := hashAlg halg label ++ zeros (k - msg.length - 2 * hl - 2) ++ [0x01] ++ msg
  let maskedDb := xorBytes db (mgf1 halg seed (k - hl - 1))
  [0x00] ++ xorBytes seed (mgf1 halg maskedDb hl) ++ maskedDb

/-- EME-OAEP decoded: the message, where every check holds (R177). -/
def oaepDecode (halg : Nat) (label em : Bytes) : Option Bytes :=
  let hl := hashLen halg
  let maskedDb := em.drop (hl + 1)
  let seed := xorBytes (slice em 1 hl) (mgf1 halg maskedDb hl)
  let db := xorBytes maskedDb (mgf1 halg seed maskedDb.length)
  let rest := (db.drop hl).dropWhile (· == 0)
  if byteAt em 0 = 0 ∧ db.take hl = hashAlg halg label ∧ rest.head? = some 1 then some (rest.drop 1) else none

/-- A private key in its stored form (R32): p, q and e, for a modulus of `k` bytes. -/
structure RsaPrivate where
  p : Nat
  q : Nat
  e : Nat

/-- The stored form read (R32). -/
def rsaStored (k : Nat) (m : Bytes) : RsaPrivate :=
  { p := ofBe (m.take (k / 2)), q := ofBe (slice m (k / 2) (k / 2)), e := ofBe (slice m k 4) }

/-- The stored form written (R32). -/
def rsaStore (k : Nat) (key : RsaPrivate) : Bytes := beBytes (k / 2) key.p ++ beBytes (k / 2) key.q ++ beBytes 4 key.e

/-- The inverse of `a` modulo `m`, by the extended algorithm of Euclid. -/
def euclidInv (a m : Nat) : Nat :=
  let r := (List.range 9000).foldl
    (fun (s : (Nat × Nat) × (Int × Int)) _ =>
      if s.1.2 = 0 then s else ((s.1.2, s.1.1 % s.1.2), (s.2.2, s.2.1 - (s.1.1 / s.1.2 : Nat) * s.2.2)))
    ((a % m, m), ((1 : Int), (0 : Int)))
  (r.2.1 % (m : Int)).toNat

/-- The private operation, by CRT (R170). -/
def rsaPrivateOp (key : RsaPrivate) (x : Nat) : Nat :=
  let m1 := powMod key.p (x % key.p) (euclidInv key.e (key.p - 1))
  let m2 := powMod key.q (x % key.q) (euclidInv key.e (key.q - 1))
  let h := (m1 + key.p - m2 % key.p) * euclidInv key.q key.p % key.p
  m2 + h * key.q

/-- The private operation on `x` blinded by the value that the bytes drawn form (R170): the result raised to e is compared with the blinded input, and
unblinded. Nothing where that fails, or where the value has no inverse or is not above 1 (DESIGN CHOICE, log entry 111). -/
def rsaBlinded (key : RsaPrivate) (drawn : Bytes) (x : Nat) : Option Nat :=
  let n := key.p * key.q
  let r := ofBe drawn % n
  let inv := euclidInv r n
  let xb := x * powMod n r key.e % n
  let yb := rsaPrivateOp key xb
  if 1 < r ∧ r * inv % n = 1 ∧ powMod n yb key.e = xb then some (yb * inv % n) else none

/-- The public operation. -/
def rsaPublicOp (n e x : Nat) : Nat := powMod n x e

/-- The encoding of a public key (R165). -/
def rsaPublicBytes (k n e : Nat) : Bytes := beBytes k n ++ beBytes 4 e

end Sys2Proof.Machine
end

