-- ==== Sys2Proof/Machine/EngineQueues.lean ====
section
/-! DEFINITION. The request queues of Spindle, Auger and Gallery, and what enters them without a requester: the work of Headstock, of Flowstone and of the
Sump controller (R124, R150, R157). Its results are in force at once where the model computes them; the requests stand for the engines' time
(DESIGN CHOICE, log entry 112). -/
namespace Sys2Proof.Machine

/-- The latency of Auger's units (R148): a permutation, a SHA-256 compression, a SHA-384 or SHA-512 compression. -/
abbrev latKeccak : Nat := 12
/-- A SHA-256 compression. -/
abbrev latSha256 : Nat := 16
/-- A SHA-384 or SHA-512 compression. -/
abbrev latSha512 : Nat := 20

/-- Passes of which each waits for the one before. -/
def chained (n : Nat) : Pace := [(n, true)]

/-- Passes that issue one per cycle. -/
def flowing (n : Nat) : Pace := [(n, false)]

/-- A request in the queue of a pipeline. Those of Headstock and of the Sump controller have eight entries of it each and wait for one that is free
(R124). -/
def spQueue (s : Spindle) (owner : Option Requester) (payer : Nat) (source : SpSource) (pipe : Nat) (fuse : Fuse) (pace : Pace) (second : Nat) :
    Spindle :=
  let q : SpReq :=
    { id := s.nextId, owner := owner, payer := payer, source := source, pipe := if fuse = .none then pipe else pipe / 2 * 2, fuse := fuse
      pace := pace.filter (·.1 != 0), second := second, notBefore := 0 }
  let wait : Bool := owner.isNone && decide (8 ≤ (s.queue.filter fun x => x.source == source && x.pipe == pipe).length)
  if wait then { s with waiting := s.waiting ++ [q], nextId := s.nextId + 1 } else { s with queue := s.queue ++ [q], nextId := s.nextId + 1 }

/-- A message at one of Auger's ports (R150). -/
def auQueue (a : Auger) (owner : Option Requester) (port : AuPort) (latency slots : Nat) : Auger :=
  { a with msgs := a.msgs ++ [{ id := a.nextId, owner := owner, port := port, latency := latency, left := max 1 slots, place := none, doneAt := 0 }]
           nextId := a.nextId + 1 }

/-- Passes without a requester, charged to a chamber, or to the system by 64 (R124, R125). Requests go to the pipelines in turn. -/
def Block.passes (b : Block) (source : SpSource) (payer n : Nat) : Block :=
  if n = 0 then b
  else { b with spindle := spQueue b.spindle none payer source (b.spindle.nextId % 4) .none (flowing n) 0 }

/-- The passes that seal or unseal `n` records of a chamber or of the system (R137, R214): of each, the one of the tweak and one for each of its four
blocks. -/
def Block.sealPasses (b : Block) (payer n : Nat) : Block := b.passes .sump payer (5 * n)

/-- Permutations of SHAKE256 over `n` bytes (R148). -/
def shakeSlots (n : Nat) : Nat := n / 136 + 1

/-- A hash of Flowstone's: a message of so many permutations at its port (R199). -/
def Block.flowHash (b : Block) (slots : Nat) : Block :=
  if slots = 0 then b else { b with auger := auQueue b.auger none .flowstone latKeccak slots }

/-- A hash of Headstock's. -/
def Block.headHash (b : Block) (slots : Nat) : Block := { b with auger := auQueue b.auger none .headstock latKeccak slots }

/-- Headstock's entries in Gallery's command queue (R157). -/
def headstockEntries (g : Gallery) : Nat := (g.queue.filter fun q => q.source == .headstock).length

/-- Requests of Headstock that Gallery's queue has no entry for are held, and enter it as entries free (R157). -/
def gaAdmit (g : Gallery) : Gallery :=
  let n := 32 - headstockEntries g
  { g with queue := g.queue ++ g.held.take n, held := g.held.drop n }

/-- An operation that Headstock asks Gallery for, charged to the chamber the command acts on, or to the system (R157). -/
def Block.headGallery (b : Block) (payer : Nat) (lattice : Bool) : Block :=
  let g := b.gallery
  let q : GaReq :=
    { id := g.nextId, owner := .headstock, payer := payer, source := .headstock, lattice := lattice, drawn := [], message := none
      windowed := false, rejects := false }
  { b with gallery := gaAdmit { g with held := g.held ++ [q], nextId := g.nextId + 1 } }

end Sys2Proof.Machine
end

