-- ==== Sys2Proof/Machine/Status.lean ====
section
/-! DEFINITION. The status catalogue (R72, R87, R224, R354). -/
namespace Sys2Proof.Machine

/-- The codes of the catalogue. -/
abbrev stOk : Nat := 0x0000
/-- VERIFY_MISMATCH. -/
abbrev stMismatch : Nat := 0x0002
/-- KEY_NOT_FOUND. -/
abbrev stKeyNotFound : Nat := 0x0010
/-- KEY_USAGE. -/
abbrev stKeyUsage : Nat := 0x0011
/-- KEY_EXPIRED. -/
abbrev stKeyExpired : Nat := 0x0012
/-- CACHE_PIN_LIMIT. -/
abbrev stPinLimit : Nat := 0x0013
/-- SLOT_IN_USE (R87). -/
abbrev stSlotInUse : Nat := 0x0014
/-- SLOT_EXHAUSTED (R87). -/
abbrev stSlotExhausted : Nat := 0x0015
/-- FORMAT. -/
abbrev stFormat : Nat := 0x0020
/-- PIN_POLICY. -/
abbrev stPinPolicy : Nat := 0x0021
/-- BUFFER_ACCESS. -/
abbrev stBufferAccess : Nat := 0x0022
/-- PIN_BLOCK (R87). -/
abbrev stPinBlock : Nat := 0x0023
/-- KEY_BLOCK_AUTH (R87). -/
abbrev stKeyBlockAuth : Nat := 0x0024
/-- PK_REJECT. -/
abbrev stPkReject : Nat := 0x0030
/-- RNG_UNAVAILABLE. -/
abbrev stRng : Nat := 0x0040
/-- COUNTER_EXHAUSTED. -/
abbrev stCounterExhausted : Nat := 0x0050
/-- SUMP_INTEGRITY. -/
abbrev stSumpIntegrity : Nat := 0x0060
/-- SUMP_UNAVAILABLE (R224). -/
abbrev stSumpUnavailable : Nat := 0x0061
/-- ABORTED. -/
abbrev stAborted : Nat := 0x0070
/-- CLAIM_LOST. -/
abbrev stClaimLost : Nat := 0x0080
/-- CHAMBER_QUIESCED. -/
abbrev stQuiesced : Nat := 0x0090
/-- RECIPE_FAULT. -/
abbrev stRecipeFault : Nat := 0x00A0
/-- INTERNAL. -/
abbrev stInternal : Nat := 0x00F0
/-- AUTH_REQUIRED. -/
abbrev stAuthRequired : Nat := 0x0100
/-- AUTH_FAILED. -/
abbrev stAuthFailed : Nat := 0x0101
/-- GENERATION_EXHAUSTED. -/
abbrev stGenerations : Nat := 0x0102
/-- LIFECYCLE. -/
abbrev stLifecycle : Nat := 0x0103
/-- BUSY. -/
abbrev stBusy : Nat := 0x0104
/-- VERSION. -/
abbrev stVersion : Nat := 0x0105
/-- OBJECT_STATE (R354). -/
abbrev stObjectState : Nat := 0x0106

/-- NO_ROOM (R354). -/
abbrev stNoRoom : Nat := 0x0107

/-- A status that is neither OK nor VERIFY_MISMATCH (R73). -/
def isFailure (s : Nat) : Bool := s != stOk && s != stMismatch

end Sys2Proof.Machine
end

