-- ==== Sys2Proof/Machine/SumpOps.lean ====
section
/-! DEFINITION. Sump (chapter 8): the record space, sealing and tags, the version tree, reads, commits, the journal, and integrity
failures. -/
namespace Sys2Proof.Machine

/-! ### The record space (R212) -/

/-- R: the records of the chambers together, 3M / 256. -/
def Block.sumpR (b : Block) : Nat := b.memGiB * 12582912

/-- T: all records. -/
def Block.sumpT (b : Block) : Nat := b.sumpR + 65536

/-- R / N: the records of a chamber. -/
def Block.sumpSpace (b : Block) : Nat := b.sumpR / b.n

/-- The global index of a chamber's slot. -/
def Block.gidxOf (b : Block) (c slot : Nat) : Nat := 65536 + c * b.sumpSpace + slot

/-- The chamber whose space holds an index, 64 for the system space. -/
def Block.chamberOfGidx (b : Block) (i : Nat) : Nat := if i < 65536 then 64 else (i - 65536) / b.sumpSpace

/-- The number of blocks of a level, the records as level 0 (R217). -/
def levelBlocks (t : Nat) : Nat → Nat
  | 0 => t
  | l + 1 => (levelBlocks t l + 7) / 8

/-- D: the first level with a single block (R217). -/
def Block.depth (b : Block) : Nat := ((List.range 24).find? fun l => l != 0 && levelBlocks b.sumpT l == 1).getD 23

/-- The key of a version block in the tables. -/
def nodeKey (l i : Nat) : Nat := l * 2 ^ 40 + i

/-! ### Versions and blocks (R216, R217) -/

/-- VERSION of a composite version. -/
def verVersion (v : Nat) : Nat := v / 2 ^ 40 % 65536

/-- CLASS of a composite version. -/
def verClass (v : Nat) : Nat := v / 2 ^ 38 % 4

/-- WRITES of a composite version. -/
def verWrites (v : Nat) : Nat := v % 2 ^ 38

/-- A composite version. -/
def mkVersion (version cls writes : Nat) : Nat := version * 2 ^ 40 + cls * 2 ^ 38 + writes % 2 ^ 38

/-- The version after a write of a slot: a new key, a deletion, or a rewrite (R216). -/
def nextVersion (v : Nat) (newClass : Option Nat) (line : Bytes) : Nat :=
  match newClass with
  | some c =>
    if c < 4 then mkVersion (verVersion v + 1) c (verWrites v + 1)
    else mkVersion ((c - 4) / 4 % 65536) (c % 4) (verWrites v + 1)
  | none => mkVersion (verVersion v) (if allZero line then 0 else verClass v) (verWrites v + 1)

/-- The version of child `k` in a block. -/
def childVersion (block : Bytes) (k : Nat) : Nat := leField block (7 * k) 7

/-- The MAC of a block (R217). -/
def blockMac (b : Block) (l i : Nat) (body : Bytes) (own : Nat) : Bytes :=
  (aesCmac b.keys.treeKey ([BitVec.ofNat 8 l] ++ leBytes 5 i ++ body ++ leBytes 7 own)).take 8

/-- The ciphertext of a record (R214). -/
def sealRecord (b : Block) (i : Nat) (line : Bytes) : Bytes :=
  xtsCrypt false (b.keys.sealKey.take 32) (b.keys.sealKey.drop 32) i line

/-- A record unsealed (R214). -/
def unsealRecord (b : Block) (i : Nat) (ct : Bytes) : Bytes :=
  xtsCrypt true (b.keys.sealKey.take 32) (b.keys.sealKey.drop 32) i ct

/-- The tag of a record (R215). -/
def recordTag (b : Block) (i : Nat) (ct : Bytes) (version : Nat) : Bytes :=
  (aesCmac b.keys.tagKey (leBytes 5 i ++ ct ++ leBytes 7 version)).take 8

/-! ### What the memory returns -/

/-- A line as the memory returns it. -/
def ddrLine (d : Ddr) (ret : DdrReturn) (line : DdrLine) : Bytes :=
  let stored := match line with
    | .record i => Tab.get d.records (zeros 64) i
    | .tag i => Tab.get d.tags (zeros 8) i
    | .node l i => Tab.get d.nodes (zeros 64) (nodeKey l i)
  match ret with
  | .altered l => ((l.find? fun p => p.1 == line).map (·.2)).getD stored
  | .zeroed => zeros stored.length
  | _ => stored

/-- The read of this level meets an uncorrectable error that its retry meets again (R211). -/
def ddrFails (ret : DdrReturn) (level : Nat) : Bool :=
  match ret with
  | .uncorrectable l => l == level
  | _ => false

/-- The corrected errors that a read has met are counted (R211). -/
def ddrCounts (b : Block) (ret : DdrReturn) : Block :=
  match ret with
  | .corrected dc0 dc1 => (b.tallyBy 132 dc0).tallyBy 133 dc1
  | _ => b

/-- What a read of the memory returns, past the engine's Ferrule, with the errors counted (R9, R211). -/
def ddrRead (b : Block) (ret : DdrReturn) : DdrReturn × Block :=
  let p := sumpRead b ret
  (p.1, ddrCounts p.2 p.1)

/-- How a read of a path or a record ends. -/
inductive SumpRead where
  /-- Verified: the record's version and the blocks of its path, highest first: those verified now and those the node cache held. -/
  | ok (version : Nat) (nodes : List (Nat × Bytes))
  /-- Under a subtree already marked bad. -/
  | known
  /-- A new failure: its level and its kind, 0 tag, 1 BMAC, 2 attributes, 3 ECC (R454); and the blocks above it, which verified. -/
  | failed (level kind : Nat) (nodes : List (Nat × Bytes))
  deriving DecidableEq, Repr

/-- An index lies under a subtree marked bad (R223). -/
def underBad (b : Block) (i : Nat) : Bool := b.sump.bad.any fun p => i / 8 ^ p.1 == p.2

/-- The path of record `i` from level `l` down to level 1, `v` being the version of the level-`l` block; `nodes` are those above
it. A child of version zero has never been written: it reads as zero and needs no check (log entry 7). -/
def walkPath (b : Block) (ret : DdrReturn) (i : Nat) : Nat → Nat → List (Nat × Bytes) → SumpRead
  | 0, v, nodes => .ok v nodes
  | l + 1, v, nodes =>
    let x := i / 8 ^ (l + 1)
    let child (body : Bytes) := childVersion body (i / 8 ^ l % 8)
    match b.sump.nodeCache.find? fun p => p.1 == nodeKey (l + 1) x with
    | some p => walkPath b ret i l (child p.2) (nodes ++ [p])
    | none =>
      if v = 0 then walkPath b ret i l 0 nodes
      else if ddrFails ret (l + 1) then .failed (l + 1) 3 nodes
      else
        let blk := ddrLine b.sump.ddr ret (.node (l + 1) x)
        if blockMac b (l + 1) x (blk.take 56) v = blk.drop 56 then
          walkPath b ret i l (child blk) (nodes ++ [(nodeKey (l + 1) x, blk.take 56)])
        else .failed (l + 1) 1 nodes

/-- The path of record `i` verified against ROOTV (R217, R219). -/
def readPath (b : Block) (ret : DdrReturn) (i : Nat) : SumpRead :=
  if underBad b i then .known else walkPath b ret i b.depth b.sump.rootv []

/-- A record read, unsealed and verified (R219): its version, its 64 bytes, and the blocks verified. A slot never written reads as
zero (R216). -/
def readRecord (b : Block) (ret : DdrReturn) (i : Nat) : SumpRead × Bytes :=
  match readPath b ret i with
  | .ok v nodes =>
    if v = 0 then (.ok 0 nodes, zeros 64)
    else if ddrFails ret 0 then (.failed 0 3 nodes, [])
    else
      let ct := ddrLine b.sump.ddr ret (.record i)
      if recordTag b i ct v = ddrLine b.sump.ddr ret (.tag i) then (.ok v nodes, unsealRecord b i ct)
      else (.failed 0 0 nodes, [])
  | r => (r, [])

/-- The algorithm codes of R26. -/
def algCodes : List Nat := [1, 2, 3, 4, 5, 6, 0x10, 0x11, 0x12, 0x13, 0x14, 0x15, 0x16, 0x18, 0x19, 0x1A]

/-- The line has the fields of a head slot (R24): a code of ALG, no reserved bit of SHAPE and KFLAGS, and the OWNER of its place. -/
def headShaped (b : Block) (i : Nat) (line : Bytes) : Bool :=
  let c := b.chamberOfGidx i
  algCodes.contains (byteAt line 32).toNat && decide ((byteAt line 51).toNat < 16) && decide ((byteAt line 39).toNat < 8)
    && leField line 44 2 % 2 ^ 15 == (if c = 64 then 0 else c)

/-- The slot index that a record at a global index has within its space: a system record's has bit 31 set, as in its handle (R35). -/
def slotIndex (b : Block) (c gidx : Nat) : Nat := if c = 64 then 2 ^ 31 + gidx else gidx - b.gidxOf c 0

/-- The line at index `i` is that of a continuation slot (R31): CONT is set at its place, HEAD is the slot so many places before, and it is not
the line of a head slot. The manual gives CONT two places and no way to tell which of them counts: DEDUCED, log entry 96. -/
def contLine (b : Block) (i : Nat) (line : Bytes) : Bool :=
  let pos := (byteAt line 60).toNat % 16
  (byteAt line 60).toNat / 16 == 1 && pos != 0 && allZero (line.drop 61)
    && leField line 56 4 == slotIndex b (b.chamberOfGidx i) (i - pos) % 2 ^ 32 && !headShaped b i line

/-- The attributes of a slot agree with its version (R223): the version of a free record has class zero. -/
def attributesAgree (b : Block) (i version : Nat) (line : Bytes) : Bool :=
  !(byteAt line 32 == 0 && verClass version != 0 && !contLine b i line)

/-! ### The node cache (R218) -/

/-- Blocks of levels `l` to `l + n - 1` together. -/
def blocksFrom (t l : Nat) : Nat → Nat
  | 0 => 0
  | n + 1 => levelBlocks t l + blocksFrom t (l + 1) n

/-- The lowest level of those kept resident: the highest levels that number 65,536 blocks or fewer. -/
def Block.residentLevel (b : Block) : Nat :=
  ((List.range (b.depth + 1)).find? fun l => l != 0 && decide (blocksFrom b.sumpT l (b.depth + 1 - l) ≤ 65536)).getD b.depth

/-- The blocks of a path put into the node cache, or used in it: residents stay, the others go by LRU (R218). -/
def cacheNodes (b : Block) (nodes : List (Nat × Bytes)) : Block :=
  let r := b.residentLevel
  let isResident (p : Nat × Bytes) : Bool := decide (r ≤ p.1 / 2 ^ 40)
  let keep := b.sump.nodeCache.filter fun p => !(nodes.any fun q => q.1 == p.1)
  let all := nodes ++ keep
  let room := 65536 - blocksFrom b.sumpT r (b.depth + 1 - r)
  b.modSump fun s => { s with nodeCache := all.filter isResident ++ (all.filter fun p => !isResident p).take room }

/-! ### Integrity failures (R223) -/

/-- A new integrity failure at record `i`: counted, recorded, its subtree marked, and 64 tag or block failures in a second raise
class L. -/
def sumpFailure (b : Block) (i level kind : Nat) : Block :=
  let sat (n : Nat) : Nat := min 255 (n + 1)
  let b := b.modSump fun s =>
    if kind = 3 then { s with faultsEcc := sat s.faultsEcc }
    else if level = 0 then { s with faultsTag := sat s.faultsTag }
    else { s with faultsNode := sat s.faultsNode }
  let b := b.modSump fun s =>
    if level = 0 then s else { s with bad := s.bad ++ [(level, i / 8 ^ level)] }
  let c := b.chamberOfGidx i
  let b := (b.tally 134).report 0x0220 0 .w (i % 2 ^ 32) (i / 2 ^ 32 % 256 + 2 ^ 8 * level + 2 ^ 12 * kind)
    (if c = 64 then 0x3F else c)
  if kind = 0 ∨ kind = 1 then
    let times := (b.sump.failTimes.filter fun t => decide (b.now < t + 1000000)) ++ [b.now]
    if 64 ≤ times.length then
      (b.modSump fun s => { s with failTimes := [] }).report 0x0112 0 .l times.length 0 0
    else b.modSump fun s => { s with failTimes := times }
  else b

/-! ### Free slots -/

/-- The version of a slot as the tree holds it. -/
def slotVersion (b : Block) (i : Nat) : Nat :=
  match readPath b .faithful i with
  | .ok v _ => v
  | _ => 0

/-- A record shown free is free when it is read: its version is zero or its ALG is (R213, R216). A read that fails does not keep the slot from
being written (R223). -/
def readsFree (b : Block) (i : Nat) : Bool :=
  match readRecord b .faithful i with
  | (.ok v _, line) => v == 0 || byteAt line 32 == 0 && !contLine b i line
  | _ => true

/-- A slot may take a new key: shown free and found free, not reserved, and its VERSION not exhausted (R213, R216). -/
def slotFree (b : Block) (reserved : List Nat) (i : Nat) : Bool :=
  !b.sump.ddr.hint.contains i && !reserved.contains i && slotVersion b i / 2 ^ 40 != 0xFFFF && readsFree b i

/-- The lowest run of `w` free slots at or above `i` and below `limit`, trying as many starts as `fuel` says. A run can only begin
at the first index or right after a slot that is taken; a slot not shown used that is taken has a version, and so a version block. -/
def findRun (b : Block) (reserved : List Nat) (w limit : Nat) : Nat → Nat → Option Nat
  | 0, _ => none
  | fuel + 1, i =>
    if limit < i + w then none
    else
      match ((List.range w).reverse.find? fun k => !slotFree b reserved (i + k)) with
      | none => some i
      | some k => findRun b reserved w limit fuel (i + k + 1)

/-- The lowest free run of `w` slots of a chamber's space, or of the system-owned keys (R173, R213). -/
def lowestRun (b : Block) (c w : Nat) : Option Nat :=
  let reserved := (b.chamber c).reservedSlots
  let fuel := b.sump.ddr.hint.length + reserved.length + 8 * (b.sump.ddr.nodes.length + b.sump.nodeCache.length) + 1
  if c = 64 then findRun b reserved w 65536 fuel 4096
  else findRun b reserved w (b.gidxOf c b.sumpSpace) fuel (b.gidxOf c 0)

/-- Slots reserved for records to be created (R166). -/
def reserveSlots (b : Block) (c : Nat) (creates : List NewRecord) : Block :=
  b.modCh c fun h => { h with reservedSlots := h.reservedSlots ++ creates.flatMap fun w => (List.range w.lines.length).map (w.gidx + ·) }

/-- Reserved slots given back. -/
def releaseSlots (b : Block) (c : Nat) (creates : List NewRecord) : Block :=
  let l := creates.flatMap fun w => (List.range w.lines.length).map (w.gidx + ·)
  b.modCh c fun h => { h with reservedSlots := h.reservedSlots.filter fun i => !l.contains i }

/-! ### Commits (R220, R221) -/

/-- The slots a request writes: index, new class, line. -/
def SumpReq.slots (b : Block) (r : SumpReq) : List (Nat × Option Nat × Bytes) :=
  let direct := r.writes.flatMap fun w =>
    (List.range w.lines.length).map fun k => (w.gidx + k, w.newClass, (w.lines.getD k []))
  let erased := match r.range with
    | some (first, n) =>
      ((b.sump.ddr.hint.filter fun i => decide (first ≤ i ∧ i < first + n)).mergeSort (fun a c => a ≤ c)).map fun i =>
        (i, none, zeros 64)
    | none => []
  direct ++ erased

/-- The requests a commit takes: in order of queueing, up to 64 slots; an erase range goes alone. -/
def takeRequests : Nat → List SumpReq → List SumpReq × List SumpReq
  | _, [] => ([], [])
  | used, r :: rest =>
    let n := (r.writes.map fun w => w.lines.length).sum
    if r.range.isSome then (if used = 0 then ([r], rest) else ([], r :: rest))
    else if used = 0 ∨ used + n ≤ 64 then
      let t := takeRequests (max 1 (used + n)) rest
      (r :: t.1, t.2)
    else ([], r :: rest)

/-- Requests sorted into those whose every path verifies and those that fail (R220 step 1), with the blocks verified. -/
def verifyRequests (b : Block) (ret : DdrReturn) : List SumpReq → List SumpReq × List SumpReq × Block
  | [] => ([], [], b)
  | r :: rest =>
    let step (acc : Bool × Block) (s : Nat × Option Nat × Bytes) : Bool × Block :=
      match readPath acc.2 ret s.1 with
      | .ok _ nodes => (acc.1, cacheNodes acc.2 nodes)
      | .known => (false, acc.2)
      | .failed l k nodes => (false, sumpFailure (cacheNodes acc.2 nodes) s.1 l k)
    let v := (r.slots b).foldl step (true, b)
    let t := verifyRequests v.2 ret rest
    if v.1 then (r :: t.1, t.2.1, t.2.2) else (t.1, r :: t.2.1, t.2.2)

/-- The version and the contents that each slot written ends with (R216): every write of it raises WRITES. -/
def slotWrites (old : Nat → Nat) (slots : List (Nat × Option Nat × Bytes)) : List (Nat × Nat × Bytes) :=
  slots.foldl
    (fun acc s =>
      let v := ((acc.find? fun p => p.1 == s.1).map fun p => p.2.1).getD (old s.1)
      acc.filter (fun p => p.1 != s.1) ++ [(s.1, nextVersion v s.2.1 s.2.2, s.2.2)])
    []

/-- One slot written: its new version, sealed and tagged, and the hint map kept (R220 step 2). -/
def writeSlot (b : Block) (i : Nat) (version : Nat) (line : Bytes) : Block :=
  let ct := sealRecord b i (fit 64 line)
  let d := b.sump.ddr
  let used := !(allZero line)
  let hint := d.hint.filter (· != i)
  b.modSump fun s => { s with ddr := { d with
    records := Tab.set d.records i ct, tags := Tab.set d.tags i (recordTag b i ct version)
    hint := if used then hint ++ [i] else hint } }

/-- The distinct elements of a list, in order. -/
def dedup (l : List Nat) : List Nat := l.foldl (fun a x => if a.contains x then a else a ++ [x]) []

/-- The body of block `x` of level `l` before the commit: the verification of step 1 has put it into the node cache, unless it has
never been written. -/
def nodeBody (b : Block) (l x : Nat) : Bytes :=
  ((b.sump.nodeCache.find? fun p => p.1 == nodeKey l x).map (·.2)).getD (zeros 56)

/-- A block's body with the versions of its changed children (R220 step 3). -/
def newBody (old : Bytes) (x : Nat) (changed : List Nat) (ver : Nat → Nat → Nat) : Bytes :=
  (List.range 8).flatMap fun k =>
    let v := childVersion old k
    leBytes 7 (if changed.contains (8 * x + k) then ver (8 * x + k) v else v)

/-- Level `l` of the tree updated, then the levels above, `n` of them; `changed` are the children that changed. The list of (level,
index, body) in rising level. -/
def updateLevels (b : Block) (ver : Nat → Nat → Nat) : Nat → Nat → List Nat → List (Nat × Nat × Bytes)
  | 0, _, _ => []
  | n + 1, l, changed =>
    let blocks := dedup (changed.map (· / 8))
    let here := blocks.map fun x => (l, x, newBody (nodeBody b l x) x changed ver)
    here ++ updateLevels b (fun _ v => v + 1) n (l + 1) blocks

/-- The version of a changed block after the commit, from its parent's new body or the new ROOTV. -/
def ownVersion (rootv depth l x : Nat) (updates : List (Nat × Nat × Bytes)) : Nat :=
  if l = depth then rootv
  else match updates.find? fun u => u.1 == l + 1 && u.2.1 == x / 8 with
    | some u => childVersion u.2.2 (x % 8)
    | none => 0

/-- A journal entry of R226, after the previous entry's JMAC. -/
def journalEntry (b : Block) (prev body : Bytes) (rootv kind index vers : Nat) (tag : Bytes) (last : Bool) : Bytes :=
  let e := fit 64 body ++ leBytes 7 rootv ++ [BitVec.ofNat 8 (b2n last + 2 * kind)] ++ leBytes 5 index ++ leBytes 7 vers
    ++ fit 8 tag ++ zeros 28
  e ++ (aesCmac b.keys.treeKey ([0x4A] ++ e ++ prev)).take 8

/-- The journal entries of a commit in ascending index order (R226): from the list of (kind, index, vers, body, tag). -/
def journalEntries (b : Block) (rootv : Nat) : Bytes → List (Nat × Nat × Nat × Bytes × Bytes) → List Bytes
  | _, [] => []
  | prev, (kind, index, vers, body, tag) :: rest =>
    let e := journalEntry b prev body rootv kind index vers tag rest.isEmpty
    e :: journalEntries b rootv (e.drop 120) rest

/-- Entries the journal ring may still take (R227). -/
def journalRoom (s : Sump) : Nat := 2 ^ s.jlog2 - 1 - (s.jtail + 2 ^ s.jlog2 - s.jhead) % 2 ^ s.jlog2

/-- Entries written to the journal ring before the tail advances (R227). -/
def writeJournal (b : Block) (entries : List Bytes) : Block :=
  let step (b : Block) (e : Bytes) : Block :=
    let s := b.sump
    (b.emit (.write 0 (s.jbase + 128 * s.jtail) e)).modSump fun s => { s with jtail := (s.jtail + 1) % 2 ^ s.jlog2 }
  entries.foldl step b

/-- Steps 2 to 5 of R220 for the requests a commit carries. -/
def commitWrite (b : Block) (reqs : List SumpReq) : Block :=
  let slots := reqs.flatMap fun r => r.slots b
  let vers := slotWrites (slotVersion b) slots
  let b1 := vers.foldl (fun b v => writeSlot b v.1 v.2.1 v.2.2) b
  let ver (i v : Nat) : Nat := ((vers.find? fun x => x.1 == i).map fun x => x.2.1).getD v
  let d := b.depth
  let rootv := (b.sump.rootv + 1) % 2 ^ 56
  let ups := updateLevels b ver d 1 (vers.map (·.1))
  let nodes := ups.map fun u => (nodeKey u.1 u.2.1, u.2.2 ++ blockMac b u.1 u.2.1 u.2.2 (ownVersion rootv d u.1 u.2.1 ups))
  let b2 := b1.modSump fun s =>
    { s with rootv := rootv, ddr := { s.ddr with nodes := nodes.foldl (fun t p => Tab.set t p.1 p.2) s.ddr.nodes } }
  let b3 := cacheNodes b2 (ups.map fun u => (nodeKey u.1 u.2.1, u.2.2))
  let ranges := reqs.filterMap (·.range)
  let entry (v : Nat × Nat × Bytes) : Nat × Nat × Nat × Bytes × Bytes :=
    (0, v.1, v.2.1, Tab.get b3.sump.ddr.records (zeros 64) v.1, Tab.get b3.sump.ddr.tags (zeros 8) v.1)
  let items := if ranges.isEmpty then (vers.mergeSort fun a c => a.1 ≤ c.1).map entry
    else ranges.map fun r => (1, r.1, r.2, [], [])
  let entries := journalEntries b rootv b.sump.jmac items
  let jmac := ((entries.getLast?).map fun e => e.drop 120).getD b.sump.jmac
  b3.modSump fun s =>
    { s with jmac := jmac
             commit := some { reqs := reqs, entries := entries, rootv := rootv, jmac := jmac, mode := s.jmode, releaseAt := none } }

/-- The head of a record that a request gives a new key or deletes (R49). -/
def SumpReq.drops (r : SumpReq) (g : Nat) : Bool :=
  (r.writes.any fun w => w.gidx == g && (w.newClass.isSome || w.lines.all allZero))
    || (match r.range with
      | some (first, n) => decide (first ≤ g ∧ g < first + n)
      | none => false)

/-- The record of which a request advances COUNTER or sets RETIRED (R39, R42). -/
def SumpReq.marks (r : SumpReq) : Option Nat :=
  match r.waiter with
  | .counter g _ _ => some g
  | .retire g => some g
  | _ => none

/-- The requests of a commit without the marks of records that another of them, before it, deletes or replaces (R41), and those marks. -/
def withoutLateMarks (l : List SumpReq) : List SumpReq × List SumpReq :=
  let late (earlier : List SumpReq) (r : SumpReq) : Bool := match r.marks with
    | some g => earlier.any fun e => e.drops g
    | none => false
  l.foldl (fun acc r => if late acc.1 r then (acc.1, acc.2 ++ [r]) else (acc.1 ++ [r], acc.2)) ([], [])

/-- The slots that a request writes are sealed by Spindle from the Sump controller's source, charged to their chamber (R137, R214). -/
def sealRequest (b : Block) (r : SumpReq) : Block :=
  match r.slots b with
  | [] => b
  | s :: rest => b.sealPasses (b.chamberOfGidx s.1) (rest.length + 1)

/-- SUMP_COMMIT: the controller starts a commit of the queued writes (R220): the device after, and the requests that are over at once, with their
status: those that fail, and those that write no slot. -/
def sumpCommit (b : Block) (ret : DdrReturn) : Block × List (SumpReq × Nat) :=
  let s := b.sump
  if s.commit.isSome ∨ s.queue = [] then (b, [])
  else if s.st ≠ .ready then
    (b.modSump fun s => { s with queue := [] }, s.queue.map fun r => (r, stSumpUnavailable))
  else
    let t := takeRequests 0 s.queue
    let need := if s.jmode = .off then 0 else (t.1.map fun r => if r.range.isSome then 1 else (r.slots b).length).sum
    if s.jmode ≠ .off ∧ journalRoom s < need then (b.modSump fun s => { s with jfull := true }, [])
    else
      let (ret, b) := ddrRead (b.modSump fun s => { s with queue := t.2, jfull := false }) ret
      let l := withoutLateMarks t.1
      let v := verifyRequests b ret l.1
      let failed := l.2.map (fun r => (r, stKeyNotFound)) ++ v.2.1.map fun r => (r, stSumpIntegrity)
      let empty := v.1.filter fun r => (r.slots v.2.2).isEmpty
      let full := v.1.filter fun r => !(r.slots v.2.2).isEmpty
      let failed := failed ++ empty.map fun r => (r, stOk)
      if full = [] then (v.2.2, failed)
      else
        let b := full.foldl sealRequest (commitWrite v.2.2 full)
        match b.sump.commit with
        | some c =>
          if c.mode = .sync then
            let b := writeJournal b c.entries
            (b.modSump fun s => { s with commit := some { c with entries := [], releaseAt := some s.jtail } }, failed)
          else (b, failed)
        | none => (b, failed)

/-- The head may be written: in SYNC mode once the host has released the entries (R221). -/
def headMayBeWritten (c : Commit) : Bool := c.releaseAt.isNone

/-- SUMP_HEAD_WRITE: the Sump head is written to Strata, in ASYNC mode the entries follow, and the commit is complete (R221): the device
after and the requests that are complete. -/
def sumpHeadWrite (b : Block) : Block × List SumpReq :=
  match b.sump.commit with
  | some c =>
    if headMayBeWritten c then
      let b := b.modStrata fun s => { s with sumpHead := some (c.rootv, c.jmac) }
      let b := if c.mode = .async then writeJournal b c.entries else b
      ((b.modSump fun s => { s with commit := none }).tally 130, c.reqs)
    else (b, [])
  | none => (b, [])

/-- SMP_JHEAD: a host write of the journal ring's head (R221, R234): entries up to it are released. A write that names an entry not
yet written sets JHEAD_RANGE and is ignored. -/
def smpJhead (b : Block) (a : Access) (v : Nat) : Block :=
  let s := b.sump
  match a with
  | .other => b.modSump fun s => { s with err := s.err ||| 1 }
  | .word =>
    let size := 2 ^ s.jlog2
    let head := v % 2 ^ 20
    let held := (s.jtail + size - s.jhead) % size
    let moved := (head + size - s.jhead) % size
    if head < size ∧ moved ≤ held then
      let release (c : Commit) : Commit :=
        match c.releaseAt with
        | some t => if (t + size - s.jhead) % size ≤ moved then { c with releaseAt := none } else c
        | none => c
      b.modSump fun s => { s with jhead := head, jfull := false, commit := s.commit.map release }
    else b.modSump fun s => { s with err := s.err ||| 2 }

/-- SYNC_RELEASE_TIMEOUT: a warm reset has waited 100 ms for the host's release: the commit completes as in ASYNC mode and its entries
stay in the ring (R222). -/
def syncReleaseTimeout (b : Block) : Block :=
  b.modSump fun s => { s with commit := s.commit.map fun c => { c with releaseAt := none } }

/-- A write queued for a commit. -/
def Block.sumpQueue (b : Block) (r : SumpReq) : Block := b.modSump fun s => { s with queue := s.queue ++ [r] }

/-- A write of one of Headstock's system records: which index and what layout are the firmware's own (R213), so both are free
values. -/
def sysWrite (b : Block) (waiter : Waiter) : Block :=
  let (x, b) := b.fresh 66
  b.sumpQueue { writes := [{ gidx := 256 + ofLe (x.take 2) % 3840, lines := [x.drop 2], newClass := none }]
                range := none, waiter := waiter }

/-- A write of a chain's record (R213): its layout is the firmware's own. -/
def chainWrite (b : Block) (i : ChainId) (waiter : Waiter) : Block :=
  let (x, b) := b.fresh 64
  let g := match i with
    | .chamber c => c
    | .system => 255
  b.sumpQueue { writes := [{ gidx := g, lines := [x], newClass := none }], range := none, waiter := waiter }

/-! ### Start, initialisation, erasure, scrub -/

/-- The level-D block verifies against ROOTV (R225). -/
def rootVerifies (b : Block) (ret : DdrReturn) (rootv : Nat) : Bool :=
  let d := b.depth
  let blk := ddrLine b.sump.ddr ret (.node d 0)
  !ddrFails ret d && (if rootv = 0 then allZero blk else blockMac b d 0 (blk.take 56) rootv == blk.drop 56)

/-- SUMP_START: training has ended, and the level-D block is verified (R225, R233). -/
def sumpStart (b : Block) (trained : Bool) (ret : DdrReturn) : Block :=
  let s := b.sump
  let blk := ddrLine s.ddr ret (.node b.depth 0)
  let b := b.modSump fun s => { s with ddr := { s.ddr with trained := trained } }
  if b.bbram.drk.isNone then b.modSump fun s => { s with st := .erased }
  else match b.strata.sumpHead with
    | none => b.modSump fun s => { s with st := .empty }
    | some (rootv, jmac) =>
      let (ret, b) := ddrRead (b.modSump fun s => { s with rootv := rootv, jmac := jmac }) ret
      if rootv = 0 ∧ !s.ddr.init then b.modSump fun s => { s with st := .empty }
      else if trained ∧ rootVerifies b ret rootv then
        (b.modSump fun s => { s with st := .ready }).report 0x0221 0 .none (rootv % 2 ^ 32) 0 0
      else
        let b := b.modSump fun s => { s with st := .empty }
        if trained ∧ !allZero blk then b.report 0x0221 0 .w (rootv % 2 ^ 32) 0 0 else b

/-- SUMP_INIT's effect on Sump (R230): the level-D block and the hint map zeroed, ROOTV and the JMAC chain zero, the head written. -/
def sumpInit (b : Block) : Block :=
  let b := b.modSump fun s =>
    { s with st := .ready, rootv := 0, jmac := zeros 8, nodeCache := [], bad := [], erasing := []
             ddr := { s.ddr with init := true, hint := [], nodes := Tab.erase s.ddr.nodes (nodeKey b.depth 0) } }
  b.modStrata fun s => { s with sumpHead := some (0, zeros 8) }

/-- A range of a chamber's erase is queued or being committed (R231). -/
def erasePending (s : Sump) (c : Nat) : Bool :=
  let of (r : SumpReq) : Bool := match r.waiter with
    | .erase x _ => x == c
    | _ => false
  s.queue.any of || (s.commit.map fun k => k.reqs.any of).getD false

/-- A range of a chamber's erase is over: the next one starts after it (R231). -/
def rangeErased (b : Block) (c next : Nat) : Block :=
  b.modSump fun s => { s with erasing := s.erasing.map fun p => if p.1 = c then (c, next) else p }

/-- ERASE_RANGE: the background erase of a deleted chamber queues its next range of at most 4,096 indices, once the range before is
committed (R231). -/
def eraseRange (b : Block) (c : Nat) : Block :=
  match b.sump.erasing.find? fun p => p.1 == c && !erasePending b.sump c with
  | none => b
  | some p =>
    let limit := b.gidxOf c b.sumpSpace
    let used := (b.sump.ddr.hint.filter fun i => decide (p.2 ≤ i ∧ i < limit)).mergeSort fun a x => a ≤ x
    match used with
    | [] => b.modSump fun s => { s with erasing := s.erasing.filter fun p => p.1 != c }
    | i :: _ =>
      let n := min 4096 (limit - i)
      b.sumpQueue { writes := [], range := some (i, n), waiter := .erase c (i + n) }

/-- PATROL_SCRUB: one line read (R211). -/
def patrolScrub (b : Block) (r : ScrubResult) : Block :=
  let b := b.modSump fun s => { s with scrub := s.scrub + 1 }
  match r with
  | .clean => b
  | .corrected dc1 => b.tally (if dc1 then 133 else 132)
  | .uncorrectable line =>
    match line with
    | .record i => sumpFailure b i 0 3
    | .tag i => sumpFailure b i 0 3
    | .node l i => sumpFailure b (i * 8 ^ l) l 3

/-! ### Save and restore (R229) -/

/-- The image header of a snapshot. -/
def imageHeader (b : Block) (rootv : Nat) (jmac : Bytes) : Bytes :=
  let h := ascii "VWSI" ++ [1] ++ zeros 3 ++ leBytes 4 b.sumpT ++ [BitVec.ofNat 8 b.n] ++ zeros 3 ++ leBytes 7 rootv ++ [0]
    ++ fit 8 jmac ++ b.device ++ zeros 16
  h ++ (aesCmac b.keys.treeKey ([0x49] ++ h)).take 8

/-- The snapshot is taken at a commit boundary (R229): right away where no commit is running, else when it completes. -/
def snapshotIfDue (b : Block) : Block :=
  match b.sump.save with
  | some v =>
    if !v.started ∧ b.sump.commit.isNone then
      b.modSump fun s => { s with save := some { v with started := true, snapshot := s.ddr, rootv := s.rootv, jmac := s.jmac } }
    else b
  | none => b

/-- Blocks of the levels below `l`, from level 1. -/
def blocksBelow (t : Nat) : Nat → Nat
  | 0 => 0
  | l + 1 => (if l = 0 then 0 else levelBlocks t l) + blocksBelow t l

/-- SAVE_COPY_END: the copy is finished (R229): the image stands in the host's buffer, header first, then the tag region, the tree region
and the record region in that order, each right after the one before (log entry 8); a line never written holds what memory held. -/
def saveCopyEnd (b : Block) : Block :=
  match b.sump.save with
  | some v =>
    if v.started then
      let t := b.sumpT
      let tagBase := v.base + 64
      let treeBase := tagBase + 8 * t
      let recBase := treeBase + 64 * blocksBelow t (b.depth + 1)
      let b := b.emit (.write 0 v.base (imageHeader b v.rootv v.jmac))
      let b := v.snapshot.tags.foldl (fun b p => b.emit (.write 0 (tagBase + 8 * p.1) p.2)) b
      let node (b : Block) (p : Nat × Bytes) : Block :=
        b.emit (.write 0 (treeBase + 64 * (blocksBelow t (p.1 / 2 ^ 40) + p.1 % 2 ^ 40)) p.2)
      let b := v.snapshot.nodes.foldl node b
      let b := v.snapshot.records.foldl (fun b p => b.emit (.write 0 (recBase + 64 * p.1) p.2)) b
      b.modSump fun s => { s with save := none }
    else b
  | none => b

/-- The image header of a restore is this device's (R229 step 1). -/
def imageHeaderOk (b : Block) (h : Bytes) : Bool :=
  h.length == 64 && h.take 5 == ascii "VWSI" ++ [1] && leField h 8 4 == b.sumpT && (byteAt h 12).toNat == b.n
    && slice h 32 8 == b.device && h.drop 56 == (aesCmac b.keys.treeKey ([0x49] ++ h.take 56)).take 8

/-- What the entries of a commit write: index, version, ciphertext and tag (R226): a record write puts what was stored; an erase range writes free
records to the used slots of the range. -/
def replayWrites (b : Block) (entries : List Bytes) : List (Nat × Nat × Bytes × Bytes) :=
  let one (e : Bytes) : List (Nat × Nat × Bytes × Bytes) :=
    let i := leField e 72 5
    let kind := (byteAt e 71).toNat / 2 % 8
    if kind = 0 then [(i, leField e 77 7, e.take 64, slice e 84 8)]
    else
      let n := leField e 77 7
      ((b.sump.ddr.hint.filter fun x => decide (i ≤ x ∧ x < i + n)).mergeSort (fun a c => a ≤ c)).map fun x =>
        let v := nextVersion (slotVersion b x) none []
        let ct := sealRecord b x (zeros 64)
        (x, v, ct, recordTag b x ct v)
  entries.flatMap one

/-- The paths of a replayed commit's records fetched and verified (R220 step 1): none where one fails. -/
def replayPaths (b : Block) : List Nat → Option Block
  | [] => some b
  | i :: rest =>
    match readPath b .faithful i with
    | .ok _ nodes => replayPaths (cacheNodes b nodes) rest
    | _ => none

/-- The entries of a commit applied in a replay, with their paths in the node cache: the memory after (R226, R229). -/
def replayCommit (b : Block) (ws : List (Nat × Nat × Bytes × Bytes)) (rootv : Nat) : Block :=
  let put (b : Block) (w : Nat × Nat × Bytes × Bytes) : Block :=
    let d := b.sump.ddr
    let used := verWrites w.2.1 != 0 && !allZero (unsealRecord b w.1 w.2.2.1)
    let hint := d.hint.filter (· != w.1)
    b.modSump fun s => { s with ddr := { d with
      records := Tab.set d.records w.1 w.2.2.1, tags := Tab.set d.tags w.1 w.2.2.2, hint := if used then hint ++ [w.1] else hint } }
  let b1 := ws.foldl put b
  let ver (i v : Nat) : Nat := ((ws.find? fun x => x.1 == i).map fun x => x.2.1).getD v
  let ups := updateLevels b ver b.depth 1 (dedup (ws.map (·.1)))
  let nodes := ups.map fun u => (nodeKey u.1 u.2.1, u.2.2 ++ blockMac b u.1 u.2.1 u.2.2 (ownVersion rootv b.depth u.1 u.2.1 ups))
  let b2 := b1.modSump fun s =>
    { s with rootv := rootv, ddr := { s.ddr with nodes := nodes.foldl (fun t p => Tab.set t p.1 p.2) s.ddr.nodes } }
  cacheNodes b2 (ups.map fun u => (nodeKey u.1 u.2.1, u.2.2))

/-- The replay of R229: entries in order, those of a commit gathered, until the one that equals the Sump head. None where a check fails or
the journal ends before. -/
def replay (b : Block) (headRoot : Nat) (headMac : Bytes) : List Bytes → List Bytes → Option Block
  | [], _ => none
  | e :: rest, group =>
    let rootv := leField e 64 7
    let prev := ((group.getLast?).map fun g => g.drop 120).getD b.sump.jmac
    let macOk := e.length == 128 && (aesCmac b.keys.treeKey ([0x4A] ++ e.take 120 ++ prev)).take 8 == e.drop 120
    if !macOk ∨ rootv ≠ b.sump.rootv + 1 then none
    else if (byteAt e 71).getLsbD 0 then
      let ws := replayWrites b (group ++ [e])
      match replayPaths b (ws.map (·.1)) with
      | none => none
      | some b =>
        let b := (replayCommit b ws rootv).modSump fun s => { s with jmac := e.drop 120 }
        if rootv = headRoot ∧ e.drop 120 = headMac then some b else replay b headRoot headMac rest []
    else replay b headRoot headMac rest (group ++ [e])

/-- SUMP_RESTORE's load, check and replay (R229): the image's lines as the host's memory holds them, and the journal; none where it
fails, and then STATE is EMPTY and nothing restored is used. -/
def sumpRestore (b : Block) (header : Bytes) (lines : List (DdrLine × Bytes)) (hint : List Nat) (journal : List Bytes) : Option Block :=
  match b.strata.sumpHead with
  | none => none
  | some (headRoot, headMac) =>
    if !imageHeaderOk b header then none
    else
      let put (d : Ddr) (p : DdrLine × Bytes) : Ddr :=
        match p.1 with
        | .record i => { d with records := Tab.set d.records i p.2 }
        | .tag i => { d with tags := Tab.set d.tags i p.2 }
        | .node l i => { d with nodes := Tab.set d.nodes (nodeKey l i) p.2 }
      let d := lines.foldl put { Ddr.blank with trained := true, init := true, hint := hint }
      let rootv := leField header 16 7
      let b := b.modSump fun s =>
        { s with ddr := d, rootv := rootv, jmac := slice header 24 8, nodeCache := [], bad := [], st := .restoring }
      if !rootVerifies b .faithful rootv then none
      else if rootv = headRoot ∧ slice header 24 8 = headMac then some (b.modSump fun s => { s with st := .ready })
      else (replay b headRoot headMac journal []).map fun b => b.modSump fun s => { s with st := .ready }

/-! ### Registers (R234) -/

/-- STATE of `SMP_STATUS`. -/
def sumpStateCode : SumpState → Nat
  | .empty => 0
  | .restoring => 1
  | .ready => 2
  | .erased => 3

/-- JMODE of `SMP_STATUS`. -/
def jmodeCode : JMode → Nat
  | .off => 0
  | .async => 1
  | .sync => 2

/-- `SMP_STATUS`. -/
def smpStatus (b : Block) : Nat :=
  let s := b.sump
  let cap := if b.dual then b.memGiB / 2 else b.memGiB
  sumpStateCode s.st + 2 ^ 3 * b2n s.save.isSome + 2 ^ 4 * jmodeCode s.jmode + 2 ^ 6 * b2n s.jfull
    + 2 ^ 7 * b2n (!s.erasing.isEmpty) + 2 ^ 8 * (b.depth % 16) + 2 ^ 12 * b2n b.dual
    + 2 ^ 13 * (if cap = 16 then 0 else if cap = 32 then 1 else 2)

/-- SMP_ROOTV_L: a read that latches ROOTV_H (R234). -/
def smpRootvL (b : Block) (a : Access) : Block :=
  match a with
  | .other => b
  | .word => (b.modSump fun s => { s with rootvLatch := s.rootv / 2 ^ 32 }).answer (b.sump.rootv % 2 ^ 32)

end Sys2Proof.Machine
end

