-- ==== Sys2Proof/Machine/KeyOps.lean ====
section
/-! DEFINITION. Keys, handles and the key cache (chapter 2). -/
namespace Sys2Proof.Machine

/-! ### The hierarchy (R21) -/

/-- `derive` of R21 under a DRK. -/
def derive (drk : Bytes) (label : String) (context : Bytes) (n : Nat) : Bytes :=
  shake256 (ascii label ++ [0] ++ drk ++ context) n

/-- The DRK, zero where there is none. -/
def Block.drk (b : Block) : Bytes := b.bbram.drk.getD (zeros 32)

/-- The Sump keys computed from the DRK (R21). -/
def deriveSumpKeys (b : Block) : Block :=
  b.modKeys fun k =>
    { k with sealKey := derive b.drk "VW6480 SUMP XTS" [] 64, tagKey := derive b.drk "VW6480 SUMP TAG" [] 32
             treeKey := derive b.drk "VW6480 SUMP TREE" [] 32 }

/-- The handle key of a chamber at its creation (R21, R325). -/
def chamberHandleKey (b : Block) (c creation : Nat) : Bytes :=
  derive b.drk "VW6480 HANDLE" ([BitVec.ofNat 8 c] ++ leBytes 4 creation) 16

/-- The system handle key at commissioning (R21). -/
def systemHandleKey (b : Block) : Bytes := derive b.drk "VW6480 HANDLE" ([0xFF] ++ zeros 4) 16

/-! ### The record (R24 to R33) -/

/-- ALG of a head slot. -/
def recAlg (l : Bytes) : Nat := (byteAt l 32).toNat
/-- LENGTH. -/
def recLength (l : Bytes) : Nat := leField l 33 2
/-- USAGE. -/
def recUsage (l : Bytes) : Bytes := slice l 35 2
/-- MODE. -/
def recMode (l : Bytes) : Byte := byteAt l 37
/-- EXPORT. -/
def recExport (l : Bytes) : Byte := byteAt l 38
/-- KFLAGS. -/
def recFlags (l : Bytes) : Byte := byteAt l 39
/-- COUNTED. -/
def recCounted (l : Bytes) : Bool := (recFlags l).getLsbD 0
/-- RETIRED. -/
def recRetired (l : Bytes) : Bool := (recFlags l).getLsbD 1
/-- FINGERPRINT. -/
def recFingerprint (l : Bytes) : Bool := (recFlags l).getLsbD 2
/-- NOT_AFTER. -/
def recNotAfter (l : Bytes) : Nat := leField l 40 4
/-- OWNER. -/
def recOwner (l : Bytes) : Nat := leField l 44 2
/-- KVN. -/
def recKvn (l : Bytes) : Bytes := slice l 46 2
/-- KCV. -/
def recKcv (l : Bytes) : Bytes := slice l 48 3
/-- Slots of the record. -/
def recWidth (l : Bytes) : Nat := (byteAt l 51).toNat % 16 + 1
/-- A count as a mark holds it: 48 bits have no room for 2^48, one beyond the end of the last block, which stands as the greatest count; the manual
does not say how it stands (DESIGN CHOICE, log entry 97). -/
def markCount (n : Nat) : Nat := min n (2 ^ 48 - 1)
/-- COUNTER: epoch and count of the mark, the greatest count standing for 2^48. -/
def recMark (l : Bytes) : Nat × Nat := (leField l 58 2, if leField l 52 6 = 2 ^ 48 - 1 then 2 ^ 48 else leField l 52 6)
/-- CHAIN. -/
def recChain (l : Bytes) : Nat := leField l 60 4

/-- The record with another mark (R39). -/
def withMark (l : Bytes) (epoch count : Nat) : Bytes := patch l 52 (leBytes 6 (markCount count) ++ leBytes 2 epoch)

/-- The record with RETIRED set (R42). -/
def withRetired (l : Bytes) : Bytes := patch l 39 [recFlags l ||| 2]

/-- The attributes of a record to be created. -/
structure Attr where
  alg : Nat
  length : Nat
  usage : Bytes
  mode : Byte
  exp : Byte
  counted : Bool
  fingerprint : Bool
  notAfter : Nat
  owner : Nat
  kvn : Bytes
  kcv : Bytes
  chain : Nat

/-- An AES key with USAGE D0 and MODE E, B or N is counted (R38). -/
def isCounted (alg : Nat) (usage : Bytes) (mode : Byte) : Bool :=
  (alg == 3 || alg == 4 || alg == 5) && usage == ascii "D0" && (ascii "EBN").contains mode

/-- The slots that `n` bytes of material take (R31). -/
def slotsFor (n : Nat) : Nat := 1 + (n - 32 + 55) / 56

/-- The lines of a record of `w` slots at slot index `slot` (R24, R31). -/
def wideLines (w : Nat) (a : Attr) (material : Bytes) (slot : Nat) : List Bytes :=
  let flags := b2n a.counted + 4 * b2n a.fingerprint
  let head := fit 32 material ++ [BitVec.ofNat 8 a.alg] ++ leBytes 2 a.length ++ fit 2 a.usage ++ [a.mode, a.exp]
    ++ [BitVec.ofNat 8 flags] ++ leBytes 4 a.notAfter ++ leBytes 2 a.owner ++ fit 2 a.kvn ++ fit 3 a.kcv
    ++ [BitVec.ofNat 8 (w - 1)] ++ zeros 8 ++ leBytes 4 a.chain
  head :: (List.range (w - 1)).map fun k =>
    fit 56 (slice material (32 + 56 * k) 56) ++ leBytes 4 slot ++ [BitVec.ofNat 8 (0x10 + k + 1)] ++ zeros 3

/-- The lines of a symmetric or private record (R24, R31). -/
def recordLines (a : Attr) (material : Bytes) (slot : Nat) : List Bytes := wideLines (slotsFor material.length) a material slot

/-- The slots of a public key's record: two or more (R31). -/
def publicSlots (n : Nat) : Nat := max 2 (slotsFor n)

/-- The lines of a public key's record (R31, R33). -/
def publicLines (a : Attr) (material : Bytes) (slot : Nat) : List Bytes := wideLines (publicSlots material.length) a material slot

/-- The material that the lines of a record hold, with its trailing unused bytes. -/
def rawMaterial (lines : List Bytes) : Bytes :=
  match lines with
  | [] => []
  | h :: t => h.take 32 ++ (t.map fun l => l.take 56).flatten

/-- The bytes of a symmetric key of ALG; a generic secret's length is its LENGTH (R26). -/
def symmetricLen (alg length : Nat) : Nat :=
  if alg = 1 then 16 else if alg = 2 then 24 else if alg = 3 then 16 else if alg = 4 then 24 else if alg = 5 then 32 else length / 8

/-- The bytes of a private key's stored form (R32). -/
def privateLen (alg length : Nat) : Nat :=
  if alg = 0x10 then 57 else if alg = 0x12 then 56 else if alg = 0x15 then 48 else if alg = 0x1A then 64
  else if alg = 0x16 then length / 8 + 4 else 32

/-- The bytes of a public key's encoding (R165). -/
def publicLen (alg length : Nat) : Nat :=
  if alg = 0x10 then 57 else if alg = 0x11 then 32 else if alg = 0x12 then 56 else if alg = 0x13 then 32
  else if alg = 0x14 then 65 else if alg = 0x15 then 97 else if alg = 0x16 then length / 8 + 4
  else if alg = 0x18 then 1952 else if alg = 0x19 then 2592 else 1568

/-- The material of a record without its padding: by class (R35), algorithm and length. -/
def recMaterial (lines : List Bytes) (cls : Nat) : Bytes :=
  let h := lines.headD []
  let alg := recAlg h
  let n := if alg < 0x10 then symmetricLen alg (recLength h)
    else if recFingerprint h then 64
    else if cls = 2 then publicLen alg (recLength h)
    else privateLen alg (recLength h)
  (rawMaterial lines).take n

/-- The public key of a private key in its stored form, in its standard encoding (R165). -/
def publicOf (alg length : Nat) (m : Bytes) : Bytes :=
  if alg = 0x10 then edPublic true m
  else if alg = 0x11 then edPublic false m
  else if alg = 0x12 then montPublic true m
  else if alg = 0x13 then montPublic false m
  else if alg = 0x14 then ecPublic p256 (ofBe m)
  else if alg = 0x15 then ecPublic p384 (ofBe m)
  else if alg = 0x16 then
    let k := rsaStored (length / 8) m
    rsaPublicBytes (length / 8) (k.p * k.q) k.e
  else if alg = 0x18 then dsaPublic mldsa65 m
  else if alg = 0x19 then dsaPublic mldsa87 m
  else kemPublic m

/-- KCV of a symmetric key (R27). -/
def symmetricKcv (alg : Nat) (m : Bytes) : Bytes :=
  if alg = 1 ∨ alg = 2 then (tdesEncrypt m (zeros 8)).take 3
  else if alg = 6 then (hmacSha256 m (zeros 16)).take 3
  else (aesCmac m (zeros 16)).take 3

/-- KCV of a private or public key (R27). -/
def publicKcv (pk : Bytes) : Bytes := shake256 pk 3

/-! ### Handles (R35, R36) -/

/-- CHAMBER. -/
def hChamber (h : Nat) : Nat := h / 2 ^ 58
/-- CLASS. -/
def hClass (h : Nat) : Nat := h / 2 ^ 56 % 4
/-- SLOT. -/
def hSlot (h : Nat) : Nat := h / 2 ^ 24 % 2 ^ 32
/-- VERSION. -/
def hVersion (h : Nat) : Nat := h / 2 ^ 8 % 2 ^ 16
/-- CHECK. -/
def hCheck (h : Nat) : Nat := h % 256
/-- A system handle: SLOT bit 31 is 1. -/
def hSystem (h : Nat) : Bool := (hSlot h).testBit 31

/-- The keyed check under a handle key (R36). -/
def handleCheck (key : Bytes) (h : Nat) : Nat :=
  (byteAt (aesEncrypt key (leBytes 8 (h - h % 256) ++ zeros 8)) 0).toNat

/-- The handle key a handle is checked under (R36). -/
def handleKeyOf (b : Block) (h : Nat) : Bytes :=
  if hSystem h then b.keys.sysHandleKey else Tab.get b.keys.handleKeys (zeros 16) (hChamber h)

/-- OWNER of a new record: the chamber's number, SYSTEM in system-scope records (R24). -/
def newOwner (c : Nat) : Nat := if c = 64 then 0x8000 else c

/-- A handle for the record at a global index, of a class and VERSION (R35, R36); chamber 64 stands for the system. -/
def issueHandle (b : Block) (c gidx cls version : Nat) : Nat :=
  let slot := slotIndex b c gidx
  let h := (if c = 64 then 0 else c) * 2 ^ 58 + cls * 2 ^ 56 + slot * 2 ^ 24 + version * 2 ^ 8
  h + handleCheck (if c = 64 then b.keys.sysHandleKey else Tab.get b.keys.handleKeys (zeros 16) c) h

/-- The global index a handle names. -/
def handleGidx (b : Block) (h : Nat) : Nat :=
  if hSystem h then hSlot h % 2 ^ 31 else b.gidxOf (hChamber h) (hSlot h)

/-- Steps 1 and 2 of R37: the handle is this chamber's (64: the system's), its slot is within the space, and CHECK is right. -/
def handleOwn (b : Block) (h c : Nat) : Bool :=
  let own := if c = 64 then hSystem h && hChamber h == 0 && decide (4096 ≤ hSlot h % 2 ^ 31 ∧ hSlot h % 2 ^ 31 < 65536)
    else !hSystem h && hChamber h == c && decide (hSlot h < b.sumpSpace)
  own && handleCheck (handleKeyOf b h) h == hCheck h

/-- OWNER agrees with the handle's owner: the chamber's number, with SYSTEM set in system-scope records and in audit keys (R24,
R28). -/
def ownerAgrees (line : Bytes) (c : Nat) : Bool :=
  let sys := c == 64 || recUsage line == ascii "9A"
  recOwner line == (if c = 64 then 0 else c) + (if sys then 0x8000 else 0)

/-- Step 4 of R37 on the head slot found: the record exists, and VERSION, class and OWNER agree. -/
def recordAgrees (h c : Nat) (line : Bytes) (version : Nat) : Bool :=
  recAlg line != 0 && verVersion version == hVersion h && verClass version == hClass h && ownerAgrees line c

/-! ### Roles (R29) -/

/-- A key role: the usages, the modes and the algorithms it accepts, and the class where the table names one. -/
structure Role where
  usages : List String
  modes : String
  algs : List Nat
  cls : Option Nat

/-- The usages that carry a role's algorithms, for MAC keys: M1, M3, M6, M7 (R29). -/
def macAlgs (usage : Bytes) : List Nat :=
  if usage = ascii "M1" then [1, 2, 3, 4, 5]
  else if usage = ascii "M3" then [1]
  else if usage = ascii "M6" then [3, 4, 5]
  else if usage = ascii "M7" then [6]
  else []

/-- The ciphers' algorithm codes. -/
def cipherAlgs : List Nat := [1, 2, 3, 4, 5]

/-- A record meets a role (R29): mode N satisfies any mode. -/
def roleMet (r : Role) (line : Bytes) (cls : Nat) : Bool :=
  r.usages.any (fun u => recUsage line == ascii u)
    && ((ascii r.modes).contains (recMode line) || recMode line == 0x4E)
    && r.algs.contains (recAlg line)
    && (if r.usages.contains "M1" then (macAlgs (recUsage line)).contains (recAlg line) else true)
    && (match r.cls with
      | some c => c == cls
      | none => true)

/-- The rows of R29. -/
def rolePinIn : Role := { usages := ["P0"], modes := "DB", algs := cipherAlgs, cls := none }
/-- PIN block encryption. -/
def rolePinOut : Role := { usages := ["P0"], modes := "EB", algs := cipherAlgs, cls := none }
/-- IBM 3624 offset. -/
def roleOffset : Role := { usages := ["V1"], modes := "CV", algs := cipherAlgs, cls := none }
/-- PVV. -/
def rolePvv : Role := { usages := ["V2"], modes := "CV", algs := [1, 2], cls := none }
/-- DUKPT base derivation key. -/
def roleBdk : Role := { usages := ["B0"], modes := "X", algs := cipherAlgs, cls := none }
/-- DUKPT initial key. -/
def roleIk : Role := { usages := ["B1"], modes := "X", algs := cipherAlgs, cls := none }
/-- MAC generation. -/
def roleMacGen : Role := { usages := ["M1", "M3", "M6", "M7"], modes := "CG", algs := [1, 2, 3, 4, 5, 6], cls := none }
/-- MAC verification. -/
def roleMacVer : Role := { usages := ["M1", "M3", "M6", "M7"], modes := "CV", algs := [1, 2, 3, 4, 5, 6], cls := none }
/-- EMV master key. -/
def roleEmv : Role := { usages := ["E0"], modes := "X", algs := cipherAlgs, cls := none }
/-- Card verification code, generating. -/
def roleCvcGen : Role := { usages := ["C0"], modes := "CG", algs := [1, 2], cls := none }
/-- Card verification code, verifying. -/
def roleCvcVer : Role := { usages := ["C0"], modes := "CV", algs := [1, 2], cls := none }
/-- TR-31 unwrap. -/
def roleUnwrap : Role := { usages := ["K1"], modes := "DB", algs := cipherAlgs, cls := none }
/-- TR-31 wrap. -/
def roleWrap : Role := { usages := ["K1"], modes := "EB", algs := cipherAlgs, cls := none }
/-- Data encryption. -/
def roleDataEnc : Role := { usages := ["D0"], modes := "EB", algs := cipherAlgs, cls := none }
/-- Data decryption. -/
def roleDataDec : Role := { usages := ["D0"], modes := "DB", algs := cipherAlgs, cls := none }
/-- The algorithms of private and public keys. -/
def publicAlgs : List Nat := [0x10, 0x11, 0x12, 0x13, 0x14, 0x15, 0x16, 0x18, 0x19, 0x1A]
/-- Signing or decapsulation. -/
def roleSign : Role := { usages := ["S0", "9A"], modes := "ST", algs := publicAlgs, cls := some 1 }
/-- Verification or encapsulation. -/
def roleVerify : Role := { usages := ["S0"], modes := "VT", algs := publicAlgs, cls := some 2 }
/-- Key agreement. -/
def roleAgree : Role := { usages := ["K2"], modes := "BX", algs := [0x12, 0x13, 0x14, 0x15, 0x1A], cls := none }

/-! ### The key cache (R43 to R51) -/

/-- Where a record's copy stands. -/
inductive Place where
  | cache (ix : Nat)
  | sys (ix : Nat)
  deriving DecidableEq, Repr

/-- Sets per chamber (R43). -/
def Block.setsPer (b : Block) : Nat := 16384 / b.n

/-- The set of a record (R44). -/
def setOf (b : Block) (gidx : Nat) : Nat :=
  let c := b.chamberOfGidx gidx
  let s := gidx - b.gidxOf c 0
  let k := 14 - b.nlog2
  c * b.setsPer + (s ^^^ (s >>> k)) % 2 ^ k

/-- The slot that holds a record, stale copies left aside (R49). -/
def findSlot (b : Block) (gidx : Nat) : Option (Place × Slot) :=
  if gidx < 65536 then
    ((List.range b.keys.sysCache.length).map fun i => (Place.sys i, b.keys.sysCache.getD i Slot.none)).find? fun p =>
      p.2.gidx == gidx && !p.2.stale
  else
    let base := 16 * setOf b gidx
    ((List.range 16).filterMap fun w => (Tab.get? b.keys.cache (base + w)).map fun s => (Place.cache (base + w), s)).find? fun p =>
      p.2.gidx == gidx && !p.2.stale

/-- The slot at a place changed by `f`. -/
def modPlace (b : Block) (p : Place) (f : Slot → Slot) : Block :=
  match p with
  | .cache ix => b.modKeys fun k => { k with cache := Tab.modify k.cache Slot.none ix f }
  | .sys ix => b.modKeys fun k => { k with sysCache := k.sysCache.modify ix f }

/-- The slot of a record, where it is resident, changed by `f`. -/
def modSlot (b : Block) (gidx : Nat) (f : Slot → Slot) : Block :=
  match findSlot b gidx with
  | some (p, _) => modPlace b p f
  | none => b

/-- The lines of a record, where every slot of it is resident (R34). -/
def residentLines (b : Block) (gidx : Nat) : Option (List Bytes) :=
  match findSlot b gidx with
  | none => none
  | some (_, h) =>
    let rest := (List.range (recWidth h.line - 1)).map fun k => (findSlot b (gidx + k + 1)).map fun p => p.2.line
    if rest.all Option.isSome then some (h.line :: rest.filterMap id) else none

/-- The way bits touched by a use of way `w` (R47): the tree points away from it. -/
def plruTouch (t w : Nat) : Nat :=
  (List.range 4).foldl
    (fun (st : Nat × Nat) d =>
      let right := w.testBit (3 - d)
      let cleared := if st.1.testBit st.2 then st.1 - 2 ^ st.2 else st.1
      (if right then cleared else cleared + 2 ^ st.2, 2 * st.2 + b2n right)) (t, 1) |>.1

/-- The victim among the ways that `ok` admits: the tree's choice at each node, unless that half holds none (R47). -/
def plruVictim (t : Nat) (ok : Nat → Bool) : Option Nat :=
  if !(List.range 16).any ok then none
  else
    let any (lo n : Nat) : Bool := (List.range n).any fun i => ok (lo + i)
    some ((List.range 4).foldl
      (fun (st : Nat × Nat × Nat) _ =>
        let half := st.2.2 / 2
        let wantRight := t.testBit st.1
        let right := if wantRight then any (st.2.1 + half) half else !any st.2.1 half
        (2 * st.1 + b2n right, st.2.1 + (if right then half else 0), half)) (1, 0, 16)).2.1

/-- A slot can be a victim: neither pinned nor referenced (R47). -/
def Slot.evictable (s : Slot) : Bool := !s.pinned && s.refs == 0

/-- The companion word of a record: the last 32 bytes of an AES key's expanded form (R122). -/
def companionOf (line : Bytes) : Bytes :=
  let alg := recAlg line
  if alg = 3 ∨ alg = 4 ∨ alg = 5 then
    let e := (aesRoundKeys (line.take (symmetricLen alg 0))).flatten
    e.drop (e.length - 32)
  else []

/-- A new slot's contents after a fill (R40), in the record whose head slot is at `head`: a counted record's next count is its mark. -/
def newSlot (gidx : Nat) (line : Bytes) (version : Nat) (pinned : Bool) (head : Nat) : Slot :=
  { gidx := gidx, line := line, version := version, pinned := pinned, refs := 0, toRelease := 0, stale := false
    head := head, nextCount := (recMark line).2, companion := if head = gidx then companionOf line else [] }

/-- A record, from the global index of its head slot, is resident as a whole (R34). -/
def Keys.holds (k : Keys) (gidx w : Nat) : Bool :=
  (List.range w).all fun i =>
    (k.cache.any fun p => p.2.gidx == gidx + i && !p.2.stale) || k.sysCache.any fun s => s.gidx == gidx + i && !s.stale

/-- The pinned slots (R48). -/
def Keys.pinned (k : Keys) : List Nat := k.pins.flatMap fun p => (List.range p.2).map (p.1 + ·)

/-- A record evicted as a whole (R34): its copies go where they can be victims. -/
def evict (k : Keys) (head : Nat) : Keys :=
  let stays (s : Slot) : Bool := s.head != head || !s.evictable || s.stale
  { k with cache := k.cache.filter fun p => stays p.2, sysCache := k.sysCache.filter stays }

/-- System cache slots (R45): of the 256 of the key file, those the fixed part does not take. The fixed part counts the seven device
keys, the pair's three, the system audit keys and a handle key for each chamber. -/
def sysCacheSlots (b : Block) : Nat := 256 - (16 + b.n)

/-- A line of the record at `head` filled into the cache, or nothing where every way is pinned or referenced and the fill must wait (R46, R47). -/
def fillSlot (b : Block) (gidx : Nat) (line : Bytes) (version : Nat) (head : Nat) : Option Block :=
  let s := newSlot gidx line version (b.keys.pinned.contains gidx) head
  let victim (s : Slot) : Bool := s.evictable && s.head != head
  match findSlot b gidx with
  | some (p, _) => some (modPlace b p fun o => { s with refs := o.refs, toRelease := o.toRelease })
  | none =>
    if gidx < 65536 then
      let l := b.keys.sysCache
      if l.length < sysCacheSlots b then some (b.modKeys fun k => { k with sysCache := s :: k.sysCache })
      else match l.reverse.find? victim with
        | some v => some (b.modKeys fun k => let k := evict k v.head; { k with sysCache := s :: k.sysCache })
        | none => none
    else
      let set := setOf b gidx
      let way? := match (List.range 16).find? fun w => (Tab.get? b.keys.cache (16 * set + w)).isNone with
        | some w => some w
        | none => plruVictim (Tab.get b.keys.plru 0 set) fun w => victim (Tab.get b.keys.cache Slot.none (16 * set + w))
      match way? with
      | some w =>
        some (b.modKeys fun k =>
          let k := match Tab.get? k.cache (16 * set + w) with
            | some v => evict k v.head
            | none => k
          { k with cache := Tab.set k.cache (16 * set + w) s, plru := Tab.set k.plru set (plruTouch (Tab.get k.plru 0 set) w) })
      | none => none

/-- The lines of a record read at `gidx`, whose head slot is at `head`, filled slot by slot; nothing where one of them must wait. -/
def fillLines (b : Block) (gidx head : Nat) : Nat → List (Bytes × Nat) → Option Block
  | _, [] => some b
  | k, (line, v) :: rest =>
    match fillSlot b (gidx + k) line v head with
    | some b => fillLines b gidx head (k + 1) rest
    | none => none

/-- A record read at `gidx` filled. A continuation slot read by itself belongs to the head slot that it names (R31). -/
def fillRecord (b : Block) (gidx : Nat) (lines : List (Bytes × Nat)) : Option Block :=
  let line := (lines.headD ([], 0)).1
  fillLines b gidx (if contLine b gidx line then gidx - (byteAt line 60).toNat % 16 else gidx) 0 lines

/-- A use of a resident slot: the tree or the order of use is updated. -/
def touchSlot (b : Block) (gidx : Nat) : Block :=
  match findSlot b gidx with
  | some (.cache ix, _) =>
    b.modKeys fun k => { k with plru := Tab.set k.plru (ix / 16) (plruTouch (Tab.get k.plru 0 (ix / 16)) (ix % 16)) }
  | some (.sys ix, s) => b.modKeys fun k => { k with sysCache := s :: k.sysCache.eraseIdx ix }
  | none => b

/-- Every slot of a record, from its head line. -/
def recordSlots (gidx : Nat) (head : Bytes) : List Nat := (List.range (recWidth head)).map (gidx + ·)

/-- A reference taken on every slot of a record by a lookup that hits (R47). -/
def takeRefs (b : Block) (gidx : Nat) (head : Bytes) : Block :=
  (recordSlots gidx head).foldl (fun b g => modSlot (touchSlot b g) g fun s => { s with refs := s.refs + 1 }) b

/-- The engine operation that held a reference on the record of a handle is over: the key port is about to release it (R47). Of two
copies, the one of the handle's VERSION is meant. -/
def endRefs (b : Block) (r : Resolved) : Block :=
  let open_ (s : Slot) (g : Nat) : Bool := s.gidx == g && decide (s.toRelease < s.refs)
  let end_ (s : Slot) : Slot := { s with toRelease := s.toRelease + 1 }
  let one (b : Block) (g : Nat) : Block :=
    if g < 65536 then
      match (List.range b.keys.sysCache.length).find? fun i => open_ (b.keys.sysCache.getD i Slot.none) g with
      | some i => b.modKeys fun k => { k with sysCache := k.sysCache.modify i end_ }
      | none => b
    else
      let l := b.keys.cache.filter fun p => open_ p.2 g
      match (l.find? fun p => verVersion p.2.version == hVersion r.handle), l.head? with
      | some p, _ => b.modKeys fun k => { k with cache := Tab.modify k.cache Slot.none p.1 end_ }
      | none, some p => b.modKeys fun k => { k with cache := Tab.modify k.cache Slot.none p.1 end_ }
      | none, none => b
  (recordSlots r.gidx r.head).foldl one b

/-- KEY_PORT_RELEASE of every released reference on the slots of a record (R47, R49): a stale slot without references is zeroised. -/
def keyPortRelease (b : Block) (gidx : Nat) : Block :=
  let rel (s : Slot) : Slot := if s.gidx = gidx ∧ 0 < s.toRelease then { s with refs := s.refs - 1, toRelease := s.toRelease - 1 } else s
  let gone (s : Slot) : Bool := s.stale && s.refs == 0
  b.modKeys fun k =>
    { k with cache := (Tab.mapVals k.cache fun _ s => rel s).filter fun p => !gone p.2
             sysCache := (k.sysCache.map rel).filter fun s => !gone s }

/-- A record deleted or given a new key (R49): its copies are stale, and go at once where nothing refers to them. -/
def dropRecord (b : Block) (gidx : Nat) : Block :=
  let mark (s : Slot) : Slot := if s.gidx = gidx then { s with stale := true, pinned := false } else s
  let gone (s : Slot) : Bool := s.stale && s.refs == 0
  b.modKeys fun k =>
    { k with cache := (Tab.mapVals k.cache fun _ s => mark s).filter fun p => !gone p.2
             sysCache := (k.sysCache.map mark).filter fun s => !gone s
             pins := k.pins.filter (·.1 != gidx) }

/-- The pinned ways of the set of a record (R48). -/
def pinnedWays (b : Block) (gidx : Nat) : Nat :=
  (b.keys.pinned.filter fun g => decide (65536 ≤ g) && setOf b g == setOf b gidx).length

/-- A pin of a record of `w` slots would exceed the limit (R45, R48). -/
def pinExceeds (b : Block) (gidx w : Nat) : Bool :=
  let new := ((List.range w).map (gidx + ·)).filter fun g => !b.keys.pinned.contains g
  new.any fun g =>
    if g < 65536 then decide (64 < (b.keys.pinned.filter (· < 65536)).length + new.length)
    else decide (12 < pinnedWays b g + (new.filter fun x => setOf b x == setOf b g).length)

/-- PINNED set or cleared in the slots of a record that are resident. -/
def markPinned (b : Block) (gidx w : Nat) (on : Bool) : Block :=
  (List.range w).foldl (fun b k => modSlot b (gidx + k) fun s => { s with pinned := on }) b

/-- A record of `w` slots pinned (R48). -/
def pinRecord (b : Block) (gidx w : Nat) : Block :=
  markPinned (b.modKeys fun k => { k with pins := if k.pins.any (·.1 == gidx) then k.pins else k.pins ++ [(gidx, w)] }) gidx w true

/-- A record that the device pins itself (R48): one that is not resident is fetched, as a miss of the system's. -/
def pinOwn (b : Block) (gidx w : Nat) : Block :=
  let b := pinRecord b gidx w
  if b.keys.holds gidx w ∨ b.keys.misses.any (fun m => m.gidx == gidx) then b
  else b.modKeys fun k =>
    { k with misses := k.misses ++ [{ gidx := gidx, payer := 64, waiters := [], pinFor := [], refetch := true }] }

/-- A record unpinned. -/
def unpinRecord (b : Block) (gidx w : Nat) : Block :=
  markPinned (b.modKeys fun k => { k with pins := k.pins.filter (·.1 != gidx) }) gidx w false

/-- The key cache zeroised (R51). -/
def wipeCache (b : Block) : Block := b.modKeys fun k => { k with cache := [], plru := [], sysCache := [] }

/-- A chamber's sets zeroised (R51). -/
def wipeChamberSets (b : Block) (c : Nat) : Block :=
  let lo := c * b.setsPer * 16
  let hi := (c + 1) * b.setsPer * 16
  b.modKeys fun k =>
    { k with cache := k.cache.filter fun p => !(decide (lo ≤ p.1) && decide (p.1 < hi))
             pins := k.pins.filter fun p => decide (p.1 < 65536) || b.chamberOfGidx p.1 != c }

/-! ### Resolution (R37) -/

/-- How the resolution of a handle ends. -/
inductive Resolution where
  /-- Resolved: head line, material, global index. -/
  | ok (r : Resolved)
  | fail (status : Nat)
  /-- Steps 1 and 2 passed and the record is not resident (R46). -/
  | miss (gidx : Nat)
  deriving DecidableEq, Repr

/-- Steps 4 to 6 of R37 on a resident record, whose slot `s` gives the version and the companion word (R122); `used` is clear for the commands that name a handle without using the key. -/
def checkResident (b : Block) (h c : Nat) (lines : List Bytes) (s : Slot) (used : Bool) : Resolution :=
  let line := lines.headD []
  if !recordAgrees h c line s.version then .fail stKeyNotFound
  else if used ∧ recRetired line then .fail stCounterExhausted
  else if used ∧ recNotAfter line ≠ 0 ∧ recNotAfter line < b.seconds then .fail stKeyExpired
  else .ok { handle := h, head := line, material := recMaterial lines (hClass h), gidx := handleGidx b h, drawn := none
             companion := s.companion }

/-- A handle resolved for chamber `c`, 64 for the system: steps 1 to 6 of R37. -/
def resolve (b : Block) (h c : Nat) (used : Bool) : Resolution :=
  if !handleOwn b h c then .fail stKeyNotFound
  else
    let g := handleGidx b h
    match findSlot b g, residentLines b g with
    | some (_, s), lines =>
      if s.head ≠ g then .fail stKeyNotFound
      else match lines with
        | some lines => checkResident b h c lines s used
        | none => .miss g
    | none, _ => .miss g

/-- A record read whole from Sump: every slot's line and version (R34); the head's SHAPE tells how many. -/
def readSlots (b : Block) (ret : DdrReturn) (gidx : Nat) : Except (Nat × Nat) (List (Bytes × Nat)) × Block :=
  match readRecord b ret gidx with
  | (.ok v nodes, line) =>
    let b := cacheNodes b nodes
    if !attributesAgree b gidx v line then (.error (0, 2), sumpFailure b gidx 0 2)
    else
      let n := if recAlg line = 0 ∨ contLine b gidx line then 0 else recWidth line - 1
      (List.range n).foldl
        (fun acc k =>
          match acc with
          | (.ok l, b) =>
            match readRecord b ret (gidx + k + 1) with
            | (.ok v nodes, line) => (.ok (l ++ [(line, v)]), cacheNodes b nodes)
            | (.known, _) => (.error (0, 9), b)
            | (.failed lv kd nodes, _) => (.error (lv, kd), sumpFailure (cacheNodes b nodes) (gidx + k + 1) lv kd)
          | e => e)
        (.ok [(line, v)], b)
  | (.known, _) => (.error (0, 9), b)
  | (.failed l k nodes, _) => (.error (l, k), sumpFailure (cacheNodes b nodes) gidx l k)

/-- A record read whole, its slots unsealed by Spindle from the Sump controller's source (R137, R214). -/
def readWhole (b : Block) (ret : DdrReturn) (gidx : Nat) : Except (Nat × Nat) (List (Bytes × Nat)) × Block :=
  match readSlots b ret gidx with
  | (.ok l, b) => (.ok l, b.sealPasses (b.chamberOfGidx gidx) l.length)
  | e => e

/-! ### Counts (R38 to R42) -/

/-- How a draw of a count ends. -/
inductive CountDraw where
  | drawn (epoch count : Nat)
  /-- The current block is used up and the next is not reserved yet: the work waits (R41). -/
  | wait
  /-- The record was deleted or replaced (R41). -/
  | gone
  /-- The last count below 2^48 has been used (R42). -/
  | exhausted
  deriving DecidableEq, Repr

/-- The slot whose counts a resolved key draws from: the live one of its handle's version, or a stale copy still referenced (R41). -/
def countSlot (b : Block) (r : Resolved) : Option (Nat × Slot) :=
  (b.keys.cache.map fun p => (p.1, p.2)).find? fun p =>
    p.2.gidx == r.gidx && verVersion p.2.version == hVersion r.handle

/-- The next count under a resolved key of a chamber, with the current claim number as its epoch (R38 to R42): the outcome and the device after.
The last count below 2^48 retires the key. -/
def drawCount (b : Block) (r : Resolved) : CountDraw × Block :=
  match countSlot b r with
  | none => (.gone, b)
  | some (ix, s) =>
    if s.nextCount < (recMark s.line).2 then
      let b := b.modKeys fun k => { k with cache := Tab.modify k.cache Slot.none ix fun s => { s with nextCount := s.nextCount + 1 } }
      let b := if s.nextCount + 1 = 2 ^ 48 ∧ !s.stale then
          b.sumpQueue { writes := [{ gidx := s.gidx, lines := [withRetired s.line], newClass := none }], range := none
                        waiter := .retire s.gidx }
        else b
      (.drawn b.claim s.nextCount, b)
    else if s.stale then (.gone, b)
    else if 2 ^ 48 ≤ s.nextCount then (.exhausted, b)
    else (.wait, b)

/-- COUNTER_RESERVE: the next block of 4,096 counts of a counted key is asked for, once 3,072 of the current block are used (R39, R41,
R42). -/
def counterReserve (b : Block) (gidx : Nat) : Block :=
  match findSlot b gidx with
  | some (_, s) =>
    let mark := recMark s.line
    if recCounted s.line ∧ mark.2 ≤ s.nextCount + 1024 ∧ mark.2 + 4096 ≤ 2 ^ 48 ∧ !b.keys.reserving.contains gidx ∧ !recRetired s.line then
      let b := b.modKeys fun k => { k with reserving := k.reserving ++ [gidx] }
      b.sumpQueue { writes := [{ gidx := gidx, lines := [withMark s.line b.claim (mark.2 + 4096)], newClass := none }], range := none
                    waiter := .counter gidx b.claim (mark.2 + 4096) }
    else b
  | none => b

/-- The reservation stands: the mark held on chip advances (R39). -/
def counterReserved (b : Block) (gidx epoch count : Nat) : Block :=
  let b := b.modKeys fun k => { k with reserving := k.reserving.filter (· != gidx) }
  modSlot b gidx fun s => { s with line := withMark s.line epoch count }

/-- Marks not yet begun of a record that has been deleted or given a new key are withdrawn: no reservation is made for it (R41). -/
def withdrawMarks (b : Block) (r : SumpReq) : Block :=
  let gone (g : Nat) : Bool := r.drops g
  let b := b.modSump fun s => { s with queue := s.queue.filter fun q => !((q.marks.map gone).getD false) }
  b.modKeys fun k => { k with reserving := k.reserving.filter fun g => !gone g }

/-- The writes of a complete commit as the key cache follows them (R41, R49, R50): a new key or a deletion drops the copies, a rewrite in
place updates them; a mark is updated when the waiter is told. -/
def cacheFollows (b : Block) (r : SumpReq) : Block :=
  let step (b : Block) (w : NewRecord) : Block :=
    let deleted := w.lines.all allZero
    (List.range w.lines.length).foldl
      (fun b k =>
        let g := w.gidx + k
        if w.newClass.isSome ∨ deleted then dropRecord b g
        else match r.waiter with
          | .counter _ _ _ => b
          | _ => modSlot b g fun s => { s with line := w.lines.getD k s.line })
      b
  let b := withdrawMarks (r.writes.foldl step b) r
  match r.range with
  | some (first, n) =>
    (b.keys.cache.filter fun p => decide (first ≤ p.2.gidx ∧ p.2.gidx < first + n)).foldl (fun b p => dropRecord b p.2.gidx) b
  | none => b

end Sys2Proof.Machine
end

