-- ==== Sys2Proof/Machine/FlowstoneOps.lean ====
section
/-! DEFINITION. Flowstone (chapter 7): leaves, batches, headers, the chain record, retirement, gaps, and the stream rings. -/
namespace Sys2Proof.Machine

/-! ### Leaves (R194, R195) -/

/-- What a leaf says beside its SEQ, CLAIM and TIME. -/
structure LeafBody where
  chamber : Nat
  kind : Nat
  opcode : Nat
  status : Nat
  group : Nat
  lflags : Nat
  tag : Nat
  recipe : Nat
  step : Nat
  keyIn : Nat
  keyOut : Nat
  data : Bytes

/-- A leaf's 64 bytes with SEQ, CLAIM and TIME zero. -/
def leafBytes (l : LeafBody) : Bytes :=
  zeros 8 ++ [BitVec.ofNat 8 l.chamber, BitVec.ofNat 8 l.kind] ++ leBytes 2 l.opcode ++ leBytes 2 l.status
    ++ [BitVec.ofNat 8 l.group, BitVec.ofNat 8 l.lflags] ++ leBytes 4 l.tag ++ leBytes 2 l.recipe ++ leBytes 2 l.step ++ zeros 8
    ++ leBytes 8 l.keyIn ++ leBytes 8 l.keyOut ++ fit 16 l.data

/-- A leaf with its number, claim and time. -/
def stampLeaf (body : Bytes) (seq claim time : Nat) : Bytes :=
  patch (patch body 0 (leBytes 6 seq ++ leBytes 2 claim)) 24 (leBytes 8 time)

/-- The digest of a descriptor's buffer (R195). -/
def bufferDigest (input output : Bytes) : Bytes :=
  shake256 ([3] ++ leBytes 4 input.length ++ input ++ leBytes 4 output.length ++ output) 16

/-- The digest of a command's request and response (R195). -/
def commandDigest (request response : Bytes) : Bytes := shake256 ([4] ++ request ++ response) 16

/-! ### Digests (R202, R203) -/

/-- A leaf hash. -/
def leafHash (leaf : Bytes) : Bytes := shake256 (0 :: leaf) 64

/-- A node hash. -/
def nodeHash (l r : Bytes) : Bytes := shake256 ([1] ++ l ++ r) 64

/-- One level of the tree: adjacent nodes paired, a last one without partner carried up. -/
def merkleLevel : List Bytes → List Bytes
  | l :: r :: rest => nodeHash l r :: merkleLevel rest
  | l => l

/-- Levels until a single node remains. -/
def merkleUp : Nat → List Bytes → Bytes
  | _, [] => zeros 64
  | _, [x] => x
  | 0, x :: _ => x
  | n + 1, l => merkleUp n (merkleLevel l)

/-- The root of a batch (R203). -/
def merkleRoot (hashes : List Bytes) : Bytes := merkleUp 13 hashes

/-- The digest of a header's signed part (R202). -/
def headerDigest (signed : Bytes) : Bytes := shake256 (2 :: signed) 64

/-! ### Headers (R204 to R206) -/

/-- A key's identifier. -/
def keyId (pk : Bytes) : Bytes := shake256 pk 8

/-- A batch's place among the batches of a chain and its successors: CHAIN_NO, then BATCH_NO. -/
def placeOf (chainNo batch : Nat) : Nat := chainNo * 2 ^ 64 + batch

/-- A header's place. -/
def Header.pos (h : Header) : Nat := placeOf h.chainNo h.batch

/-- The place of the next header of a chain. -/
def Chain.nextPos (c : Chain) : Nat := placeOf c.chainNo c.nextBatch

/-- An audit private key over the key port (R10, R192): a chamber's from its record in the key cache, the system chain's from the key
file. -/
def auditSeed (b : Block) (i : ChainId) (gidx : Nat) : Option Bytes :=
  match i with
  | .chamber _ => (residentLines b gidx).map fun l => recMaterial l 1
  | .system => Tab.get? b.keys.auditSeeds gidx

/-- CHAMBER of leaves and headers: 0xFF in the system chain. -/
def chamberByte : ChainId → Nat
  | .chamber c => c
  | .system => 0xFF

/-- What a header says beside what its chain gives. -/
structure HeaderBody where
  kind : Nat
  close : Nat
  firstSeq : Nat
  claim : Nat
  count : Nat
  openTime : Nat
  closeTime : Nat
  gapFirst : Nat
  gapCount : Nat
  root : Bytes
  nextKids : Bytes

/-- The signed part of a header. -/
def headerBytes (b : Block) (i : ChainId) (h : HeaderBody) : Bytes :=
  let c := b.chain i
  ascii "VWHB" ++ [1, BitVec.ofNat 8 h.kind, BitVec.ofNat 8 (chamberByte i), BitVec.ofNat 8 (b2n c.pq + 2 * h.close)]
    ++ leBytes 8 c.nextBatch ++ leBytes 6 h.firstSeq ++ leBytes 2 h.claim ++ leBytes 2 h.count ++ leBytes 2 c.chainNo ++ zeros 4
    ++ leBytes 8 h.openTime ++ leBytes 8 h.closeTime ++ leBytes 6 h.gapFirst ++ leBytes 6 h.gapCount ++ zeros 4
    ++ fit 64 h.root ++ fit 64 c.prev ++ b.device ++ fit 8 c.kidEd ++ fit 8 (if c.pq then c.kidPq else [])
    ++ fit 16 h.nextKids ++ zeros 24

/-- Flowstone's entries in Gallery's command queue (R157). -/
def flowstoneEntries (b : Block) : Nat := (b.gallery.queue.filter fun r => r.source == .flowstone).length

/-- A signature request of a header put into Gallery's queue, where its 32 entries leave room (R157, R205). -/
def askSignature (b : Block) (i : ChainId) (pos : Nat) (pq : Bool) : Option Block :=
  if flowstoneEntries b < 32 then
    let g := b.gallery
    let r : GaReq :=
      { id := g.nextId, owner := .header i pos pq, payer := chainIx i, source := .flowstone, lattice := pq, drawn := [], message := none
        windowed := false, rejects := false }
    some { b with gallery := { g with queue := g.queue ++ [r], nextId := g.nextId + 1 } }
  else none

/-- A header of a chain, by its place, changed by `f`. -/
def modHeader (b : Block) (i : ChainId) (pos : Nat) (f : Header → Header) : Block :=
  b.modChain i fun c => { c with headers := c.headers.map fun h => if h.pos = pos then f h else h }

/-- The header of a chain at a place. -/
def Chain.header? (c : Chain) (pos : Nat) : Option Header := c.headers.find? fun h => h.pos == pos

/-- The signatures of a header asked for as far as Gallery has room and the keys are there. -/
def askHeader (b : Block) (i : ChainId) (h : Header) : Block :=
  let b := if h.askedEd ∨ (auditSeed b i h.edGidx).isNone then b else
    match askSignature b i h.pos false with
    | some b => modHeader b i h.pos fun h => { h with askedEd := true }
    | none => b
  if h.askedPq ∨ !(b.chain i).pq ∨ (auditSeed b i h.pqGidx).isNone then b else
    match askSignature b i h.pos true with
    | some b => modHeader b i h.pos fun h => { h with askedPq := true }
    | none => b

/-- The signatures of a chain's headers that could not yet be asked for (R157). -/
def pumpHeaders (b : Block) (i : ChainId) : Block := (b.chain i).headers.foldl (fun b h => askHeader b i h) b

/-- A header made: it takes the next BATCH_NO, its digest becomes PREV of the next, and its signatures are asked for (R205). -/
def makeHeader (b : Block) (i : ChainId) (h : HeaderBody) (nextSeq : Nat) : Block :=
  let signed := headerBytes b i h
  let c := b.chain i
  let hd : Header :=
    { chainNo := c.chainNo, batch := c.nextBatch, signed := signed, nextSeq := nextSeq, upTo := c.accepted, edGidx := c.edGidx
      pqGidx := c.pqGidx, sigEd := none, sigPq := none, backEd := none, backPq := none
      recorded := false, asked := false, askedEd := false, askedPq := false, mirrored := false }
  let b := b.modChain i fun c => { c with nextBatch := c.nextBatch + 1, prev := headerDigest signed, headers := c.headers ++ [hd] }
  pumpHeaders (b.flowHash 2) i

/-- A request for the signature of a chain's header. -/
def signsFor (i : ChainId) (q : GaReq) : Bool :=
  match q.owner with
  | .header j _ _ => j == i
  | _ => false

/-- The core's operation is one that a predicate holds of, and can still be aborted. -/
def GaCoreState.runs (f : GaReq → Bool) : GaCoreState → Bool
  | .validating q => f q
  | .working q => f q
  | _ => false

/-- The signatures of a chain's headers under way at Gallery are aborted with their chamber's operations (R188): a queued request goes at once, a
running one has an abort request sent to its core. The headers are signed anew. -/
def abortSignatures (b : Block) (i : ChainId) : Block :=
  let g := b.gallery
  let gone := g.queue.filter (signsFor i)
  let cores := (g.cores.filter fun p => p.2.runs (signsFor i)).map (·.1)
  let b := { b with gallery := { g with queue := g.queue.filter fun q => !signsFor i q
                                        abortReq := g.abortReq.filter (fun k => !cores.contains k) ++ cores } }
  let again (b : Block) (q : GaReq) : Block := match q.owner with
    | .header j n pq => modHeader (b.tally 140) j n fun h => if pq then { h with askedPq := false } else { h with askedEd := false }
    | _ => b
  gone.foldl again b

/-- The open batch closed under a CLOSE code, as a normal batch. -/
def endBatch (b : Block) (i : ChainId) (close : Nat) : Block :=
  match (b.chain i).batch with
  | none => b
  | some t =>
    let n := t.hashes.length
    let b := makeHeader b i
      { kind := 0, close := close, firstSeq := t.firstSeq, claim := t.claim, count := n, openTime := t.openTime, closeTime := b.now
        gapFirst := 0, gapCount := 0, root := merkleRoot t.hashes, nextKids := [] } (t.firstSeq + n)
    (b.flowHash (n - 1 - n / 2)).modChain i fun c => { c with batch := none, closeDue := none }

/-- An event of R201 for the open batch: it closes, or, where the chain is stalled, it is due to close with the first such event's code when the
stall ends (R577). -/
def closeBatch (b : Block) (i : ChainId) (close : Nat) : Block :=
  if (b.chain i).stalled.isNone then endBatch b i close
  else b.modChain i fun c => { c with closeDue := if c.batch.isSome then c.closeDue <|> some close else none }

/-- A batch without leaves: genesis (kind 2) or gap (kind 1). -/
def emptyBatch (b : Block) (i : ChainId) (kind first gapFirst gapCount nextSeq : Nat) : Block :=
  makeHeader b i
    { kind := kind, close := 0, firstSeq := first, claim := b.claim, count := 0, openTime := b.now, closeTime := b.now
      gapFirst := gapFirst, gapCount := gapCount, root := zeros 64, nextKids := [] } nextSeq

/-- A chain as its record gives it (R206, R208): after the last header recorded. A chain none of whose headers is recorded is at its genesis
batch, and so is the successor of a chain whose final header is the last recorded; a successor whose predecessor's final header is not recorded
has yet to begin, and the chain is its predecessor, its numbers used up or reserved. Log entry 107. -/
def backToRecord (b : Block) (i : ChainId) : Block :=
  b.modChain i fun c =>
    let c := { c with batch := none, closeDue := none, headers := [], failed := c.failed.filter fun r => match r.waiter with
      | .header _ _ => false
      | _ => true }
    let genesis : Chain := { c with prev := c.recDigest, nextBatch := 0, nextSeq := 0, lastLeaf := none }
    match c.recNo with
    | none => genesis
    | some n =>
      if n ≠ c.chainNo ∧ c.recSeq = 2 ^ 48 then genesis
      else
        let here : Chain :=
          { c with prev := c.recDigest, nextBatch := c.recBatch + 1, nextSeq := c.recSeq
                   lastLeaf := if c.recSeq = 0 then none else some (c.recSeq - 1) }
        match n == c.chainNo, c.before with
        | false, some k =>
          { here with chainNo := n, mark := 2 ^ 48, edPub := k.edPub, pqPub := k.pqPub, edGidx := k.edGidx, pqGidx := k.pqGidx
                      kidEd := keyId k.edPub, kidPq := if c.pq then keyId k.pqPub else [], before := none }
        | _, _ => here

/-- The chain resumes from its record with a gap batch (R208, first three cases): what was accepted beyond the record's last header is
declared lost up to the reservation mark. -/
def resumeWithGap (b : Block) (i : ChainId) : Block :=
  let b := backToRecord b i
  let c := b.chain i
  let lost := c.mark - c.nextSeq
  if c.nextBatch = 0 ∧ lost = 0 then emptyBatch b i 2 0 0 0 0
  else
    let b := if c.nextBatch = 0 then emptyBatch b i 2 0 0 0 0 else b
    let b := b.modChain i fun x => { x with nextSeq := c.nextSeq + lost }
    (emptyBatch b i 1 c.nextSeq c.nextSeq lost (c.nextSeq + lost)).tally 137

/-- A rise of the claim of a holder (R208, last case): the open batch closes under the old claim, and a gap batch of no number
follows; called before the new claim stands, which the gap batch carries. A stalled chain's batch closes too, which R577 would have wait: else
leaves of both claims would lie in one batch. DESIGN CHOICE, log entry 108. -/
def claimRises (b : Block) (i : ChainId) (newClaim : Nat) : Block :=
  let b := endBatch b i 3
  let b := { b with kerard := { b.kerard with held := newClaim } }
  let s := (b.chain i).nextSeq
  (emptyBatch b i 1 s s 0 s).tally 137

/-! ### Entries and acceptance (R197 to R200) -/

/-- Leaf-buffer entries of a chain (R198). -/
def entryLimit (b : Block) : ChainId → Nat
  | .chamber _ => 32768 / b.n
  | .system => 1024

/-- How a request for an entry ends. -/
inductive EntryGrant where
  | granted
  | wait
  | refused (status : Nat)
  deriving DecidableEq, Repr

/-- An audit key's record does not resolve (R200): it is not resident and cannot be read from Sump. -/
def auditKeyFails (b : Block) (g : Nat) : Bool :=
  (residentLines b g).isNone && (b.sump.st != .ready || match (readWhole b .faithful g).1 with
    | .ok _ => false
    | .error _ => true)

/-- The audit keys of a chain that are records of Sump: the system chain's are in the key file (R45, R192). -/
def auditRecords (b : Block) : ChainId → List Nat
  | .system => []
  | .chamber c => let x := b.chain (.chamber c); if x.pq then [x.edGidx, x.pqGidx] else [x.edGidx]

/-- A chain whose audit keys do not all resolve: SUMP_INTEGRITY (R200). -/
def auditKeyStatus (b : Block) (i : ChainId) : Option Nat :=
  if (auditRecords b i).any (auditKeyFails b) then some stSumpIntegrity else none

/-- The failures met on the way are counted and marked (R223). -/
def auditKeyReads (b : Block) (i : ChainId) : Block :=
  match (auditRecords b i).find? (auditKeyFails b) with
  | some g => if b.sump.st = .ready then (readWhole b .faithful g).2 else b
  | none => b

/-- A leaf-buffer entry asked for (R197, R198, R200, R577). -/
def entryCheck (b : Block) (i : ChainId) : EntryGrant :=
  let c := b.chain i
  match auditKeyStatus b i with
  | some s => .refused s
  | none =>
    if c.unsignedStop then .refused stRng
    else
      let full : Bool := match c.batch with
        | some t => decide (4096 ≤ t.hashes.length)
        | none => false
      let unassigned := c.entries - c.heldLeaves.length
      let noNumber := decide (c.mark ≤ c.nextSeq + unassigned)
      match c.stalled with
      | some s => if noNumber || full then .refused s else if c.entries < entryLimit b i then .granted else .wait
      | none => if noNumber || full || c.retiring || decide (entryLimit b i ≤ c.entries) then .wait else .granted

/-- An entry taken. -/
def takeEntry (b : Block) (i : ChainId) : Block := b.modChain i fun c => { c with entries := c.entries + 1 }

/-- An entry given back whose leaf is dropped (R199). -/
def dropEntry (b : Block) (i : ChainId) : Block := b.modChain i fun c => { c with entries := c.entries - 1 }

/-- A leaf built, waiting for its SEQ. -/
def queueLeaf (b : Block) (i : ChainId) (r : LeafReq) : Block := b.modChain i fun c => { c with waiting := c.waiting ++ [r] }

/-- LEAF_ACCEPT: the oldest waiting leaf of a chain gets its SEQ and is accepted into the open batch (R197, R199, R201): the device after,
and whose leaf it was with its number. The 4,096th leaf closes the batch. -/
def leafAccept (b : Block) (i : ChainId) : Block × Option (LeafSrc × Nat) :=
  let c := b.chain i
  match c.waiting with
  | [] => (b, none)
  | r :: rest =>
    let full : Bool := match c.batch with
      | some t => decide (4096 ≤ t.hashes.length)
      | none => false
    if full ∨ c.mark ≤ c.nextSeq ∨ b.kerard.egressClosed then (b, none)
    else
      let leaf := stampLeaf r.body c.nextSeq b.claim b.now
      let t := c.batch.getD { firstSeq := c.nextSeq, openTime := b.now, interval := c.interval, claim := b.claim, hashes := [] }
      let b := b.modChain i fun c =>
        { c with waiting := rest, nextSeq := c.nextSeq + 1, accepted := c.accepted + 1, lastLeaf := some c.nextSeq, heldLeaves := c.heldLeaves ++ [leaf]
                 batch := some { t with hashes := t.hashes ++ [leafHash leaf] } }
      let b := (b.tally 135).flowHash (if t.hashes.length % 2 = 1 then 2 else 1)
      let b := if t.hashes.length + 1 = 4096 then closeBatch b i 0 else b
      (b, some (r.src, c.nextSeq))

/-- BATCH_INTERVAL_EXPIRY: the interval has passed since the open batch's first leaf (R201). -/
def batchIntervalExpiry (b : Block) (i : ChainId) : Block :=
  match (b.chain i).batch with
  | some t => if t.openTime + 1000 * t.interval ≤ b.now then closeBatch b i 1 else b
  | none => b

/-- SEQ_RESERVE: the next block of 4,096 numbers is asked for once 3,072 of the current one are assigned (R197). -/
def seqReserve (b : Block) (i : ChainId) : Block :=
  let c := b.chain i
  if c.present ∧ !c.reserving ∧ c.mark ≤ c.nextSeq + 1024 ∧ c.mark < 2 ^ 48 then
    let next := c.mark / 4096 * 4096 + 4096
    let b := b.modChain i fun c => { c with reserving := true }
    chainWrite b i (.seqMark i b.claim next)
  else b

/-- Before FLW is switched off the mark is lowered to the next unassigned number (R197). -/
def lowerMark (b : Block) (i : ChainId) : Block :=
  let c := b.chain i
  if c.present ∧ !c.reserving ∧ c.nextSeq < c.mark then
    chainWrite (b.modChain i fun c => { c with reserving := true }) i (.seqMark i b.claim c.nextSeq)
  else b

/-- A commit of a chain's has succeeded: one that had failed is no longer to be repeated, and with the last of them the stall ends; a batch that
was due to close closes (R201, R577). -/
def endStall (b : Block) (i : ChainId) (w : Waiter) : Block :=
  let b := b.modChain i fun c =>
    let left := c.failed.filter fun r => r.waiter != w
    { c with failed := left, stalled := if left.isEmpty then none else c.stalled }
  let c := b.chain i
  match c.stalled, c.closeDue with
  | none, some k => endBatch b i k
  | _, _ => b

/-- A commit of a chain's has failed: the chain is stalled, and the commit is to be repeated (R577). -/
def chainStalled (b : Block) (i : ChainId) (r : SumpReq) (status : Nat) : Block :=
  b.modChain i fun c => { c with stalled := some status, failed := c.failed.filter (fun x => x.waiter != r.waiter) ++ [r] }

/-- A reservation stands. -/
def seqReserved (b : Block) (i : ChainId) (epoch count : Nat) : Block :=
  endStall (b.modChain i fun c => { c with reserving := false, markEpoch := epoch, mark := count }) i (.seqMark i epoch count)

/-! ### Signatures, record and release (R205, R206) -/

/-- The Ed448 signature over a header. -/
def headerSigEd (seed signed : Bytes) : Bytes := edSign true false (ascii "VWAUDIT") seed signed

/-- The ML-DSA-87 signature over a header, with the rnd drawn or 32 zero bytes (R205, R408). -/
def headerSigPq (seed signed rnd : Bytes) : Bytes := dsaSign mldsa87 seed (ascii "VWAUDIT") signed rnd

/-- A header's signatures have all returned. -/
def Header.signatures (h : Header) (pq : Bool) : Bool := h.sigEd.isSome && (h.sigPq.isSome || !pq)

/-- The record of the oldest header not yet recorded is asked for once its signatures are there (R206): the chain record takes the headers in
order, one at a time. -/
def askRecord (b : Block) (i : ChainId) : Block :=
  let c := b.chain i
  match c.headers.find? fun h => !h.recorded with
  | some h =>
    if h.asked ∨ !h.signatures c.pq then b
    else chainWrite (modHeader b i h.pos fun h => { h with asked := true }) i (.header i h.pos)
  | none => b

/-- HEADER_SIGNED: a signature that Gallery has made returns to its header, of the oldest batch of that number (R205). With all there, the
chain record's commit is asked for (R206). -/
def headerSigned (b : Block) (i : ChainId) (batch : Nat) (pq : Bool) : Block :=
  match (b.chain i).headers.find? fun h => h.batch == batch && (if pq then h.backPq else h.backEd).isSome with
  | some h =>
    let b := modHeader b i h.pos fun h =>
      if pq then { h with sigPq := h.sigPq <|> h.backPq, backPq := none } else { h with sigEd := h.sigEd <|> h.backEd, backEd := none }
    askRecord b i
  | none => b

/-- The header entry as written to the ring (R207). -/
def headerEntry (pq : Bool) (h : Header) : Bytes :=
  if pq then h.signed ++ fit 114 (h.sigEd.getD []) ++ fit 4627 (h.sigPq.getD []) ++ zeros 59
  else h.signed ++ fit 114 (h.sigEd.getD []) ++ zeros 14

/-- The chain record holds a header (R206). -/
def headerRecorded (b : Block) (i : ChainId) (pos : Nat) : Block :=
  match (b.chain i).header? pos with
  | some h =>
    let b := modHeader b i pos fun h => { h with recorded := true }
    let b := b.modChain i fun c =>
      { c with recNo := some h.chainNo, recDigest := headerDigest h.signed, recBatch := h.batch, recSeq := h.nextSeq }
    askRecord (endStall b i (.header i pos)) i
  | none => endStall b i (.header i pos)

/-- Every leaf of a header's batch has been written to the leaf part (R206). -/
def leavesWritten (c : Chain) (h : Header) : Bool := decide (h.upTo + c.heldLeaves.length ≤ c.accepted)

/-- The oldest header may be released (R206); in LOCKED none is (R380). -/
def mayRelease (b : Block) (i : ChainId) (h : Header) : Bool :=
  let c := b.chain i
  h.signatures c.pq && h.recorded && leavesWritten c h && (h.mirrored || !b.mirrored) && b.life != 4
    && !b.kerard.egressClosed

/-- The keys of a retired chain go once no header waits for their signature (R193): from the key file (R45), or, a chamber's, from the pins
(R48). -/
def dropFormerKeys (b : Block) (i : ChainId) (left : List Header) : Block :=
  let c := b.chain i
  match c.before with
  | none => b
  | some k =>
    if left.any fun h => h.edGidx == k.edGidx then b
    else match i with
      | .system => b.modKeys fun x => { x with auditSeeds := x.auditSeeds.filter fun p => p.1 != k.edGidx && (!c.pq || p.1 != k.pqGidx) }
      | .chamber _ => unpinRecord (if c.pq then unpinRecord b k.pqGidx 1 else b) k.edGidx 2

/-- HEADER_RELEASE: the oldest header, its conditions met, goes to the header part (R206). -/
def headerRelease (b : Block) (i : ChainId) : Block :=
  match (b.chain i).headers with
  | h :: rest =>
    if mayRelease b i h then
      let e := headerEntry (b.chain i).pq h
      let b := b.modKerard fun k => { k with headers := Tab.set k.headers (chainIx i) (h.pos, e) }
      let b := dropFormerKeys b i rest
      (b.modChain i fun c => { c with headers := rest, heldHeaders := c.heldHeaders ++ [e] }).tally 136
    else b
  | [] => b

/-- Headers up to a place are signed, recorded and mirrored (R69, R360). -/
def flushedTo (b : Block) (i : ChainId) (pos : Nat) : Bool :=
  let c := b.chain i
  decide (pos < c.nextPos) && c.headers.all fun h => decide (pos < h.pos) || (h.recorded && (h.mirrored || !b.mirrored))

/-- A request is queued or being committed. -/
def sumpPending (s : Sump) (w : Waiter) : Bool :=
  s.queue.any (fun r => r.waiter == w) || (s.commit.map fun k => k.reqs.any fun r => r.waiter == w).getD false

/-- CHAIN_COMMIT_RETRY: the failed commits are repeated as they were (R577). -/
def chainCommitRetry (b : Block) (i : ChainId) : Block :=
  (b.chain i).failed.foldl (fun b r => if sumpPending b.sump r.waiter then b else b.sumpQueue r) b

/-! ### Making and retiring a chain -/

/-- An audit key's record (R192): its lines at a slot index, with SYSTEM set. -/
def auditKeyLines (c : Nat) (alg : Nat) (seed pk : Bytes) (slot : Nat) : List Bytes :=
  recordLines
    { alg := alg, length := 8 * seed.length, usage := ascii "9A", mode := 0x53, exp := 0x4E, counted := false, fingerprint := false
      notAfter := 0, owner := (if c = 64 then 0 else c) + 0x8000, kvn := ascii "00", kcv := publicKcv pk, chain := 0xFFFFFFFF } seed slot

/-- Audit keys drawn for a chain (R192), and the record writes that hold them: seeds, global indices, writes. Nothing where Lantern is
not delivering or no slots are free. -/
def newAuditKeys (b : Block) (c : Nat) (pq : Bool) : Except Nat ((Bytes × Bytes × Nat × Nat × List NewRecord) × Block) :=
  match b.draw 57 with
  | none => .error stRng
  | some (ed, b) =>
    match lowestRun b c 2 with
    | none => .error stSlotExhausted
    | some g =>
      let wEd : NewRecord := { gidx := g, lines := auditKeyLines c 0x10 ed (edPublic true ed) (slotIndex b c g), newClass := some 1 }
      if !pq then .ok ((ed, [], g, 0, [wEd]), b)
      else match b.draw 32 with
        | none => .error stRng
        | some (q, b) =>
          let taken := b.modCh c fun h => { h with reservedSlots := h.reservedSlots ++ [g, g + 1] }
          match lowestRun taken c 1 with
          | none => .error stSlotExhausted
          | some g2 =>
            let wPq : NewRecord :=
              { gidx := g2, lines := auditKeyLines c 0x19 q (dsaPublic mldsa87 q) (slotIndex b c g2), newClass := some 1 }
            .ok ((ed, q, g, g2, [wEd, wPq]), b)

/-- The chain with its keys, before its genesis batch. -/
def chainWithKeys (pq : Bool) (no : Nat) (prev : Bytes) (keys : Bytes × Bytes × Nat × Nat) (old : Chain) : Chain :=
  let ed := edPublic true keys.1
  let q := if pq then dsaPublic mldsa87 keys.2.1 else []
  { old with present := true, pq := pq, chainNo := no, nextBatch := 0, nextSeq := 0, markEpoch := 0, mark := 0, reserving := false
             prev := prev, edPub := ed, pqPub := q, kidEd := keyId ed, kidPq := if pq then keyId q else [], edGidx := keys.2.2.1
             pqGidx := keys.2.2.2, lastLeaf := none, batch := none, closeDue := none, retiring := false, unsignedStop := false }

/-- The system chain's audit keys enter the key file (R45, R192). -/
def holdAuditKeys (b : Block) (i : ChainId) (pq : Bool) (keys : Bytes × Bytes × Nat × Nat) : Block :=
  match i with
  | .system => b.modKeys fun k =>
    let t := Tab.set k.auditSeeds keys.2.2.1 keys.1
    { k with auditSeeds := if pq then Tab.set t keys.2.2.2 keys.2.1 else t }
  | .chamber _ => b

/-- A new chain with its genesis batch (R191). -/
def createChain (b : Block) (i : ChainId) (pq : Bool) (keys : Bytes × Bytes × Nat × Nat) : Block :=
  let b := holdAuditKeys (b.modChain i fun _ => chainWithKeys pq 0 (zeros 64) keys Chain.absent) i pq keys
  emptyBatch b i 2 0 0 0 0

/-- RETIRED set in an audit key's record (R193), resident or not. -/
def retireKey (b : Block) (gidx : Nat) : Block :=
  let line : Option Bytes := match residentLines b gidx with
    | some l => l.head?
    | none => match (readWhole b .faithful gidx).1 with
      | .ok l => l.head?.map (·.1)
      | .error _ => none
  match line with
  | some l => b.sumpQueue { writes := [{ gidx := gidx, lines := [withRetired l], newClass := none }], range := none, waiter := .retire gidx }
  | none => b

/-- CHAIN_RETIRE: the chain's numbers are used up (R193). The final batch, signed by the old keys, names the new ones; the old records get
RETIRED; the successor opens with its genesis batch. Without Lantern the chain stays unsigned (R200). -/
def chainRetire (b : Block) (i : ChainId) : Block :=
  let c := b.chain i
  if !c.present ∨ c.nextSeq ≠ 2 ^ 48 ∨ c.stalled.isSome then b
  else
    match newAuditKeys b (chainIx i) c.pq with
    | .error _ => b.modChain i fun c => { c with retiring := true, unsignedStop := true }
    | .ok ((ed, q, g, g2, writes), b) =>
      let kids := keyId (edPublic true ed) ++ (if c.pq then keyId (dsaPublic mldsa87 q) else zeros 8)
      let t := c.batch.getD { firstSeq := 2 ^ 48, openTime := b.now, interval := c.interval, claim := b.claim, hashes := [] }
      let b := makeHeader b i
        { kind := 3, close := 3, firstSeq := t.firstSeq, claim := t.claim, count := t.hashes.length, openTime := t.openTime
          closeTime := b.now, gapFirst := 0, gapCount := 0, root := merkleRoot t.hashes, nextKids := kids } (2 ^ 48)
      let b := retireKey b c.edGidx
      let b := if c.pq then retireKey b c.pqGidx else b
      let b := (reserveSlots b (chainIx i) writes).sumpQueue { writes := writes, range := none, waiter := .auditKeys i }
      let prev := (b.chain i).prev
      let keys := (ed, q, g, g2)
      let b := b.modChain i fun old =>
        { chainWithKeys c.pq (c.chainNo + 1) prev keys old with
          before := some { edPub := c.edPub, pqPub := c.pqPub, edGidx := c.edGidx, pqGidx := c.pqGidx } }
      emptyBatch (holdAuditKeys b i c.pq keys) i 2 0 0 0 0

/-- A chamber's audit keys are pinned in its sets (R48, R192); the system chain's are in the key file. -/
def pinAuditKeys (b : Block) (i : ChainId) : Block :=
  let c := b.chain i
  match i with
  | .system => b
  | .chamber _ =>
    let b := pinOwn b c.edGidx 2
    if c.pq then pinOwn b c.pqGidx 1 else b

/-- The records of a successor chain's keys stand (R193): a chamber's are pinned in its sets (R48, R192). -/
def auditKeysStand (b : Block) (i : ChainId) : Block := pinAuditKeys (endStall b i (.auditKeys i)) i

/-! ### The stream rings (R207, R578) -/

/-- The function whose memory holds a chain's ring. -/
def chainFn : ChainId → Nat
  | .chamber c => c + 1
  | .system => 0

/-- Entries a part may still take: its size less one. -/
def ringRoom (log2 head tail : Nat) : Nat := 2 ^ log2 - 1 - (tail + 2 ^ log2 - head) % 2 ^ log2

/-- How a ring write ends: written, nothing to write, or failed for want of Bus Master Enable or by the egress buffer. -/
inductive RingWrite where
  | done
  | nothing
  | noBme
  | bufferError
  deriving DecidableEq, Repr

/-- A chain's ring changed by `f`. -/
def modRing (b : Block) (i : ChainId) (f : Ring → Ring) : Block := b.modChain i fun c => { c with ring := f c.ring }

/-- The chamber that a transfer for a chain is tagged with. -/
def chainWho : ChainId → Option Nat
  | .chamber c => some c
  | .system => none

/-- STREAM_RING_WRITE: the next held leaf (or header) is written as ring space allows, and the tail exposes it (R207). -/
def ringWrite (b : Block) (i : ChainId) (header : Bool) (e : Egress) : Block × RingWrite :=
  let c := b.chain i
  let r := c.ring
  let next := if header then c.heldHeaders.head? else c.heldLeaves.head?
  let room := if header then ringRoom r.hlog2 r.hhead r.htail else ringRoom r.llog2 r.lhead r.ltail
  match next with
  | none => (b, .nothing)
  | some x =>
    if !r.en ∨ r.stopped ∨ room = 0 ∨ b.kerard.egressClosed then (b, .nothing)
    else if !b.bme (chainFn i) then (b, .noBme)
    else if e = .bufferError then (b, .bufferError)
    else if header then
      let b := b.dmaWrite flowMaster (chainWho i) (chainFn i) (r.hdrBase + x.length * r.htail) x
      let b := b.modChain i fun c => { c with heldHeaders := c.heldHeaders.drop 1 }
      let b := modRing b i fun r => { r with htail := (r.htail + 1) % 2 ^ r.hlog2 }
      (if r.vecEn then b.msix (chainFn i) r.vector else b, .done)
    else
      let b := b.dmaWrite flowMaster (chainWho i) (chainFn i) (r.leafBase + 64 * r.ltail) x
      let b := b.modChain i fun c => { c with heldLeaves := c.heldLeaves.drop 1, entries := c.entries - 1 }
      (modRing b i fun r => { r with ltail := (r.ltail + 1) % 2 ^ r.llog2 }, .done)

/-- A failed write to the system ring (R578): writing stops, FLW_ERR.DMA is set. -/
def systemRingStops (b : Block) (bufferError : Bool) : Block :=
  let b := modRing b .system fun r => { r with stopped := true, err := r.err ||| 4 }
  if bufferError then b.aer 0 "Uncorrectable Internal Error" false else b

/-- A host write of a part's head: it frees entries, or sets HEAD_RANGE where it names an entry not yet written (R207). -/
def ringHead (b : Block) (i : ChainId) (header : Bool) (a : Access) (v : Nat) : Block :=
  let r := (b.chain i).ring
  match a with
  | .other => modRing b i fun r => { r with err := r.err ||| 2 }
  | .word =>
    let lg := if header then r.hlog2 else r.llog2
    let old := if header then r.hhead else r.lhead
    let tail := if header then r.htail else r.ltail
    let h := if header then v % 2 ^ 16 else v % 2 ^ 22
    let size := 2 ^ lg
    if h < size ∧ (h + size - old) % size ≤ (tail + size - old) % size then
      modRing b i fun r => if header then { r with hhead := h } else { r with lhead := h }
    else modRing b i fun r => { r with err := r.err ||| 1 }

/-- `VFA_CFG` or `FLW_CFG` (R207). -/
def ringCfg (b : Block) (i : ChainId) : Nat :=
  let c := b.chain i
  let r := c.ring
  b2n r.en + 2 * r.llog2 + 2 ^ 6 * r.hlog2 + 2 ^ 11 * b2n c.pq + 2 ^ 12 * b2n r.vecEn
    + (match i with
      | .chamber _ => 2 ^ 13 * r.vector
      | .system => 2 ^ 23 * r.vector) + 2 ^ 16 * c.interval

/-- `VFA_STATUS` or `FLW_STATUS` (R207, R578). -/
def ringStatus (b : Block) (i : ChainId) : Nat :=
  let c := b.chain i
  let opened := (c.batch.map fun t => t.hashes.length).getD 0
  let r := c.ring
  let held := r.stopped || (r.en && ((!c.heldLeaves.isEmpty && ringRoom r.llog2 r.lhead r.ltail == 0)
    || (!c.heldHeaders.isEmpty && ringRoom r.hlog2 r.hhead r.htail == 0)))
  opened + 2 ^ 13 * b2n held + 2 ^ 14 * b2n c.retiring + 2 ^ 16 * c.chainNo

end Sys2Proof.Machine
end

