-- ==== Sys2Proof/Machine/ChuckOps.lean ====
section
/-! DEFINITION. The queues of chapter 3 and Chuck's bookkeeping of chapter 9: doorbells, fetch, holds, selection. -/
namespace Sys2Proof.Machine

/-! ### Queues -/

/-- A submission queue of a chamber. -/
def Block.sq (b : Block) (c g : Nat) : Sq := Tab.get (b.chamber c).sqs Sq.reset g

/-- A submission queue changed by `f`. -/
def Block.modSq (b : Block) (c g : Nat) (f : Sq → Sq) : Block := b.modCh c fun h => { h with sqs := Tab.modify h.sqs Sq.reset g f }

/-- A completion queue of a chamber. -/
def Block.cq (b : Block) (c q : Nat) : Cq := Tab.get (b.chamber c).cqs Cq.reset q

/-- A completion queue changed by `f`. -/
def Block.modCq (b : Block) (c q : Nat) (f : Cq → Cq) : Block := b.modCh c fun h => { h with cqs := Tab.modify h.cqs Cq.reset q f }

/-- A bit of `VFQ_QERR` set (R57). -/
def queueError (b : Block) (c bitNo : Nat) : Block := b.modCh c fun h => { h with qerr := h.qerr ||| BitVec.ofNat 32 (2 ^ bitNo) }

/-- Depth of a submission queue. -/
def Sq.depth (s : Sq) : Nat := 2 ^ s.depthLog2
/-- Depth of a completion queue. -/
def Cq.depth (s : Cq) : Nat := 2 ^ s.depthLog2

/-- Entries of a completion queue written and not yet released (R79). -/
def Cq.unreleased (s : Cq) : Nat := (s.tail + s.depth - s.head) % s.depth

/-- Free entries of a completion queue (R79). -/
def Cq.free (s : Cq) : Nat := s.depth - 1 - s.unreleased - s.reserved

/-- SQ_DOORBELL: a new tail, or an error bit and nothing else (R57, R58). -/
def sqDoorbell (b : Block) (c g : Nat) (a : Access) (v : Nat) : Block :=
  match a with
  | .other => queueError b c 2
  | .word =>
    let s := b.sq c g
    let tail := v % 2 ^ 16
    if !s.en then queueError b c 1
    else if s.depth ≤ tail then queueError b c 0
    else b.modSq c g fun s => { s with tail := tail }

/-- CQ_DOORBELL: entries up to the new head released, or an error bit and nothing else (R57, R58, R65). -/
def cqDoorbell (b : Block) (c q : Nat) (a : Access) (v : Nat) : Block :=
  match a with
  | .other => queueError b c 2
  | .word =>
    let s := b.cq c q
    let head := v % 2 ^ 16
    if !s.en then queueError b c 1
    else if s.depth ≤ head then queueError b c 0
    else if s.unreleased < (head + s.depth - s.head) % s.depth then queueError b c 3
    else b.modCq c q fun s => { s with head := head }

/-! ### Room and credit (R237 to R239) -/

/-- S: a chamber's share of work items in flight. -/
def Block.shareItems (b : Block) : Nat := 65536 / b.n

/-- Items of a chamber's group in flight, and entries whose reads are issued. -/
def groupUsed (b : Block) (c g : Nat) : Nat :=
  let s := b.sq c g
  (b.chuck.items.filter fun p => p.2.chamber == c && p.2.group == g).length + (s.issued + s.depth - s.head) % s.depth

/-- Items of the pool that a chamber's groups hold. -/
def poolUsed (b : Block) (c : Nat) : Nat :=
  ((List.range 8).map fun g => groupUsed b c g - b.shareItems / 16).sum

/-- Descriptors that a group may still fetch (R237). -/
def groupRoom (b : Block) (c g : Nat) : Nat :=
  let used := groupUsed b c g
  let floor := b.shareItems / 16
  (floor - used) + (b.shareItems / 2 - poolUsed b c)

/-- Whole units of a chamber's fetch credit (R238). -/
def fetchCredit (b : Block) (c : Nat) : Nat := (b.chamber c).credit / b.n

/-- The device fetches for a chamber at all (R76, R80, R81, R379, R576). -/
def mayFetch (b : Block) (c : Nat) : Bool :=
  let h := b.chamber c
  h.st == .active && !h.resetting && h.fence.isNone && !b.kerard.egressClosed && b.kerard.role != .standby
    && (b.life == 2 || b.life == 3)

/-- A queue has entries to fetch and room for them (R79, R237). -/
def queueWants (b : Block) (c g : Nat) : Bool :=
  let s := b.sq c g
  s.en && !s.stopping && s.issued != s.tail && mayFetch b c && decide (0 < (b.cq c s.cq).free) && decide (0 < groupRoom b c g)

/-- A work item waits for a read of its operand buffer: the first, or the second of a GCM decryption (R62, R136). -/
def Item.reads (i : Item) : Bool :=
  (i.st == .dispatched && (i.job.phase == .buffer || i.job.phase == .reread)) || (i.st == .closing && i.job.phase == .digest)

/-- Outstanding reads of a host DMA engine (R240, R538): of its chambers' queues and of their items' operand buffers, a core's window among them. -/
def engineReads (b : Block) (e : Nat) : Nat :=
  let queues := ((b.ch.filter fun p => p.1 % 8 == e).map fun p => (p.2.sqs.map fun q => q.2.reads.length).sum).sum
  let window (i : Item) : Bool := match i.core with
    | some k => i.job.headerOk && (List.range 4).any fun p => !(b.core k).loaded.testBit p
    | none => false
  queues + (b.chuck.items.filter fun p => p.2.chamber % 8 == e && ((p.2.reads && p.2.job.asked) || (p.2.st == .dispatched && window p.2))).length

/-- The read of an operand buffer put on PCIe (R62): its header, or the whole input again (R136). -/
def bufferRead (b : Block) (n : Nat) (i : Item) : Block :=
  let j := i.job
  let b := if j.phase ≠ .reread then b.emit (.readRequest (i.chamber + 1) j.ext 16)
    else b.emit (.readRequest (i.chamber + 1) (j.ext + 16) j.inLen)
  b.modItem n fun i => { i with job := { i.job with asked := true } }

/-- The reads of operand buffers that an engine has room for are issued (R240). -/
def issueBuffers (b : Block) (e : Nat) : Block :=
  (b.chuck.items.filter fun p => p.2.chamber % 8 == e && p.2.reads && !p.2.job.asked).foldl
    (fun b p => if 256 ≤ engineReads b e then b else bufferRead b p.1 p.2) b

/-- The queues of an engine in the order of its round robin (R240): chamber * 8 + queue. -/
def engineQueues (b : Block) (e : Nat) : List Nat :=
  let all := (List.range 512).filter fun i => i / 8 % 8 == e && decide (i / 8 < b.n)
  match Tab.get? b.chuck.lastQueue e with
  | some l => all.filter (fun i => decide (l < i)) ++ all.filter fun i => decide (i ≤ l)
  | none => all

/-- The queue an engine serves next (R239, R240): one whose chamber holds credit, or a borrowing one where none does; and whether the
fetch costs credit. -/
def engineChoice (b : Block) (e : Nat) : Option (Nat × Bool) :=
  let want := (engineQueues b e).filter fun i => queueWants b (i / 8) (i % 8)
  let holders := want.filter fun i => decide (1 ≤ fetchCredit b (i / 8))
  let borrowers := want.filter fun i => (b.chamber (i / 8)).borrow
  let eligible := want.filter fun i => holders.contains i || (holders.isEmpty && borrowers.contains i)
  match eligible.head? with
  | some i => some (i, holders.contains i)
  | none => none

/-- What was issued and not yet fetched is given up (R576): reservations are released and the queues' heads stand. -/
def abandonReads (b : Block) (c : Nat) : Block :=
  (List.range 8).foldl
    (fun b g =>
      let s := b.sq c g
      let n := (s.issued + s.depth - s.head) % s.depth
      let b := b.modCq c s.cq fun q => { q with reserved := q.reserved - n }
      b.modSq c g fun s => { s with issued := s.head, reads := [], arrived := [] }) b

/-! ### Items -/

/-- OPCODE of a descriptor. -/
def dOpcode (d : Bytes) : Nat := leField d 0 2
/-- GROUP. -/
def dGroup (d : Bytes) : Nat := (byteAt d 2).toNat
/-- FLAGS. -/
def dFlags (d : Bytes) : Nat := (byteAt d 3).toNat
/-- TAG. -/
def dTag (d : Bytes) : Nat := leField d 4 4
/-- KEY_IN. -/
def dKeyIn (d : Bytes) : Nat := leField d 8 8
/-- KEY_OUT. -/
def dKeyOut (d : Bytes) : Nat := leField d 16 8
/-- OPERANDS, 40 bytes with INLINE and 32 without. -/
def dOperands (d : Bytes) : Bytes := if (dFlags d).testBit 2 then slice d 24 40 else slice d 24 32
/-- EXT. -/
def dExt (d : Bytes) : Nat := leField d 56 8

/-- AUDIT of an item. -/
def Item.audit (i : Item) : Bool := (dFlags i.desc).testBit 0
/-- FENCE. -/
def Item.fence (i : Item) : Bool := (dFlags i.desc).testBit 1
/-- IRQ. -/
def Item.irq (i : Item) : Bool := (dFlags i.desc).testBit 3
/-- DIRECT. -/
def Item.direct (i : Item) : Bool := (dFlags i.desc).testBit 4

/-- Items of the same queue fetched before item `n` and still in flight. -/
def earlierItems (b : Block) (n : Nat) (i : Item) : List (Nat × Item) :=
  b.chuck.items.filter fun p => decide (p.1 < n) && p.2.chamber == i.chamber && p.2.group == i.group

/-- A FENCE under R75 holds the item. -/
def fenceHolds (b : Block) (n : Nat) (i : Item) : Bool :=
  let e := earlierItems b n i
  (i.fence && !e.isEmpty) || e.any fun p => p.2.fence

/-- Misses that a chamber has outstanding (R46). -/
def missesOf (b : Block) (c : Nat) : Nat := (b.keys.misses.filter fun m => m.payer == c).length

/-- The item waits for a fill, or for a miss slot of its chamber. -/
def missHolds (b : Block) (n : Nat) (i : Item) : Bool :=
  (b.keys.misses.any fun m => m.waiters.contains (.item n)) || !i.needMiss.isEmpty

/-- A miss started or joined for a requester of a chamber (R46): whether it was, and the device after. A 65th of a chamber is not. -/
def startMiss (b : Block) (c gidx : Nat) (r : Requester) : Bool × Block :=
  if b.keys.misses.any fun m => m.gidx == gidx then
    let join (m : Miss) : Miss := if m.gidx = gidx ∧ !m.waiters.contains r then { m with waiters := m.waiters ++ [r] } else m
    (true, b.modKeys fun k => { k with misses := k.misses.map join })
  else if c ≠ 64 ∧ 64 ≤ missesOf b c then (false, b)
  else
    (true, b.modKeys fun k =>
      { k with misses := k.misses ++ [{ gidx := gidx, payer := c, waiters := [r], pinFor := [], refetch := false }] })

/-- Misses started for a list of records; those that could not be an item waits to ask for. -/
def startMisses (b : Block) (c : Nat) (r : Requester) (gs : List Nat) : Block :=
  let step (acc : List Nat × Block) (g : Nat) : List Nat × Block :=
    let s := startMiss acc.2 c g r
    (if s.1 then acc.1 else acc.1 ++ [g], s.2)
  let a := gs.foldl step ([], b)
  match r with
  | .item n => a.2.modItem n fun i => { i with needMiss := a.1 }
  | .ticket _ _ => a.2

/-- The items that wait for a miss slot take those that have freed, the oldest first (R46, R241). -/
def startWaitingMisses (b : Block) : Block :=
  b.chuck.items.foldl
    (fun b p => if p.2.needMiss = [] ∨ 64 ≤ missesOf b p.2.chamber then b else startMisses b p.2.chamber (.item p.1) p.2.needMiss) b

/-- A consumer of a class is awake and not warming (R241). -/
def classAwake (b : Block) (k : Cls) (lattice : Bool) : Bool :=
  match k with
  | .spa => b.domainOn (spDomain 0)
  | .spb => b.domainOn (spDomain 1)
  | .aug => b.domainOn 17
  | .gal => if lattice then b.domainOn gltDomain else (List.range 4).any fun q => b.domainOn (gqDomain q)
  | .chs => (List.range 8).any fun q => b.domainOn (ccDomain q)

/-- A Spindle request of an item that has not wholly issued (R124, R242). -/
def itemHasSpReq (b : Block) (n : Nat) : Bool := b.spindle.queue.any fun r => r.owner == some (.item n)

/-- The item occupies the direct entry it took (R242): from its selection until its request has issued. -/
def holdsEntry (b : Block) (n : Nat) (i : Item) : Bool :=
  i.st == .dispatched && (i.job.phase == .keys || i.job.phase == .buffer || i.job.phase == .reread || i.job.phase == .ready
    || (i.job.phase == .engine && itemHasSpReq b n))

/-- Occupied direct entries of a pipeline. -/
def directEntries (b : Block) (pipe : Nat) : Nat :=
  (b.chuck.items.filter fun p => (p.2.cls == .spa || p.2.cls == .spb) && p.2.pipe == pipe && holdsEntry b p.1 p.2).length

/-- Direct items of a pair: occupied entries and items assigned and not yet dispatched (R243). A HELD item is assigned when it becomes READY. -/
def pairItems (b : Block) (k : Cls) : Nat :=
  (b.chuck.items.filter fun p => p.2.cls == k && (holdsEntry b p.1 p.2 || p.2.st == .ready)).length

/-- Direct messages at Auger's direct port (R242): HASH items dispatched and not delivered, and MACs that a pair's intake has passed on. -/
def augDirect (b : Block) : Nat :=
  let passedOn (m : AuMsg) : Bool := m.port == .direct && match m.owner with
    | some (.item n) => match b.item? n with
      | some i => i.cls != .aug
      | none => false
    | _ => false
  (b.chuck.items.filter fun p => p.2.cls == .aug && p.2.st == .dispatched && p.2.job.outcome.isNone).length
    + (b.auger.msgs.filter passedOn).length

/-- Direct entries of Gallery's queue taken (R157, R242). -/
def galDirect (b : Block) : Nat :=
  (b.chuck.items.filter fun p => p.2.cls == .gal && p.2.st == .dispatched &&
    (p.2.job.phase == .keys || p.2.job.phase == .buffer || p.2.job.phase == .ready
      || b.gallery.queue.any fun r => r.owner == .job (.item p.1))).length

/-- Schemes of the lattice cores (R153, R163), from the operands' SCHEME. -/
def isLattice (operands : Bytes) : Bool :=
  let s := (byteAt operands 0).toNat
  s == 0x08 || s == 0x09 || s == 0x14

/-- The consumer has a free entry or core for the item (R242). -/
def consumerFree (b : Block) (i : Item) : Bool :=
  match i.cls with
  | .spa => decide (directEntries b i.pipe < 16)
  | .spb => decide (directEntries b i.pipe < 16)
  | .aug => decide (augDirect b < 16)
  | .gal => decide (galDirect b < 64)
  | .chs => b.chuck.take.any fun k => b.domainOn (ccDomain (k / 8))

/-- Every consumer of the item's class is awake (R241). -/
def allAwake (b : Block) (i : Item) : Bool :=
  match i.cls with
  | .chs => (List.range 8).all fun q => b.domainOn (ccDomain q)
  | _ => true

/-- The chain has no free leaf-buffer entry for the item (R241). -/
def leafHolds (b : Block) (i : Item) : Bool :=
  i.audit && i.leaf != .entry && entryCheck b (.chamber i.chamber) == .wait

/-- Why an undispatched item is held, in the order of R241, or nothing. -/
def holdReason (b : Block) (n : Nat) (i : Item) : Option Hold :=
  if fenceHolds b n i then some .fence
  else if missHolds b n i then some .miss
  else if i.needCount then some .counter
  else if leafHolds b i then some .leaf
  else if !classAwake b i.cls (isLattice (dOperands i.desc)) then some .power
  else if allAwake b i && !consumerFree b i then some .full
  else none

/-- The event code of a hold (R526). -/
def holdEvent : Hold → Option Nat
  | .fence => none
  | .miss => some 0x006
  | .counter => some 0x007
  | .leaf => some 0x008
  | .power => some 0x009
  | .full => some 0x00A

/-- The pair of lesser load for a direct Spindle item (R243): SPA on a tie, and a pair that is off or warming only when the other is. -/
def choosePair (b : Block) : Cls :=
  let onA := b.domainOn (spDomain 0)
  let onB := b.domainOn (spDomain 1)
  if onA && !onB then .spa
  else if onB && !onA then .spb
  else if pairItems b .spb < pairItems b .spa then .spb else .spa

/-- The target pipeline within a pair (R243). -/
def choosePipe (b : Block) (k : Cls) (fused : Bool) : Nat :=
  let p := if k = .spb then 2 else 0
  if fused then p else if directEntries b (p + 1) < directEntries b p then p + 1 else p

/-- An opcode whose request is fused on a pair (R128, R129): the PIN translations and verifications. -/
def isFused (opcode : Nat) : Bool := [0x0100, 0x0101, 0x0110, 0x0111, 0x0112].contains opcode

/-- A direct Spindle item assigned to a pair and a pipeline of it (R243). -/
def assignItem (b : Block) (i : Item) : Item :=
  if i.cls = .spa ∨ i.cls = .spb then
    let k := choosePair b
    { i with cls := k, pipe := choosePipe b k (isFused (dOpcode i.desc)) }
  else i

/-- An item in its ready list is READY or HELD as the conditions of R241 stand; one that becomes READY is assigned anew (R243). -/
def settleItem (b : Block) (n : Nat) (i : Item) : Block :=
  let i' := if i.st = .ready then i else assignItem b i
  match holdReason b n i' with
  | some r =>
    let b' := b.setItem n { i' with st := .held r }
    if i.st = .held r then b' else
      match holdEvent r with
      | some e => b'.event 72 e (some i.chamber)
      | none => b'
  | none => b.setItem n { i' with st := .ready }

/-- The state of an undispatched item brought up to date (R241). -/
def refreshItem (b : Block) (n : Nat) (i : Item) : Block :=
  match i.st with
  | .dispatched => b
  | .closing => b
  | _ => settleItem b n i

/-- A group of a chamber. -/
def Block.group (b : Block) (c g : Nat) : Group := Tab.get (b.chamber c).groups Group.reset g

/-- A group changed by `f`. -/
def Block.modGroup (b : Block) (c g : Nat) (f : Group → Group) : Block :=
  b.modCh c fun h => { h with groups := Tab.modify h.groups Group.reset g f }

/-- READY items of a chamber's group. -/
def readyItems (b : Block) (c g : Nat) : List (Nat × Item) :=
  b.chuck.items.filter fun p => p.2.chamber == c && p.2.group == g && p.2.st == .ready

/-- Deficits of groups without a READY item are zero (R245). -/
def zeroDeficits (b : Block) (c : Nat) : Block :=
  (List.range 8).foldl (fun b g => if (readyItems b c g).isEmpty then b.modGroup c g fun x => { x with deficit := 0 } else b) b

/-- The deficits of every chamber's groups without a READY item are zero (R245). -/
def zeroAllDeficits (b : Block) : Block := b.ch.foldl (fun b p => zeroDeficits b p.1) b

/-- Every undispatched item brought up to date, and with them the deficits of groups that have no READY item left (R241, R245). -/
def refreshHolds (b : Block) : Block :=
  zeroAllDeficits (b.chuck.items.foldl (fun b p => match b.item? p.1 with
    | some i => refreshItem b p.1 i
    | none => b) (startWaitingMisses b))

/-! ### Selection (R244 to R246) -/

/-- The cost of a dispatch (R246). -/
def classCost : Cls → Nat
  | .spa => 1
  | .spb => 1
  | .aug => 1
  | .gal => 4
  | .chs => 8

/-- The classes in the order of selection after the one served last (R244). -/
def classOrder : Cls → List Cls
  | .spa => [.spb, .aug, .gal, .chs, .spa]
  | .spb => [.aug, .gal, .chs, .spa, .spb]
  | .aug => [.gal, .chs, .spa, .spb, .aug]
  | .gal => [.chs, .spa, .spb, .aug, .gal]
  | .chs => [.spa, .spb, .aug, .gal, .chs]

/-- The number of a class. -/
def classNo : Cls → Nat
  | .spa => 0
  | .spb => 1
  | .aug => 2
  | .gal => 3
  | .chs => 4

/-- Dispatchable items of a class: READY ones whose consumer has room in this cycle (R242). -/
def dispatchable (b : Block) (k : Cls) : List (Nat × Item) :=
  b.chuck.items.filter fun p => p.2.st == .ready && p.2.cls == k && consumerFree b p.2

/-- The group of a chamber selected for a class, and the device with its deficits after (R245). -/
def selectGroup (b : Block) (c : Nat) (k : Cls) : Nat × Block :=
  let cost := classCost k
  let gs := (List.range 8).filter fun g => (dispatchable b k).any fun p => p.2.chamber == c && p.2.group == g
  let enough := gs.any fun g => decide (cost ≤ (b.group c g).deficit)
  let b :=
    if enough then b
    else
      let rounds := gs.map fun g =>
        let x := b.group c g
        (cost - x.deficit + x.weight - 1) / x.weight
      let r := rounds.foldl min 1024
      (List.range 8).foldl
        (fun b g => if (readyItems b c g).isEmpty then b
          else b.modGroup c g fun x => { x with deficit := min 1023 (x.deficit + r * x.weight) }) b
  let order := (List.range 8).map fun j => ((b.chamber c).ptr + 1 + j) % 8
  let g := (order.find? fun g => gs.contains g && decide (cost ≤ (b.group c g).deficit)).getD 0
  let b := b.modGroup c g fun x => { x with deficit := x.deficit - cost }
  (g, b.modCh c fun h => { h with ptr := g })

/-- The item dispatched next, if any: its class and number, and the device with the rotations after (R244, R249). -/
def chooseItem (b : Block) : Option (Cls × Nat × Block) :=
  match (classOrder b.chuck.lastClass).find? fun k => !(dispatchable b k).isEmpty with
  | none => none
  | some k =>
    let last := Tab.get b.chuck.lastChamber 63 (classNo k)
    let cs := (List.range 64).map fun j => (last + 1 + j) % 64
    match cs.find? fun c => (dispatchable b k).any fun p => p.2.chamber == c with
    | none => none
    | some c =>
      let (g, b) := selectGroup b c k
      let cand := (dispatchable b k).filter fun p => p.2.chamber == c && p.2.group == g
      match (cand.find? fun p => p.2.ahead) <|> cand.head? with
      | none => none
      | some p =>
        let b := b.modChuck fun x => { x with lastClass := k, lastChamber := Tab.set x.lastChamber (classNo k) c }
        some (k, p.1, b)

/-- The cluster and core a CHS item goes to (R248): the awake cluster with the fewest cores in TAKE, and its lowest core. -/
def chooseCore (b : Block) : Option Nat :=
  let count (q : Nat) : Nat := (b.chuck.take.filter fun k => k / 8 == q).length
  let qs := (List.range 8).filter fun q => b.domainOn (ccDomain q) && decide (0 < count q)
  let best := qs.foldl (fun (a : Option Nat) q =>
    match a with
    | none => some q
    | some x => if count q < count x then some q else a) none
  match best with
  | some q => (List.range 8).map (8 * q + ·) |>.find? fun k => b.chuck.take.contains k
  | none => none

/-- An item's wait up to now, in nanoseconds (R253). -/
def waitOf (b : Block) (i : Item) : Nat := min (2 ^ 32 - 1) ((b.cyc - i.residence) * 4 / 5)

/-- A dispatch has turned out to be an item's final one: its wait is entered in its group's figures (R253). -/
def recordWait (b : Block) (n : Nat) : Block :=
  match (b.item? n).bind fun i => i.waited.map fun w => (i, w) with
  | some (i, wait) =>
    let sh := b.chuck.ewmaShift
    (b.modItem n fun i => { i with waited := none }).modGroup i.chamber i.group fun x =>
      { x with wmax := max x.wmax wait
               wavg := ((x.wavg : Int) + ((256 * wait : Nat) - (x.wavg : Int)) / (2 ^ sh : Nat)).toNat }
  | none => b

/-! ### Registers (R254, R255) -/

/-- CHK_CLRMAX: a write of CLR clears every running maximum (R254). -/
def chkClrmax (b : Block) (a : Access) (v : Nat) : Block :=
  match a with
  | .other => b.modChuck fun x => { x with err := x.err ||| 1 }
  | .word =>
    if v.testBit 0 then
      { b with ch := Tab.mapVals b.ch fun _ h => { h with groups := Tab.mapVals h.groups fun _ g => { g with wmax := 0 } } }
    else b

/-- VFC_CLRMAX: a chamber clears the maxima of the groups named (R255). -/
def vfcClrmax (b : Block) (c : Nat) (a : Access) (v : Nat) : Block :=
  match a with
  | .other => queueError b c 2
  | .word => b.modCh c fun h => { h with groups := Tab.mapVals h.groups fun g x => if v.testBit g then { x with wmax := 0 } else x }

end Sys2Proof.Machine
end

