-- ==== Sys2Proof/Machine/Hash1.lean ====
section
/-! DEFINITION. SHA-1, which option B of the EMV card key derivation uses (R109). Log entry 1. -/
namespace Sys2Proof.Machine

/-- The 80 words of a block's schedule, newest first, from the 16 newest first. -/
def sha1Extend : Nat → List (BitVec 32) → List (BitVec 32)
  | 0, w => w
  | n + 1, w =>
    sha1Extend n (((w.getD 2 0 ^^^ w.getD 7 0 ^^^ w.getD 13 0 ^^^ w.getD 15 0).rotateLeft 1) :: w)

/-- One of the 80 rounds. -/
def sha1Round (s : BitVec 32 × BitVec 32 × BitVec 32 × BitVec 32 × BitVec 32) (p : BitVec 32 × Nat) :
    BitVec 32 × BitVec 32 × BitVec 32 × BitVec 32 × BitVec 32 :=
  let (a, b, c, d, e) := s
  let f : BitVec 32 :=
    if p.2 < 20 then (b &&& c) ||| (~~~b &&& d)
    else if p.2 < 40 then b ^^^ c ^^^ d
    else if p.2 < 60 then (b &&& c) ||| (b &&& d) ||| (c &&& d)
    else b ^^^ c ^^^ d
  let k : BitVec 32 := if p.2 < 20 then 0x5A827999 else if p.2 < 40 then 0x6ED9EBA1 else if p.2 < 60 then 0x8F1BBCDC else 0xCA62C1D6
  (a.rotateLeft 5 + f + e + k + p.1, a, b.rotateLeft 30, c, d)

/-- One block absorbed. -/
def sha1Block (h : BitVec 32 × BitVec 32 × BitVec 32 × BitVec 32 × BitVec 32) (blk : Bytes) :
    BitVec 32 × BitVec 32 × BitVec 32 × BitVec 32 × BitVec 32 :=
  let w := ((chunks 4 blk).map fun x => BitVec.ofNat 32 (ofBe x)).reverse
  let r := ((sha1Extend 64 w).reverse.zip (List.range 80)).foldl sha1Round h
  (h.1 + r.1, h.2.1 + r.2.1, h.2.2.1 + r.2.2.1, h.2.2.2.1 + r.2.2.2.1, h.2.2.2.2 + r.2.2.2.2)

/-- SHA-1. -/
def sha1 (msg : Bytes) : Bytes :=
  let m := msg ++ [0x80]
  let padded := m ++ zeros (roundUp (m.length + 8) 64 - m.length - 8) ++ beBytes 8 (8 * msg.length)
  let h := (chunks 64 padded).foldl sha1Block (0x67452301, 0xEFCDAB89, 0x98BADCFE, 0x10325476, 0xC3D2E1F0)
  beBytes 4 h.1.toNat ++ beBytes 4 h.2.1.toNat ++ beBytes 4 h.2.2.1.toNat ++ beBytes 4 h.2.2.2.1.toNat
    ++ beBytes 4 h.2.2.2.2.toNat

end Sys2Proof.Machine
end

