-- ==== Sys2Proof/Machine/Payment.lean ====
section
/-! DEFINITION. The computations of chapter 4 on plain bytes: PIN blocks, DUKPT, PIN verification, MACs, EMV, card verification codes,
key blocks. The standards they name are followed as log entry 1 says. -/
namespace Sys2Proof.Machine

/-! ### Digits and PAN (R84) -/

/-- The digits of a PAN field, where it is well formed (R84). -/
def panDigits (f : Bytes) : Option (List Nat) :=
  let n := nibbles f
  let d := n.takeWhile (· < 10)
  if (n.drop d.length).all (· == 15) ∧ 12 ≤ d.length ∧ d.length ≤ 19 then some d else none

/-- Nibbles padded on the left with zeros to `n`. -/
def leftPad (n : Nat) (d : List Nat) : List Nat := List.replicate (n - d.length) 0 ++ d

/-- The 12 rightmost digits without the check digit, padded on the left with zeros, after four zero nibbles (R88, format 0). -/
def panBlock8 (d : List Nat) : Bytes :=
  let e := d.dropLast
  packNibbles (leftPad 16 (e.drop (e.length - 12)))

/-- The PAN field of format 4 (R88). -/
def panBlock16 (d : List Nat) : Bytes :=
  packNibbles ([d.length - 12] ++ d ++ List.replicate (31 - d.length) 0)

/-! ### PIN fields (R88 to R90) -/

/-- The block cipher of a key: its ALG and material. -/
def isAes (alg : Nat) : Bool := alg == 3 || alg == 4 || alg == 5

/-- TDES algorithms. -/
def isTdes (alg : Nat) : Bool := alg == 1 || alg == 2

/-- One block enciphered under a key. -/
def blockEnc (alg : Nat) (k x : Bytes) : Bytes := if isAes alg then aesEncrypt k x else tdesEncrypt k x

/-- One block deciphered under a key. -/
def blockDec (alg : Nat) (k x : Bytes) : Bytes := if isAes alg then aesDecrypt k x else tdesDecrypt k x

/-- Bytes of a block. -/
def blockLen (alg : Nat) : Nat := if isAes alg then 16 else 8

/-- A key's algorithm suits a PIN block format (R85). -/
def formatSuits (fmt alg : Nat) : Bool := if fmt = 4 then isAes alg else isTdes alg

/-- A format binds the block to the PAN. -/
def formatBinds (fmt : Nat) : Bool := fmt == 0 || fmt == 3 || fmt == 4

/-- The PIN of a recovered PIN field, where the field is valid (R88). -/
def parsePin (fmt : Nat) (field : Bytes) : Option (List Nat) :=
  let n := nibbles field
  let len := n.getD 1 0
  let pin := (n.drop 2).take len
  let fill := (n.take 16).drop (2 + len)
  let fillOk : Bool :=
    if fmt = 0 ∨ fmt = 2 then fill.all (· == 15)
    else if fmt = 3 then fill.all fun x => decide (10 ≤ x)
    else if fmt = 4 then fill.all (· == 10)
    else true
  if n.getD 0 0 = fmt ∧ 4 ≤ len ∧ len ≤ 12 ∧ allDigits pin ∧ fillOk then some pin else none

/-- The bytes a draw for an outbound format takes (R89). -/
def pinDraw (fmt : Nat) : Nat := if fmt = 1 then 5 else if fmt = 3 then 40 else if fmt = 4 then 8 else 0

/-- The PIN field of a format, its fill made from the bytes drawn (R88, R89). -/
def buildPin (fmt : Nat) (pin : List Nat) (drawn : Bytes) : Bytes :=
  let fill : List Nat :=
    if fmt = 1 then nibbles drawn
    else if fmt = 3 then (chunks 4 drawn).map fun v => 10 + ofLe v % 6
    else if fmt = 4 then List.replicate 14 10
    else List.replicate 14 15
  packNibbles ([fmt, pin.length] ++ pin ++ fill.take (14 - pin.length)) ++ (if fmt = 4 then drawn else [])

/-- A PIN block decrypted to its field (R88). -/
def openBlock (fmt alg : Nat) (k blk : Bytes) (pan : List Nat) : Bytes :=
  if fmt = 4 then
    let b1 := blockDec alg k blk
    blockDec alg k (xorBytes b1 (panBlock16 pan))
  else
    let c := blockDec alg k (blk.take 8)
    if formatBinds fmt then xorBytes c (panBlock8 pan) else c

/-- A PIN field enciphered (R88). -/
def sealBlock (fmt alg : Nat) (k field : Bytes) (pan : List Nat) : Bytes :=
  if fmt = 4 then
    let a := blockEnc alg k field
    blockEnc alg k (xorBytes a (panBlock16 pan))
  else blockEnc alg k (if formatBinds fmt then xorBytes field (panBlock8 pan) else field)

/-- The PIN of a block, where the block is valid and its length within the chamber's bounds (R88, R90, R91). -/
def pinOf (pinpol : BitVec 32) (fmt alg : Nat) (k blk : Bytes) (pan : List Nat) : Option (List Nat) :=
  match parsePin fmt (openBlock fmt alg k blk pan) with
  | some p =>
    let lo := (pinpol.extractLsb' 4 4).toNat
    let hi := (pinpol.extractLsb' 8 4).toNat
    if lo ≤ p.length ∧ p.length ≤ hi then some p else none
  | none => none

/-- The matrix of R94 under a policy word (R91). -/
def translationPermitted (pinpol : BitVec 32) (inFmt outFmt : Nat) : Bool :=
  let aesToTdes := pinpol.getLsbD 0
  let iccOut := pinpol.getLsbD 1
  let unboundIn := pinpol.getLsbD 2
  if inFmt = 0 ∨ inFmt = 3 then
    if outFmt = 1 then false else if outFmt = 2 then iccOut else true
  else if inFmt = 1 then
    if outFmt = 1 then true else if outFmt = 2 then false else unboundIn
  else if inFmt = 4 then
    if outFmt = 4 then true else if outFmt = 1 then false else if outFmt = 2 then aesToTdes && iccOut else aesToTdes
  else false

/-! ### PIN verification (R101, R102) -/

/-- A decimalisation table is acceptable: digits only, each of the ten among them (R92). -/
def decTabOk (t : Bytes) : Bool :=
  let n := nibbles t
  t.length == 8 && allDigits n && (List.range 10).all n.contains

/-- The value of R101: `l` digits from the validation data, the table and the offset. -/
def offsetPin (alg : Nat) (k vdata table offset : Bytes) (l : Nat) : List Nat :=
  let e := (blockEnc alg k (fit (blockLen alg) vdata)).take 8
  let t := nibbles table
  List.zipWith (fun x o => (t.getD x 0 + o) % 10) ((nibbles e).take l) ((nibbles offset).take l)

/-- The scanning rule of R102: decimal nibbles first, then the others less ten, `n` of them. -/
def scanDigits (n : Nat) (y : Bytes) : List Nat :=
  let x := nibbles y
  (x.filter (· < 10) ++ (x.filter (10 ≤ ·)).map (· - 10)).take n

/-- The PVV of a PIN (R102). -/
def pvvOf (k : Bytes) (pan : List Nat) (pvki : Nat) (pin : List Nat) : List Nat :=
  let e := pan.dropLast
  scanDigits 4 (tdesEncrypt k (packNibbles (e.drop (e.length - 11) ++ [pvki] ++ pin.take 4)))

/-! ### DUKPT (R98 to R100) -/

/-- The mask of ANSI X9.24-1. -/
def dukptMask : Bytes := [0xC0, 0xC0, 0xC0, 0xC0, 0, 0, 0, 0]

/-- `m` repeated over the length of a key. -/
def maskKey (k m : Bytes) : Bytes := xorBytes k (m ++ m ++ m)

/-- The low 21 bits of a KSN. -/
def tdesCounter (ksn : Bytes) : Nat := ofBe (ksn.drop 7) % 2 ^ 21

/-- A KSN with its counter cleared. -/
def tdesInitialKsn (ksn : Bytes) : Bytes := beBytes 10 (ofBe ksn - tdesCounter ksn)

/-- The initial key of TDES DUKPT. -/
def tdesIk (bdk ksn : Bytes) : Bytes :=
  let s := (tdesInitialKsn ksn).take 8
  tdesEncrypt bdk s ++ tdesEncrypt (maskKey bdk dukptMask) s

/-- One derivation step: the non-reversible key generation under the register's 8 bytes. -/
def tdesStep (k reg : Bytes) : Bytes :=
  let half (k : Bytes) : Bytes :=
    let r := k.drop 8
    xorBytes (desEncrypt (k.take 8) (xorBytes reg r)) r
  half (maskKey k dukptMask) ++ half k

/-- The set bits of a counter, from the most significant of `n`. -/
def setBits (n v : Nat) : List Nat := (List.range n).reverse.filter fun i => v.testBit i

/-- The key of the transaction of TDES DUKPT before its variant. -/
def tdesTransaction (ik ksn : Bytes) : Bytes :=
  let base := ofBe ((tdesInitialKsn ksn).drop 2)
  ((setBits 21 (tdesCounter ksn)).foldl (fun (p : Bytes × Nat) i => (tdesStep p.1 (beBytes 8 (p.2 + 2 ^ i)), p.2 + 2 ^ i)) (ik.take 16, base)).1

/-- A variant of TDES DUKPT. -/
def tdesVariant (k : Bytes) (v : Nat) : Bytes := maskKey k (beBytes 8 v)

/-- The PIN encryption variant. -/
def variantPin : Nat := 0xFF
/-- The MAC request variant. -/
def variantMacRequest : Nat := 0xFF00
/-- The MAC response variant. -/
def variantMacResponse : Nat := 0xFF000000

/-- The algorithm indicators and lengths of ANSI X9.24-3, by WKTYPE of R98. -/
def aesDukptType (wk : Nat) : Nat × Nat :=
  if wk = 0 then (2, 128) else if wk = 1 then (3, 192) else if wk = 2 then (4, 256) else if wk = 3 then (0, 128) else (1, 192)

/-- One derivation of ANSI X9.24-3: usage, type, and the last 8 bytes of the derivation data. -/
def aesDukptDerive (k : Bytes) (usage wk : Nat) (context : Bytes) : Bytes :=
  let t := aesDukptType wk
  let block (i : Nat) : Bytes :=
    aesEncrypt k ([1, BitVec.ofNat 8 i] ++ beBytes 2 usage ++ beBytes 2 t.1 ++ beBytes 2 t.2 ++ context)
  (block 1 ++ block 2).take (t.2 / 8)

/-- WKTYPE of an AES algorithm code. -/
def aesWk (alg : Nat) : Nat := alg - 3

/-- The initial key of AES DUKPT. -/
def aesIk (alg : Nat) (bdk ikid : Bytes) : Bytes := aesDukptDerive bdk 0x8001 (aesWk alg) ikid

/-- The working key of AES DUKPT. -/
def aesTransaction (alg : Nat) (ik ksn : Bytes) (usage wk : Nat) : Bytes :=
  let id4 := slice ksn 4 4
  let ctr := ofBe (ksn.drop 8)
  let k := ((setBits 32 ctr).foldl
    (fun (p : Bytes × Nat) i => (aesDukptDerive p.1 0x8000 (aesWk alg) (id4 ++ beBytes 4 (p.2 + 2 ^ i)), p.2 + 2 ^ i)) (ik, 0)).1
  aesDukptDerive k usage wk (id4 ++ beBytes 4 ctr)

/-- The algorithm code of a working key: of a WKTYPE, or of TDES DUKPT. -/
def wkAlg (wk : Nat) : Nat := if wk = 0 then 3 else if wk = 1 then 4 else if wk = 2 then 5 else if wk = 3 then 1 else 2

/-! ### MACs (R105) -/

/-- The full MAC of a message under a key of an ALG and USAGE (R105): padding method and hash as R106 codes them. -/
def macOf (alg : Nat) (usage k : Bytes) (pad hash : Nat) (msg : Bytes) : Bytes :=
  if usage = ascii "M1" then macAlg1 (blockEnc alg k) (blockLen alg) (isoPad pad (blockLen alg) msg)
  else if usage = ascii "M3" then macAlg3 k (isoPad pad 8 msg)
  else if usage = ascii "M6" then aesCmac k msg
  else if hash = 0 then hmacSha256 k msg
  else if hash = 1 then hmacSha384 k msg
  else hmacSha512 k msg

/-- The smallest and greatest MACLEN (R105). -/
def macLens (alg : Nat) (usage : Bytes) : Nat × Nat :=
  if usage = ascii "M7" then (8, 16) else if usage = ascii "M3" ∨ isTdes alg then (4, 8) else (4, 16)

/-! ### EMV (R108, R109) -/

/-- Every bit inverted. -/
def invert (b : Bytes) : Bytes := b.map fun x => ~~~x

/-- The card master key (R109 step 1). -/
def emvMaster (alg : Nat) (k : Bytes) (pan : List Nat) (psn : Byte) : Bytes :=
  let d := pan ++ nibbles [psn]
  if isAes alg then
    let y := packNibbles (leftPad 32 d)
    (aesEncrypt k y ++ (if alg = 3 then [] else aesEncrypt k (invert y))).take k.length
  else
    let y : Bytes :=
      if d.length ≤ 16 then packNibbles (leftPad 16 d)
      else
        let h := nibbles (sha1 (packNibbles (if d.length % 2 = 1 then 0 :: d else d)))
        packNibbles ((h.filter (· < 10) ++ (h.filter (10 ≤ ·)).map (· - 10)).take 16)
    tdesEncrypt k y ++ tdesEncrypt k (invert y)

/-- The session key from the ATC (R109 step 2). -/
def emvSession (alg : Nat) (mk atc : Bytes) : Bytes :=
  if alg = 3 then aesEncrypt mk (fit 16 atc)
  else if isAes alg then
    (aesEncrypt mk (fit 16 (atc ++ [0xF0])) ++ aesEncrypt mk (fit 16 (atc ++ [0x0F]))).take mk.length
  else tdesEncrypt mk (fit 8 (atc ++ [0xF0])) ++ tdesEncrypt mk (fit 8 (atc ++ [0x0F]))

/-- The passes that the master key and the session key take (R109 steps 1 and 2). -/
def emvKeyPasses (alg : Nat) : Nat := if alg = 3 then 2 else 4

/-- The cryptogram's MAC over data (R109 step 3), in full. -/
def emvMac (alg : Nat) (sk data : Bytes) : Bytes := if isAes alg then aesCmac sk data else macAlg3 sk (isoPad 2 8 data)

/-- The ARPC of method 1 or 2 (R109). -/
def emvArpc (alg : Nat) (sk arqc arpcIn prop : Bytes) (method : Nat) : Bytes :=
  if method = 1 then
    let y := xorBytes arqc (fit 8 (arpcIn.take 2))
    if isAes alg then (aesEncrypt sk (y ++ zeros 8)).take 8 else tdesEncrypt sk y
  else (emvMac alg sk (arqc ++ arpcIn ++ prop)).take 4

/-! ### Card verification codes (R110, R111) -/

/-- The three digits of a code. -/
def cvcOf (k : Bytes) (pan : List Nat) (expiry svc : Bytes) : List Nat :=
  let d := pan ++ nibbles expiry ++ (nibbles svc).drop 1
  let s := packNibbles (d ++ List.replicate (32 - d.length) 0)
  let x := xorBytes (desEncrypt (k.take 8) (s.take 8)) (s.drop 8)
  scanDigits 3 (tdesEncrypt k x)

/-! ### TR-31 (R112 to R117) -/

/-- A hexadecimal digit's character. -/
def hexChar (n : Nat) : Byte := BitVec.ofNat 8 (if n < 10 then 48 + n else 55 + n)

/-- Bytes as upper-case hexadecimal characters. -/
def toHex (b : Bytes) : Bytes := (nibbles b).map hexChar

/-- The value of a hexadecimal character. -/
def hexVal (c : Byte) : Option Nat :=
  let n := c.toNat
  if 48 ≤ n ∧ n ≤ 57 then some (n - 48) else if 65 ≤ n ∧ n ≤ 70 then some (n - 55) else none

/-- Hexadecimal characters as bytes; nothing where one is no such character or their number is odd. -/
def ofHex (b : Bytes) : Option Bytes :=
  let v := b.map hexVal
  if b.length % 2 = 0 ∧ v.all Option.isSome then some (packNibbles (v.map fun x => x.getD 0)) else none

/-- A decimal number of `n` characters. -/
def toDec (n v : Nat) : Bytes := ((List.range n).reverse).map fun i => BitVec.ofNat 8 (48 + v / 10 ^ i % 10)

/-- Decimal characters as a number. -/
def ofDec (b : Bytes) : Option Nat :=
  if b.all fun c => decide (48 ≤ c.toNat ∧ c.toNat ≤ 57) then some (b.foldl (fun a c => 10 * a + (c.toNat - 48)) 0) else none

/-- A printable ASCII character. -/
def printable (c : Byte) : Bool := decide (0x20 ≤ c.toNat ∧ c.toNat ≤ 0x7E)

/-- The keys of a key block under its wrapping key: encryption key and authentication key (the binding methods of versions B and D). -/
def tr31Keys (alg : Nat) (k : Bytes) : Bytes × Bytes :=
  let ind := if alg = 1 then 0 else if alg = 2 then 1 else alg - 1
  let mac (x : Bytes) : Bytes := if isAes alg then aesCmac k x else cmacWith (tdesEncrypt k) 8 x
  let one (usage : Nat) : Bytes :=
    (((List.range 3).map fun i =>
      mac ([BitVec.ofNat 8 (i + 1)] ++ beBytes 2 usage ++ [0] ++ beBytes 2 ind ++ beBytes 2 (8 * k.length))).flatten).take k.length
  (one 0, one 1)

/-- The MAC of a key block over its header and clear key field. -/
def tr31Mac (alg : Nat) (macKey data : Bytes) : Bytes :=
  if isAes alg then aesCmac macKey data else cmacWith (tdesEncrypt macKey) 8 data

/-- A key block made of a header and a clear key field (R116): header, enciphered field, MAC. -/
def tr31Wrap (alg : Nat) (k header field : Bytes) : Bytes :=
  let ks := tr31Keys alg k
  let m := tr31Mac alg ks.2 (header ++ field)
  header ++ toHex (cbcEncrypt (blockEnc alg ks.1) (blockLen alg) m field) ++ toHex m

/-- The clear key field of a key block, where its MAC is right (R113 check 3). -/
def tr31Unwrap (alg : Nat) (k header enc mac : Bytes) : Option Bytes :=
  let ks := tr31Keys alg k
  let field := cbcDecrypt (blockDec alg ks.1) (blockLen alg) mac enc
  if tr31Mac alg ks.2 (header ++ field) = mac then some field else none

/-- An optional block: its identifier and data. -/
abbrev OptBlock := Bytes × Bytes

/-- The optional blocks of a header after its first 16 characters, `n` of them, and the header's length; nothing where one is not well
formed. -/
def tr31Options : Nat → Nat → Bytes → Option (List OptBlock × Nat)
  | 0, at_, _ => some ([], at_)
  | n + 1, at_, rest =>
    let id := rest.take 2
    let short := (ofHex (slice rest 2 2)).map ofBe
    let len? : Option (Nat × Nat) :=
      match short with
      | some 0 =>
        match (ofHex (slice rest 4 2)).map ofBe with
        | some l => ((ofHex (slice rest 6 l)).map ofBe).map fun v => (v, 6 + l)
        | none => none
      | some v => some (v, 4)
      | none => none
    match len? with
    | some (len, off) =>
      if off ≤ len ∧ len ≤ rest.length then
        (tr31Options n (at_ + len) (rest.drop len)).map fun p => ((id, slice rest off (len - off)) :: p.1, p.2)
      else none
    | none => none

/-- A text follows a pattern: a 9 stands for a digit, any other character for itself. -/
def follows (pattern : String) (x : Bytes) : Bool :=
  let p := ascii pattern
  p.length == x.length && (List.zipWith (fun p c => if p = 0x39 then decide (48 ≤ c.toNat ∧ c.toNat ≤ 57) else p == c) p x).all id

/-- The contents of an optional block suit its identifier (R113 check 1). The manual leaves their syntax to ANSI X9.143: a key set identifier of 8 or 10
bytes, an initial key identifier of 8, a time in UTC, a check value with its method (PRESUMED, log entry 99). -/
def tr31OptionOk (o : OptBlock) : Bool :=
  let hexOf (l : List Nat) : Bool := match ofHex o.2 with
    | some x => l.contains x.length
    | none => false
  if o.1 = ascii "KS" then hexOf [8, 10]
  else if o.1 = ascii "IK" then hexOf [8]
  else if o.1 = ascii "KC" ∨ o.1 = ascii "KP" then hexOf [4, 6]
  else if o.1 = ascii "TS" then
    ["99999999999999Z", "9999999999999999Z", "9999-99-99T99:99:99Z", "9999-99-99T99:99:99.99Z"].any fun p => follows p o.2
  else o.1 == ascii "PB"

/-- A parsed key block; the two reserved characters of its header are zeros (R5, DEDUCED, log entry 99). -/
structure KeyBlock where
  version : Byte
  header : Bytes
  usage : Bytes
  alg : Byte
  mode : Byte
  kvn : Bytes
  exp : Byte
  options : List OptBlock
  enc : Bytes
  mac : Bytes

/-- A key block parsed as R113 check 1 asks. -/
def tr31Parse (blk : Bytes) : Option KeyBlock :=
  let version := byteAt blk 0
  let bs := if version = 0x44 then 16 else 8
  match ofDec (slice blk 1 4), ofDec (slice blk 12 2) with
  | some len, some n =>
    match tr31Options n 16 (blk.drop 16) with
    | some (opts, hlen) =>
      let header := blk.take hlen
      match ofHex ((blk.drop hlen).take (blk.length - hlen - 2 * bs)), ofHex (blk.drop (blk.length - 2 * bs)) with
      | some enc, some mac =>
        if (version = 0x42 ∨ version = 0x44) ∧ len = blk.length ∧ header.all printable ∧ hlen % bs = 0 ∧ hlen + 2 * bs < blk.length
            ∧ enc.length % bs = 0 ∧ (ascii "TAH").contains (byteAt blk 7) ∧ (ascii "BCDEGNSTVX").contains (byteAt blk 8)
            ∧ (ascii "ENS").contains (byteAt blk 11) ∧ opts.all tr31OptionOk
            ∧ slice blk 14 2 = ascii "00" then
          some { version := version, header := header, usage := slice blk 5 2, alg := byteAt blk 7, mode := byteAt blk 8
                 kvn := slice blk 9 2, exp := byteAt blk 11, options := opts, enc := enc, mac := mac }
        else none
      | _, _ => none
    | none => none
  | _, _ => none

/-- The algorithm code of a wrapped key of `n` bytes (R113 check 4, R115). -/
def tr31AlgOf (c : Byte) (n : Nat) : Option Nat :=
  if c = 0x54 then (if n = 16 then some 1 else if n = 24 then some 2 else none)
  else if c = 0x41 then (if n = 16 then some 3 else if n = 24 then some 4 else if n = 32 then some 5 else none)
  else if c = 0x48 then (if 16 ≤ n ∧ n ≤ 32 then some 6 else none)
  else none

/-- The algorithm character of a symmetric key. -/
def tr31AlgChar (alg : Nat) : Byte := if isTdes alg then 0x54 else if isAes alg then 0x41 else 0x48

/-- The strength of a key (R114). -/
def keyStrength (alg n : Nat) : Nat :=
  if alg = 1 then 80 else if alg = 2 then 112 else if alg = 3 then 128 else if alg = 4 then 192 else if alg = 5 then 256
  else min (8 * n) 256

/-- The clear key field of a key: its length in bits, the key and the padding. -/
def tr31Field (key pad : Bytes) : Bytes := beBytes 2 (8 * key.length) ++ key ++ pad

/-- The padding a key of `n` bytes needs in blocks of `bs` (R116). -/
def tr31PadLen (bs n : Nat) : Nat := roundUp (n + 2) bs - (n + 2)

/-- An optional block as written. -/
def tr31Option (o : OptBlock) : Bytes := o.1 ++ toHex (beBytes 1 (4 + o.2.length)) ++ o.2

/-- The header of an export (R116): the optional blocks with the padding block where one is needed, whose contents `pb` supplies. -/
def tr31Header (version : Byte) (usage : Bytes) (alg mode : Byte) (kvn : Bytes) (exp : Byte) (options : List OptBlock) (keyLen : Nat)
    (pb : Bytes) : Bytes :=
  let bs := if version = 0x44 then 16 else 8
  let body := (options.map tr31Option).flatten
  let part := (16 + body.length) % bs
  let gap := if part = 0 then 0 else if bs - part < 4 then 2 * bs - part else bs - part
  let all := if gap = 0 then options else options ++ [(ascii "PB", pb.take (gap - 4))]
  let body := (all.map tr31Option).flatten
  let total := 16 + body.length + 2 * roundUp (keyLen + 2) bs + 2 * bs
  [version] ++ toDec 4 total ++ usage ++ [alg, mode] ++ kvn ++ [exp] ++ toDec 2 all.length ++ ascii "00" ++ body

end Sys2Proof.Machine
end

