-- ==== Sys2Proof/Machine/Verdict.lean ====
section
/-! DEFINITION. What step 4 of R70 decides on an operation: a refusal, a wait for a count, or work for an engine with its outcome; and
the operand forms of R83. -/
namespace Sys2Proof.Machine

/-! ### The job of a requester -/

/-- The job a requester has in progress. -/
def Block.job? (b : Block) : Requester → Option Job
  | .item n => match b.item? n with
    | some i => if i.st = .dispatched then some i.job else none
    | none => none
  | .ticket k t => if (b.ticket k t).st = .outstanding then some (b.ticket k t).job else none

/-- The PIN policy word and the decimalisation tables as they are when a descriptor is dispatched (R93). -/
def Job.underPolicy (j : Job) (h : Chamber) : Job := { j with pinpol := h.pinpol, decTabs := h.decTabs }

/-- A job whose key lookups start, for a pipeline. -/
def Job.toKeys (j : Job) (pipe : Nat) : Job := { j with phase := .keys, pipe := pipe }

/-- The job of a requester changed by `f`. -/
def Block.modJob (b : Block) (r : Requester) (f : Job → Job) : Block :=
  match r with
  | .item n => b.modItem n fun i => { i with job := f i.job }
  | .ticket k t => b.modTicket k t fun x => { x with job := f x.job }

/-- The engine work of an operation. -/
inductive Work where
  /-- Passes of a first and a second pipeline (R100, R128, R129), the first's with their pace (R130). -/
  | spindle (fuse : Fuse) (pace : Pace) (second : Nat)
  /-- Permutations or compressions and the cycles of each (R148). -/
  | auger (latency slots : Nat)
  /-- An operation of a curve or lattice core (R153), with the bytes drawn for it (R182). -/
  | gallery (lattice windowed rejects : Bool) (drawn : Bytes)
  deriving DecidableEq, Repr

/-- What step 4 decides. -/
inductive Verdict where
  | refuse (status : Nat)
  /-- A count is needed and the key's current block is used up (R41). -/
  | wait
  /-- Keys that a batch names are not resident (R46): their global indices. -/
  | miss (keys : List Nat)
  /-- Work to do, the outcome it will have, and the records it creates. -/
  | run (w : Work) (o : Outcome) (creates : List NewRecord)
  /-- Work to do, after which the ciphertext is read again and the operation runs on (R136). -/
  | rerun (w : Work)
  deriving DecidableEq, Repr

/-- CMAC of `n` blocks (R130, R133): the pass for L, the first data block alongside, and the others chained. -/
def cmacPace (n : Nat) : Pace := [(1, true), (1, false), (n - 1, true)]

/-- An outcome with a RESULT and no output. -/
def okResult (r : Bytes) : Outcome := { status := stOk, result := fit 16 r, output := none }

/-- An outcome with output. -/
def okOutput (r out : Bytes) : Outcome := { status := stOk, result := fit 16 r, output := some out }

/-- An outcome of a status alone. -/
def justStatus (s : Nat) : Outcome := { status := s, result := zeros 16, output := none }

/-- OK or VERIFY_MISMATCH. -/
def verified (ok : Bool) : Outcome := justStatus (if ok then stOk else stMismatch)

/-- A refusal at step 4. -/
def refuse (b : Block) (s : Nat) : Verdict × Block := (.refuse s, b)

/-- No key. -/
def Resolved.none : Resolved := { handle := 0, head := zeros 64, material := [], gidx := 0, drawn := Option.none, companion := [] }

/-- The key of KEY_IN. -/
def Job.kIn (j : Job) : Resolved := j.rIn.getD Resolved.none

/-- The key of KEY_OUT. -/
def Job.kOut (j : Job) : Resolved := j.rOut.getD Resolved.none

/-- ALG of a resolved key. -/
def Resolved.alg (r : Resolved) : Nat := recAlg r.head

/-- USAGE of a resolved key. -/
def Resolved.usage (r : Resolved) : Bytes := recUsage r.head

/-- INLINE of a job. -/
def Job.inline_ (j : Job) : Bool := j.flags.testBit 2

/-- Operand bytes. -/
def Job.op (j : Job) (off n : Nat) : Bytes := fit n (slice j.operands off n)

/-- An operand byte's value. -/
def Job.opN (j : Job) (off : Nat) : Nat := (byteAt j.operands off).toNat

/-- Operand bytes from `lo` to `hi` are zero. -/
def Job.zero (j : Job) (lo hi : Nat) : Bool := allZero (slice j.operands lo (hi + 1 - lo))

/-- An engine call. -/
def isCall : Requester → Bool
  | .ticket _ _ => true
  | .item _ => false

/-- Form A of R83. -/
def formA (j : Job) : Bool := if j.inline_ then j.zero 32 39 else j.ext == 0

/-- Form B. -/
def formB (j : Job) : Bool := j.inline_

/-- Form C: an engine call's input and output stand for the buffer (R274). -/
def formC (r : Requester) (j : Job) : Bool := !j.inline_ && (isCall r || j.ext != 0)

/-- Form D. -/
def formD (r : Requester) (j : Job) : Bool := formB j || formC r j

/-- Work with records to create: their slots are reserved until the commit. -/
def runCreating (b : Block) (c : Nat) (w : Work) (o : Outcome) (creates : List NewRecord) : Verdict × Block :=
  (.run w o creates, reserveSlots b c creates)

end Sys2Proof.Machine
end

