-- ==== Sys2Proof/Machine/CipherOps.lean ====
section
/-! DEFINITION. Step 4 of R70 for the data cipher and hash opcodes (chapter 5). -/
namespace Sys2Proof.Machine

/-- A counter IV (R139). -/
def counterIv (epoch count chamber pipe : Nat) : Bytes :=
  beBytes 2 epoch ++ [BitVec.ofNat 8 chamber, BitVec.ofNat 8 pipe] ++ beBytes 8 count

/-- IVSRC is permitted (R145). -/
def ivsrcOk (encrypt : Bool) (mode src : Nat) : Bool :=
  if mode = 0 ∨ mode = 4 then src == 0
  else if !encrypt then src == 0
  else if mode = 1 then src == 0 || src == 1
  else if mode = 2 then src == 1
  else src == 1 || src == 2

/-- The IV field has zeros where its mode uses none (R144). -/
def ivFieldOk (j : Job) (mode src alg : Nat) : Bool :=
  if src ≠ 0 ∨ mode = 0 then j.zero 8 23
  else if mode = 1 then isAes alg || j.zero 16 23
  else if mode = 3 then j.zero 20 23
  else true

/-- The input's length suits the mode (R131, R134, R146). -/
def cipherLenOk (encrypt : Bool) (mode alg inLen taglen aadlen : Nat) : Bool :=
  if mode ≤ 1 then inLen != 0 && inLen % blockLen alg == 0
  else if mode = 2 then inLen != 0
  else if mode = 3 then decide (aadlen + (if encrypt then 0 else taglen) ≤ inLen)
  else decide (16 ≤ inLen)

/-- The mode and the keys suit each other (R130, R145, R147). -/
def cipherKeysOk (j : Job) (mode src : Nat) : Bool :=
  let alg := j.kIn.alg
  if mode = 4 then
    (alg == 3 || alg == 5) && j.kOut.alg == alg && j.kIn.gidx != j.kOut.gidx && recKcv j.kIn.head != recKcv j.kOut.head
  else if mode = 2 ∨ mode = 3 ∨ src = 1 then isAes alg
  else true

/-- The outcome of a cipher operation under its IV (R130 to R137, R146), and the passes it makes. `iv` is the IV used. A partial final block of XTS
takes two passes beside those of the whole blocks (R130, R137). GCM decryption runs twice: on the first read of its input it compares the tags, and on
the second it decrypts (R136). -/
def cipherRun (encrypt : Bool) (j : Job) (mode taglen aadlen : Nat) (iv : Bytes) (extra : Nat) : Verdict :=
  let alg := j.kIn.alg
  let k := j.kIn.material
  let bs := blockLen alg
  let n := (j.input.length + bs - 1) / bs
  let whole := j.input.length / bs
  if mode = 0 then
    .run (.spindle .none (flowing n) 0) (okOutput [] (ecbMode (if encrypt then blockEnc alg k else blockDec alg k) bs j.input)) []
  else if mode = 1 then
    if encrypt then .run (.spindle .none (chained (n + extra)) 0) (okOutput (iv.take bs) (cbcEncrypt (blockEnc alg k) bs (iv.take bs) j.input)) []
    else .run (.spindle .none (flowing n) 0) (okOutput [] (cbcDecrypt (blockDec alg k) bs (iv.take bs) j.input)) []
  else if mode = 2 then
    if ctrOverflows iv j.input.length then .refuse stFormat
    else .run (.spindle .none (flowing n) 0) (okOutput (if encrypt then iv else []) (ctrCrypt k iv j.input)) []
  else if mode = 3 then
    let iv := iv.take 12
    let aad := j.input.take aadlen
    let text := j.input.drop aadlen
    if encrypt then
      .run (.spindle .none (flowing (2 + (text.length + 15) / 16)) 0) (okOutput iv (gcmSeal k iv aad text taglen)) []
    else
      let ct (x : Bytes) : Bytes := (x.drop aadlen).take (text.length - taglen)
      match j.again with
      | some x => .run (.spindle .none (flowing (((ct x).length + 15) / 16)) 0) (okOutput [] (gcmText k iv (ct x))) []
      | none =>
        match gcmOpen k iv aad (ct j.input) (text.drop (text.length - taglen)) with
        | some [] => .run (.spindle .none (flowing 2) 0) (okOutput [] []) []
        | some _ => .rerun (.spindle .none (flowing 2) 0)
        | none => .run (.spindle .none (flowing 2) 0) (justStatus stMismatch) []
  else
    .run (.spindle .none [(1 + whole, false), (if j.input.length % 16 = 0 then 0 else 2, true)] 0) (okOutput [] (xtsCrypt (!encrypt) k j.kOut.material (ofLe iv) j.input)) []

/-- CIPHER_ENCRYPT and CIPHER_DECRYPT (R143 to R147). The checks of lengths come before those of keys: the manual does not order them (DESIGN CHOICE,
log entry 98). -/
def opCipher (encrypt : Bool) (b : Block) (r : Requester) (j : Job) : Verdict × Block :=
  let mode := j.opN 0
  let src := j.opN 1
  let taglen := j.opN 2
  let aadlen := ofLe (j.op 4 4)
  let alg := j.kIn.alg
  let gcmOk : Bool := if mode = 3 then decide (12 ≤ taglen) && decide (taglen ≤ 16) else taglen == 0 && aadlen == 0
  if !formC r j ∨ 4 < mode ∨ !ivsrcOk encrypt mode src ∨ !gcmOk ∨ j.opN 3 ≠ 0 ∨ !j.zero 24 31 ∨ !ivFieldOk j mode src alg
      ∨ (if mode = 4 then j.keyOut == 0 else j.keyOut != 0) ∨ !cipherLenOk encrypt mode alg j.inLen taglen aadlen then refuse b stFormat
  else if !cipherKeysOk j mode src then refuse b stKeyUsage
  else if src = 1 then
    match drawCount b j.kIn with
    | (.wait, b) => (.wait, b)
    | (.gone, b) => refuse b stKeyNotFound
    | (.exhausted, b) => refuse b stCounterExhausted
    | (.drawn epoch count, b) =>
      let civ := counterIv epoch count j.chamber j.pipe
      let iv := if mode = 1 then aesEncrypt j.kIn.material (civ ++ zeros 4) else civ ++ zeros 4
      (cipherRun encrypt j mode taglen aadlen iv 1, b)
  else if src = 2 then
    match b.draw 12 with
    | none => refuse b stRng
    | some (iv, b) => (cipherRun encrypt j mode taglen aadlen iv 0, b)
  else (cipherRun encrypt j mode taglen aadlen (j.op 8 16) 0, b)

/-- CIPHER_ENCRYPT. -/
def opCipherEncrypt : Block → Requester → Job → Verdict × Block := opCipher true

/-- CIPHER_DECRYPT. -/
def opCipherDecrypt : Block → Requester → Job → Verdict × Block := opCipher false

/-- The digest of HALG with OUTLEN (R149). -/
def digestOf (halg outlen : Nat) (msg : Bytes) : Bytes :=
  if halg = 0x21 then shake128 msg outlen else if halg = 0x22 then shake256 msg outlen else hashAlg halg msg

/-- The unit of HALG and the slots its message takes (R148, R149). -/
def hashWork (halg outlen len : Nat) : Work :=
  if halg = 1 then .auger latSha256 ((len + 9 + 63) / 64)
  else if halg = 2 ∨ halg = 3 then .auger latSha512 ((len + 17 + 127) / 128)
  else
    let rate := if halg = 0x11 then 136 else if halg = 0x12 then 72 else if halg = 0x21 then 168 else 136
    .auger latKeccak (len / rate + 1 + (outlen + rate - 1) / rate - 1)

/-- HASH (R152). -/
def opHash (b : Block) (r : Requester) (j : Job) : Verdict × Block :=
  let halg := j.opN 0
  let outlen := ofLe (j.op 2 2)
  let known := [0x01, 0x02, 0x03, 0x11, 0x12, 0x21, 0x22].contains halg
  let outOk : Bool := if halg = 0x21 ∨ halg = 0x22 then outlen != 0 else outlen == 0
  if !formC r j ∨ !known ∨ j.opN 1 ≠ 0 ∨ !outOk ∨ !j.zero 4 31 then refuse b stFormat
  else
    let d := digestOf halg outlen j.input
    (.run (hashWork halg d.length j.input.length) (okOutput (d.take 16) d) [], b)

end Sys2Proof.Machine
end

