-- ==== Sys2Proof/Machine/PaymentOps.lean ====
section
/-! DEFINITION. Step 4 of R70 for the payment opcodes (chapter 4): the checks of R86, R113 and R116 in their order, and what each
operation computes. -/
namespace Sys2Proof.Machine

/-! ### PIN operations -/

/-- A PIN block operand has zeros beyond an 8-byte block (R85). -/
def pinFieldOk (j : Job) (fmt : Nat) : Bool := fmt == 4 || j.zero 8 15

/-- The PAN operand of a PIN opcode: digits where `needed`, else a zero field (R84, R95). -/
def panOperand (j : Job) (off : Nat) (needed : Bool) : Option (List Nat) :=
  if needed then panDigits (j.op off 10) else if allZero (j.op off 10) then some [] else none

/-- KEY_IN and KEY_OUT resolve to the same record and PINPOL does not permit it (R94). -/
def sameKeyRefused (j : Job) : Bool := j.kIn.gidx == j.kOut.gidx && !j.pinpol.getLsbD 3

/-- Passes of one side: two for format 4 (R97). -/
def sidePasses (fmt : Nat) : Nat := if fmt = 4 then 2 else 1

/-- The translation itself, after its checks (R86 checks 3 to 5, R88 to R90): an inbound key, `extra` derivation passes before it. -/
def translate (b : Block) (j : Job) (alg : Nat) (k : Bytes) (pan : List Nat) (inFmt outFmt extra : Nat) : Verdict × Block :=
  let pinpol := j.pinpol
  if !translationPermitted pinpol inFmt outFmt ∨ sameKeyRefused j then refuse b stPinPolicy
  else match b.draw (pinDraw outFmt) with
    | none => refuse b stRng
    | some (drawn, b) =>
      let o := match pinOf pinpol inFmt alg k (j.op 0 16) pan with
        | some pin => okResult (sealBlock outFmt j.kOut.alg j.kOut.material (buildPin outFmt pin drawn) pan)
        | none => justStatus stPinBlock
      (.run (.spindle .after32 (chained (extra + sidePasses inFmt)) (sidePasses outFmt)) o [], b)

/-- PIN_TRANSLATE (R95). -/
def opPinTranslate (b : Block) (_ : Requester) (j : Job) : Verdict × Block :=
  let inFmt := j.opN 26 % 16
  let outFmt := j.opN 26 / 16
  match panOperand j 16 (formatBinds inFmt || formatBinds outFmt) with
  | none => refuse b stFormat
  | some pan =>
    if !formA j ∨ 4 < inFmt ∨ 4 < outFmt ∨ !j.zero 27 31 ∨ !pinFieldOk j inFmt then refuse b stFormat
    else if !formatSuits inFmt j.kIn.alg ∨ !formatSuits outFmt j.kOut.alg then refuse b stKeyUsage
    else translate b j j.kIn.alg j.kIn.material pan inFmt outFmt 0

/-- DFLAGS and KSN are well formed (R98, R99). -/
def dukptSyntax (dflags : Nat) (ksn : Bytes) : Bool :=
  let kind := dflags % 4
  let wk := dflags / 4 % 8
  dflags / 32 == 0 &&
    (if kind = 0 then wk == 0 && allZero (ksn.drop 10) && decide ((setBits 21 (tdesCounter (ksn.take 10))).length ≤ 10)
     else kind == 1 && decide (wk ≤ 4) && decide ((setBits 32 (ofBe (ksn.drop 8))).length ≤ 16))

/-- KIND suits the ALG of the base or initial key (R99). -/
def kindSuits (kind alg : Nat) : Bool := if kind = 0 then isTdes alg else isAes alg

/-- The transaction key (R99): its ALG, the key, and the derivation passes (R100). `variant` is the variant of TDES DUKPT and `use` the
key usage of AES DUKPT. -/
def dukptKey (k : Resolved) (dflags : Nat) (ksn : Bytes) (variant use : Nat) : Nat × Bytes × Nat :=
  let base := k.usage == ascii "B0"
  if dflags % 4 = 0 then
    let ksn := ksn.take 10
    let ik := if base then tdesIk k.material ksn else k.material
    (1, tdesVariant (tdesTransaction ik ksn) variant, b2n base + (setBits 21 (tdesCounter ksn)).length)
  else
    let wk := dflags / 4 % 8
    let ik := if base then aesIk k.alg k.material (ksn.take 8) else k.material
    (wkAlg wk, aesTransaction k.alg ik ksn use wk, b2n base + (setBits 32 (ofBe (ksn.drop 8))).length + 1)

/-- PIN_TRANSLATE_DUKPT (R98 to R100). -/
def opPinTranslateDukpt (b : Block) (_ : Requester) (j : Job) : Verdict × Block :=
  let inFmt := j.opN 26 % 16
  let outFmt := j.opN 26 / 16
  let dflags := j.opN 27
  let ksn := j.op 28 12
  match panOperand j 16 (formatBinds inFmt || formatBinds outFmt) with
  | none => refuse b stFormat
  | some pan =>
    if !formB j ∨ 4 < inFmt ∨ 4 < outFmt ∨ !pinFieldOk j inFmt ∨ !dukptSyntax dflags ksn then refuse b stFormat
    else
      let t := dukptKey j.kIn dflags ksn variantPin 0x1000
      let inOk : Bool := if isAes t.1 then inFmt == 4 else inFmt == 0 || inFmt == 1 || inFmt == 3
      if !kindSuits (dflags % 4) j.kIn.alg ∨ !inOk ∨ !formatSuits outFmt j.kOut.alg then refuse b stKeyUsage
      else translate b j t.1 t.2.1 pan inFmt outFmt t.2.2

/-- An inbound format of the verifications: 0, 1, 3 or 4. -/
def verifyFormat (fmt : Nat) : Bool := fmt == 0 || fmt == 1 || fmt == 3 || fmt == 4

/-- PIN_VERIFY_OFFSET (R101). -/
def opPinVerifyOffset (b : Block) (_ : Requester) (j : Job) : Verdict × Block :=
  let fmt := j.opN 26 % 16
  let table := j.opN 27 % 8
  let l := j.opN 27 / 16
  let offset := nibbles (j.op 36 4)
  match panOperand j 16 (formatBinds fmt), Tab.get? j.decTabs table with
  | some pan, some t =>
    if !formB j ∨ !verifyFormat fmt ∨ j.opN 26 / 16 ≠ 0 ∨ !pinFieldOk j fmt ∨ (j.opN 27).testBit 3 ∨ l < 4 ∨ 8 < l
        ∨ !allDigits (offset.take l) ∨ !(offset.drop l).all (· == 15) then refuse b stFormat
    else if !formatSuits fmt j.kIn.alg then refuse b stKeyUsage
    else
      let o := match pinOf j.pinpol fmt j.kIn.alg j.kIn.material (j.op 0 16) pan with
        | some pin => verified (pin == offsetPin j.kOut.alg j.kOut.material (j.op 28 8) t (j.op 36 4) l)
        | none => justStatus stPinBlock
      (.run (.spindle .sameCycle (chained (sidePasses fmt)) 1) o [], b)
  | _, _ => refuse b stFormat

/-- PIN_VERIFY_PVV (R102). -/
def opPinVerifyPvv (b : Block) (_ : Requester) (j : Job) : Verdict × Block :=
  let fmt := j.opN 26 % 16
  let pvki := j.opN 27
  let pvv := nibbles (j.op 28 2)
  match panDigits (j.op 16 10) with
  | some pan =>
    if !formA j ∨ !verifyFormat fmt ∨ j.opN 26 / 16 ≠ 0 ∨ !pinFieldOk j fmt ∨ 6 < pvki ∨ !allDigits pvv ∨ !j.zero 30 31 then
      refuse b stFormat
    else if !formatSuits fmt j.kIn.alg then refuse b stKeyUsage
    else
      let o := match pinOf j.pinpol fmt j.kIn.alg j.kIn.material (j.op 0 16) pan with
        | some pin => verified (pvv == pvvOf j.kOut.material pan pvki pin)
        | none => justStatus stPinBlock
      (.run (.spindle .after32 (chained (sidePasses fmt)) 1) o [], b)
  | none => refuse b stFormat

/-- PIN_VERIFY_COMPARE (R103). -/
def opPinVerifyCompare (b : Block) (r : Requester) (j : Job) : Verdict × Block :=
  let fmt := j.opN 26 % 16
  let ref := j.opN 26 / 16
  match panOperand j 16 (formatBinds fmt || formatBinds ref) with
  | some pan =>
    if !formC r j ∨ !verifyFormat fmt ∨ !verifyFormat ref ∨ !pinFieldOk j fmt ∨ !j.zero 27 31 ∨ j.inLen ≠ (if ref = 4 then 16 else 8) then
      refuse b stFormat
    else if !formatSuits fmt j.kIn.alg ∨ !formatSuits ref j.kOut.alg then refuse b stKeyUsage
    else
      let pinpol := j.pinpol
      let o := match pinOf pinpol fmt j.kIn.alg j.kIn.material (j.op 0 16) pan, pinOf pinpol ref j.kOut.alg j.kOut.material j.input pan with
        | some a, some x => verified (a == x)
        | _, _ => justStatus stPinBlock
      (.run (.spindle .sameCycle (chained (sidePasses fmt)) (sidePasses ref)) o [], b)
  | none => refuse b stFormat

/-! ### MACs (R105 to R107) -/

/-- Compressions of an HMAC (R151): two for the key blocks, the inner message and the outer one. -/
def hmacSlots (hash len : Nat) : Nat :=
  let blk := if hash = 0 then 64 else 128
  let lf := if hash = 0 then 9 else 17
  3 + (len + lf + blk - 1) / blk

/-- The passes of a MAC over blocks (R130, R132, R133). -/
def macPace (alg : Nat) (usage : Bytes) (pad len : Nat) : Pace :=
  let bs := blockLen alg
  let n := (len + bs - 1) / bs
  if usage = ascii "M6" then cmacPace (max 1 n)
  else chained (if pad = 2 then len / bs + 1 else max 1 n)

/-- The message of a MAC operation: inline or the buffer input (R106). -/
def macMessage (j : Job) : Bytes := if j.inline_ then slice j.operands 20 (j.opN 2) else j.input

/-- MACLEN, PAD and HASH suit the key (R105, R106). -/
def macParams (alg : Nat) (usage : Bytes) (maclen mflags : Nat) : Bool :=
  let pad := mflags % 4
  let hash := mflags / 4 % 4
  let lens := macLens alg usage
  decide (lens.1 ≤ maclen) && decide (maclen ≤ lens.2) && mflags / 16 == 0
    && (if usage = ascii "M1" ∨ usage = ascii "M3" then pad == 1 || pad == 2 else pad == 0)
    && (if usage = ascii "M7" then decide (hash ≤ 2) else hash == 0)

/-- The MAC operand: the received MAC and zeros, or all zeros in a generation. -/
def macOperandOk (j : Job) (maclen : Nat) (verify : Bool) : Bool :=
  if verify then allZero (slice j.operands (4 + maclen) (16 - maclen)) else j.zero 4 19

/-- The outcome of a MAC operation from the full MAC. -/
def macOutcome (j : Job) (maclen : Nat) (verify : Bool) (mac : Bytes) : Outcome :=
  if verify then verified (mac.take maclen == slice j.operands 4 maclen) else okResult (mac.take maclen)

/-- MAC_GENERATE and MAC_VERIFY (R106). -/
def opMac (verify : Bool) (b : Block) (r : Requester) (j : Job) : Verdict × Block :=
  let k := j.kIn
  let maclen := j.opN 0
  let mflags := j.opN 1
  let msgOk : Bool := if j.inline_ then decide (j.opN 2 ≤ 20) && allZero (slice j.operands (20 + j.opN 2) (20 - j.opN 2))
    else j.opN 2 == 0 && j.zero 20 31
  if !formD r j ∨ !msgOk ∨ j.opN 3 ≠ 0 ∨ !macParams k.alg k.usage maclen mflags ∨ !macOperandOk j maclen verify then refuse b stFormat
  else
    let msg := macMessage j
    let o := macOutcome j maclen verify (macOf k.alg k.usage k.material (mflags % 4) (mflags / 4 % 4) msg)
    let w : Work := if k.usage = ascii "M7" then
        .auger (if mflags / 4 % 4 = 0 then latSha256 else latSha512) (hmacSlots (mflags / 4 % 4) msg.length)
      else .spindle .none (macPace k.alg k.usage (mflags % 4) msg.length) 0
    (.run w o [], b)

/-- MAC_GENERATE. -/
def opMacGenerate : Block → Requester → Job → Verdict × Block := opMac false

/-- MAC_VERIFY. -/
def opMacVerify : Block → Requester → Job → Verdict × Block := opMac true

/-- MAC_GENERATE_DUKPT and MAC_VERIFY_DUKPT (R107). -/
def opMacDukpt (verify : Bool) (b : Block) (r : Requester) (j : Job) : Verdict × Block :=
  let k := j.kIn
  let maclen := j.opN 0
  let mflags := j.opN 1
  let dflags := j.opN 3
  let ksn := j.op 20 12
  let kind := dflags % 4
  let pad := mflags % 4
  let lenOk : Bool := decide (4 ≤ maclen) && decide (maclen ≤ if kind = 0 then 8 else 16)
  let padOk : Bool := if kind = 0 then pad == 1 || pad == 2 else pad == 0
  if !formC r j ∨ !dukptSyntax dflags ksn ∨ (kind = 1 ∧ 2 < dflags / 4 % 8) ∨ !lenOk ∨ !padOk ∨ mflags / 4 ≠ 0 ∨ j.opN 2 ≠ 0
      ∨ !macOperandOk j maclen verify then refuse b stFormat
  else if !kindSuits kind k.alg then refuse b stKeyUsage
  else
    let t := dukptKey k dflags ksn (if verify then variantMacRequest else variantMacResponse) (if verify then 0x2001 else 0x2000)
    let usage := if kind = 0 then ascii "M3" else ascii "M6"
    let o := macOutcome j maclen verify (macOf t.1 usage t.2.1 pad 0 j.input)
    (.run (.spindle .none (chained t.2.2 ++ macPace t.1 usage pad j.input.length) 0) o [], b)

/-- MAC_GENERATE_DUKPT. -/
def opMacGenerateDukpt : Block → Requester → Job → Verdict × Block := opMacDukpt false

/-- MAC_VERIFY_DUKPT. -/
def opMacVerifyDukpt : Block → Requester → Job → Verdict × Block := opMacDukpt true

/-! ### EMV and card verification codes (R108 to R111) -/

/-- EMV_ARQC_VERIFY (R108, R109). How many passes the derivations make the manual does not state: one for each block they encipher (DESIGN CHOICE,
log entry 100). -/
def opEmvArqcVerify (b : Block) (r : Requester) (j : Job) : Verdict × Block :=
  let k := j.kIn
  let eflags := j.opN 11
  let padlen := j.opN 26
  let inOk : Bool := if eflags = 0 then j.zero 22 25 else if eflags = 1 then j.zero 24 25 else eflags == 2
  match panDigits (j.op 0 10) with
  | some pan =>
    if !formC r j ∨ !allDigits (nibbles (j.op 10 1)) ∨ !inOk ∨ (if eflags = 2 then decide (8 < padlen) else padlen != 0) ∨ !j.zero 27 31
        ∨ j.inLen < 1 + padlen ∨ 1024 + padlen < j.inLen then refuse b stFormat
    else
      let data := j.input.take (j.inLen - padlen)
      let sk := emvSession k.alg (emvMaster k.alg k.material pan (byteAt j.operands 10)) (j.op 12 2)
      let arqc := (emvMac k.alg sk data).take 8
      let o := if arqc ≠ j.op 14 8 then justStatus stMismatch
        else if eflags = 0 then justStatus stOk
        else okResult (emvArpc k.alg sk arqc (j.op 22 4) (j.input.drop (j.inLen - padlen)) eflags)
      let usage := if isAes k.alg then ascii "M6" else ascii "M3"
      let arpc : Pace := if arqc ≠ j.op 14 8 ∨ eflags = 0 then [] else if eflags = 1 then chained 1 else macPace k.alg usage 2 (12 + padlen)
      (.run (.spindle .none (chained (emvKeyPasses k.alg) ++ macPace k.alg usage 2 data.length ++ arpc) 0) o [], b)
  | none => refuse b stFormat

/-- CVC_GENERATE and CVC_VERIFY (R110, R111). -/
def opCvc (verify : Bool) (b : Block) (_ : Requester) (j : Job) : Verdict × Block :=
  let svc := nibbles (j.op 12 2)
  let code := nibbles (j.op 14 2)
  let codeOk : Bool := if verify then code.getD 0 0 == 15 && allDigits (code.drop 1) else j.zero 14 15
  match panDigits (j.op 0 10) with
  | some pan =>
    if !formA j ∨ !allDigits (nibbles (j.op 10 2)) ∨ svc.getD 0 0 ≠ 15 ∨ !allDigits (svc.drop 1) ∨ !codeOk ∨ !j.zero 16 31 then
      refuse b stFormat
    else
      let d := cvcOf j.kIn.material pan (j.op 10 2) (j.op 12 2)
      let o := if verify then verified (code.drop 1 == d) else okResult (packNibbles (15 :: d))
      (.run (.spindle .none (chained 2) 0) o [], b)
  | none => refuse b stFormat

/-- CVC_GENERATE. -/
def opCvcGenerate : Block → Requester → Job → Verdict × Block := opCvc false

/-- CVC_VERIFY. -/
def opCvcVerify : Block → Requester → Job → Verdict × Block := opCvc true

/-! ### Key blocks (R112 to R117) -/

/-- The symmetric rows of R29: usages, modes and algorithms that appear together. -/
def usageRows : List (List String × String × List Nat) :=
  [(["P0"], "DBE", cipherAlgs), (["V1"], "CV", cipherAlgs), (["V2"], "CV", [1, 2]), (["B0", "B1", "E0"], "X", cipherAlgs)
  , (["M1"], "CGV", cipherAlgs), (["M3"], "CGV", [1]), (["M6"], "CGV", [3, 4, 5]), (["M7"], "CGV", [6]), (["C0"], "CGV", [1, 2])
  , (["K1"], "DBE", cipherAlgs), (["D0"], "DBE", cipherAlgs)]

/-- A usage and a mode appear together in R29 for a symmetric algorithm; mode N satisfies any mode. -/
def symmetricUse (alg : Nat) (usage : Bytes) (mode : Byte) : Bool :=
  usageRows.any fun r => (r.1.any fun u => ascii u == usage) && ((ascii r.2.1).contains mode || mode == 0x4E) && r.2.2.contains alg

/-- The handle CLASS of a symmetric key by its usage (R115). -/
def symmetricClass (usage : Bytes) : Nat :=
  if usage = ascii "B0" ∨ usage = ascii "B1" ∨ usage = ascii "E0" then 3 else 0

/-- A check value block for a key: CMAC for AES, the legacy method for TDES (R116). The manual names no method for a generic secret:
its two characters are the free value given. -/
def kcvBlock (id : String) (alg : Nat) (kcv : Bytes) (free : Bytes) : OptBlock :=
  (ascii id, (if isAes alg then ascii "01" else if isTdes alg then ascii "00" else toHex free) ++ toHex kcv)

/-- A check value block of an import agrees with a key's KCV (R113 check 4). -/
def kcvAgrees (o : OptBlock) (alg : Nat) (kcv : Bytes) : Bool :=
  o.2.drop 2 == toHex kcv && (if isAes alg then o.2.take 2 == ascii "01" else if isTdes alg then o.2.take 2 == ascii "00" else true)

/-- A record that an import under REPLACE would replace, as it is read and unsealed: one that is not of a single slot is not replaced (log entry 9),
and an audit key's use is refused (R28). -/
def replaceable (b : Block) (g : Nat) : Except Nat Unit :=
  let line := unsealRecord b g (Tab.get b.sump.ddr.records (zeros 64) g)
  let head := g - (byteAt line 60).toNat % 16
  if contLine b g line then
    if recUsage (unsealRecord b head (Tab.get b.sump.ddr.records (zeros 64) head)) = ascii "9A" then .error stKeyUsage else .error stSlotInUse
  else if recUsage line = ascii "9A" then .error stKeyUsage
  else if recWidth line = 1 then .ok () else .error stSlotInUse

/-- The slot of an import (R113 checks 6 and 7). -/
def importSlot (b : Block) (c slot : Nat) (replace : Bool) : Except Nat Nat :=
  if slot = 0xFFFFFFFF then
    match lowestRun b c 1 with
    | some g => .ok g
    | none => .error stSlotExhausted
  else
    let g := b.gidxOf c slot
    let reserved := (b.chamber c).reservedSlots
    if slotFree b reserved g then .ok g
    else if replace ∧ verVersion (slotVersion b g) < 0xFFFF ∧ !reserved.contains g then (replaceable b g).map fun _ => g
    else .error stSlotInUse

/-- A record for a new symmetric key at a slot: the write, its handle and its KCV. -/
def newSymmetric (b : Block) (c g alg : Nat) (usage : Bytes) (mode exp : Byte) (kvn : Bytes) (notAfter chain : Nat) (key : Bytes) :
    NewRecord × Nat × Bytes :=
  let kcv := symmetricKcv alg key
  let cls := symmetricClass usage
  let a : Attr :=
    { alg := alg, length := 8 * key.length, usage := usage, mode := mode, exp := exp, counted := isCounted alg usage mode
      fingerprint := false, notAfter := notAfter, owner := newOwner c, kvn := kvn, kcv := kcv, chain := chain }
  ({ gidx := g, lines := recordLines a key (slotIndex b c g), newClass := some cls },
    issueHandle b c g cls (verVersion (slotVersion b g) + 1), kcv)

/-- The passes of a key block (R113, R116): the two keys derived by CMAC under the wrapping key, the MAC over header and key field, and the key field
enciphered or deciphered. The manual states no count: one for each block (DESIGN CHOICE, log entry 100). -/
def tr31Pace (alg keyLen headerLen fieldLen : Nat) : Pace :=
  let bs := blockLen alg
  chained (1 + 2 * ((keyLen + bs - 1) / bs)) ++ cmacPace ((headerLen + fieldLen + bs - 1) / bs) ++ chained (fieldLen / bs)

/-- TR31_IMPORT (R112 to R115). -/
def opTr31Import (b : Block) (r : Requester) (j : Job) : Verdict × Block :=
  let k := j.kIn
  let slot := ofLe (j.op 0 4)
  if !formC r j ∨ j.opN 8 / 2 ≠ 0 ∨ !j.zero 9 31 ∨ (slot ≠ 0xFFFFFFFF ∧ b.sumpSpace ≤ slot) then refuse b stFormat
  else match tr31Parse j.input with
  | none => refuse b stFormat
  | some t =>
    if (if t.version = 0x42 then !isTdes k.alg else !isAes k.alg) then refuse b stKeyUsage
    else match tr31Unwrap k.alg k.material t.header t.enc t.mac with
    | none => refuse b stKeyBlockAuth
    | some field =>
      let bits := ofBe (field.take 2)
      let n := bits / 8
      let key := slice field 2 n
      match (if bits % 8 = 0 ∧ n + 2 ≤ field.length then tr31AlgOf t.alg n else none) with
      | none => refuse b stFormat
      | some alg =>
        let kcvOk : Bool := t.options.all fun o =>
          if o.1 = ascii "KC" then kcvAgrees o alg (symmetricKcv alg key)
          else if o.1 = ascii "KP" then kcvAgrees o k.alg (recKcv k.head)
          else true
        if !kcvOk then refuse b stFormat
        else if !symmetricUse alg t.usage t.mode ∨ keyStrength k.alg k.material.length < keyStrength alg n
            ∨ (t.version = 0x42 ∧ !isTdes alg) then refuse b stKeyUsage
        else match importSlot b j.chamber slot ((j.opN 8).testBit 0) with
        | .error s => refuse b s
        | .ok g =>
          let (w, h, kcv) := newSymmetric b j.chamber g alg t.usage t.mode t.exp t.kvn (ofLe (j.op 4 4)) (hSlot k.handle) key
          runCreating b j.chamber (.spindle .none (tr31Pace k.alg k.material.length t.header.length field.length) 0) (okResult (leBytes 8 h ++ kcv)) [w]

/-- A key block made for an export: the free padding of a PB block and the padding drawn from Lantern (R116). -/
def exportBlock (b : Block) (j : Job) (version : Byte) (usage : Bytes) (alg : Nat) (mode : Byte) (kvn : Bytes) (exp : Byte)
    (options : List OptBlock) (key result : Bytes) (extra : Nat) : Verdict × Block :=
  let k := j.kIn
  let bs := if version = 0x44 then 16 else 8
  match b.draw (tr31PadLen bs key.length) with
  | none => refuse b stRng
  | some (pad, b) =>
    let (pb, b) := b.fresh 32
    let header := tr31Header version usage (tr31AlgChar alg) mode kvn exp options key.length
      (pb.map fun x => BitVec.ofNat 8 (0x20 + x.toNat % 95))
    let out := tr31Wrap k.alg k.material header (tr31Field key pad)
    let pace := chained extra ++ tr31Pace k.alg k.material.length header.length (key.length + 2 + pad.length)
    (.run (.spindle .none pace 0) (okOutput result out) [], b)

/-- The wrapping key suits the version, and the key to wrap (R30, R114). -/
def wrapRefused (k : Resolved) (version : Byte) (alg len : Nat) : Bool :=
  (if version = 0x42 then !isTdes k.alg else !isAes k.alg)
    || (isTdes alg && version != 0x42) || (isAes alg && version != 0x44)
    || decide (keyStrength k.alg k.material.length < keyStrength alg len)

/-- TR31_EXPORT (R116). The manual does not order the KC and KP blocks where both are asked for: KC comes first (DESIGN CHOICE, log entry 101). -/
def opTr31Export (b : Block) (r : Requester) (j : Job) : Verdict × Block :=
  let k := j.kIn
  let x := j.kOut
  let version := byteAt j.operands 0
  let xflags := j.opN 1
  if !formC r j ∨ (version ≠ 0x42 ∧ version ≠ 0x44) ∨ xflags / 4 ≠ 0 ∨ !j.zero 2 31 ∨ j.inLen ≠ 0 then refuse b stFormat
  else
    let cls := hClass x.handle
    let baseOk : Bool := cls == 0 || (cls == 3 && (x.usage == ascii "B0" || x.usage == ascii "B1" || x.usage == ascii "E0"))
    let alg := x.alg
    if recExport x.head = 0x4E ∨ wrapRefused k version alg x.material.length ∨ x.usage = ascii "9A" ∨ !baseOk then refuse b stKeyUsage
    else
      let (free, b) := if isAes alg || isTdes alg then ([], b) else b.fresh 1
      let options := (if xflags.testBit 0 then [kcvBlock "KC" alg (recKcv x.head) free] else [])
        ++ (if xflags.testBit 1 then [kcvBlock "KP" k.alg (recKcv k.head) []] else [])
      exportBlock b j version x.usage alg (recMode x.head) (recKvn x.head) (recExport x.head) options x.material (recKcv x.head) 0

/-- DUKPT_IK_EXPORT (R117). What the manual does not state, the block's KVN and RESULT, is free (log entry 10); IN_LEN is to be zero, as R116 says for
TR31_EXPORT (DESIGN CHOICE, log entry 10). -/
def opDukptIkExport (b : Block) (r : Requester) (j : Job) : Verdict × Block :=
  let k := j.kIn
  let bdk := j.kOut
  let version := byteAt j.operands 0
  let kind := j.opN 1
  let idOk : Bool := if kind = 0 then tdesCounter (j.op 4 10) == 0 && j.zero 14 15 else j.zero 12 15
  if !formC r j ∨ (version ≠ 0x42 ∧ version ≠ 0x44) ∨ 1 < kind ∨ !j.zero 2 3 ∨ !j.zero 16 31 ∨ j.inLen ≠ 0 ∨ !idOk
      ∨ !kindSuits kind bdk.alg then refuse b stFormat
  else
    let alg := if kind = 0 then 1 else bdk.alg
    let ik := if kind = 0 then tdesIk bdk.material (j.op 4 10) else aesIk bdk.alg bdk.material (j.op 4 8)
    if wrapRefused k version alg ik.length then refuse b stKeyUsage
    else
      let (free, b) := b.fresh 18
      let option : OptBlock := if kind = 0 then (ascii "KS", toHex (j.op 4 10)) else (ascii "IK", toHex (j.op 4 8))
      let kvn := (free.take 2).map fun x => BitVec.ofNat 8 (0x20 + x.toNat % 95)
      exportBlock b j version (ascii "B1") alg 0x58 kvn 0x4E [option] ik (free.drop 2) 1

end Sys2Proof.Machine
end

