-- ==== Sys2Proof/Machine/RsaPrimes.lean ====
section
/-! DEFINITION. The primes of an RSA key (R174): FIPS 186-5 appendix A.1.3 with the test of Miller and Rabin on bytes of Lantern, after the standard, which is
PRESUMED (log entry 11). -/
namespace Sys2Proof.Machine

/-- `z` or one of the `n` squares that follow it is -1 modulo `w`. -/
def mrSquares (w : Nat) : Nat → Nat → Bool
  | 0, z => z == w - 1
  | n + 1, z => z == w - 1 || mrSquares w n (z * z % w)

/-- The power of 2 in `n`, up to `2 ^ fuel`. -/
def twos : Nat → Nat → Nat
  | 0, _ => 0
  | fuel + 1, n => if n % 2 = 0 then twos fuel (n / 2) + 1 else 0

/-- One round of the test of Miller and Rabin: `w` passes for a base. -/
def mrPass (w base : Nat) : Bool :=
  let s := twos 4096 (w - 1)
  let z := powMod w base ((w - 1) / 2 ^ s)
  z == 1 || mrSquares w (s - 1) z

/-- Rounds of the test with bases drawn from Lantern, as many bytes as `w` has; a base outside 2 to w - 2 is drawn again, and after 128 more draws than
rounds the candidate is given up. Nothing while Lantern is not delivering. -/
def mrTest (w bytes : Nat) : Nat → Nat → Block → Option (Bool × Block)
  | _, 0, b => some (true, b)
  | 0, _ + 1, b => some (false, b)
  | fuel + 1, r + 1, b =>
    match b.draw bytes with
    | none => none
    | some (x, b) =>
      if ofBe x ≤ 1 ∨ w - 1 ≤ ofBe x then mrTest w bytes fuel (r + 1) b
      else if mrPass w (ofBe x) then mrTest w bytes fuel r b
      else some (false, b)

/-- The rounds of the test for a prime of an RSA key. -/
abbrev mrRounds : Nat := 5

/-- A candidate for a prime of a modulus of `bits` bits is large enough, suits the exponent and the other prime, and passes the test. -/
def primeOk (bits e : Nat) (other : Option Nat) (w : Nat) (b : Block) : Option (Bool × Block) :=
  let far : Bool := match other with
    | some p => decide (2 ^ (bits / 2 - 100) < (p - w) + (w - p))
    | none => true
  if 2 ^ (bits - 1) ≤ w * w ∧ far ∧ Nat.gcd (w - 1) e = 1 then mrTest w (bits / 16) (mrRounds + 128) mrRounds b else some (false, b)

/-- A prime looked for among so many odd candidates drawn from Lantern: nothing while Lantern is not delivering, and no prime where none of them is
one. -/
def primeSearch (bits e : Nat) (other : Option Nat) : Nat → Block → Option (Option Nat × Block)
  | 0, b => some (none, b)
  | fuel + 1, b =>
    match b.draw (bits / 16) with
    | none => none
    | some (x, b) =>
      let w := ofBe x / 2 * 2 + 1
      match primeOk bits e other w b with
      | none => none
      | some (true, b) => some (some w, b)
      | some (false, b) => primeSearch bits e other fuel b

/-- The two primes of a key, if both searches find one. -/
def rsaPrimes (b : Block) (bits e : Nat) : Option (Option (Nat × Nat) × Block) :=
  match primeSearch bits e none (5 * bits) b with
  | none => none
  | some (none, b) => some (none, b)
  | some (some p, b) =>
    match primeSearch bits e (some p) (10 * bits) b with
    | none => none
    | some (none, b) => some (none, b)
    | some (some q, b) => some (some (p, q), b)

end Sys2Proof.Machine
end

