-- ==== Sys2Proof/Machine/PublicOps.lean ====
section
/-! DEFINITION. Step 4 of R70 for the public-key opcodes (chapter 6): the checks of R166 in their order, and what each operation
computes. -/
namespace Sys2Proof.Machine

/-! ### Operands (R162 to R165) -/

/-- Key ALG of a scheme (R163). -/
def schemeAlg (s : Nat) : Nat :=
  if s = 1 ∨ s = 2 then 0x10 else if s = 3 then 0x11 else if s = 4 ∨ s = 0x12 then 0x14 else if s = 5 ∨ s = 0x13 then 0x15
  else if s = 8 then 0x18 else if s = 9 then 0x19 else if s = 0x10 then 0x12 else if s = 0x11 then 0x13 else if s = 0x14 then 0x1A
  else 0x16

/-- Schemes of lattice cores (R153). -/
def schemeLattice (s : Nat) : Bool := s == 8 || s == 9 || s == 0x14

/-- Schemes of RSA. -/
def schemeRsa (s : Nat) : Bool := s == 6 || s == 7 || s == 0x18 || s == 0x19

/-- Schemes that take HASH. -/
def schemeHashed (s : Nat) : Bool := s == 4 || s == 5 || s == 6 || s == 7 || s == 0x18

/-- The schemes of each opcode (R163), by its low byte. -/
def opcodeSchemes (op : Nat) : List Nat :=
  if op ≤ 1 then [1, 2, 3, 4, 5, 6, 7, 8, 9]
  else if op = 2 then [1, 3]
  else if op = 3 then [1, 2, 3, 4, 5, 6, 7, 8, 9, 0x10, 0x11, 0x12, 0x13, 0x14, 0x18]
  else if op = 4 then [0x10, 0x11, 0x12, 0x13]
  else if op = 5 ∨ op = 6 then [0x14]
  else if op = 7 then [0x18, 0x19]
  else [0x18]

/-- SCHEME. -/
def Job.scheme (j : Job) : Nat := j.opN 0
/-- PREHASHED. -/
def Job.prehashed (j : Job) : Bool := (j.opN 1).testBit 0
/-- INLINE_KEY. -/
def Job.inlineKey (j : Job) : Bool := (j.opN 1).testBit 1
/-- DETERMINISTIC. -/
def Job.deterministic (j : Job) : Bool := (j.opN 1).testBit 2
/-- CTXLEN. -/
def Job.ctxLen (j : Job) : Nat := j.opN 2
/-- HASH. -/
def Job.halg (j : Job) : Nat := j.opN 3
/-- KEYBITS. -/
def Job.keyBits (j : Job) : Nat := ofLe (j.op 4 2)
/-- LABELLEN. -/
def Job.labelLen (j : Job) : Nat := ofLe (j.op 6 2)

/-- The shared operands of R162 for an opcode of group 0x04xx, by its low byte. -/
def pkSyntax (r : Requester) (j : Job) (op : Nat) : Bool :=
  let s := j.scheme
  let keygen := op == 3
  formC r j && (opcodeSchemes op).contains s && j.opN 1 / 8 == 0
    && (!j.prehashed || s == 2 || s == 4 || s == 5 || s == 6 || s == 7)
    && (!j.inlineKey || op == 1 || op == 5 || op == 7)
    && (!j.deterministic || (op == 0 && (s == 8 || s == 9)))
    && (j.ctxLen == 0 || s == 1 || s == 2 || s == 8 || s == 9)
    && (if schemeHashed s then j.halg == 1 || j.halg == 2 || j.halg == 3 else j.halg == 0)
    && (if schemeRsa s && (j.inlineKey || keygen) then j.keyBits == 2048 || j.keyBits == 3072 || j.keyBits == 4096 else j.keyBits == 0)
    && (if s = 0x18 then decide (j.labelLen ≤ 1024) else j.labelLen == 0)
    && (!j.inlineKey || j.keyIn == 0)

/-- The modulus length of the RSA key an operation uses, in bits. -/
def rsaBits (j : Job) : Nat := if j.inlineKey then j.keyBits else recLength j.kIn.head

/-- The curve of an EC scheme. -/
def schemeCurve (s : Nat) : EcCurve := if s = 4 ∨ s = 0x12 then p256 else p384

/-- A scheme of ECDSA or ECDH. -/
def schemeEc (s : Nat) : Bool := s == 4 || s == 5 || s == 0x12 || s == 0x13

/-- Bytes of a public key that begins with `first` (R164, R165). -/
def pkBytes (s bits : Nat) (first : Byte) : Nat :=
  if schemeEc s then ecPointLen (schemeCurve s) first else publicLen (schemeAlg s) bits

/-- Bytes of a signature or ciphertext (R165). -/
def sigBytes (s bits : Nat) : Nat :=
  if s = 1 ∨ s = 2 then 114 else if s = 3 then 64 else if s = 4 then 64 else if s = 5 then 96
  else if s = 8 then 3309 else if s = 9 then 4627 else if s = 0x14 then 1568 else bits / 8

/-- The parts of the input (R164). -/
structure PkInput where
  ctx : Bytes
  pk : Bytes
  label : Bytes
  part : Bytes
  rest : Bytes

/-- The fourth part of the input. -/
inductive Fourth where
  | absent
  | signature
  | peer
  deriving DecidableEq, Repr

/-- The input cut into its parts; nothing where it is too short (R164). -/
def pkParts (j : Job) (withKey : Bool) (fourth : Fourth) : Option PkInput :=
  let s := j.scheme
  let bits := rsaBits j
  let ctx := j.input.take j.ctxLen
  let a := j.input.drop j.ctxLen
  let n := if withKey then pkBytes s bits (byteAt a 0) else 0
  let c := a.drop n
  let label := c.take j.labelLen
  let d := c.drop j.labelLen
  let m := match fourth with
    | .absent => 0
    | .signature => sigBytes s bits
    | .peer => pkBytes s bits (byteAt d 0)
  if j.ctxLen + n + j.labelLen + m ≤ j.input.length then
    some { ctx := ctx, pk := a.take n, label := label, part := d.take m, rest := d.drop m }
  else none

/-- A public key of the record travels in the buffer: its record holds a fingerprint (R33). -/
def needsKey (j : Job) : Bool := j.inlineKey || recFingerprint j.kIn.head

/-- The public key an operation uses: from the buffer, or whole from the record. -/
def usedKey (j : Job) (p : PkInput) : Bytes := if needsKey j then p.pk else j.kIn.material

/-- The key matches the scheme, and a supplied key its fingerprint (R163, R33). -/
def keyMatches (j : Job) (p : PkInput) : Bool :=
  j.inlineKey || (j.kIn.alg == schemeAlg j.scheme && (!recFingerprint j.kIn.head || shake256 p.pk 64 == j.kIn.material))

/-- An operation of a core that ends with an outcome, or with PK_REJECT where its validation fails. -/
def pkRun (lattice : Bool) (valid : Bool) (drawn : Bytes) (o : Outcome) (creates : List NewRecord) : Verdict :=
  if valid then .run (.gallery lattice true false drawn) o creates else .run (.gallery lattice true true drawn) (justStatus stPkReject) []

/-! ### Signing and verification (R167 to R172) -/

/-- The digest of a message for ECDSA and RSA. -/
def pkDigest (j : Job) (msg : Bytes) : Bytes := if j.prehashed then msg else hashAlg j.halg msg

/-- Bytes that signing draws (R182). -/
def signDraw (j : Job) : Nat :=
  let s := j.scheme
  if s = 4 ∨ s = 5 then 32
  else if s = 6 then rsaBits j / 8 + 16
  else if s = 7 then rsaBits j / 8 + 16 + hashLen j.halg
  else if (s = 8 ∨ s = 9) ∧ !j.deterministic then 32
  else 0

/-- An RSA private-key operation, blinded and with its self-check (R170): the result, or nothing where the check fails. -/
def rsaChecked (j : Job) (drawn : Bytes) (x : Nat) : Option Nat :=
  let bytes := rsaBits j / 8
  rsaBlinded (rsaStored bytes j.kIn.material) (drawn.take (bytes + 16)) x

/-- The signature of a message (R167 to R171) from the bytes drawn; nothing where the self-check of R170 fails. -/
def pkSignature (j : Job) (ctx msg drawn : Bytes) : Option Bytes :=
  let s := j.scheme
  let k := j.kIn.material
  let bytes := rsaBits j / 8
  if s = 1 then some (edSign true false ctx k msg)
  else if s = 2 then some (edSign true true ctx k (if j.prehashed then msg else shake256 msg 64))
  else if s = 3 then some (edSign false false [] k msg)
  else if s = 4 ∨ s = 5 then some (ecdsaSign (schemeCurve s) (ofBe k) (pkDigest j msg) drawn)
  else if s = 6 then (rsaChecked j drawn (ofBe (emsaPkcs1 j.halg (pkDigest j msg) bytes))).map (beBytes bytes)
  else if s = 7 then
    (rsaChecked j drawn (ofBe (emsaPss j.halg (pkDigest j msg) (drawn.drop (bytes + 16)) bytes))).map (beBytes bytes)
  else
    let rnd := if j.deterministic then zeros 32 else drawn
    some (dsaSign (if s = 8 then mldsa65 else mldsa87) k ctx msg rnd)

/-- A digest given has its length (R167). -/
def prehashOk (j : Job) (msg : Bytes) : Bool :=
  !j.prehashed || msg.length == (if j.scheme = 2 then 64 else hashLen j.halg)

/-- PK_SIGN (R167). -/
def opPkSign (b : Block) (r : Requester) (j : Job) : Verdict × Block :=
  match pkParts j false .absent with
  | none => refuse b stFormat
  | some p =>
    if !pkSyntax r j 0 ∨ !j.zero 8 31 ∨ !prehashOk j p.rest then refuse b stFormat
    else if !keyMatches j p then refuse b stKeyUsage
    else match b.draw (signDraw j) with
    | none => refuse b stRng
    | some (drawn, b) =>
      let w : Work := .gallery (schemeLattice j.scheme) false false drawn
      match pkSignature j p.ctx p.rest drawn with
      | some sig => (.run w (okOutput (sig.take 16) sig) [], b)
      | none => (.run w (justStatus stInternal) [], b)

/-- Validation of an RSA public key that came inline (R181). -/
def rsaKeyValid (j : Job) (n e : Nat) : Bool :=
  !j.inlineKey || (n % 2 == 1 && n.testBit (j.keyBits - 1) && e % 2 == 1 && decide (3 ≤ e))

/-- Whether a signature and its key pass validation, and whether it verifies (R168, R181). -/
def pkVerdict (j : Job) (pk ctx msg sig : Bytes) : Bool × Bool :=
  let s := j.scheme
  if s = 1 ∨ s = 2 then
    let ph := s == 2
    (edValid true pk sig, edVerify true ph ctx pk (if ph && !j.prehashed then shake256 msg 64 else msg) sig)
  else if s = 3 then (edValid false pk sig, edVerify false false [] pk msg sig)
  else if s = 4 ∨ s = 5 then
    let c := schemeCurve s
    match ecDecode c pk with
    | some q => (ecdsaRange c sig, ecdsaVerify c q (pkDigest j msg) sig)
    | none => (false, false)
  else if s = 6 ∨ s = 7 then
    let bytes := rsaBits j / 8
    let n := ofBe (pk.take bytes)
    let e := ofBe (pk.drop bytes)
    let x := ofBe sig
    let em := beBytes bytes (rsaPublicOp n e x)
    (rsaKeyValid j n e && decide (1 ≤ x) && decide (x < n),
      if s = 6 then em == emsaPkcs1 j.halg (pkDigest j msg) bytes else pssCheck j.halg (pkDigest j msg) em)
  else
    let t := if s = 8 then mldsa65 else mldsa87
    (dsaValid t pk sig, dsaVerify t pk ctx msg sig)

/-- PK_VERIFY (R172). -/
def opPkVerify (b : Block) (r : Requester) (j : Job) : Verdict × Block :=
  match pkParts j (needsKey j) .signature with
  | none => refuse b stFormat
  | some p =>
    if !pkSyntax r j 1 ∨ !j.zero 8 31 ∨ !prehashOk j p.rest then refuse b stFormat
    else if !keyMatches j p then refuse b stKeyUsage
    else
      let v := pkVerdict j (usedKey j p) p.ctx p.rest p.part
      (pkRun (schemeLattice j.scheme) v.1 [] (verified v.2) [], b)

/-! ### Batch verification (R184 to R187) -/

/-- An entry of the item table. -/
structure BatchItem where
  key : Nat
  keyOff : Nat
  sigOff : Nat
  msgOff : Nat
  msgLen : Nat

/-- The item table (R184). -/
def batchItems (j : Job) : List BatchItem :=
  (List.range (j.opN 8)).map fun i =>
    let e := slice j.input (j.ctxLen + 24 * i) 24
    { key := leField e 0 8, keyOff := leField e 8 4, sigOff := leField e 12 4, msgOff := leField e 16 4, msgLen := leField e 20 4 }

/-- An entry's regions lie in the input and it names exactly one key. -/
def batchItemOk (j : Job) (e : BatchItem) : Bool :=
  let n := j.input.length
  let sig := sigBytes j.scheme 0
  let pk := publicLen (schemeAlg j.scheme) 0
  ((e.key == 0) != (e.keyOff == 0)) && decide (e.sigOff + sig ≤ n) && decide (e.msgOff + e.msgLen ≤ n)
    && (e.keyOff == 0 || decide (e.keyOff + pk ≤ n))

/-- The public key of an item: resolved, not resident, or the item's status (R184). -/
inductive BatchKey where
  | key (pk : Bytes)
  | miss (gidx : Nat)
  | failed (status : Nat)

/-- An item's key. -/
def batchKey (b : Block) (j : Job) (e : BatchItem) : BatchKey :=
  if e.key = 0 then .key (slice j.input e.keyOff (publicLen (schemeAlg j.scheme) 0))
  else match resolve b e.key j.chamber true with
    | .ok k => if roleMet roleVerify k.head (hClass e.key) && k.alg == schemeAlg j.scheme then .key k.material else .failed stKeyUsage
    | .fail s => .failed s
    | .miss g =>
      match j.keyErrors.find? fun p => p.1 == g with
      | some p => .failed p.2
      | none => .miss g

/-- An item as the core has it: with a status where its key did not resolve. -/
def batchEntry (j : Job) (e : BatchItem) (k : BatchKey) : BatchEntry :=
  let msg := slice j.input e.msgOff e.msgLen
  let sig := slice j.input e.sigOff (sigBytes j.scheme 0)
  match k with
  | .key pk => { failed := none, key := pk, msg := msg, sig := sig }
  | .failed s => { failed := some s, key := [], msg := msg, sig := sig }
  | .miss _ => { failed := some stSumpIntegrity, key := [], msg := msg, sig := sig }

/-- PK_BATCH_VERIFY (R184 to R187). Of the full batch, 16 bytes are drawn for each item of the table, those included that will not be in it, and none
where the table has one item (DESIGN CHOICE, log entry 114). -/
def opPkBatchVerify (b : Block) (r : Requester) (j : Job) : Verdict × Block :=
  let count := j.opN 8
  let items := batchItems j
  if !pkSyntax r j 2 ∨ j.opN 1 ≠ 0 ∨ !j.zero 9 31 ∨ count = 0 ∨ 64 < count ∨ j.input.length < j.ctxLen + 24 * count
      ∨ !items.all (batchItemOk j) then refuse b stFormat
  else
    let keys := items.map (batchKey b j)
    let missing := keys.filterMap fun k => match k with
      | .miss g => some g
      | _ => none
    if missing ≠ [] then (.miss missing, b)
    else match b.draw (if count = 1 then 0 else 16 * count) with
      | none => refuse b stRng
      | some (drawn, b) =>
        let b := b.modJob r fun j => { j with batch := List.zipWith (batchEntry j) items keys }
        (.run (.gallery false true false drawn) (justStatus stOk) [], b)

/-- An item passes the validation of R181 under a scheme. -/
def batchValid (j : Job) (e : BatchEntry) : Bool := edValid (j.scheme == 1) e.key e.sig

/-- The status of an item verified singly. -/
def batchSingle (j : Job) (e : BatchEntry) : Nat :=
  if edVerify (j.scheme == 1) false (j.input.take j.ctxLen) e.key e.msg e.sig then stOk else stMismatch

/-- The check of a set of items with a coefficient of each (R185): the cofactored sum of their equations, weighted. The coefficients are read
little-endian (DESIGN CHOICE, log entry 114). -/
def batchCheck (j : Job) (l : List BatchEntry) (z : Bytes) : Bool :=
  let is448 := j.scheme == 1
  let c := edCurve is448
  let step (acc : (Nat × EdPoint) × Nat) (e : BatchEntry) : (Nat × EdPoint) × Nat :=
    let zi := ofLe (slice z (16 * acc.2) 16)
    match edDecode c e.key, edDecode c (e.sig.take c.len) with
    | some a, some r =>
      let k := edHash is448 false (j.input.take j.ctxLen) (e.sig.take c.len ++ e.key ++ e.msg) % c.order
      ((acc.1.1 + zi * ofLe (e.sig.drop c.len), edAdd c acc.1.2 (edAdd c (edMul c zi r) (edMul c (zi * k % c.order) a))), acc.2 + 1)
    | _, _ => (acc.1, acc.2 + 1)
  let s := (l.foldl step ((0, edZero), 0)).1
  edEq c (edMul c c.cofactor (edMul c (s.1 % c.order) c.base)) (edMul c c.cofactor s.2)

/-- The check of a sub-batch of two or more items with fresh coefficients, or of one item by itself; nothing where Lantern fails. -/
def batchSub (j : Job) (b : Block) (l : List (Nat × BatchEntry)) : Option (Bool × Block) :=
  if l.length ≤ 1 then some (l.all fun x => batchSingle j x.2 == stOk, b)
  else (b.draw (16 * l.length)).map fun d =>
    (batchCheck j (l.map (·.2)) d.1, { d.2 with gallery := { d.2.gallery with subChecks := d.2.gallery.subChecks + 1 } })

/-- Statuses of items, by index. -/
abbrev BatchStatus := List (Nat × Nat)

/-- The bisection of a set of items known bad (R185): the status of each, or nothing where Lantern fails. -/
def bisect (j : Job) : Nat → Block → List (Nat × BatchEntry) → Option (BatchStatus × Block)
  | 0, b, s => some (s.map fun x => (x.1, batchSingle j x.2), b)
  | fuel + 1, b, s =>
    let singly (l : List (Nat × BatchEntry)) : BatchStatus := l.map fun x => (x.1, batchSingle j x.2)
    let good (l : List (Nat × BatchEntry)) : BatchStatus := l.map fun x => (x.1, stOk)
    let bad (b : Block) (l : List (Nat × BatchEntry)) : Option (BatchStatus × Block) :=
      if l.length ≤ 1 then some (singly l, b) else bisect j fuel b l
    if s.length ≤ 2 then some (singly s, b)
    else
      let low := s.take ((s.length + 1) / 2)
      let high := s.drop ((s.length + 1) / 2)
      match batchSub j b low with
      | none => none
      | some (true, b) => (bad b high).map fun x => (good low ++ x.1, x.2)
      | some (false, b) =>
        match batchSub j b high with
        | none => none
        | some (highOk, b) =>
          match bad b low with
          | none => none
          | some (l, b) => if highOk then some (l ++ good high, b) else (bad b high).map fun x => (l ++ x.1, x.2)

/-- The statuses of a batch on its core (R185): validation first, then the check of what is left, and bisection where it fails. -/
def batchStatuses (j : Job) (b : Block) (drawn : Bytes) : Option (List Nat × Block) :=
  let items := (List.range j.batch.length).zip j.batch
  let left := items.filter fun x => x.2.failed.isNone && batchValid j x.2
  let z := left.flatMap fun x => fit 16 (slice drawn (16 * x.1) 16)
  let checked : Option (BatchStatus × Block) :=
    if left.length ≤ 1 then some (left.map fun x => (x.1, batchSingle j x.2), b)
    else if batchCheck j (left.map (·.2)) z then some (left.map fun x => (x.1, stOk), b)
    else bisect j 7 b left
  checked.map fun c =>
    (items.map fun x => match x.2.failed with
      | some s => s
      | none => ((c.1.find? fun p => p.1 == x.1).map (·.2)).getD stPkReject, c.2)

/-- The outcome of a batch with its output and RESULT (R187); RNG_UNAVAILABLE where a bisection finds Lantern failed (R183). -/
def batchOutcome (j : Job) (b : Block) (drawn : Bytes) : Outcome × Block :=
  match batchStatuses j b drawn with
  | none => (justStatus stRng, b)
  | some (st, b) =>
    let map := (List.range st.length).foldl (fun a i => if st.getD i 1 = stOk then a + 2 ^ i else a) 0
    let good := (st.filter (· == stOk)).length
    ({ status := if good = st.length then stOk else stMismatch, result := fit 16 (leBytes 8 map ++ leBytes 1 good)
       output := some (st.flatMap (leBytes 2)) }, b)

/-! ### Key generation and agreement (R173 to R176) -/

/-- The record fields of R173 are well formed; `keygen` chooses its rows. -/
def newRecordOk (j : Job) (keygen : Bool) : Bool :=
  let nalg := j.opN 8
  let nexp := byteAt j.operands 12
  let nlen := j.opN 15
  let e := ofLe (j.op 20 4)
  (j.op 9 3).all printable && (j.op 13 2).all printable && j.zero 24 31
    && (if keygen then
          nalg == 0 && nexp == 0x4E && nlen == 0 && (if schemeRsa j.scheme then e % 2 == 1 && decide (65537 ≤ e) else e == 0)
        else decide (1 ≤ nalg) && decide (nalg ≤ 6) && (ascii "ENS").contains nexp && e == 0
          && (if nalg = 6 then decide (16 ≤ nlen) && decide (nlen ≤ 32) else nlen == 0))

/-- NUSAGE and NMODE suit a generated key (R29, R173). -/
def keygenUse (j : Job) : Bool :=
  let usage := j.op 9 2
  let mode := byteAt j.operands 11
  let agree := (opcodeSchemes 4).contains j.scheme || j.scheme == 0x14
  (usage == ascii "S0" && (ascii "STN").contains mode) || (agree && usage == ascii "K2" && (ascii "BXN").contains mode)

/-- Bytes a key generation draws (R182); RSA draws while it runs. -/
def keygenDraw (s : Nat) : Nat :=
  let a := schemeAlg s
  if a = 0x10 then 57 else if a = 0x11 then 32 else if a = 0x12 then 56 else if a = 0x13 then 32 else if a = 0x14 then 40
  else if a = 0x15 then 56 else if a = 0x1A then 64 else if a = 0x16 then 0 else 32

/-- A private key's stored form from the bytes drawn (R32, R174): of an RSA key, its two primes one after the other. -/
def keygenStored (j : Job) (drawn : Bytes) : Bytes :=
  let a := schemeAlg j.scheme
  if a = 0x14 then beBytes 32 (ecScalar p256 drawn)
  else if a = 0x15 then beBytes 48 (ecScalar p384 drawn)
  else if a = 0x16 then
    let h := j.keyBits / 16
    rsaStore (2 * h) { p := ofBe (drawn.take h), q := ofBe (drawn.drop h), e := ofLe (j.op 20 4) }
  else drawn

/-- Records at the places of two new ones that hold nothing yet: what their slots are reserved by (R166). -/
def placeholder (g n : Nat) : NewRecord := { gidx := g, lines := List.replicate n (zeros 64), newClass := some 1 }

/-- Bytes of the public key that a generation gives. -/
def keygenPublicLen (j : Job) : Nat := publicLen (schemeAlg j.scheme) j.keyBits

/-- The places of the private and the public record of a generation (R173, R174), if there is room: the lowest free run of each. That of the public
record can lie below the private one's where it is narrower (DESIGN CHOICE, log entry 115). -/
def keygenPlaces (b : Block) (j : Job) : Option (List NewRecord) :=
  let c := j.chamber
  let n := slotsFor (privateLen (schemeAlg j.scheme) j.keyBits)
  let pkLen := keygenPublicLen j
  let w := publicSlots (if 872 < pkLen then 64 else pkLen)
  match lowestRun b c n with
  | none => none
  | some g1 => (lowestRun (reserveSlots b c [placeholder g1 n]) c w).map fun g2 => [placeholder g1 n, placeholder g2 w]

/-- The records of a generation at their places from the bytes drawn, or the primes found, with its RESULT and output (R174). -/
def keygenRecords (b : Block) (j : Job) (places : List NewRecord) (drawn : Bytes) : Outcome × List NewRecord :=
  let c := j.chamber
  let alg := schemeAlg j.scheme
  let g1 := (places.headD (placeholder 0 0)).gidx
  let g2 := ((places.drop 1).headD (placeholder 0 0)).gidx
  let sk := keygenStored j drawn
  let length := if alg = 0x16 then j.keyBits else 8 * sk.length
  let pk := publicOf alg length sk
  let fp := decide (872 < keygenPublicLen j)
  let mode := byteAt j.operands 11
  let priv : Attr :=
    { alg := alg, length := length, usage := j.op 9 2, mode := mode, exp := 0x4E, counted := false, fingerprint := false
      notAfter := ofLe (j.op 16 4), owner := newOwner c, kvn := j.op 13 2, kcv := publicKcv pk, chain := 0xFFFFFFFF }
  let pub : Attr := { priv with mode := if mode = 0x53 then 0x56 else mode, exp := 0x45, fingerprint := fp }
  let w1 : NewRecord := { gidx := g1, lines := recordLines priv sk (slotIndex b c g1), newClass := some 1 }
  let w2 : NewRecord :=
    { gidx := g2, lines := publicLines pub (if fp then shake256 pk 64 else pk) (slotIndex b c g2), newClass := some 2 }
  let h1 := issueHandle b c g1 1 (verVersion (slotVersion b g1) + 1)
  let h2 := issueHandle b c g2 2 (verVersion (slotVersion b g2) + 1)
  (okOutput (leBytes 8 h1 ++ leBytes 8 h2) pk, [w1, w2])

/-- The checks of a key generation up to its places (R166, R174). -/
def keygenPlan (b : Block) (r : Requester) (j : Job) : Except Nat (List NewRecord) :=
  if !pkSyntax r j 3 ∨ !newRecordOk j true ∨ j.input.length < j.ctxLen + j.labelLen then .error stFormat
  else if !keygenUse j then .error stKeyUsage
  else match keygenPlaces b j with
    | none => .error stSlotExhausted
    | some l => .ok l

/-- PK_KEYGEN (R174). An RSA key's primes are found as the operation runs (R182). -/
def opPkKeygen (b : Block) (r : Requester) (j : Job) : Verdict × Block :=
  match keygenPlan b r j with
  | .error s => refuse b s
  | .ok places =>
    if schemeRsa j.scheme then runCreating b j.chamber (.gallery false false false []) (justStatus stOk) places
    else match b.draw (keygenDraw j.scheme) with
      | none => refuse b stRng
      | some (drawn, b) =>
        let k := keygenRecords b j places drawn
        runCreating b j.chamber (.gallery (schemeLattice j.scheme) false false drawn) k.1 k.2

/-- The primes of an RSA key as its generation runs, one after the other (R174, R182): nothing where Lantern fails, and no primes where the search of
FIPS 186-5 ends without. -/
def keygenPrimes (b : Block) (j : Job) : Option (Option Bytes × Block) :=
  (rsaPrimes b j.keyBits (ofLe (j.op 20 4))).map fun x =>
    (x.1.map fun p => beBytes (j.keyBits / 16) p.1 ++ beBytes (j.keyBits / 16) p.2, x.2)

/-- Odd parity in every byte (R175). -/
def oddParity (k : Bytes) : Bytes :=
  k.map fun x =>
    let n := ((List.range 7).filter fun i => x.getLsbD (i + 1)).length
    (x &&& 0xFE) ||| (if n % 2 = 0 then 1 else 0)

/-- The symmetric key of a shared secret (R175). -/
def derivedKey (nalg nlen : Nat) (z info : Bytes) : Bytes :=
  let k := (sha3_512 ([0, 0, 0, 1] ++ z ++ info)).take (symmetricLen nalg (8 * nlen))
  if isTdes nalg then oddParity k else k

/-- The record of a derived key, its operation and its output (R173, R175): `sharedSecret` is nothing where validation fails, and its slot is reserved
then too (R166). A key encapsulated to an inline public key has no KEY_IN, and its CHAIN is that of a generated key (DESIGN CHOICE, log
entry 116). -/
def deriveRecord (b : Block) (j : Job) (lattice windowed : Bool) (drawn : Bytes) (sharedSecret : Option Bytes) (info : Bytes) (out : Option Bytes) :
    Verdict × Block :=
  let c := j.chamber
  match lowestRun b c 1 with
  | none => refuse b stSlotExhausted
  | some g =>
    match sharedSecret with
    | none => runCreating b c (.gallery lattice windowed true drawn) (justStatus stPkReject) [placeholder g 1]
    | some z =>
      let nalg := j.opN 8
      let chain := if j.inlineKey then 0xFFFFFFFF else hSlot j.kIn.handle
      let (w, h, kcv) := newSymmetric b c g nalg (j.op 9 2) (byteAt j.operands 11) (byteAt j.operands 12) (j.op 13 2) (ofLe (j.op 16 4))
        chain (derivedKey nalg (j.opN 15) z info)
      runCreating b c (.gallery lattice windowed false drawn) { status := stOk, result := fit 16 (leBytes 8 h ++ kcv), output := out } [w]

/-- NUSAGE and NMODE suit a derived key (R29, R173). -/
def derivedUse (j : Job) : Bool := symmetricUse (j.opN 8) (j.op 9 2) (byteAt j.operands 11)

/-- Z of a key agreement, where the peer's key passes validation (R175, R181). -/
def agreedSecret (j : Job) (peer : Bytes) : Option Bytes :=
  let s := j.scheme
  let k := j.kIn.material
  if s = 0x10 ∨ s = 0x11 then if montValid (s == 0x10) peer then some (montShared (s == 0x10) k peer) else none
  else (ecDecode (schemeCurve s) peer).map (ecShared (schemeCurve s) (ofBe k))

/-- PK_DERIVE (R175). -/
def opPkDerive (b : Block) (r : Requester) (j : Job) : Verdict × Block :=
  match pkParts j false .peer with
  | none => refuse b stFormat
  | some p =>
    if !pkSyntax r j 4 ∨ !newRecordOk j false ∨ 1024 < p.rest.length then refuse b stFormat
    else if !keyMatches j p ∨ !derivedUse j then refuse b stKeyUsage
    else deriveRecord b j false true [] (agreedSecret j p.part) p.rest none

/-- PK_ENCAPSULATE (R175). -/
def opPkEncapsulate (b : Block) (r : Requester) (j : Job) : Verdict × Block :=
  match pkParts j (needsKey j) .absent with
  | none => refuse b stFormat
  | some p =>
    if !pkSyntax r j 5 ∨ !newRecordOk j false ∨ 1024 < p.rest.length then refuse b stFormat
    else if !keyMatches j p ∨ !derivedUse j then refuse b stKeyUsage
    else if (lowestRun b j.chamber 1).isNone then refuse b stSlotExhausted
    else match b.draw 32 with
    | none => refuse b stRng
    | some (m, b) =>
      let ek := usedKey j p
      let e := kemEncaps ek m
      deriveRecord b j true true m (if kemValid ek then some e.1 else none) p.rest (some e.2)

/-- PK_DECAPSULATE (R176). -/
def opPkDecapsulate (b : Block) (r : Requester) (j : Job) : Verdict × Block :=
  match pkParts j false .signature with
  | none => refuse b stFormat
  | some p =>
    if !pkSyntax r j 6 ∨ !newRecordOk j false ∨ 1024 < p.rest.length then refuse b stFormat
    else if !keyMatches j p ∨ !derivedUse j then refuse b stKeyUsage
    else deriveRecord b j true false [] (some (kemDecaps j.kIn.material p.part)) p.rest none

/-! ### RSA encryption (R177) -/

/-- The zero bytes of a string replaced in order by further bytes. -/
def fillZeros : Bytes → Bytes → Bytes
  | [], _ => []
  | x :: l, d => if x = 0 then d.headD 0 :: fillZeros l (d.drop 1) else x :: fillZeros l d

/-- Each zero byte replaced by a further draw (R182); `fuel` bounds the further draws, and the bytes are nothing where one of them is still zero. -/
def drawNonZero : Nat → Block → Bytes → Option (Bytes × Block)
  | 0, b, l => if l.contains 0 then none else some (l, b)
  | fuel + 1, b, l =>
    let z := (l.filter (· == 0)).length
    if z = 0 then some (l, b)
    else match b.draw z with
      | none => none
      | some (d, b) => drawNonZero fuel b (fillZeros l d)

/-- PK_ENCRYPT (R177). -/
def opPkEncrypt (b : Block) (r : Requester) (j : Job) : Verdict × Block :=
  match pkParts j (needsKey j) .absent with
  | none => refuse b stFormat
  | some p =>
    let bytes := rsaBits j / 8
    let hl := hashLen j.halg
    let max_ := if j.scheme = 0x18 then bytes - 2 * hl - 2 else bytes - 11
    if !pkSyntax r j 7 ∨ !j.zero 8 31 ∨ max_ < p.rest.length then refuse b stFormat
    else if !keyMatches j p then refuse b stKeyUsage
    else
      let pk := usedKey j p
      let n := ofBe (pk.take bytes)
      let e := ofBe (pk.drop bytes)
      let finish (b : Block) (drawn em : Bytes) : Verdict × Block :=
        let x := ofBe em
        (pkRun false (rsaKeyValid j n e && decide (1 ≤ x) && decide (x < n)) drawn (okOutput [] (beBytes bytes (rsaPublicOp n e x))) [], b)
      if j.scheme = 0x18 then
        match b.draw hl with
        | none => refuse b stRng
        | some (seed, b) => finish b seed (oaepEncode j.halg p.label p.rest seed bytes)
      else
        match b.draw (bytes - 3 - p.rest.length) with
        | none => refuse b stRng
        | some (d, b) =>
          match drawNonZero 64 b d with
          | none => refuse b stRng
          | some (ps, b) => finish b ps ([0, 2] ++ ps ++ [0] ++ p.rest)

/-- PK_DECRYPT (R177). An OAEP failure is reported when a success would be, so its operation passes validation. -/
def opPkDecrypt (b : Block) (r : Requester) (j : Job) : Verdict × Block :=
  match pkParts j false .signature with
  | none => refuse b stFormat
  | some p =>
    let bytes := rsaBits j / 8
    if !pkSyntax r j 8 ∨ !j.zero 8 31 ∨ p.rest ≠ [] then refuse b stFormat
    else if !keyMatches j p then refuse b stKeyUsage
    else match b.draw (bytes + 16) with
    | none => refuse b stRng
    | some (drawn, b) =>
      let key := rsaStored bytes j.kIn.material
      let c := ofBe p.part
      if c = 0 ∨ key.p * key.q ≤ c then (pkRun false false drawn (justStatus stOk) [], b)
      else match rsaChecked j drawn c with
        | none => (.run (.gallery false true false drawn) (justStatus stInternal) [], b)
        | some m =>
          match oaepDecode j.halg p.label (beBytes bytes m) with
          | some msg => (.run (.gallery false true false drawn) (okOutput [] msg) [], b)
          | none => (.run (.gallery false true false drawn) (justStatus stPkReject) [], b)

/-! ### What a core holds and streams (R150, R154, R156) -/

/-- Bytes of a message that a core takes into its operand memory; a longer one is streamed through Auger (R154). The manual gives the times of R178 for messages
up to this length, and no other (DESIGN CHOICE, log entry 110). -/
abbrev gaMessage : Nat := 256

/-- The messages of a Gallery operation: what a signature is over, unless it is a digest. -/
def pkMessages (j : Job) : List Bytes :=
  if j.opcode = 0x0402 then j.batch.map (·.msg)
  else if j.prehashed then []
  else if j.opcode = 0x0400 then ((pkParts j false .absent).map fun p => [p.rest]).getD []
  else if j.opcode = 0x0401 then ((pkParts j (needsKey j) .signature).map fun p => [p.rest]).getD []
  else []

/-- The hash of a scheme's message, as a HALG (R149, R167, R168). -/
def schemeHash (j : Job) : Nat := if schemeHashed j.scheme then j.halg else if j.scheme = 3 then 3 else 0x22

/-- The permutations or compressions of the messages that are streamed, and the cycles of each (R148, R154); Ed448 and Ed25519 signing make two passes
over a message (R178). -/
def pkStream (j : Job) : Option (Nat × Nat) :=
  let long := (pkMessages j).filter fun m => decide (gaMessage < m.length)
  let passes := if j.opcode = 0x0400 ∧ (j.scheme = 1 ∨ j.scheme = 3) then 2 else 1
  let one (m : Bytes) : Nat × Nat := match hashWork (schemeHash j) 64 m.length with
    | .auger l s => (l, s)
    | _ => (0, 0)
  if long = [] then none else some ((one []).1, passes * (long.map fun m => (one m).2).sum)

/-- The public contents of a core's operand memory: the input without messages that are streamed, and a public key of a record (R154). -/
def pkPublicWords (j : Job) : Bytes :=
  let short (m : Bytes) : Bytes := if gaMessage < m.length then [] else m
  if j.opcode = 0x0402 then
    j.input.take (j.ctxLen + 24 * j.batch.length) ++ j.batch.flatMap fun e => e.key ++ e.sig ++ short e.msg
  else
    let long := ((pkMessages j).filter fun m => decide (gaMessage < m.length)).map (·.length)
    let key := if [0x0401, 0x0405, 0x0407].contains j.opcode then j.kIn.material else []
    j.input.take (j.input.length - long.sum) ++ key

/-- The private key material of an operation. -/
def pkPrivateWords (j : Job) : Bytes := if [0x0400, 0x0404, 0x0406, 0x0408].contains j.opcode then j.kIn.material else []

/-- The operation reads the shared tables of multiples of the base points of Ed448, Ed25519, P-256 and P-384 (R155): signing and verification on them, and
the generation of their keys. -/
def pkReadsTables (j : Job) : Bool :=
  if j.opcode = 0x0403 then !schemeRsa j.scheme && !schemeLattice j.scheme && j.scheme != 0x10 && j.scheme != 0x11
  else decide (j.opcode ≤ 0x0402) && decide (j.scheme ≤ 5)

end Sys2Proof.Machine
end

