-- ==== Sys2Proof/Machine/OpTable.lean ====
section
/-! DEFINITION. The opcode groups (R67) as a table: what each opcode needs of its handles, flags and buffer (R83, R143, R152, R161). -/
namespace Sys2Proof.Machine

/-- What an opcode asks of a handle field. -/
inductive KeyNeed where
  /-- Marked "none": zero for every operand value. -/
  | none
  /-- Not used for these operands (R70): resolved by nobody, checked at step 4. -/
  | unused
  /-- Resolved, and one of the roles of R29 met. -/
  | role (rs : List Role)
  /-- Resolved; the opcode names no role. -/
  | any

/-- A row of the table. -/
structure OpRow where
  /-- The class of a direct item (R242). -/
  cls : Cls
  /-- DIRECT is permitted. -/
  direct : Bool
  /-- KEY_IN and KEY_OUT, from the job's operands. -/
  keyIn : Job → KeyNeed
  keyOut : Job → KeyNeed
  /-- It takes an operand buffer, with INLINE clear. -/
  buffer : Bool
  /-- Step 4. -/
  run : Block → Requester → Job → Verdict × Block

/-- A handle field with roles for every operand value. -/
def always (rs : List Role) : Job → KeyNeed := fun _ => .role rs

/-- A handle field marked "none". -/
def never : Job → KeyNeed := fun _ => .none

/-- A public key's field: unused with INLINE_KEY. -/
def unlessInline (rs : List Role) : Job → KeyNeed := fun j => if j.inlineKey then .unused else .role rs

/-- Key agreement with a private key. -/
def roleAgreePrivate : Role := { roleAgree with cls := some 1 }

/-- The opcodes of groups 0x01xx to 0x07xx. -/
def opRow (op : Nat) : Option OpRow :=
  if op = 0x0100 then some ⟨.spa, true, always [rolePinIn], always [rolePinOut], false, opPinTranslate⟩
  else if op = 0x0101 then some ⟨.spa, true, always [roleBdk, roleIk], always [rolePinOut], false, opPinTranslateDukpt⟩
  else if op = 0x0110 then some ⟨.spa, true, always [rolePinIn], always [roleOffset], false, opPinVerifyOffset⟩
  else if op = 0x0111 then some ⟨.spa, true, always [rolePinIn], always [rolePvv], false, opPinVerifyPvv⟩
  else if op = 0x0112 then some ⟨.spa, true, always [rolePinIn], always [rolePinIn], true, opPinVerifyCompare⟩
  else if op = 0x0200 then some ⟨.spa, true, always [roleMacGen], never, true, opMacGenerate⟩
  else if op = 0x0201 then some ⟨.spa, true, always [roleMacVer], never, true, opMacVerify⟩
  else if op = 0x0202 then some ⟨.spa, true, always [roleBdk, roleIk], never, true, opMacGenerateDukpt⟩
  else if op = 0x0203 then some ⟨.spa, true, always [roleBdk, roleIk], never, true, opMacVerifyDukpt⟩
  else if op = 0x0300 then some ⟨.spa, false, always [roleEmv], never, true, opEmvArqcVerify⟩
  else if op = 0x0310 then some ⟨.spa, false, always [roleCvcGen], never, false, opCvcGenerate⟩
  else if op = 0x0311 then some ⟨.spa, false, always [roleCvcVer], never, false, opCvcVerify⟩
  else if op = 0x0700 then some ⟨.spa, false, always [roleUnwrap], never, true, opTr31Import⟩
  else if op = 0x0701 then some ⟨.spa, false, always [roleWrap], fun _ => .any, true, opTr31Export⟩
  else if op = 0x0702 then some ⟨.spa, false, always [roleWrap], always [roleBdk], true, opDukptIkExport⟩
  else if op = 0x0500 then
    some ⟨.spa, true, always [roleDataEnc], fun j => if j.opN 0 = 4 ∧ j.keyOut ≠ 0 then .role [roleDataEnc] else .unused, true
         , opCipherEncrypt⟩
  else if op = 0x0501 then
    some ⟨.spa, true, always [roleDataDec], fun j => if j.opN 0 = 4 ∧ j.keyOut ≠ 0 then .role [roleDataEnc] else .unused, true
         , opCipherDecrypt⟩
  else if op = 0x0600 then some ⟨.aug, true, never, never, true, opHash⟩
  else if op = 0x0400 then some ⟨.gal, true, always [roleSign], never, true, opPkSign⟩
  else if op = 0x0401 then some ⟨.gal, true, unlessInline [roleVerify], never, true, opPkVerify⟩
  else if op = 0x0402 then some ⟨.gal, true, never, never, true, opPkBatchVerify⟩
  else if op = 0x0403 then some ⟨.gal, false, never, never, true, opPkKeygen⟩
  else if op = 0x0404 then some ⟨.gal, false, always [roleAgreePrivate], never, true, opPkDerive⟩
  else if op = 0x0405 then some ⟨.gal, false, unlessInline [roleVerify], never, true, opPkEncapsulate⟩
  else if op = 0x0406 then some ⟨.gal, false, always [roleSign, roleAgreePrivate], never, true, opPkDecapsulate⟩
  else if op = 0x0407 then some ⟨.gal, true, unlessInline [roleVerify], never, true, opPkEncrypt⟩
  else if op = 0x0408 then some ⟨.gal, true, always [roleSign], never, true, opPkDecrypt⟩
  else none

/-- The queue-control opcodes (R69). -/
def isQueueControl (op : Nat) : Bool := op == 0x0F00 || op == 0x0F01 || op == 0x0F02

/-- RECIPE_RUN (R268). -/
def isRecipeRun (op : Nat) : Bool := op == 0x0800

/-- An opcode defined in descriptors (R67). -/
def opDefined (op : Nat) : Bool := (opRow op).isSome || isRecipeRun op || isQueueControl op

/-- A job reads an operand buffer at step 3 (R70): the opcode takes one, INLINE is clear and EXT names one. -/
def readsBuffer (j : Job) : Bool :=
  let takes := match opRow j.opcode with
    | some r => r.buffer
    | none => isRecipeRun j.opcode
  takes && !j.inline_ && j.ext != 0

end Sys2Proof.Machine
end

