-- ==== Sys2Proof/Machine/JobOps.lean ====
section
/-! DEFINITION. Jobs and their ends: the job of a requester, leaves of items and steps, outcomes, quiescing a chamber, faults of recipes,
aborts at the engines (chapters 3, 6, 7, 9, 10 and 13). -/
namespace Sys2Proof.Machine

/-- The Chisel core that a requester's engine call comes from, none on the direct path. -/
def Block.callCore (b : Block) : Requester → Option Nat
  | .item n => match b.item? n with
    | some i => i.core
    | none => none
  | .ticket k _ => some k

/-- The references of a job's keys end (R47), and the slots reserved for records it will not create are free (R166, R189). -/
def endJobRefs (b : Block) (j : Job) : Block :=
  let b := if j.phase = .engine then releaseSlots b j.chamber j.creates else b
  let one (b : Block) (r : Option Resolved) : Block := match r with
    | some k => endRefs b k
    | none => b
  j.filled.foldl endRefs (one (one b j.rIn) j.rOut)

/-! ### Engine requests withdrawn (R127, R150, R188) -/

/-- Spindle forgets a requester: requests not issued go, results in the pipelines are discarded (R127). -/
def spindleWithdraw (b : Block) (r : Requester) : Block :=
  let s := b.spindle
  { b with spindle :=
      { s with queue := s.queue.filter fun q => q.owner != some r
               flight := Tab.mapVals s.flight fun _ l => l.map fun p => if p.owner = some r then { p with discard := true } else p } }

/-- Auger's message of a requester is cleared (R150). -/
def augerWithdraw (b : Block) (r : Requester) : Block :=
  { b with auger := { b.auger with msgs := b.auger.msgs.filter fun m => m.owner != some r } }

/-- The core that runs a request's operation, if one does. -/
def galleryCoreOf (g : Gallery) (o : GaOwner) : Option Nat :=
  (g.cores.find? fun p => match p.2 with
    | .validating r => r.owner == o
    | .working r => r.owner == o
    | _ => false).map (·.1)

/-- Gallery's operation of a requester aborted (R188): a queued request goes at once; a running one has an abort request sent to its
core. True where the core has still to answer. -/
def galleryWithdraw (b : Block) (r : Requester) : Bool × Block :=
  let g := b.gallery
  match galleryCoreOf g (.job r) with
  | some c => (true, { b with gallery := { g with abortReq := g.abortReq.filter (· != c) ++ [c] } })
  | none =>
    let b := if g.queue.any fun q => q.owner == GaOwner.job r then b.tally 140 else b
    (false, { b with gallery := { g with queue := g.queue.filter fun q => q.owner != GaOwner.job r } })

/-- A requester's engine work withdrawn everywhere. -/
def withdraw (b : Block) (r : Requester) : Block := (galleryWithdraw (augerWithdraw (spindleWithdraw b r) r) r).2

/-- A lookup's waiters without a requester. -/
def forgetMiss (b : Block) (r : Requester) : Block :=
  b.modKeys fun k => { k with misses := k.misses.map fun m => { m with waiters := m.waiters.filter (· != r) } }

/-! ### Leaves (R194 to R199) -/

/-- The item is a recipe descriptor (R196). -/
def Item.viaRecipe (i : Item) : Bool := !i.direct

/-- The body of an item's leaf. -/
def itemLeaf (i : Item) (o : Outcome) : LeafBody :=
  let op := dOpcode i.desc
  let buffer := readsBuffer i.job
  let out := i.written.getD (if isFailure o.status then [] else o.output.getD [])
  let inp := if i.job.headerOk then i.job.input else []
  { chamber := i.chamber, kind := if i.viaRecipe then 1 else 0, opcode := op, status := o.status, group := dGroup i.desc
    lflags := if buffer then 1 else 0, tag := dTag i.desc
    recipe := if !i.viaRecipe then 0 else if isRecipeRun op then ofLe ((dOperands i.desc).take 2) else op
    step := 0, keyIn := dKeyIn i.desc, keyOut := dKeyOut i.desc, data := if buffer then bufferDigest inp out else o.result }

/-- An item's leaf dropped before it has a SEQ, and its entry given back (R199). -/
def dropItemLeaf (b : Block) (n : Nat) (i : Item) : Block :=
  let ch := ChainId.chamber i.chamber
  let b := match i.leaf with
    | .entry => dropEntry b ch
    | .waiting => dropEntry (b.modChain ch fun c => { c with waiting := c.waiting.filter fun r => r.src != LeafSrc.item n }) ch
    | _ => b
  match i.leaf with
  | .none => b
  | .accepted _ => b
  | _ => b.modItem n fun i => { i with leaf := .dropped }

/-- A closing item's leaf: built where it holds an entry; an item refused on its way into Chuck first takes its entry, or waits for one
(R198), or completes as R200 says. -/
def closeLeaf (b : Block) (n : Nat) : Block :=
  match b.item? n with
  | none => b
  | some i =>
    match i.job.outcome with
    | none => b
    | some o =>
      let ch := ChainId.chamber i.chamber
      let digest := if readsBuffer i.job then shakeSlots (9 + i.job.input.length + ((o.output.getD []).length)) else 0
      let put (b : Block) : Block :=
        (queueLeaf (b.flowHash digest) ch { src := .item n, body := leafBytes (itemLeaf i o) }).modItem n fun i => { i with leaf := .waiting }
      match i.leaf with
      | .entry => if i.job.phase = .digest then b else put b
      | .wanted =>
        if i.job.phase = .digest then b else
        match entryCheck b ch with
        | .granted => put (takeEntry b ch)
        | .wait => b
        | .refused s =>
          (auditKeyReads b ch).modItem n fun i => { i with leaf := .dropped, job := { i.job with outcome := some (justStatus s) } }
      | _ => b

/-! ### Ends of items -/

/-- A core whose item is over goes to its clearing (R272). -/
def startClearing (b : Block) (k : Nat) : Block := b.modCore k fun c => { c with st := .clearing }

/-- The job's operation in Gallery has passed its commit point: its key material is with the Sump controller (R190). -/
def Job.committing (j : Job) : Bool := j.phase == .commit && j.opcode / 256 == 4

/-- The phase of a job that is over: it may still have its buffer read for the digest of its leaf (R195). -/
def Phase.afterEnd : Phase → Phase
  | .digest => .digest
  | _ => .done

/-- An item goes to CLOSING with an outcome whose output has been dealt with (R235). In a quiesced chamber it ends as R80 says, but for the
item whose failed output quiesced the chamber (R71) and one whose operation had passed its commit point (R190). -/
def closeItem (b : Block) (n : Nat) (o : Outcome) : Block :=
  match b.item? n with
  | none => b
  | some i =>
    let b := recordWait (endJobRefs b i.job) n
    let quiesced := (b.chamber i.chamber).st == .quiesced && !i.job.committing
    let standard := match i.core with
      | some k => (b.core k).st == .standard
      | none => false
    let o := if quiesced ∧ o.status ≠ stBufferAccess then justStatus stQuiesced else o
    let b := b.modItem n fun i =>
      { i with st := .closing, done := i.done || standard
               job := { i.job with outcome := some o, held := none, rIn := none, rOut := none, filled := []
                                   phase := i.job.phase.afterEnd } }
    let b := match i.core with
      | some k => startClearing b k
      | none => b
    if quiesced then dropItemLeaf b n { i with st := .closing } else closeLeaf b n

/-- A chamber's work items. -/
def Block.itemsOf (b : Block) (c : Nat) : List (Nat × Item) := b.chuck.items.filter fun p => p.2.chamber == c

/-- An outstanding ticket aborted (R280): its engine work is withdrawn, its result discarded, its references end; a step leaf without a
SEQ is dropped. One whose operation has passed its commit point ends as it would (R190). -/
def abortTicket (b : Block) (k t : Nat) : Block :=
  let x := b.ticket k t
  if x.st ≠ .outstanding ∨ x.job.committing then b
  else
    let r := Requester.ticket k t
    let ch := ChainId.chamber x.job.chamber
    let b := forgetMiss (withdraw b r) r
    let b := endJobRefs b x.job
    let b := match x.leaf with
      | .entry => dropEntry b ch
      | .waiting => dropEntry (b.modChain ch fun c => { c with waiting := c.waiting.filter fun q => q.src != LeafSrc.step k t }) ch
      | _ => b
    b.modTicket k t fun x => { x with aborted := true, st := .complete, leaf := .none }

/-- A core stopped: every outstanding ticket is aborted and the core clears once the aborts have reported (R280, R281). -/
def stopCore (b : Block) (k : Nat) : Block :=
  let b := (List.range 16).foldl (fun b t => abortTicket b k t) b
  startClearing b k

/-- The cores that run items of a chamber. -/
def coresOf (b : Block) (c : Nat) : List Nat := (b.itemsOf c).filterMap fun p => if p.2.st = .dispatched then p.2.core else none

/-- An item's engine work and its core stopped. -/
def stopItem (b : Block) (n : Nat) (i : Item) : Block :=
  let b := forgetMiss b (.item n)
  if i.st = .dispatched then
    let b := withdraw b (.item n)
    match i.core with
    | some k => stopCore b k
    | none => b
  else b

/-! ### Quiescing (R80, R331, R332) -/

/-- One item of a chamber that is being quiesced (R80): with its leaf accepted it keeps its status, and so does one whose DONE has retired (R281)
or whose operation has passed its commit point (R190); any other completes with CHAMBER_QUIESCED. -/
def quiesceItem (b : Block) (n : Nat) : Block :=
  match b.item? n with
  | none => b
  | some i =>
    match i.leaf with
    | .accepted _ => b
    | _ =>
      if i.done ∨ i.job.committing then b
      else
      let b := stopItem b n i
      let b := recordWait (endJobRefs b i.job) n
      let b := b.modItem n fun i =>
        { i with st := .closing, needMiss := []
                 job := { i.job with outcome := some (justStatus stQuiesced), held := none, phase := .done, rIn := none, rOut := none, filled := [] } }
      dropItemLeaf b n i

/-- A chamber quiesced for a cause (R332): the bit of `VFC_QREASON`, and the item, if any, that has just completed by the same failure
and keeps its status (R71). -/
def quiesceChamber (b : Block) (c reason : Nat) (spare : Option Nat) : Block :=
  let h := b.chamber c
  if h.st = .none then b
  else
    let b := b.modCh c fun h => { h with qreason := h.qreason ||| BitVec.ofNat 32 (2 ^ reason) }
    if h.st = .quiesced then b
    else
      let b := b.modCh c fun h => { h with st := .quiesced }
      let b := abandonReads b c
      let b := (b.itemsOf c).foldl (fun b p => if spare = some p.1 then b else quiesceItem b p.1) b
      closeBatch (abortSignatures (zeroDeficits b c) (.chamber c)) (.chamber c) 3

/-- Bits of `VFC_QREASON`. -/
abbrev qDmaRead : Nat := 0
/-- A completion or output write failed. -/
abbrev qDmaWrite : Nat := 1
/-- An audit ring write failed. -/
abbrev qAuditDma : Nat := 2
/-- By command. -/
abbrev qCommand : Nat := 3
/-- Bus Master Enable was clear. -/
abbrev qBme : Nat := 4
/-- By a Ferrule escalation. -/
abbrev qFerrule : Nat := 5

/-! ### Failed reads (R71, R539) -/

/-- The error that a failed read shows. -/
def readError : DmaRead → String
  | .data _ => ""
  | .unsupportedRequest => "Received Master Abort"
  | .completerAbort => "Received Target Abort"
  | .timeout => "Completion Timeout"
  | .poisoned => "Poisoned TLP Received"

/-- A failed read of a submission queue: an abort sets a status bit, the others send an error message (R539). -/
def queueReadFault (b : Block) (fn : Nat) (x : DmaRead) : Block :=
  match x with
  | .data _ => b
  | .unsupportedRequest => b.emit (.statusBit fn (readError x))
  | .completerAbort => b.emit (.statusBit fn (readError x))
  | .timeout => b.aer fn (readError x) false
  | .poisoned => b.aer fn (readError x) false

/-- A failed read of an operand buffer or message window: the status bit only (R539). -/
def bufferReadFault (b : Block) (fn : Nat) (x : DmaRead) : Block := b.emit (.statusBit fn (readError x))

/-! ### Output (R62, R63, R71) -/

/-- What an item writes to the host is suppressed at egress (R73, R252). -/
def Block.suppressed (b : Block) (n : Nat) : Bool :=
  b.kerard.egressClosed || match b.item? n with
    | some i => i.mute
    | none => false

/-- What becomes of an item's output: written with OUT_LEN, or only its length where OUT_CAP is too small, or lost, which quiesces the
chamber (R63, R71, R539). -/
def itemOutput (b : Block) (n : Nat) (j : Job) (o : Outcome) (e : Egress) : Outcome × Block :=
  match (if isFailure o.status then none else o.output) with
  | none => ({ o with output := none }, b)
  | some d =>
    let fn := j.chamber + 1
    if b.suppressed n then (o, b)
    else if !b.bme fn then
      (justStatus stBufferAccess, quiesceChamber b j.chamber qBme (some n))
    else if e = .bufferError then
      (justStatus stBufferAccess, quiesceChamber (b.aer fn "Uncorrectable Internal Error" false) j.chamber qDmaWrite (some n))
    else if j.outCap < d.length then
      (justStatus stFormat, b.dmaWrite (hostMaster j.chamber) (some j.chamber) fn (j.ext + 8) (leBytes 4 d.length))
    else
      let b := if d = [] then b else b.dmaWrite (hostMaster j.chamber) (some j.chamber) fn (j.ext + 16 + roundUp j.inLen 64) d
      (o, b.dmaWrite (hostMaster j.chamber) (some j.chamber) fn (j.ext + 8) (leBytes 4 d.length))

/-- An engine call's output, put in scratch by the port through the core's Ferrule (R63, R274); with it the length for OUT_LEN. -/
def callOutput (b : Block) (k t : Nat) (o : Outcome) : Outcome × Nat × Block :=
  let x := b.ticket k t
  match (if isFailure o.status then none else o.output) with
  | none => ({ o with output := none }, 0, b)
  | some d =>
    if x.outCap < d.length then (justStatus stFormat, d.length, b)
    else
      (o, d.length, portWrite b k x.outAddr d)

/-! ### Ends of engine calls (R276, R277) -/

/-- The area of a ticket whose call is over (R276), SEQ and AUDITED left for its completion. -/
def ticketArea (o : Outcome) (outLen : Nat) : Bytes :=
  let ext := if o.output.isSome ∧ !isFailure o.status then 4 else 0
  leBytes 2 o.status ++ [BitVec.ofNat 8 (1 + ext), 0] ++ leBytes 4 outLen ++ zeros 8
    ++ (if isFailure o.status then zeros 16 else fit 16 o.result)

/-- The body of a step leaf (R277). -/
def stepLeaf (b : Block) (k t : Nat) (o : Outcome) : LeafBody :=
  let x := b.ticket k t
  let c := b.core k
  let desc := Memory.readBytes c.context 0xE000 64
  { chamber := x.job.chamber, kind := 2, opcode := x.job.opcode, status := o.status, group := dGroup desc, lflags := 2, tag := dTag desc
    recipe := c.recipe, step := x.stepIndex, keyIn := x.job.keyIn, keyOut := x.job.keyOut, data := x.rdata }

/-- An engine call is over: its area is made, and its step leaf waits for its SEQ (R277). TICKET_COMPLETE shows it to the core. -/
def closeTicket (b : Block) (k t : Nat) (o : Outcome) (outLen : Nat) : Block :=
  let x := b.ticket k t
  let b := endJobRefs b x.job
  let b := b.modTicket k t fun x =>
    { x with area := ticketArea o outLen
             job := { x.job with outcome := some o, held := none, phase := .done, rIn := none, rOut := none, filled := [] } }
  if x.leaf = .entry then
    let ch := ChainId.chamber x.job.chamber
    (queueLeaf b ch { src := LeafSrc.step k t, body := leafBytes (stepLeaf b k t o) }).modTicket k t fun x => { x with leaf := .waiting }
  else b

/-- A requester's operation is over without output. -/
def endJob (b : Block) (r : Requester) (o : Outcome) : Block :=
  match r with
  | .item n => closeItem b n { o with output := none }
  | .ticket k t => closeTicket b k t { o with output := none } 0

/-- A requester's operation refused with a status. -/
def refuseJob (b : Block) (r : Requester) (s : Nat) : Block := endJob b r (justStatus s)

/-- The tags of a GCM decryption match, and the ciphertext is read again (R136): from the operand buffer, or, of an engine call, what its port holds
(DESIGN CHOICE, log entry 102). -/
def readAgain (b : Block) (r : Requester) : Block :=
  match r with
  | .item n =>
    let b := b.modJob r fun j => { j with phase := .reread, engId := none, asked := false }
    match b.item? n with
    | some i => issueBuffers b (i.chamber % 8)
    | none => b
  | .ticket _ _ => b.modJob r fun j => { j with phase := .ready, engId := none, again := some j.input }

/-- An engine delivers a requester's result (R160, R190): the output is written; with records to create their commit is asked for,
else the operation is over. An operation that is to run on has no outcome yet (R136). -/
def deliver (b : Block) (r : Requester) (e : Egress) : Block :=
  match b.job? r with
  | none => b
  | some j =>
    match j.held with
    | none => if j.phase = .engine then readAgain b r else b
    | some o =>
      let finish (b : Block) (o : Outcome) (outLen : Nat) : Block :=
        if isFailure o.status ∨ j.creates = [] then
          let b := releaseSlots b j.chamber j.creates
          match r with
          | .item n => closeItem b n o
          | .ticket k t => closeTicket b k t o outLen
        else
          let b := b.modJob r fun j => { j with phase := .commit, held := some o, engId := none, waits := outLen }
          b.sumpQueue { writes := j.creates, range := none, waiter := .job r }
      match r with
      | .item n =>
        let p := itemOutput b n j o e
        finish p.2 p.1 0
      | .ticket k t =>
        let p := callOutput b k t o
        finish p.2.2 p.1 p.2.1

/-- The commit of a requester's records is over (R115): the reserved slots are free again and the operation ends. -/
def jobCommitted (b : Block) (r : Requester) (writes : List NewRecord) (status : Nat) : Block :=
  let c := match writes with
    | w :: _ => b.chamberOfGidx w.gidx
    | [] => 64
  let b := releaseSlots b c writes
  match b.job? r with
  | none => b
  | some j =>
    match j.phase, j.held with
    | .commit, some o =>
      let o := if status = stOk then o else justStatus status
      match r with
      | .item n => closeItem b n o
      | .ticket k t => closeTicket b k t o (if status = stOk then j.waits else 0)
    | _, _ => b

/-! ### Recipe faults (R279, R280) -/

/-- KIND of `VFC_LASTFAULT` (R330). -/
inductive FaultKind where
  | illegal
  | loop
  | stack
  | callblock
  | tickets
  | outstanding
  | badstatus
  | watchdog
  | micro
  deriving DecidableEq, Repr

/-- The code of a kind. -/
def FaultKind.code : FaultKind → Nat
  | .illegal => 1
  | .loop => 2
  | .stack => 3
  | .callblock => 4
  | .tickets => 5
  | .outstanding => 6
  | .badstatus => 7
  | .watchdog => 8
  | .micro => 9

/-- A running core's item ends with a status and no result: every ticket is aborted and the core clears. -/
def endItemOnCore (b : Block) (k status : Nat) : Block :=
  match (b.core k).item with
  | some n =>
    let b := stopCore b k
    closeItem b n (justStatus status)
  | none => startClearing b k

/-- A recipe fault (R280): the last-fault register, and the item ends with RECIPE_FAULT. -/
def recipeFault (b : Block) (k : Nat) (f : FaultKind) : Block :=
  let c := b.core k
  match c.item with
  | some n =>
    match b.item? n with
    | some i =>
      let b := b.modCh i.chamber fun h =>
        { h with lastFault := BitVec.ofNat 32 (f.code + 2 ^ 4 * (k % 8) + 2 ^ 7 * (k / 8) + 2 ^ 16 * c.recipe)
                 faultCnt := min 0xFFFF (h.faultCnt + 1) }
      ((endItemOnCore b k stRecipeFault).event k 0x00F (some i.chamber)).tally 145
    | none => b
  | none => b

end Sys2Proof.Machine
end

