-- ==== Sys2Proof/Machine/PinPath.lean ====
section
/-! DEFINITION. Where a cleartext PIN block stands in a Spindle pair (R12, R96, R104, R128): the registers between the two pipelines, computed from
the job when a block passes them and held nowhere else. -/
namespace Sys2Proof.Machine

/-- The cleartext block that leaves stage 28 of the first pipeline for the converter, or of the second for the reference block of
PIN_VERIFY_COMPARE (R12, R104). -/
def clearBlock (j : Job) (second : Bool) : Option Bytes :=
  let pan := (nibbles (j.op 16 10)).takeWhile (· < 10)
  let fmt := j.opN 26 % 16
  if second then
    if j.opcode = 0x0112 then some (openBlock (j.opN 26 / 16) j.kOut.alg j.kOut.material j.input pan) else none
  else if j.opcode = 0x0101 then
    let t := dukptKey j.kIn (j.opN 27) (j.op 28 12) variantPin 0x1000
    some (openBlock fmt t.1 t.2.1 (j.op 0 16) pan)
  else if isFusedPin j.opcode then some (openBlock fmt j.kIn.alg j.kIn.material (j.op 0 16) pan)
  else none
where
  /-- The PIN opcodes whose inbound block is under KEY_IN itself. -/
  isFusedPin (op : Nat) : Bool := op == 0x0100 || op == 0x0110 || op == 0x0111 || op == 0x0112

/-- What the converter hands to stage 1 of the second pipeline: the outbound PIN field with its binding, or the transformed parameter of
PIN_VERIFY_PVV; zero where the inbound block was not valid (R90, R96, R102). -/
def secondInput (j : Job) : Option Bytes :=
  let outFmt := j.opN 26 / 16
  let o := j.held.getD (justStatus stPinBlock)
  if j.opcode = 0x0100 ∨ j.opcode = 0x0101 then
    let n := if outFmt = 4 then 16 else 8
    if isFailure o.status then some (zeros n)
    else if outFmt = 4 then
      let pan := (nibbles (j.op 16 10)).takeWhile (· < 10)
      some (openBlock 4 j.kOut.alg j.kOut.material o.result pan)
    else some (blockDec j.kOut.alg j.kOut.material (o.result.take 8))
  else if j.opcode = 0x0111 then
    if o.status = stPinBlock then some (zeros 8)
    else
      let pan := (nibbles (j.op 16 10)).takeWhile (· < 10)
      let e := pan.dropLast
      let pin := (parsePin (j.opN 26 % 16) ((clearBlock j false).getD [])).getD []
      some (packNibbles (e.drop (e.length - 11) ++ [j.opN 27] ++ pin.take 4))
  else none

end Sys2Proof.Machine
end

