-- ==== Sys2Proof/Machine/EngineOps.lean ====
section
/-! DEFINITION. Key lookups and fills, the start of an operation, and the engines: Spindle, Auger and Gallery (chapters 2, 5 and 6). -/
namespace Sys2Proof.Machine

/-- A mailbox. -/
def Block.mbx (b : Block) (i : Nat) : Mailbox := Tab.get b.bimor.mbx Mailbox.reset i

/-- A mailbox changed by `f`. -/
def Block.modMbx (b : Block) (i : Nat) (f : Mailbox → Mailbox) : Block :=
  b.modBimor fun m => { m with mbx := Tab.modify m.mbx Mailbox.reset i f }

/-- The number of a mailbox (R336). -/
def mbxNo : Mbx → Nat
  | .pf => 0
  | .so => 1
  | .au => 2
  | .ce => 3
  | .op => 4
  | .sb => 5

/-- The mailboxes. -/
def allMbx : List Mbx := [.pf, .so, .au, .ce, .op, .sb]

/-- A command's code, of the request a mailbox has copied (R341). -/
def mbxCode (x : Mailbox) : Nat := leField x.command 2 2

/-! ### Withdrawals (R249) -/

/-- The direct item of a requester, if it is one: an item that no core runs. -/
def directItem? (b : Block) (r : Requester) : Option (Nat × Item) :=
  match r with
  | .item n => match b.item? n with
    | some i => if i.core.isNone then some (n, i) else none
    | none => none
  | .ticket _ _ => none

/-- A direct item withdrawn from its consumer (R249): its references end and it returns to its ready list under a hold. What a fill gave
it stays referenced. -/
def withdrawItem (b : Block) (n : Nat) (i : Item) (why : Hold) : Block :=
  let b := endJobRefs b { i.job with filled := [] }
  b.modItem n fun i =>
    { i with st := .held why, waited := none, job := { i.job with phase := .keys, rIn := none, rOut := none, held := none, engId := none } }

/-- A requester whose operation cannot go on for want of keys or of a count: a direct item is withdrawn, an engine call stays where it
is (R41, R249). -/
def holdRequester (b : Block) (r : Requester) (why : Hold) : Block :=
  match directItem? b r with
  | some (n, i) => withdrawItem b n i why
  | none => b

/-! ### Lookups (R34, R37, R46, R47) -/

/-- A lookup that has missed is in progress for a requester. -/
def waitsForFill (b : Block) (r : Requester) : Bool := b.keys.misses.any fun m => m.waiters.contains r

/-- What a handle field's lookup gives: nothing to look up, a key, a refusal, or a miss. -/
inductive FieldLookup where
  | skip
  | key (r : Resolved)
  | refused (status : Nat)
  | missed (gidx : Nat)
  deriving DecidableEq, Repr

/-- A handle field resolved with its role (R28, R29, R37). An audit key serves no descriptor (R28). -/
def lookupField (b : Block) (c h : Nat) (n : KeyNeed) : FieldLookup :=
  let look (roles : Option (List Role)) : FieldLookup :=
    match resolve b h c true with
    | .fail s => .refused s
    | .miss g => .missed g
    | .ok r =>
      let fits := match roles with
        | some l => l.any fun x => roleMet x r.head (hClass h)
        | none => true
      if recUsage r.head = ascii "9A" ∨ !fits then .refused stKeyUsage else .key r
  match n with
  | .none => .skip
  | .unused => .skip
  | .role rs => look (some rs)
  | .any => look none

/-- The next phase of a job whose keys are resolved. -/
def afterKeys (j : Job) : Phase := if readsBuffer j ∧ !j.headerOk then .buffer else .ready

/-- References on the keys that a lookup has found (R47): a reference that a fill took for the requester is used up first. -/
def takeKeys (b : Block) (j : Job) (rs : List Resolved) : Block :=
  let step (acc : List Resolved × Block) (r : Resolved) : List Resolved × Block :=
    if acc.1.any fun f => f.gidx == r.gidx then
      ((acc.1.eraseP fun f => f.gidx == r.gidx), (recordSlots r.gidx r.head).foldl touchSlot acc.2)
    else (acc.1, takeRefs acc.2 r.gidx r.head)
  let a := rs.foldl step (j.filled, b)
  a.1.foldl endRefs a.2

/-- The read of an operand buffer asked for (R62, R240). -/
def askBuffer (b : Block) (r : Requester) (j : Job) : Block :=
  match r with
  | .item _ => issueBuffers b (j.chamber % 8)
  | .ticket _ _ => b

/-- Both lookups have hit: references are taken and the job goes on (R46, R47). -/
def keysFound (b : Block) (r : Requester) (j : Job) (kin kout : Option Resolved) : Block :=
  let b := takeKeys b j (kin.toList ++ kout.toList)
  let b := b.modJob r fun j => { j with rIn := kin, rOut := kout, filled := [], phase := afterKeys j }
  askBuffer b r j

/-- KEY_LOOKUP: the key lookups of a requester's operation (R37, R46, R224, R249). -/
def keyLookup (b : Block) (r : Requester) : Block :=
  match b.job? r with
  | none => b
  | some j =>
    match j.phase, opRow j.opcode with
    | .keys, some row =>
      if waitsForFill b r then b
      else
        let a := lookupField b j.chamber j.keyIn (row.keyIn j)
        let o := lookupField b j.chamber j.keyOut (row.keyOut j)
        let count (b : Block) (f : FieldLookup) : Block := match f with
          | .skip => b
          | .missed _ => b.tally 129
          | _ => b.tally 128
        let b := count (count b a) o
        let miss (gs : List Nat) : Block :=
          if b.sump.st ≠ .ready then refuseJob b r stSumpUnavailable
          else holdRequester (startMisses b j.chamber r gs) r .miss
        match a, o with
        | .refused s, _ => refuseJob b r s
        | .missed g, .missed g' => miss [g, g']
        | .missed g, _ => miss [g]
        | _, .refused s => refuseJob b r s
        | _, .missed g => miss [g]
        | .key k, .key k' => keysFound b r j (some k) (some k')
        | .key k, .skip => keysFound b r j (some k) none
        | .skip, .key k' => keysFound b r j none (some k')
        | .skip, .skip => keysFound b r j none none
    | _, _ => b

/-- A mailbox's command fails with a status. -/
def failMailbox (b : Block) (m : Mbx) (s : Nat) : Block := b.modMbx (mbxNo m) fun x => { x with failed := x.failed <|> some s }

/-- A fill is over for one who waited: the slot is referenced for it, and a direct item goes ahead of its group (R47, R249). -/
def fillServes (b : Block) (gidx : Nat) (head : Bytes) (r : Requester) : Block :=
  let b := takeRefs b gidx head
  let f : Resolved := { handle := 0, head := head, material := [], gidx := gidx, drawn := none, companion := [] }
  let b := b.modJob r fun j => { j with filled := j.filled ++ [f] }
  match r with
  | .item n => b.modItem n fun i => { i with ahead := true }
  | .ticket _ _ => b

/-- A fill has failed for one who waited (R223, R224): the operation ends, or the item of a batch that names the key (R184). -/
def fillFails (b : Block) (gidx status : Nat) (r : Requester) : Block :=
  let batch (j : Job) : Bool := j.opcode == 0x0402
  let mark (j : Job) : Job := { j with keyErrors := j.keyErrors ++ [(gidx, status)] }
  match r with
  | .item n => match b.item? n with
    | some i => if batch i.job then b.modItem n fun i => { i with job := mark i.job, ahead := true } else refuseJob b r status
    | none => b
  | .ticket k t =>
    if batch (b.ticket k t).job then b.modTicket k t fun x => { x with job := mark x.job } else refuseJob b r status

/-- A commit in progress writes the record at an index (R222). -/
def beingWritten (b : Block) (gidx : Nat) : Bool :=
  match b.sump.commit with
  | some k => k.reqs.any fun r => (r.slots b).any fun s => s.1 == gidx
  | none => false

/-- KEY_CACHE_FILL: the reads for a miss have returned `ret` (R219): the record is verified, unsealed and filled, or the lookup fails with
SUMP_INTEGRITY. Where every way is pinned or referenced the fill waits (R47), and so it does for a commit that writes the record (R222). -/
def keyCacheFill (b : Block) (gidx : Nat) (ret : DdrReturn) : Block :=
  match b.keys.misses.find? fun m => m.gidx == gidx with
  | none => b
  | some m =>
    let gone (b : Block) : Block := startWaitingMisses (b.modKeys fun k => { k with misses := k.misses.filter fun x => x.gidx != gidx })
    let fails (b : Block) (s : Nat) : Block :=
      m.pinFor.foldl (fun b x => failMailbox b x s) (m.waiters.foldl (fun b r => fillFails b gidx s r) (gone b))
    if b.sump.st ≠ .ready then fails b stSumpUnavailable
    else if beingWritten b gidx then b
    else
      let p := ddrRead b ret
      match readWhole p.2 p.1 gidx with
      | (.ok lines, b) =>
        match fillRecord b gidx lines with
        | none => b
        | some b =>
          let head := (lines.headD ([], 0)).1
          m.waiters.foldl (fun b r => fillServes b gidx head r) ((gone b).tally 131)
      | (.error _, b) => fails b stSumpIntegrity

/-- PIN_REFETCH: after a wake the next pinned record that is not resident is fetched (R51); with none left it is over. -/
def pinRefetch (b : Block) : Block :=
  let away (p : Nat × Nat) : Bool := !b.keys.holds p.1 p.2 && !underBad b p.1
  if b.keys.refetching ∧ b.sump.st = .ready then
    match b.keys.pins.find? fun p => away p && !b.keys.misses.any (fun m => m.gidx == p.1) with
    | some p => b.modKeys fun k =>
        { k with misses := k.misses ++ [{ gidx := p.1, payer := 64, waiters := [], pinFor := [], refetch := true }] }
    | none => if b.keys.pins.any away then b else b.modKeys fun k => { k with refetching := false }
  else b

/-! ### Operand buffers (R62, R71) -/

/-- IN_LEN's limit. -/
def maxInput : Nat := 1048560

/-- The header of an operand buffer is valid (R62): IN_LEN within its limit and the reserved bytes zero. -/
def bufferHeaderOk (d : Bytes) : Bool := decide (leField d 0 4 ≤ maxInput) && allZero (slice d 12 4)

/-- An item refused by the check of R68, outside steps 2 and 3 of R70: the digest of its leaf takes the whole input, so its operand buffer is read
for it (R195). -/
def refuseRecipe (b : Block) (n : Nat) (i : Item) : Block :=
  if i.leaf ≠ .none ∧ readsBuffer i.job then
    issueBuffers (closeItem (b.modItem n fun i => { i with job := { i.job with phase := .digest, asked := false } }) n (justStatus stFormat))
      (i.chamber % 8)
  else closeItem b n (justStatus stFormat)

/-- OPERAND_BUFFER_READ: the read of item `n`'s operand buffer has returned `x`, the buffer from its first byte on (R62, R70, R71); the second one of a
GCM decryption gives its input again (R136), and one for a leaf's digest only the bytes that the digest takes (R195). What the host's memory holds beyond what is given reads as zero. -/
def operandBufferRead (b : Block) (n : Nat) (x : DmaRead) : Block :=
  match b.item? n with
  | some i =>
    let j := i.job
    if !i.reads ∨ !j.asked then b
    else
    let (x, b) := dmaRead b i.chamber x
    if j.phase = .digest then
      let got (j : Job) : Job := match x with
        | .data d =>
          let d := fit 16 (d.take 16) ++ d.drop 16
          if bufferHeaderOk d then { j with phase := .done, headerOk := true, inLen := leField d 0 4, input := fit (leField d 0 4) (d.drop 16) }
          else { j with phase := .done }
        | _ => { j with phase := .done }
      let b := match x with
        | .data _ => b
        | _ => bufferReadFault b (j.chamber + 1) x
      issueBuffers (closeLeaf (b.modJob (.item n) got) n) (i.chamber % 8)
    else
      let fail (b : Block) (s : Nat) : Block :=
        match i.core, j.phase with
        | some k, .buffer => endItemOnCore b k s
        | _, _ => refuseJob b (.item n) s
      let fn := j.chamber + 1
      let b := b.modJob (.item n) fun j => { j with asked := false }
      let lost (b : Block) : Block := b.modJob (.item n) fun j => { j with input := [] }
      let b := match x with
        | .data d =>
          let d := fit 16 (d.take 16) ++ d.drop 16
          if j.phase = .reread then
            b.modJob (.item n) fun j => { j with phase := .ready, again := some (fit j.inLen (d.drop 16)) }
          else if bufferHeaderOk d then
            let len := leField d 0 4
            let b := b.modJob (.item n) fun j =>
              { j with phase := .ready, headerOk := true, inLen := len, outCap := leField d 4 4, input := fit len (d.drop 16) }
            match i.core with
            | some k =>
              if (b.core k).st = .stalled .header then
                b.modCore k fun c => { c with st := .running, context := Memory.writeBytes c.context 0xE040 (d.take 16) }
              else b
            | none => b
          else fail b stFormat
        | _ => fail (lost (bufferReadFault b fn x)) stBufferAccess
      issueBuffers b (i.chamber % 8)
  | none => b

/-! ### Starting an operation (step 4 of R70) -/

/-- The number of a chamber's Chisel entries an engine allows (R124, R157). -/
def chiselShare (b : Block) (all : Nat) : Nat := max 1 (all / b.n)

/-- Every requester of the Chisel ports with its job: outstanding tickets, and the items of cores in a standard recipe. -/
def chiselCalls (b : Block) : List (Requester × Job) :=
  b.chisel.cores.flatMap fun p =>
    (p.2.tickets.filterMap fun t => if t.2.st = .outstanding then some (Requester.ticket p.1 t.1, t.2.job) else none)
      ++ (match p.2.st, p.2.item with
        | .standard, some n => match b.item? n with
          | some i => [(Requester.item n, i.job)]
          | none => []
        | _, _ => [])

/-- The request of a call has not left its engine's queue. -/
def queued (b : Block) (r : Requester) (j : Job) : Bool :=
  match j.phase with
  | .engine => (b.spindle.queue.any fun q => q.owner == r) || b.gallery.queue.any fun q => q.owner == GaOwner.job r
  | .commit => false
  | .done => false
  | _ => match r with
    | .ticket _ _ => true
    | .item _ => false

/-- The engine class of an opcode. -/
def opClass (op : Nat) : Cls := ((opRow op).map (·.cls)).getD .chs

/-- Chisel entries taken on a Spindle pipeline, by all chambers and by one. -/
def spChisel (b : Block) (pipe : Nat) (c : Option Nat) : Nat :=
  ((chiselCalls b).filter fun p => opClass p.2.opcode == .spa && p.2.pipe == pipe && queued b p.1 p.2
    && match c with
      | some x => p.2.chamber == x
      | none => true).length

/-- Chisel entries taken in Gallery's queue. -/
def gaChisel (b : Block) (c : Option Nat) : Nat :=
  ((chiselCalls b).filter fun p => opClass p.2.opcode == .gal && queued b p.1 p.2
    && match c with
      | some x => p.2.chamber == x
      | none => true).length

/-- Places taken in the intake of Auger's Chisel port: its messages, and the calls on their way to it. -/
def auChisel (b : Block) : Nat :=
  (b.auger.msgs.filter fun m => m.port == .chisel).length
    + ((chiselCalls b).filter fun p => opClass p.2.opcode == .aug && queued b p.1 p.2).length

/-- The messages that the intake of a port holds: sixteen, which the manual states for the direct port (R242) and not for the others (DESIGN CHOICE,
log entry 103). -/
abbrev auIntake : Nat := 16

/-- A port of Auger has room for one more message of a job that is not there yet (R150, R242). -/
def augerRoom (b : Block) (direct : Bool) : Bool := decide ((if direct then augDirect b else auChisel b) < auIntake)

/-- The pipelines that may take a chamber's engine call: those with a free Chisel entry, in awake pairs where one is awake; a fused one
goes to the first of a pair (R124, R128). -/
def callPipes (b : Block) (c opcode : Nat) : List Nat :=
  let all := (if isFused opcode then [0, 2] else [0, 1, 2, 3]).filter fun p =>
    decide (spChisel b p none < 32) && decide (spChisel b p (some c) < chiselShare b 32)
  let awake := all.filter fun p => b.domainOn (spDomain (p / 2))
  if awake.isEmpty then all else awake

/-- A Chisel port has an entry for a call (R18, R124, R150, R157). -/
def callRoom (b : Block) (c opcode : Nat) : Bool :=
  match opClass opcode with
  | .spa => !(callPipes b c opcode).isEmpty
  | .gal => decide (gaChisel b none < 128) && decide (gaChisel b (some c) < chiselShare b 128)
  | .aug => augerRoom b false
  | _ => true

/-- The pipeline an engine call goes to: which of those with room is not stated, so it is a free choice (log entry 12). -/
def callPipe (b : Block) (c opcode : Nat) : Nat × Block :=
  let l := callPipes b c opcode
  if opClass opcode = .spa then
    let (x, b) := b.fresh 1
    (l.getD (ofLe x % max 1 l.length) 0, b)
  else (0, b)

/-- An operation whose work goes to an engine: its request is queued and its outcome kept until the engine delivers (R124, R150, R157). A direct item's
dispatch is its final one (R253). -/
def submit (b : Block) (r : Requester) (j : Job) (w : Work) (o : Option Outcome) (creates : List NewRecord) : Block :=
  let direct := (directItem? b r).isSome
  let b := match r with
    | .item n => recordWait b n
    | .ticket _ _ => b
  let run (b : Block) (id : Nat) : Block :=
    b.modJob r fun j => { j with phase := .engine, held := o, creates := creates, engId := some id }
  match w with
  | .spindle fuse pace second =>
    let s := b.spindle
    run { b with spindle := spQueue s (some r) j.chamber (if direct then .direct else .chisel) j.pipe fuse pace second } s.nextId
  | .auger latency slots =>
    run { b with auger := auQueue b.auger (some r) (if direct then .direct else .chisel) latency slots } b.auger.nextId
  | .gallery lattice windowed rejects drawn =>
    let g := b.gallery
    let q : GaReq :=
      { id := g.nextId, owner := .job r, payer := j.chamber, source := if direct then .direct else .chisel, lattice := lattice
        drawn := drawn, message := none, windowed := windowed, rejects := rejects }
    run { b with gallery := { g with queue := g.queue ++ [q], nextId := g.nextId + 1 } } g.nextId

/-- Work for Auger finds its port full: a MAC under an M7 key waits at the pair's intake, or at its engine port (R18, R242). Other work had its place
before. -/
def intakeFull (b : Block) (r : Requester) (j : Job) (w : Work) : Bool :=
  match w with
  | .auger _ _ => opClass j.opcode == .spa && !augerRoom b (directItem? b r).isSome
  | _ => false

/-- What follows the verdict of an opcode's row on operation `j` of `r`: its end, its wait for a count, the key misses it starts, or the work it
sends to its engine. `whole` is the device as it stood, where the work finds no place at its port. -/
def verdictOf (whole : Block) (r : Requester) (j : Job) (v : Verdict × Block) : Block :=
  match v with
  | (.refuse s, b) => refuseJob b r s
  | (.wait, b) =>
    holdRequester (match r with
      | .item n => b.modItem n fun i => { i with needCount := i.core.isNone }
      | .ticket _ _ => b) r .counter
  | (.miss gs, b) =>
    if b.sump.st ≠ .ready then
      b.modJob r fun j => { j with keyErrors := j.keyErrors ++ gs.map fun g => (g, stSumpUnavailable) }
    else holdRequester (startMisses b j.chamber r gs) r .miss
  | (.run w o creates, b) => if intakeFull b r j w then whole else submit b r j w (some o) creates
  | (.rerun w, b) => submit b r j w none []

/-- A requester's operation run from step 4 of R70 on, as the opcode's row says. A standard recipe's call waits for an engine entry. -/
def opRun (b : Block) (opcode : Nat) (r : Requester) : Block :=
  match b.job? r, opRow opcode with
  | some j, some row =>
    if j.phase ≠ .ready ∨ j.opcode ≠ opcode ∨ waitsForFill b r then b
    else
      let standard : Bool := match r with
        | .item _ => (directItem? b r).isNone
        | .ticket _ _ => false
      if standard ∧ !callRoom b j.chamber opcode then b
      else
        let whole := b
        let p := if standard then callPipe b j.chamber opcode else (j.pipe, b)
        let b := p.2.modJob r fun j => { j with pipe := p.1 }
        let j := { j with pipe := p.1 }
        verdictOf whole r j (row.run b r j)
  | _, _ => b

/-- Items that wait for a count of a record are free to go once its reservation stands or the record has changed (R41, R241). -/
def wakeCounts (b : Block) (gidx : Nat) : Block :=
  b.chuck.items.foldl
    (fun b p => if p.2.needCount && handleGidx b p.2.job.keyIn == gidx then b.modItem p.1 fun i => { i with needCount := false } else b) b

/-! ### Spindle (R118 to R130) -/

/-- The unit of a pipeline's counters (R520). -/
def spUnit (pipe : Nat) : Nat := 64 + pipe

/-- A pipeline's domain is on and not warming. -/
def pipeAwake (b : Block) (pipe : Nat) : Bool := b.domainOn (spDomain (pipe / 2))

/-- A request's credit admits it (R125): direct above the debt floor, any other with a whole credit. -/
def spFunded (b : Block) (q : SpReq) : Bool :=
  let c := (b.chamber q.payer).spCredit
  if q.source = .direct then decide (-(1024 * b.n : Int) < c) else decide ((b.n : Int) ≤ c)

/-- The requests of a pipeline that may issue in this cycle as far as pace goes (R130). -/
def spCandidates (b : Block) (pipe : Nat) : List SpReq :=
  b.spindle.queue.filter fun q => q.pipe == pipe && decide (q.notBefore ≤ b.spindle.cycle)

/-- The eligible requests of a pipeline (R125). The manual does not say which cycle is the 1,024th in which a system request is eligible regardless:
the cycles are counted from reset. Two borrowing chambers without credit each wait for the other to have no eligible request: both are eligible
(DESIGN CHOICE, log entry 104). -/
def spEligible (b : Block) (pipe : Nat) : List SpReq :=
  let l := spCandidates b pipe
  let funded := l.filter fun q => q.payer != 64 && spFunded b q
  let borrow := l.filter fun q => q.payer != 64 && (b.chamber q.payer).borrow && funded.all fun x => x.payer == q.payer
  let chamber := l.filter fun q => funded.contains q || borrow.contains q
  if chamber.isEmpty ∨ b.spindle.cycle % 1024 = 1023 then l.filter fun q => q.payer == 64 || chamber.contains q else chamber

/-- The reserved passes of a fused request issued now (R13, R97, R100, R129): pipeline and cycle of each after the first. -/
def spReservations (q : SpReq) (t : Nat) : List (Nat × Nat) :=
  let passes := (q.pace.map (·.1)).sum
  let first := (List.range (passes - 1)).map fun i => (q.pipe, t + 28 * (i + 1))
  let base := if q.fuse = .sameCycle then t else t + 28 * (passes - 1) + 32
  first ++ (List.range q.second).map fun i => (q.pipe + 1, base + 28 * i)

/-- Every cycle a fused request would reserve is free (R126). In the issue cycle itself the second pipeline must not have issued. -/
def spFits (b : Block) (issued : List Nat) (q : SpReq) : Bool :=
  (spReservations q b.spindle.cycle).all fun p =>
    !(b.spindle.reserved.any fun r => r.pipe == p.1 && r.due == p.2)
      && !(decide (p.2 = b.spindle.cycle) && issued.contains p.1)

/-- The sources in the order after the one issued last (R126). -/
def spOrder : SpSource → List SpSource
  | .direct => [.chisel, .headstock, .sump, .direct]
  | .chisel => [.headstock, .sump, .direct, .chisel]
  | .headstock => [.sump, .direct, .chisel, .headstock]
  | .sump => [.direct, .chisel, .headstock, .sump]

/-- The first source in order whose oldest eligible request can issue, and the chambers of fused ones deferred on the way. -/
def spPick (b : Block) (issued : List Nat) (el : List SpReq) : List SpSource → List Nat → Option SpReq × List Nat
  | [], d => (none, d)
  | s :: rest, d =>
    match el.find? fun q => q.source == s with
    | some q => if q.fuse = .none ∨ spFits b issued q then (some q, d) else spPick b issued el rest (d ++ [q.payer])
    | none => spPick b issued el rest d

/-- The key that a pass uses, of its requester's two. -/
def passKey (b : Block) (owner : Option Requester) (second : Bool) : Option Resolved :=
  (owner.bind b.job?).bind fun j => if second then j.rOut else j.rIn

/-- The path of a pass, TDES or AES, from the key of its half. -/
def passIsTdes (b : Block) (owner : Option Requester) (second : Bool) : Bool :=
  match passKey b owner second with
  | some k => decide (k.alg ≤ 2)
  | none => false

/-- What a pass carries in the key lane (R120 to R122): the key record with its companion word, or the seal key of Sump. -/
def passLane (b : Block) (owner : Option Requester) (second : Bool) (source : Option SpSource) : Bytes :=
  match passKey b owner second with
  | some k => k.material ++ k.companion
  | none => if source = some .sump then b.keys.sealKey else []

/-- The key lane of stage `n` of a pipeline (R121): an empty stage carries zero. -/
def stageLane (b : Block) (pipe n : Nat) : Bytes :=
  (((Tab.get b.spindle.flight [] pipe).find? fun p => p.issued + n == b.spindle.cycle).map (·.lane)).getD (zeros 96)

/-- A request whose result nobody waits for any more (R127). -/
def spForgotten (b : Block) (id : Nat) (owner : Option Requester) : Bool :=
  match owner with
  | some r => match b.job? r with
    | some j => j.engId != some id
    | none => true
  | none => false

/-- A pass enters stage 1 (R118, R125, R526): one credit is charged, down to the floor. -/
def spEnter (b : Block) (pipe id payer : Nat) (owner : Option Requester) (source : Option SpSource) : Block :=
  let s := b.spindle
  let second : Bool := pipe % 2 = 1 && source.isNone
  let pass : SpPass :=
    { issued := s.cycle, id := id, owner := owner, payer := payer, lane := passLane b owner second source, discard := spForgotten b id owner }
  let who := if payer = 64 then none else some payer
  let tdes := passIsTdes b owner second
  let b := { b with spindle := { s with flight := Tab.modify s.flight [] pipe fun l => l ++ [pass] } }
  let b := if payer = 64 then b else b.modCh payer fun h => { h with spCredit := max (-(1024 * b.n : Int)) (h.spCredit - b.n) }
  let b := (b.tally 141).event (spUnit pipe) (if tdes then 0x003 else 0x002) who
  let b := match source with
    | none => b.event (spUnit pipe) 0x004 who
    | some .direct => b.event (spUnit pipe) 0x006 who
    | some .chisel => b.event (spUnit pipe) 0x007 who
    | some .headstock => b.event (spUnit pipe) 0x008 who
    | some .sump => b.event (spUnit pipe) 0x009 who
  b.modChuck fun x => { x with busyCycles := Tab.modify x.busyCycles 0 (84 + pipe) (· + 1) }

/-- A pace after its first pass, and the cycles that the next one waits (R130). -/
def paceNext (l : Pace) : Pace × Nat :=
  let rest : Pace := match l with
    | [] => []
    | (n, c) :: t => if n ≤ 1 then t else (n - 1, c) :: t
  (rest, match rest with
    | (_, true) :: _ => 28
    | _ => 0)

/-- A request issues its next pass (R126 to R130): a fused one reserves all its others, a chained one waits for its block. -/
def spIssueReq (b : Block) (pipe : Nat) (q : SpReq) : Block :=
  let t := b.spindle.cycle
  let b := { b with spindle := { b.spindle with last := Tab.set b.spindle.last pipe q.source } }
  if q.fuse = .none then
    let p := paceNext q.pace
    let rest : List SpReq := if p.1 = [] then [] else [{ q with pace := p.1, notBefore := t + p.2 }]
    let queue := b.spindle.queue.flatMap fun x => if x.id = q.id then rest else [x]
    spEnter { b with spindle := { b.spindle with queue := queue } } pipe q.id q.payer q.owner (some q.source)
  else
    let rs := spReservations q t
    let mk (p : Nat × Nat) : SpReserved := { pipe := p.1, due := p.2, id := q.id, owner := q.owner, payer := q.payer }
    let b := { b with spindle := { b.spindle with queue := b.spindle.queue.filter fun x => x.id != q.id
                                                  reserved := b.spindle.reserved ++ rs.map mk } }
    (spEnter b pipe q.id q.payer q.owner (some q.source)).tally 142

/-- One pipeline's choice in one cycle (R126): the pipelines that have issued so far are listed. -/
def spPipe (acc : List Nat × Block) (pipe : Nat) : List Nat × Block :=
  let b := acc.2
  if !pipeAwake b pipe then acc
  else
    match b.spindle.reserved.find? fun r => r.pipe == pipe && r.due == b.spindle.cycle with
    | some r =>
      let b := { b with spindle := { b.spindle with reserved := b.spindle.reserved.filter fun x => x != r } }
      (acc.1 ++ [pipe], spEnter b pipe r.id r.payer r.owner none)
    | none =>
      let el := spEligible b pipe
      let blocked := ((spCandidates b pipe).filter fun q => !el.contains q).map (·.payer)
      let b := if blocked = [] then b else b.events (spUnit pipe) 0x00B blocked
      let p := spPick b acc.1 el (spOrder (Tab.get b.spindle.last .sump pipe)) []
      let b := if p.2 = [] then b else b.events (spUnit pipe) 0x00A p.2
      match p.1 with
      | some q => (acc.1 ++ [pipe], spIssueReq b pipe q)
      | none => (acc.1, b.event (spUnit pipe) 0x005 none)

/-- Requests of Headstock and of the Sump controller take the entries that have freed, in order (R124). -/
def spAdmit (s : Spindle) : Spindle :=
  let step (s : Spindle) (q : SpReq) : Spindle :=
    if (s.waiting.find? fun x => x.source == q.source && x.pipe == q.pipe) = some q
        ∧ (s.queue.filter fun x => x.source == q.source && x.pipe == q.pipe).length < 8 then
      { s with queue := s.queue ++ [q], waiting := s.waiting.filter fun x => x.id != q.id }
    else s
  s.waiting.foldl step s

/-- A block of an awake pipeline is due to leave stage 28 (R118). -/
def spDue (b : Block) (pipe : Nat) : Bool :=
  pipeAwake b pipe && match Tab.get b.spindle.flight [] pipe with
    | p :: _ => decide (p.issued + 28 ≤ b.spindle.cycle)
    | [] => false

/-- The registers of the pairs as a cycle ends (R12, R104, R128): the output registers of stage 28 and the input registers of stage 1 are clear, and what
the converter has held for 4 cycles stands at the second pipeline. -/
def spRegisters (s : Spindle) : Spindle :=
  let leaves (p : Nat × Nat × Bytes) : Bool := decide (p.1 + 4 ≤ s.cycle)
  { s with outReg := []
           converter := s.converter.filter fun p => !leaves p
           inReg := (s.converter.filter leaves).foldl (fun t p => if p.2.2 = [] then t else Tab.set t (p.2.1 / 2 * 2 + 1) p.2.2) [] }

/-- SPINDLE_ISSUE: one cycle of issue on the four pipelines, and the credits' gain of 4 / N (R125, R126). A block that is due leaves its pipeline first:
the cycle does not pass over it (R118). -/
def spindleIssue (b : Block) : Block :=
  if [0, 1, 2, 3].any fun p => spDue b p then b
  else
    let b := { b with spindle := spAdmit b.spindle }
    let b := { b with ch := Tab.mapVals b.ch fun _ h =>
      if h.st = .none then h else { h with spCredit := min (256 * b.n : Int) (h.spCredit + 4) } }
    let b := ([0, 1, 2, 3].foldl spPipe ([], b)).2
    { b with spindle := spRegisters { b.spindle with cycle := b.spindle.cycle + 1 } }

/-- Passes of a request are still to come or under way (R129). -/
def spUnderWay (s : Spindle) (id : Nat) : Bool :=
  s.queue.any (·.id == id) || s.reserved.any (·.id == id) || s.flight.any fun p => p.2.any (·.id == id)

/-- The last block of a half of a fused request reaches the converter (R12, R104, R128): its cleartext stands in the output register and the
converter takes it, to hand on what the second pipeline is to have. -/
def spConvert (b : Block) (pipe : Nat) (p : SpPass) : Block :=
  let more := b.spindle.reserved.any (fun r => r.id == p.id && r.pipe == pipe) || (Tab.get b.spindle.flight [] pipe).any (·.id == p.id)
  match p.owner.bind b.job? with
  | some j =>
    match (if more ∨ j.engId ≠ some p.id then none else clearBlock j (pipe % 2 == 1)) with
    | some x =>
      let out := if pipe % 2 = 1 then [] else (secondInput j).getD []
      { b with spindle := { b.spindle with outReg := Tab.set b.spindle.outReg pipe x
                                           converter := b.spindle.converter ++ [(b.spindle.cycle, pipe, out)] } }
    | none => b
  | none => b

/-- PASS_COMPLETE: the oldest block of a pipeline leaves stage 28, 28 cycles after its issue (R118). With the last of its request the result is
delivered; one that was withdrawn delivers none (R127). -/
def passComplete (b : Block) (pipe : Nat) (e : Egress) : Block :=
  match Tab.get b.spindle.flight [] pipe with
  | [] => b
  | p :: rest =>
    if b.spindle.cycle < p.issued + 28 then b
    else
      let b := { b with spindle := { b.spindle with flight := Tab.set b.spindle.flight pipe rest } }
      if p.discard then b
      else
        let b := spConvert b pipe p
        if spUnderWay b.spindle p.id then b
        else match p.owner.bind fun r => (b.job? r).map fun j => (r, j) with
          | some (r, j) => if j.phase = .engine ∧ j.engId = some p.id then deliver b r e else b
          | none => b

/-! ### Auger (R148 to R151) -/

/-- The four ports that share what Flowstone leaves, in the order of R150, after one. -/
def auOrder : AuPort → List AuPort
  | .flowstone => [.gallery, .chisel, .direct, .headstock]
  | .gallery => [.chisel, .direct, .headstock, .gallery]
  | .chisel => [.direct, .headstock, .gallery, .chisel]
  | .direct => [.headstock, .gallery, .chisel, .direct]
  | .headstock => [.gallery, .chisel, .direct, .headstock]

/-- The number of a unit among Auger's: the SHA-2 unit is 2. -/
def auUnit : AugerUnit → Nat
  | .keccak k => k % 2
  | .sha2 => 2

/-- Messages that hold one of the SHA-2 unit's four contexts (R148). -/
def auContexts (a : Auger) : List Nat := a.msgs.filterMap fun m => if m.latency = latKeccak then none else m.place

/-- A message may have a unit's next slot (R148): it is the unit's, its permutation or compression before is done, and a new one of the SHA-2 unit finds
a free context. -/
def auReady (a : Auger) (u : AugerUnit) (m : AuMsg) : Bool :=
  decide (0 < m.left) && decide (m.doneAt ≤ Tab.get a.cycles 0 (auUnit u)) && match u with
    | .sha2 => m.latency != latKeccak && (m.place.isSome || decide ((auContexts a).length < 4))
    | .keccak k => m.latency == latKeccak && (m.place.isNone || m.place == some (k % 2))

/-- The message a unit serves next: Flowstone first on a Keccak core unless it had the last slot and another waits, then the other ports
in rotation, within a port the oldest (R150). One rotation serves the three units (DESIGN CHOICE, log entry 105). -/
def auChoose (a : Auger) (u : AugerUnit) : Option AuMsg :=
  let l := a.msgs.filter (auReady a u)
  let others := (auOrder a.last).findSome? fun p => l.find? fun m => m.port == p
  match u with
  | .sha2 => others
  | .keccak k =>
    match (l.find? fun m => m.port == .flowstone), others with
    | some f, some o => if Tab.get a.flowLast false k then some o else some f
    | some f, none => some f
    | none, o => o

/-- Where a message is served from its first slot on: on that Keccak core, or in the lowest free context of the SHA-2 unit (R148). -/
def auPlace (a : Auger) (u : AugerUnit) (m : AuMsg) : Option Nat :=
  match m.place, u with
  | some x, _ => some x
  | none, .keccak k => some (k % 2)
  | none, .sha2 => (List.range 4).find? fun i => !(auContexts a).contains i

/-- AUGER_ISSUE: one cycle of a unit, in which it grants one slot (R148, R150). -/
def augerIssue (b : Block) (u : AugerUnit) : Block :=
  if !b.domainOn 17 then b
  else
    let a := b.auger
    let t := Tab.get a.cycles 0 (auUnit u)
    let a' := { a with cycles := Tab.set a.cycles (auUnit u) (t + 1) }
    match auChoose a u with
    | none => { b with auger := a' }
    | some m =>
      let take (x : AuMsg) : AuMsg :=
        if x.id = m.id then { x with left := x.left - 1, place := auPlace a u m, doneAt := t + m.latency } else x
      { b with auger :=
          { a' with msgs := a.msgs.map take, last := if m.port = .flowstone then a.last else m.port
                    flowLast := match u with
                      | .keccak k => Tab.set a.flowLast k (m.port == .flowstone)
                      | .sha2 => a.flowLast } }

/-- The unit of a message. -/
def auMsgUnit (m : AuMsg) : Nat := if m.latency = latKeccak then m.place.getD 0 else 2

/-- AUGER_RESULT: a message whose last permutation or compression is done delivers its digest and its state is cleared (R148, R150). -/
def augerResult (b : Block) (id : Nat) (e : Egress) : Block :=
  match b.auger.msgs.find? fun m => m.id == id && m.left == 0 && decide (m.doneAt ≤ Tab.get b.auger.cycles 0 (auMsgUnit m)) with
  | none => b
  | some m =>
    let b := { b with auger := { b.auger with msgs := b.auger.msgs.filter fun x => x.id != id } }
    match m.owner.bind fun r => (b.job? r).map fun j => (r, j) with
    | some (r, j) => if j.phase = .engine ∧ j.engId = some id then deliver b r e else b
    | none => b

/-! ### Gallery (R153 to R190) -/

/-- Cores of Gallery: curve cores 0 to 15, lattice cores 16 to 19 (R153). -/
def gaLattice (k : Nat) : Bool := decide (16 ≤ k)

/-- The domain of a Gallery core. -/
def gaDomain (k : Nat) : Nat := if gaLattice k then gltDomain else gqDomain (k / 4)

/-- An event of a core's quad; lattice cores have no counters (R520). -/
def gaEvent (b : Block) (k ev : Nat) (payer : Nat) : Block :=
  if gaLattice k then b else b.event (68 + k / 4) ev (if payer = 64 then none else some payer)

/-- The state of a Gallery core. -/
def Block.gaCore (b : Block) (k : Nat) : GaCoreState := Tab.get b.gallery.cores .idle k

/-- A Gallery core set. -/
def Block.setGaCore (b : Block) (k : Nat) (s : GaCoreState) : Block :=
  { b with gallery := { b.gallery with cores := Tab.set b.gallery.cores k s } }

/-- A chamber's counter for a kind of core is at least zero (R158). -/
def gaFunded (b : Block) (q : GaReq) : Bool :=
  let h := b.chamber q.payer
  decide (0 ≤ if q.lattice then h.lattice else h.curve)

/-- The eligible requests for a kind of core, oldest first (R158). Two borrowing chambers that are not funded each wait for the other to have no eligible
request: both are eligible (DESIGN CHOICE, log entry 104). -/
def gaEligible (b : Block) (lattice : Bool) : List GaReq :=
  let l := b.gallery.queue.filter fun q => q.lattice == lattice && q.source != .flowstone
  let funded := l.filter fun q => q.payer != 64 && gaFunded b q
  let borrow := l.filter fun q => q.payer != 64 && (b.chamber q.payer).borrow && funded.all fun x => x.payer == q.payer
  let chamber := l.filter fun q => funded.contains q || borrow.contains q
  let count := if lattice then b.gallery.latticeCount else b.gallery.curveCount
  if chamber.isEmpty ∨ count % 1000 = 999 then l.filter fun q => q.payer == 64 || chamber.contains q else chamber

/-- The sources in the order after the one issued last (R159). -/
def gaOrder : GaSource → List GaSource
  | .direct => [.chisel, .headstock, .direct]
  | .chisel => [.headstock, .direct, .chisel]
  | .headstock => [.direct, .chisel, .headstock]
  | .flowstone => [.direct, .chisel, .headstock]

/-- The request a kind of core takes next (R159). -/
def gaChoose (b : Block) (lattice : Bool) : Option GaReq :=
  match b.gallery.queue.find? fun q => q.lattice == lattice && q.source == .flowstone with
  | some q => some q
  | none => (gaOrder b.gallery.last).findSome? fun s => (gaEligible b lattice).find? fun q => q.source == s

/-- The lowest idle core of an awake domain for which a request is eligible, and the request (R159). -/
def gaPick (b : Block) : Option (Nat × GaReq) :=
  (List.range 20).findSome? fun k =>
    if b.domainOn (gaDomain k) && b.gaCore k == .idle then (gaChoose b (gaLattice k)).map fun q => (k, q) else none

/-- The private key material of a request's operation (R154): of a key, or of the audit key that signs a header. -/
def gaPrivate (b : Block) (q : GaReq) : Bytes :=
  match q.owner with
  | .job r => ((b.job? r).map pkPrivateWords).getD []
  | .header i n pq => (((b.chain i).header? n).bind fun h => auditSeed b i (if pq then h.pqGidx else h.edGidx)).getD []
  | .headstock => []

/-- The public words of a request's operation (R154). -/
def gaPublic (b : Block) (q : GaReq) : Bytes :=
  match q.owner with
  | .job r => ((b.job? r).map pkPublicWords).getD []
  | .header i n _ => (((b.chain i).header? n).map (·.signed)).getD []
  | .headstock => []

/-- A request's message at Auger's Gallery port, where it has one that is streamed (R150, R154). -/
def gaStream (b : Block) (q : GaReq) : GaReq × Block :=
  match q.owner with
  | .job r => match (b.job? r).bind pkStream with
    | some (l, n) => ({ q with message := some b.auger.nextId }, { b with auger := auQueue b.auger none .gallery l n })
    | none => (q, b)
  | .header _ _ _ => (q, b)
  | .headstock => (q, b)

/-- GALLERY_DISPATCH: an idle core takes the next request (R159), its operand memory takes what the operation works on (R154), and a long message goes to
Auger. A header's signature with ML-DSA-87 draws its rnd now, or takes zeros while Lantern is failed (R205, R408). An operation that checks outside
values begins with its validation window (R179). -/
def galleryDispatch (b : Block) : Block :=
  let b := { b with gallery := gaAdmit b.gallery }
  if !b.gallery.tablesOk then b
  else
    match gaPick b with
    | none => b
    | some (k, q) =>
      let p : Bytes × Block := match q.owner with
        | .header _ _ true => match b.draw 32 with
          | some (x, b) => (x, b)
          | none => (zeros 32, gaEvent b k 0x00A q.payer)
        | _ => (q.drawn, b)
      let s := gaStream p.2 { q with drawn := p.1 }
      let q := s.1
      let b := s.2
      let g := b.gallery
      let g := { g with queue := g.queue.filter fun x => x.id != q.id, last := if q.source = .flowstone then g.last else q.source
                        secret := Tab.set g.secret k (gaPrivate b q ++ q.drawn)
                        operands := Tab.set g.operands k (gaPublic b q)
                        curveCount := if q.lattice then g.curveCount else g.curveCount + 1
                        latticeCount := if q.lattice then g.latticeCount + 1 else g.latticeCount }
      gaEvent (({ b with gallery := g }).setGaCore k (if q.windowed then .validating q else .working q)) k 0x002 q.payer

/-- A core's secret operand words are zeroised and it is idle; public words stay until the next operation (R156). -/
def gaRelease (b : Block) (k : Nat) : Block :=
  let b := b.setGaCore k .idle
  { b with gallery := { b.gallery with secret := Tab.erase b.gallery.secret k, abortReq := b.gallery.abortReq.filter (· != k) } }

/-- The message that an operation streams is cleared at Auger (R150, R189). -/
def gaUnstream (b : Block) (q : GaReq) : Block :=
  match q.message with
  | some m => { b with auger := { b.auger with msgs := b.auger.msgs.filter fun x => x.id != m } }
  | none => b

/-- The operand memory of a core is zero (R189). -/
def gaErase (b : Block) (k : Nat) : Block :=
  { b with gallery := { b.gallery with secret := Tab.erase b.gallery.secret k, operands := Tab.erase b.gallery.operands k } }

/-- Auger has still permutations of an operation's message to make. -/
def gaStreams (b : Block) (q : GaReq) : Bool :=
  match q.message with
  | some m => b.auger.msgs.any fun x => x.id == m
  | none => false

/-- A Gallery result on its requester's channel (R160): an operation's result, or a header's signature on its way back. -/
def gaDeliver (b : Block) (q : GaReq) (e : Egress) : Block :=
  match q.owner with
  | .job r =>
    match b.job? r with
    | some j => if j.phase = .engine ∧ j.engId = some q.id then deliver b r e else b
    | none => b
  | .header i n pq =>
    match (b.chain i).header? n with
    | some h =>
      match auditSeed b i (if pq then h.pqGidx else h.edGidx) with
      | some seed =>
        if pq then modHeader b i n fun x => { x with backPq := some (headerSigPq seed h.signed q.drawn) }
        else modHeader b i n fun x => { x with backEd := some (headerSigEd seed h.signed) }
      | none => modHeader b i n fun x => if pq then { x with askedPq := false } else { x with askedEd := false }
    | none => b
  | .headstock => { b with gallery := { b.gallery with interrupts := b.gallery.interrupts + 1 } }

/-- VALIDATION_WINDOW_END: the window of core `k`'s operation ends: PK_REJECT, or it goes on (R179). -/
def validationWindowEnd (b : Block) (k : Nat) : Block :=
  match b.gaCore k with
  | .validating q =>
    if q.rejects then
      let b := (gaEvent (gaUnstream (gaRelease b k) q) k 0x004 q.payer).tally 139
      match q.owner with
      | .job r => match b.job? r with
        | some j =>
          if j.phase = .engine ∧ j.engId = some q.id then refuseJob (releaseSlots b j.chamber j.creates) r stPkReject else b
        | none => b
      | .header _ _ _ => b
      | .headstock => b
    else b.setGaCore k (.working q)
  | _ => b

/-- An RSA self-check that failed (R170, R453): Belay records it with the core and the key size. -/
def rsaReport (b : Block) (k : Nat) (r : Requester) : Block :=
  match b.job? r with
  | some j =>
    match j.held with
    | some o => if o.status = stInternal then b.report 0x0241 k .w (recLength j.kIn.head) 0 0 else b
    | none => b
  | none => b

/-- An operation of a request reads the shared tables (R155). -/
def gaReadsTables (b : Block) (q : GaReq) : Bool :=
  match q.owner with
  | .job r => ((b.job? r).map pkReadsTables).getD false
  | .header _ _ pq => !pq
  | .headstock => !q.lattice

/-- What an operation finds out only as it runs (R182, R185): the statuses of a batch, and the primes of an RSA key; a draw that fails ends it with
RNG_UNAVAILABLE, its operand memory zero (R183). Nothing where a search for primes has found none and begins again. -/
def gaLate (b : Block) (k : Nat) (q : GaReq) : Option Block :=
  match q.owner with
  | .job r => match b.job? r with
    | some j =>
      if j.opcode = 0x0402 then
        let o := batchOutcome j b q.drawn
        let checks := o.2.gallery.subChecks
        let b := (List.range checks).foldl (fun b _ => gaEvent b k 0x006 q.payer) { o.2 with gallery := { o.2.gallery with subChecks := 0 } }
        some ((if o.1.status = stRng then gaErase (gaEvent b k 0x00A q.payer) k else b).modJob r fun j => { j with held := some o.1 })
      else if j.opcode = 0x0403 ∧ schemeRsa j.scheme then
        match keygenPrimes b j with
        | none => some ((gaErase (gaEvent b k 0x00A q.payer) k).modJob r fun j => { j with held := some (justStatus stRng) })
        | some (none, _) => none
        | some (some p, b) =>
          let w := keygenRecords b j j.creates p
          some (b.modJob r fun j => { j with held := some w.1, creates := w.2 })
      else some b
    | none => some b
  | _ => some b

/-- An operation stopped by its own core before its result (R155, R183): the operand memory is zero and the status is the requester's. -/
def gaStopped (b : Block) (k : Nat) (q : GaReq) (status : Nat) (e : Egress) : Block :=
  let b := gaErase (gaRelease b k) k
  match q.owner with
  | .job r => match b.job? r with
    | some j =>
      if j.phase = .engine ∧ j.engId = some q.id then deliver (b.modJob r fun j => { j with held := some (justStatus status) }) r e else b
    | none => b
  | .header i n pq => modHeader b i n fun h => if pq then { h with askedPq := false } else { h with askedEd := false }
  | .headstock => { b with gallery := { b.gallery with interrupts := b.gallery.interrupts + 1 } }

/-- GALLERY_OP_COMPLETE: core `k` delivers its result at the commit point and zeroises its secret words (R156, R160, R190). `bad` is the address in the
shared tables of an uncorrectable error that the operation met: it completes with INTERNAL, and Belay records it (R155). -/
def galleryOpComplete (b : Block) (k : Nat) (bad : Option Nat) (e : Egress) : Block :=
  match b.gaCore k with
  | .working q =>
    if gaStreams b q then b
    else match (if gaReadsTables b q then bad else none) with
    | some a => gaStopped ((gaEvent (b.report 0x0240 0 .w a 0 0) k 0x003 q.payer).tally 138) k q stInternal e
    | none =>
      match gaLate b k q with
      | none => b
      | some b =>
        let b := match q.owner with
          | .job r => rsaReport b k r
          | _ => b
        gaDeliver ((gaEvent (gaRelease b k) k 0x003 q.payer).tally 138) q e
  | _ => b

/-- The references of a requester's keys end, its operation being stopped (R189). -/
def gaDropRefs (b : Block) (q : GaReq) : Block :=
  match q.owner with
  | .job r => match b.job? r with
    | some j =>
      if j.engId = some q.id then
        (j.filled ++ j.rIn.toList ++ j.rOut.toList).foldl endRefs (b.modJob r fun j => { j with rIn := none, rOut := none, filled := [] })
      else b
    | none => b
  | _ => b

/-- GALLERY_ABORT: the abort request reaches core `k` (R189): its datapath stops, its key-port reference and its message at Auger go, and its operand
memory is being zeroised. A request that arrives after the commit point finds nothing to abort (R190). -/
def galleryAbort (b : Block) (k : Nat) : Block :=
  if !b.gallery.abortReq.contains k then b
  else
    let b := { b with gallery := { b.gallery with abortReq := b.gallery.abortReq.filter (· != k) } }
    let stop (q : GaReq) : Block := (gaUnstream (gaDropRefs b q) q).setGaCore k (.aborting { q with drawn := [], message := none })
    match b.gaCore k with
    | .validating q => stop q
    | .working q => stop q
    | _ => b

/-- The end of an aborted or withdrawn operation for its requester (R188, R189): reserved slots are released and ABORTED is reported. A header
whose signature was aborted is signed anew. -/
def gaAborted (b : Block) (q : GaReq) : Block :=
  match q.owner with
  | .job r =>
    match b.job? r with
    | some j => if j.phase = .engine ∧ j.engId = some q.id then refuseJob (releaseSlots b j.chamber j.creates) r stAborted else b
    | none => b
  | .header i n pq =>
    modHeader b i n fun h => if pq then { h with askedPq := false } else { h with askedEd := false }
  | .headstock => { b with gallery := { b.gallery with interrupts := b.gallery.interrupts + 1 } }

/-- ABORTED_SIGNALLED: operand memory is zero; ABORTED is signalled and the core is idle (R189). -/
def abortedSignalled (b : Block) (k : Nat) : Block :=
  match b.gaCore k with
  | .aborting q =>
    let b := gaEvent ((gaRelease b k).tally 140) k 0x005 q.payer
    gaAborted (gaErase b k) q
  | _ => b

/-- ENGINE_LOCAL_ABORT: Headstock aborts one core, or all of Gallery (R188, R514): queued requests go at once in the second case, running
operations have an abort request sent to their cores. -/
def engineLocalAbort (b : Block) (core : Option Nat) : Block :=
  match core with
  | some k =>
    match b.gaCore k with
    | .validating _ => { b with gallery := { b.gallery with abortReq := b.gallery.abortReq.filter (· != k) ++ [k] } }
    | .working _ => { b with gallery := { b.gallery with abortReq := b.gallery.abortReq.filter (· != k) ++ [k] } }
    | _ => b
  | none =>
    let busy := (List.range 20).filter fun k => match b.gaCore k with
      | .validating _ => true
      | .working _ => true
      | _ => false
    let queue := b.gallery.queue ++ b.gallery.held
    let b := { b with gallery := { b.gallery with queue := [], held := [], abortReq := busy } }
    queue.foldl (fun b q => gaAborted (b.tally 140) q) b

end Sys2Proof.Machine
end

