-- ==== Sys2Proof/Machine/ChiselOps.lean ====
section
/-! DEFINITION. Chisel cores (chapters 10 to 12): delivery, engine calls, the course of an instruction, and the decode table's microcode. -/
namespace Sys2Proof.Machine

/-! ### Delivery, the window, clearing (R262 to R272) -/

/-- The entry of the recipe table with an identifier. -/
def recipe? (b : Block) (id : Nat) : Option Recipe := b.chisel.table.find? fun r => r.id == id

/-- The recipe that a RECIPE_RUN names, where it exists and admits the chamber (R68, R268, R269). -/
def recipeFor (b : Block) (c : Nat) (operands : Bytes) : Option Recipe :=
  let id := leField operands 0 2
  if id < 0x0800 then none
  else match recipe? b id with
    | some r => if r.mask.getLsbD c then some r else none
    | none => none

/-- The context region at delivery (R262). -/
def contextOf (i : Item) (recipeId : Nat) : Memory :=
  let m := Memory.writeBytes [] 0xE000 (fit 64 i.desc)
  let m := Memory.writeBytes m 0xE050 ([BitVec.ofNat 8 i.chamber, BitVec.ofNat 8 i.group] ++ leBytes 2 recipeId)
  Memory.writeBytes m 0xE100 (leBytes 8 (dKeyIn i.desc) ++ leBytes 8 (dKeyOut i.desc))

/-- The state of a core at delivery (R258, R262, R263, R270). -/
def coreAtDelivery (n : Nat) (i : Item) (recipeId : Nat) (r : Recipe) (st : CoreState) : Core :=
  { Core.reset with st := st, x := 0x8000, sp := 0x8000, item := some n, recipe := recipeId, entry := r.entry, len := r.len, maxcyc := r.maxcyc
                    pc := BitVec.ofNat 16 r.entry, context := contextOf i recipeId }

/-- A work item delivered to a core (R269, R270): the recipe is checked again, the leaf-buffer entry is taken (R198, R241), and the core
starts at the recipe's entry once its operand buffer's header is there. An item of another opcode runs its Halsyn standard recipe
(R267), whose instructions are the firmware's. -/
def deliverItem (b : Block) (n k : Nat) : Block :=
  match b.item? n with
  | none => b
  | some i =>
    let go (b : Block) (core : Core) (phase : Phase) : Block :=
      let b := b.modItem n fun i =>
        { i with st := .dispatched, core := some k, waited := some (waitOf b i)
                 job := { i.job.underPolicy (b.chamber i.chamber) with phase := phase } }
      let b := recordWait b n
      let b := b.modChuck fun x => { x with take := x.take.filter (· != k) }
      let b := b.modCore k fun _ => core
      let b := b.modFerrule k fun f => { f with fetch := if core.len = 0 then none else some (core.entry, core.entry + core.len - 1) }
      coreEvent b k 0x00D
    let start (b : Block) (i : Item) : Block :=
      if isRecipeRun i.job.opcode then
        match recipeFor b i.chamber i.job.operands with
        | none => refuseRecipe b n i
        | some r =>
          if readsBuffer i.job then
            issueBuffers (go b (coreAtDelivery n i r.id r (.stalled .header)) .buffer) (i.chamber % 8)
          else go b (coreAtDelivery n i r.id r .running) .ready
      else go b (coreAtDelivery n i i.job.opcode { id := i.job.opcode, entry := 0, len := 0, mask := 0, maxcyc := 0 } .standard) .keys
    if i.audit ∧ i.leaf ≠ .entry then
      match entryCheck b (.chamber i.chamber) with
      | .granted =>
        let b := (takeEntry b (.chamber i.chamber)).modItem n fun i => { i with leaf := .entry }
        start b { i with leaf := .entry }
      | .wait => b
      | .refused s => closeItem ((auditKeyReads b (.chamber i.chamber)).modItem n fun i => { i with leaf := .dropped }) n (justStatus s)
    else start b i

/-- The next page of a core's window that is to be loaded (R264). -/
def nextPage (c : Core) : Option Nat := (List.range 4).find? fun p => !c.loaded.testBit p

/-- An aborted Gallery operation of a core's tickets has still to report (R280). -/
def abortPending (b : Block) (k : Nat) : Bool :=
  b.gallery.cores.any fun p =>
    let mine (q : GaReq) : Bool := match q.owner with
      | .job (.ticket k' _) => k' == k
      | .job (.item n) => (b.core k).item == some n
      | _ => false
    match p.2 with
    | .idle => false
    | .validating q => mine q
    | .working q => mine q
    | .aborting q => mine q

/-- A core joins the TAKE set of its cluster (R248, R270). -/
def joinTake (b : Block) (k : Nat) : Block :=
  (b.modCore k fun c => { c with st := .take }).modChuck fun x => { x with take := x.take.filter (· != k) ++ [k] }

/-- CORE_CLEAR: a core whose item is over zeroises its state and rejoins the TAKE set (R272, R280). A deleted recipe's range is free once
no core runs it (R269). -/
def coreClear (b : Block) (k : Nat) : Block :=
  let c := b.core k
  if c.st ≠ .clearing ∨ abortPending b k ∨ ((List.range 16).any fun t => (b.ticket k t).st == .outstanding) then b
  else
    let b := b.modCore k fun _ => Core.reset
    let b := b.modFerrule k fun f => { f with fetch := none }
    let used (p : Nat × Nat) : Bool := b.chisel.cores.any fun q => q.2.item.isSome && q.2.entry == p.1 && q.2.len == p.2
    let b := { b with chisel := { b.chisel with deleted := b.chisel.deleted.filter used } }
    let b := b.modBelay fun y => { y with deniedItems := y.deniedItems.filter fun n => c.item != some n }
    if b.domainOn (ccDomain (k / 8)) then joinTake b k else b

/-! ### The course of an instruction (R284, R296, R299 to R304) -/

/-- What an instruction comes to. -/
inductive Course where
  /-- It is done, in so many cycles. -/
  | next (b : Block) (cost : Nat)
  /-- A taken branch, jump or return. -/
  | jump (b : Block) (target : BitVec 16) (cost : Nat)
  /-- A loop of no pass: the next instruction is beyond its body, unless the loop instruction itself ends an enclosing body. -/
  | skip (b : Block) (target : BitVec 16) (cost : Nat)
  /-- A call: the frame is pushed. -/
  | call (b : Block) (target : BitVec 16)
  /-- It waits and issues again. -/
  | stall (b : Block) (why : CoreState)
  | fault (b : Block) (f : FaultKind)
  /-- The work item is over. -/
  | over_ (b : Block)

/-- Cycles of execution charged to the work item (R279, R296). -/
def charge (c : Core) (cost : Nat) : Core := { c with cycles := c.cycles + cost, busy := cost - 1 }

/-- A core goes on after an instruction that transfers no control: the loop ends at its address are processed (R299). -/
def goOn (b : Block) (k cost : Nat) : Block :=
  let c := b.core k
  let r := Core.advance c.pc 5 c
  let b := b.modCore k fun _ => (charge r.2 cost).setLast
  if r.1 then coreEvent b k 0x005 else b

/-- The device after what an instruction came to. -/
def takeCourse (k : Nat) : Course → Block
  | .next b cost => goOn b k cost
  | .jump b t cost => (coreEvent b k 0x004).modCore k fun c => (charge { (Core.closeFor t 5 c) with pc := t } cost).setLast
  | .skip b t cost => if (b.core k).atLoopEnd then goOn b k cost else b.modCore k fun c => charge { c with pc := t } cost
  | .call b t => (coreEvent b k 0x004).modCore k fun c => (charge { c with pc := t } 3).setLast
  | .stall b why => b.modCore k fun c => { c with st := why }
  | .fault b x => recipeFault b k x
  | .over_ b => b

/-- An instruction of a running core under its condition (R284): decoded, then executed where the condition holds. -/
def runInstr (b : Block) (k : Nat) (cond : BitVec 4) (f : Block → Course) : Block :=
  let c := b.core k
  if c.st ≠ .running then b
  else
    let b := coreEvent b k 0x002
    if !condHolds cond c.flags then goOn (coreEvent b k 0x003) k 1 else takeCourse k (f b)

/-- An instruction that changes only the core, in so many cycles. -/
def onCore (k cost : Nat) (g : Core → Core) (b : Block) : Course := .next (b.modCore k g) cost

/-- A load by an instruction: it stalls on a window page, and a read of the control region costs a cycle more. -/
def withLoad (k a n : Nat) (b : Block) (f : Bytes → Block → Block) : Course :=
  match coreLoad b k a n with
  | .error p => .stall b (.stalled (.window p))
  | .ok (d, b) => .next (coreEvent (f d b) k 0x006) (1 + controlCost a)

/-- A store by an instruction. -/
def withStore (k a : Nat) (d : Bytes) (b : Block) (f : Block → Block) : Course :=
  .next (coreEvent (f (coreStore b k a d)) k 0x007) 1

/-- A push of bytes, the lowest first: a fault where any would lie outside scratch (R293). The Ferrule checks it as one access (R260). -/
def corePush (k : Nat) (d : Bytes) (b : Block) : Option Block :=
  let a := ((b.core k).sp - BitVec.ofNat 16 d.length).toNat
  if a + d.length ≤ 0x8000 then
    let p := coreAdmit b k .write a
    some (p.2.modCore k fun c =>
      { c with sp := c.sp - BitVec.ofNat 16 d.length, scratch := if p.1 then Memory.writeBytes c.scratch a d else c.scratch })
  else none

/-- A pop of `n` bytes, zeros where the Ferrule denies the access (R260, R293). -/
def corePop (k n : Nat) (b : Block) : Option (Bytes × Block) :=
  let a := (b.core k).sp.toNat
  if a + n ≤ 0x8000 then
    let p := coreAdmit b k .read a
    some (if p.1 then Memory.readBytes (b.core k).scratch a n else zeros n, p.2.modCore k fun c => { c with sp := c.sp + BitVec.ofNat 16 n })
  else none

/-- A call pushes its frame and makes the current depth the frame base (R302); at the end of the innermost level it is a fault (R300). -/
def coreCall (k : Nat) (target : BitVec 16) (b : Block) : Course :=
  let c := b.core k
  if c.atLoopEnd then .fault b .loop
  else
    let ret := c.pc + 1
    match corePush k [ret.extractLsb' 0 8, ret.extractLsb' 8 8, BitVec.ofNat 8 c.base] b with
    | none => .fault b .stack
    | some b => .call (b.modCore k fun c => { c with base := c.depth }) target

/-- RET (R302). -/
def coreRet (k : Nat) (b : Block) : Course :=
  let c := b.core k
  if c.base < c.depth then .fault b .loop
  else match corePop k 3 b with
    | none => .fault b .stack
    | some (d, b') =>
      let fb := (byteAt d 2).toNat
      if c.depth < fb then .fault b .loop
      else .jump (b'.modCore k fun c => { c with base := fb }) (BitVec.ofNat 16 (leField d 0 2)) 3

/-- LOOP and LOOPI (R298, R303): the offset to the end, and the count. -/
def coreLoop (k off : Nat) (count : BitVec 16) (b : Block) : Course :=
  let c := b.core k
  let e := c.pc.toNat + off
  let nested := decide (c.base < c.depth) && decide ((c.loopE (c.depth - 1)).toNat < e)
  if off = 0 ∨ !c.inRecipe e then .fault b .loop
  else if count = 0 then .skip b (BitVec.ofNat 16 (e + 1)) 2
  else if 4 ≤ c.depth ∨ nested then .fault b .loop
  else .next (b.modCore k fun c => c.openLevel (c.pc + 1) (BitVec.ofNat 16 e) count) 1

/-! ### Engine calls (R273 to R278) -/

/-- OUTPUT's code. -/
abbrev opOutput : Nat := 0x0E00

/-- The fields of a call block (R274). -/
structure CallBlock where
  opcode : Nat
  audit : Bool
  inline_ : Bool
  hin : Nat
  hout : Nat
  inAddr : Nat
  inLen : Nat
  outAddr : Nat
  outCap : Nat
  operands : Bytes
  rdata : Bytes
  /-- The reserved bits and bytes are zero and the handle slots exist. -/
  formed : Bool

/-- A call block read (R274). -/
def callBlock (d : Bytes) : CallBlock :=
  let kf := byteAt d 2
  let hin := (byteAt d 3).toNat
  let hout := (byteAt d 4).toNat
  let slotOk (h : Nat) : Bool := decide (h ≤ 15) || h == 0xFF
  { opcode := leField d 0 2, audit := kf.getLsbD 0, inline_ := kf.getLsbD 1, hin := hin, hout := hout, inAddr := leField d 6 2
    inLen := leField d 8 2, outAddr := leField d 10 2, outCap := leField d 12 2, operands := slice d 16 40, rdata := slice d 56 16
    formed := decide (kf.toNat < 4) && slotOk hin && slotOk hout && byteAt d 5 == 0 && allZero (slice d 14 2) && allZero (slice d 72 8)
      && (kf.getLsbD 0 || allZero (slice d 56 16)) }

/-- The handle in a handle slot; none is zero. -/
def slotHandle (c : Core) (h : Nat) : Nat := if h ≤ 15 then ofLe (Memory.readBytes c.context (0xE100 + 8 * h) 8) else 0

/-- A handle field that the opcode marks "none" is zero (R70). -/
def noneOk (n : KeyNeed) (h : Nat) : Bool :=
  match n with
  | .none => h == 0
  | _ => true

/-- The call is refused with FORMAT before any engine (R70, R273, R274, R278). -/
def callMalformed (x : CallBlock) (j : Job) : Bool :=
  !x.formed || (x.outCap != 0 && x.opcode != opOutput && decide (0x8000 < x.outAddr + x.outCap))
    || (if x.opcode = opOutput then x.inline_ || x.hin != 0xFF || x.hout != 0xFF || x.audit || x.outCap != 0 || !allZero (x.operands.drop 4)
      else match opRow x.opcode with
        | some r => !noneOk (r.keyIn j) j.keyIn || !noneOk (r.keyOut j) j.keyOut
        | none => true)

/-- The pages of the window that a call's input lies in and that are not loaded. -/
def inputPage (b : Block) (k addr len : Nat) : Option Nat :=
  (List.range 4).find? fun p =>
    decide (0 < len ∧ addr < 0x8000 + 4096 * (p + 1) ∧ 0x8000 + 4096 * p < addr + len) && (pageMissing b k (0x8000 + 4096 * p)).isSome

/-- The lowest free ticket of a core (R275). -/
def freeTicket (b : Block) (k : Nat) : Option Nat := (List.range 16).find? fun t => (b.ticket k t).st == .free

/-- A call put on its way: the ticket is taken, its area is clear and its job is the call block's (R274 to R277). -/
def placeCall (b : Block) (k t : Nat) (x : CallBlock) (j : Job) (entry : Bool) : Block :=
  b.modTicket k t fun _ =>
    { st := .outstanding, job := j, stepAudit := x.audit, rdata := x.rdata, stepIndex := (b.core k).steps
      leaf := if entry then .entry else .none, outAddr := x.outAddr, outCap := x.outCap, area := zeros 32, aborted := false }

/-- An engine call runs under what was read at its descriptor's dispatch (R93). -/
def Job.underPolicyOf (j : Job) (from_ : Option Job) : Job :=
  match from_ with
  | some x => { j with pinpol := x.pinpol, decTabs := x.decTabs }
  | none => j

/-- ECALL at X (R273 to R277): the ticket's number goes to register `wd`. -/
def ecall (k : Nat) (wd : BitVec 4) (b : Block) : Course :=
  let c := b.core k
  let a := c.x.toNat
  if 0x8000 < a + 80 then .fault b .callblock
  else match freeTicket b k, coreChamber b k with
    | none, _ => .fault b .tickets
    | _, none => .fault b .tickets
    | some t, some ch =>
      let got := portRead b k a 80
      let b := got.2
      let x := callBlock got.1
      let j0 : Job :=
        { Job.none with opcode := x.opcode, flags := if x.inline_ then 4 else 0, keyIn := slotHandle c x.hin, keyOut := slotHandle c x.hout
                        operands := if x.inline_ then x.operands else x.operands.take 32
                        ext := if x.inLen ≠ 0 ∨ x.outCap ≠ 0 then 1 else 0, chamber := ch, inLen := x.inLen, outCap := x.outCap
                        headerOk := true }
      let bad := callMalformed x j0
      match (if bad ∨ x.inline_ then none else inputPage b k x.inAddr x.inLen) with
      | some p => .stall b (.stalled (.window p))
      | none =>
        if !bad ∧ !callRoom b ch x.opcode then .stall b (.stalled (.engine wd))
        else
          let grant := if x.audit ∧ x.opcode ≠ opOutput then entryCheck b (.chamber ch) else .granted
          match grant with
          | .wait => .stall b (.stalled (.leaf wd))
          | g =>
            let entry := x.audit && x.opcode != opOutput && g == .granted
            let b := if entry then takeEntry b (.chamber ch) else b
            let rd := if bad ∨ x.inline_ then ([], b) else portRead b k x.inAddr x.inLen
            let p := callPipe rd.2 ch x.opcode
            let j := { j0.underPolicyOf ((c.item.bind fun n => b.item? n).map (·.job)) with input := rd.1, pipe := p.1, phase := if x.opcode = opOutput then .ready else .keys }
            let b := placeCall p.2 k t x j entry
            let b := b.modCore k fun c =>
              { (c.setReg wd (BitVec.ofNat 8 t)) with steps := if x.audit ∧ x.opcode ≠ opOutput then c.steps + 1 else c.steps }
            let b := coreEvent b k 0x009
            let b := match g with
              | .refused s => closeTicket (auditKeyReads b (.chamber ch)) k t (justStatus s) 0
              | _ => if bad then closeTicket b k t (justStatus stFormat) 0 else b
            .next b 4

/-- ECALL_QUEUE_ACCEPT: the engine queue, or the leaf buffer, takes the request of a stalled core, which resumes (R18, R198). -/
def ecallQueueAccept (b : Block) (k : Nat) : Block :=
  let again (wd : BitVec 4) : Block := takeCourse k (ecall k wd (b.modCore k fun c => { c with st := .running }))
  match (b.core k).st with
  | .stalled (.engine wd) => again wd
  | .stalled (.leaf wd) => again wd
  | _ => b

/-- TICKET_COMPLETE: an engine call whose result, and step leaf where it has one, are there completes its area; an EWAIT on it returns
(R275 to R277). -/
def ticketComplete (b : Block) (k t : Nat) : Block :=
  let x := b.ticket k t
  let seq? : Option (Option Nat) := match x.leaf with
    | .none => some none
    | .dropped => some none
    | .accepted s => some (some s)
    | _ => none
  match seq?, x.job.outcome with
  | some seq, some _ =>
    if x.st ≠ .outstanding then b
    else
      let area := match seq with
        | some s => patch (patch (fit 32 x.area) 2 [byteAt x.area 2 ||| 2]) 8 (leBytes 6 s)
        | none => fit 32 x.area
      let b := b.modTicket k t fun x => { x with st := .complete, area := area }
      if (b.core k).st = .waiting t then
        goOn ((b.modTicket k t fun x => { x with st := .free }).modCore k fun c => { c with st := .running }) k 1
      else b
  | _, _ => b

/-- EWAIT on ticket `v` (R275): it blocks while the ticket is outstanding and collects one that has completed. -/
def ewait (k v : Nat) (b : Block) : Course :=
  if v ≤ 15 then
    match (b.ticket k v).st with
    | .outstanding => .stall b (.waiting v)
    | .complete => .next (b.modTicket k v fun x => { x with st := .free }) 1
    | .free => .next b 1
  else .next b 1

/-- OUTPUT (R278): the bytes of an engine call go to the host buffer's output area. -/
def outputCall (b : Block) (k t : Nat) (e : Egress) : Block :=
  let x := b.ticket k t
  match (b.core k).item.bind fun n => (b.item? n).map fun i => (n, i) with
  | some (n, i) =>
    if x.st ≠ .outstanding ∨ x.job.opcode ≠ opOutput ∨ x.job.phase ≠ .ready then b
    else
      let off := leField x.job.operands 0 4
      let d := x.job.input
      let fin := off + d.length
      let fn := i.chamber + 1
      let b := b.modCore k fun c => { c with outReq := max c.outReq fin }
      if i.job.outCap < fin then closeTicket (b.modCore k fun c => { c with outOver := true }) k t (justStatus stFormat) 0
      else if d = [] then closeTicket b k t (okResult []) 0
      else if b.suppressed n then closeTicket b k t (okResult []) 0
      else if !b.bme fn then
        quiesceChamber (endItemOnCore b k stBufferAccess) i.chamber qBme (some n)
      else if e = .bufferError then
        quiesceChamber (endItemOnCore (b.aer fn "Uncorrectable Internal Error" false) k stBufferAccess) i.chamber qDmaWrite (some n)
      else
        let b := b.dmaWrite (hostMaster i.chamber) (some i.chamber) fn (i.job.ext + 16 + roundUp i.job.inLen 64 + off) d
        let b := b.modCore k fun c => { c with outDone := max c.outDone fin, output := Memory.writeBytes c.output off d }
        let b := b.modItem n fun i => { i with written := some (Memory.readBytes (b.core k).output 0 (b.core k).outDone) }
        closeTicket b k t (okResult []) 0
  | none => b

/-! ### DONE (R271, R278) -/

/-- The statuses DSTATUS may hold (R271). -/
def doneStatuses : List Nat :=
  [stOk, stMismatch, stKeyNotFound, stKeyUsage, stKeyExpired, stSlotInUse, stSlotExhausted, stFormat, stPinPolicy, stBufferAccess
  , stPinBlock, stKeyBlockAuth, stPkReject, stRng, stCounterExhausted, stSumpIntegrity, stSumpUnavailable, stAborted]

/-- DONE: the work item ends with DSTATUS and DRESULT, and OUT_LEN is written where OUTPUT was called (R271, R278). A write that fails, for want of Bus
Master Enable or in the egress buffer, ends it with BUFFER_ACCESS and quiesces the chamber (R71, R539). -/
def coreDone (k : Nat) (e : Egress) (b : Block) : Course :=
  let c := b.core k
  let st := ofLe (Memory.readBytes c.context 0xE080 2)
  if (List.range 16).any fun t => (b.ticket k t).st == .outstanding then .fault b .outstanding
  else if !doneStatuses.contains st then .fault b .badstatus
  else match c.item.bind fun n => (b.item? n).map fun i => (n, i) with
    | none => .over_ b
    | some (n, i) =>
      let b := (coreEvent b k 0x00E).modCore k fun c => charge c 1
      let b := b.modItem n fun i => { i with done := true }
      let st := if c.outOver then stFormat else st
      let out := if c.outDone ≠ 0 ∧ !isFailure st then some (Memory.readBytes c.output 0 c.outDone) else none
      let o : Outcome :=
        { status := st, result := if isFailure st then zeros 16 else Memory.readBytes c.context 0xE090 16, output := out }
      if c.outReq = 0 ∨ b.suppressed n then .over_ (closeItem b n o)
      else if !b.bme (i.chamber + 1) then .over_ (quiesceChamber (closeItem b n (justStatus stBufferAccess)) i.chamber qBme (some n))
      else if e = .bufferError then
        let b := b.aer (i.chamber + 1) "Uncorrectable Internal Error" false
        .over_ (quiesceChamber (closeItem b n (justStatus stBufferAccess)) i.chamber qDmaWrite (some n))
      else
        let len := leBytes 4 (if c.outOver then c.outReq else c.outDone)
        .over_ (closeItem (b.dmaWrite (hostMaster i.chamber) (some i.chamber) (i.chamber + 1) (i.job.ext + 8) len) n o)

/-! ### Microcode (R305 to R314) -/

/-- A bit field of a microword. -/
def mwField (w : BitVec 48) (hi lo : Nat) : Nat := bits w.toNat hi lo

/-- The state of a running sequence: temporaries T0 to T3 and the word to execute. -/
structure Micro where
  t : List Byte
  ix : Nat

/-- A source of a microword (R309). -/
def mwSource (c : Core) (m : Micro) (opnd : BitVec 14) (k : Byte) (loaded : Byte) (code : Nat) : Byte :=
  match code with
  | 0 => c.reg (opnd.extractLsb' 10 4)
  | 1 => c.reg (opnd.extractLsb' 6 4)
  | 2 => opnd.extractLsb' 0 8
  | 3 => m.t.getD 0 0
  | 4 => m.t.getD 1 0
  | 5 => m.t.getD 2 0
  | 6 => m.t.getD 3 0
  | 7 => k
  | 8 => c.flags.byte
  | 9 => loaded
  | 10 => c.x.extractLsb' 0 8
  | 11 => c.x.extractLsb' 8 8
  | 12 => c.y.extractLsb' 0 8
  | 13 => c.y.extractLsb' 8 8
  | _ => 0

/-- DBL10 (R308). -/
def dbl10 (a : Byte) : Byte × Bool :=
  if a.toNat ≤ 4 then (a + a, false) else if a.toNat ≤ 9 then (a + a - 9, false) else (a + a, true)

/-- The ALU of microcode (R308): result, C, V, and whether Z is chained. -/
def mwAlu (op : Nat) (f : Flags) (a b : Byte) : Alu 8 × Bool :=
  let plain (r : Byte) : Alu 8 × Bool := ({ r := r, c := false, v := false }, false)
  match op with
  | 0 => plain a
  | 1 => (aluAdd a b false, false)
  | 2 => (aluAdd a b f.c, true)
  | 3 => (aluSub a b false, false)
  | 4 => (aluSub a b !f.c, true)
  | 5 => plain (a &&& b)
  | 6 => plain (a ||| b)
  | 7 => plain (a ^^^ b)
  | 8 => ({ r := a <<< 1, c := a.msb, v := false }, false)
  | 9 => ({ r := a >>> 1, c := a.getLsbD 0, v := false }, false)
  | 10 => plain (swapNibbles a)
  | 11 => let d := dbl10 a; ({ r := d.1, c := false, v := d.2 }, false)
  | _ => plain 0

/-- The low or high byte of a pointer set. -/
def setHalf (v : BitVec 16) (high : Bool) (x : Byte) : BitVec 16 :=
  if high then x ++ v.extractLsb' 0 8 else v.extractLsb' 8 8 ++ x

/-- A destination of a microword written (R309). -/
def mwDest (c : Core) (m : Micro) (opnd : BitVec 14) (code : Nat) (v : Byte) : Core × Micro :=
  match code with
  | 1 => (c.setReg (opnd.extractLsb' 10 4) v, m)
  | 2 => (c.setReg (opnd.extractLsb' 6 4) v, m)
  | 3 => (c, { m with t := m.t.set 0 v })
  | 4 => (c, { m with t := m.t.set 1 v })
  | 5 => (c, { m with t := m.t.set 2 v })
  | 6 => (c, { m with t := m.t.set 3 v })
  | 7 => ({ c with x := setHalf c.x false v }, m)
  | 8 => ({ c with x := setHalf c.x true v }, m)
  | 9 => ({ c with y := setHalf c.y false v }, m)
  | 10 => ({ c with y := setHalf c.y true v }, m)
  | _ => (c, m)

/-- The pointer after POSTINC, where DEST has written one of its bytes that byte stands (R310). -/
def mwPost (old now : BitVec 16) (lowWritten highWritten : Bool) : BitVec 16 :=
  let inc := old + 1
  let lo : Byte := if lowWritten then now.extractLsb' 0 8 else inc.extractLsb' 0 8
  let hi : Byte := if highWritten then now.extractLsb' 8 8 else inc.extractLsb' 8 8
  hi ++ lo

/-- How a microword ends: the next one, the end of the sequence, or a wait for a window page. -/
inductive MicroEnd where
  | go (m : Micro)
  | done
  | wait (page : Nat)

/-- One microword (R310): the block after it, how it ends, and its cycles. -/
def microword (b : Block) (k : Nat) (w : BitVec 48) (opnd : BitVec 14) (m : Micro) : Block × MicroEnd × Nat :=
  let c0 := b.core k
  let p : Ptr := if w.getLsbD 17 then .y else .x
  let a := (c0.ptr p).toNat
  let mem := mwField w 19 18
  let ld : Except Nat (Bytes × Block) := if mem = 1 then coreLoad b k a 1 else .ok ([0], b)
  match ld with
  | .error pg => (b, .wait pg, 0)
  | .ok (d, b) =>
    let c := b.core k
    let src (code : Nat) : Byte := mwSource c m opnd (w.extractLsb' 0 8) (byteAt d 0) code
    let r := mwAlu (mwField w 35 32) c.flags (src (mwField w 31 28)) (src (mwField w 27 24))
    let z := r.1.r == 0 && (!r.2 || c.flags.z)
    let dest := mwField w 23 20
    let x := mwDest c m opnd dest r.1.r
    let f := x.1.flags
    let f := { f with z := if w.getLsbD 15 then z else f.z, c := if w.getLsbD 14 then r.1.c else f.c
                      n := if w.getLsbD 13 then r.1.r.msb else f.n, v := if w.getLsbD 12 then r.1.v else f.v }
    let b := b.modCore k fun _ => { x.1 with flags := f }
    let b := if mem = 2 then coreStore b k a [r.1.r] else b
    let low := (p == .x && dest == 7) || (p == .y && dest == 9)
    let high := (p == .x && dest == 8) || (p == .y && dest == 10)
    let b := if w.getLsbD 16 then b.modCore k fun c => c.setPtr p (mwPost (c0.ptr p) (c.ptr p) low high) else b
    let b := coreEvent b k 0x00C
    let b := if mem = 1 then coreEvent b k 0x006 else if mem = 2 then coreEvent b k 0x007 else b
    let holds := condHolds (w.extractLsb' 41 4) (b.core k).flags
    let next : Micro := { x.2 with ix := m.ix + 1 }
    let cost := 1 + (if mem ≠ 0 then controlCost a else 0)
    match mwField w 47 45 with
    | 1 => (b, .done, cost)
    | 2 => (b, .go (if holds then { x.2 with ix := mwField w 40 36 } else next), cost)
    | 3 => (b, if holds then .done else .go next, cost)
    | _ => (b, .go next, cost)

/-- How a sequence ends: done in so many cycles, a wait for a page at a microword, or at its 257th microword (R313). -/
inductive SeqEnd where
  | done (b : Block) (cost : Nat)
  | wait (b : Block) (cost left : Nat) (m : Micro) (page : Nat)
  | tooLong (b : Block)

/-- A sequence of microwords, of which so many may still run (R310 to R313). -/
def microRun (k : Nat) (opnd : BitVec 14) (code : List (BitVec 48)) : Nat → Nat → Micro → Block → SeqEnd
  | 0, _, _, b => .tooLong b
  | n + 1, cost, m, b =>
    match microword b k (code.getD m.ix 0) opnd m with
    | (b, .done, c) => .done b (cost + c)
    | (b, .go m, c) => microRun k opnd code n (cost + c) m b
    | (b, .wait p, _) => .wait b cost (n + 1) m p

/-- A CX instruction's entry is there for a chamber (R285, R305). -/
def cxEntry (b : Block) (k n : Nat) : Option DecodeEntry :=
  match Tab.get? b.chisel.decode n, coreChamber b k with
  | some e, some c => if e.valid && e.mask.getLsbD c then some e else none
  | _, _ => none

/-- The microwords of an entry's sequence (R305). -/
def cxCode (b : Block) (e : DecodeEntry) : List (BitVec 48) := (List.range e.len).map fun i => Tab.get b.chisel.micro 0 (e.start + i)

/-- What a CX instruction comes to by its sequence's end. One that waits at a LOAD has done what its earlier microwords did, and their cycles count
(R312). -/
def seqCourse (k : Nat) (opnd : BitVec 14) (code : List (BitVec 48)) : SeqEnd → Course
  | .done b cost => .next b cost
  | .tooLong b => .fault b .micro
  | .wait b cost left m p =>
    .stall (b.modCore k fun c =>
      { c with cycles := c.cycles + cost, micro := some { code := code, opnd := opnd, t := m.t, ix := m.ix, left := left } }) (.stalled (.window p))

/-- The course of a CX instruction (R310 to R314). -/
def cxRun (k : Nat) (e : DecodeEntry) (opnd : BitVec 14) (b : Block) : Course :=
  let code := cxCode b e
  seqCourse k opnd code (microRun k opnd code 256 0 { t := [0, 0, 0, 0], ix := 0 } b)

/-- WATCHDOG: the recipe has executed for more than MAXCYC x 1,024 cycles (R279). -/
def coreWatchdog (b : Block) (k : Nat) : Block :=
  let c := b.core k
  let live : Bool := match c.st with
    | .running => true
    | .stalled _ => true
    | .waiting _ => true
    | _ => false
  if live ∧ c.maxcyc * 1024 < c.cycles then recipeFault b k .watchdog else b

/-- A core that runs again goes on with the sequence that waited (R312). -/
def resumeSequence (b : Block) (k : Nat) : Block :=
  match (b.core k).st, (b.core k).micro with
  | .running, some m =>
    let b := b.modCore k fun c => { c with micro := none }
    coreWatchdog (takeCourse k (seqCourse k m.opnd m.code (microRun k m.opnd m.code m.left 0 { t := m.t, ix := m.ix } b))) k
  | _, _ => b

/-- WINDOW_PAGE_LOAD: the next page of core `k`'s window arrives, or its read fails and the work item ends with BUFFER_ACCESS (R264,
R265). -/
def windowPageLoad (b : Block) (k : Nat) (x : DmaRead) : Block :=
  let c := b.core k
  match c.item.bind fun n => b.item? n, nextPage c with
  | some i, some p =>
    let live : Bool := match c.st with
      | .running => true
      | .stalled _ => true
      | .waiting _ => true
      | _ => false
    if !live ∨ !windowLoads b k then b
    else
      match dmaRead b i.chamber x with
      | (.data d, b) =>
        let first := 4096 * (c.winpos + p)
        let d := fit 4096 (d.take (i.job.inLen - first))
        let b := b.modCore k fun c =>
          { c with window := Memory.writeBytes c.window (4096 * p) d, loaded := c.loaded + 2 ^ p
                   st := if c.st = .stalled (.window p) then .running else c.st }
        issueBuffers (resumeSequence b k) (i.chamber % 8)
      | (x, b) =>
        let b := match c.item with
          | some n => b.modJob (.item n) fun j => { j with input := [] }
          | none => b
        endItemOnCore (bufferReadFault b (i.chamber + 1) x) k stBufferAccess
  | _, _ => b

/-- An instruction that is not defined (R285): a fault whatever its condition. -/
def illegal (b : Block) (k : Nat) : Block := if (b.core k).st = .running then recipeFault b k .illegal else b

/-- A decode image has been committed and is not in force yet: the command that changes it awaits only the standby (R317, R346). -/
def decodePending (b : Block) : Bool :=
  allMbx.any fun m =>
    let x := b.mbx (mbxNo m)
    (mbxCode x == 0x0410 || mbxCode x == 0x0411) && x.phase == .waiting && x.waits != 0 && x.failed.isNone
      && (b.sump.queue ++ (b.sump.commit.map (·.reqs)).getD []).all fun r => r.waiter != .mailbox m

/-- The table in force is new, and stalled CX instructions issue again (R317). -/
def decodeInstalled (b : Block) : Block :=
  { b with chisel := { b.chisel with
      cores := Tab.mapVals b.chisel.cores fun _ c => if c.st = .stalled .decode then { c with st := .running } else c } }

/-- CX0 to CX7 (R285, R310). While a committed image is not in force, the instruction stalls (R317). -/
def coreCx (b : Block) (k : Nat) (cond : BitVec 4) (n : BitVec 3) (opnd : BitVec 14) : Block :=
  if decodePending b then (if (b.core k).st = .running then b.modCore k fun c => { c with st := .stalled .decode } else b)
  else match cxEntry b k n.toNat with
    | none => illegal b k
    | some e => runInstr b k cond (cxRun k e opnd)

end Sys2Proof.Machine
end

