-- ==== Sys2Proof/Machine/ChiselSet.lean ====
section
/-! DEFINITION. What the instructions of the Chisel set do beside the control flow of `ChiselOps` (R290 to R294): byte operations over registers
and immediates, 16-bit operations, loads and stores, and the stack. -/
namespace Sys2Proof.Machine

/-! ### Byte operations (R291) -/

/-- MOV and MOVI: the source, and no flag. -/
def bytePut (f : Flags) (_ v : Byte) : Byte × Flags := (v, f)
/-- ADD. -/
def byteAdd (f : Flags) (a v : Byte) : Byte × Flags := let x := aluAdd a v false; (x.r, f.all x)
/-- ADC: Z chained. -/
def byteAdc (f : Flags) (a v : Byte) : Byte × Flags := let x := aluAdd a v f.c; (x.r, f.chained x)
/-- SUB, and the comparisons. -/
def byteSub (f : Flags) (a v : Byte) : Byte × Flags := let x := aluSub a v false; (x.r, f.all x)
/-- SBC: the borrow is 1 - C, Z chained. -/
def byteSbc (f : Flags) (a v : Byte) : Byte × Flags := let x := aluSub a v !f.c; (x.r, f.chained x)
/-- AND. -/
def byteAnd (f : Flags) (a v : Byte) : Byte × Flags := (a &&& v, f.zn (a &&& v))
/-- OR. -/
def byteOr (f : Flags) (a v : Byte) : Byte × Flags := (a ||| v, f.zn (a ||| v))
/-- XOR. -/
def byteXor (f : Flags) (a v : Byte) : Byte × Flags := (a ^^^ v, f.zn (a ^^^ v))

/-- A byte operation on a register and a source, both read at the start. -/
def Core.byteOp (c : Core) (d : BitVec 4) (v : Byte) (g : Flags → Byte → Byte → Byte × Flags) : Core :=
  let r := g c.flags (c.reg d) v
  { (c.setReg d r.1) with flags := r.2 }

/-- An operation whose result is discarded: the flags alone. -/
def Core.byteTest (c : Core) (d : BitVec 4) (v : Byte) (g : Flags → Byte → Byte → Byte × Flags) : Core :=
  { c with flags := (g c.flags (c.reg d) v).2 }

/-- An instruction of formats RR and RI that writes its register. -/
def byteOp (k : Nat) (d : BitVec 4) (v : Core → Byte) (g : Flags → Byte → Byte → Byte × Flags) : Block → Course :=
  onCore k 1 fun c => c.byteOp d (v c) g

/-- An instruction of formats RR and RI that writes flags alone. -/
def byteTest (k : Nat) (d : BitVec 4) (v : Core → Byte) (g : Flags → Byte → Byte → Byte × Flags) : Block → Course :=
  onCore k 1 fun c => c.byteTest d (v c) g

/-- A unary operation. -/
def byteUnary (k : Nat) (r : BitVec 4) (g : Flags → Byte → Byte × Flags) : Block → Course :=
  onCore k 1 fun c => let x := g c.flags (c.reg r); { (c.setReg r x.1) with flags := x.2 }

/-- MUL: the product of the registers as read at the start (R294). -/
def Core.mul (c : Core) (d : BitVec 3) (x y : BitVec 4) : Core :=
  let p := BitVec.ofNat 16 ((c.reg x).toNat * (c.reg y).toNat)
  { (c.setPair d p) with flags := c.flags.zn p }

/-- MUL. -/
def courseMul (k : Nat) (d : BitVec 3) (x y : BitVec 4) : Block → Course := onCore k 2 fun c => c.mul d x y

/-- DIVU (R294): quotient to the pair, remainder to the divisor's register last; a zero divisor sets V. -/
def Core.divu (c : Core) (d : BitVec 3) (s : BitVec 4) : Core :=
  let n := c.pair d
  let m := (c.reg s).toNat
  if m = 0 then { (c.setPair d 0xFFFF) with flags := { c.flags with z := false, n := true, v := true } }
  else
    let q := BitVec.ofNat 16 (n.toNat / m)
    { ((c.setPair d q).setReg s (BitVec.ofNat 8 (n.toNat % m))) with flags := { (c.flags.zn q) with v := false } }

/-- DIVU. -/
def courseDivu (k : Nat) (d : BitVec 3) (s : BitVec 4) : Block → Course := onCore k 10 fun c => c.divu d s

/-- GETF. -/
def courseGetf (k : Nat) (d : BitVec 4) : Block → Course := onCore k 1 fun c => c.setReg d c.flags.byte

/-- SETF. -/
def courseSetf (k : Nat) (s : BitVec 4) : Block → Course := onCore k 1 fun c => { c with flags := c.flags.ofByte (c.reg s) }

/-! ### 16-bit operations (R292) -/

/-- MOVW. -/
def courseMovw (k : Nat) (d s : Reg16) : Block → Course := onCore k 1 fun c => c.setReg16 d (c.reg16 s)

/-- LPI: one byte of a 16-bit register. -/
def courseLpi (k : Nat) (d : Reg16) (high : Bool) (imm : Byte) : Block → Course :=
  onCore k 1 fun c => c.setReg16 d (setHalf (c.reg16 d) high imm)

/-- A 16-bit sum into a register, with its flags. -/
def Core.addWord (c : Core) (d : Reg16) (v : BitVec 16) : Core :=
  let x := aluAdd (c.reg16 d) v false
  { (c.setReg16 d x.r) with flags := c.flags.all x }

/-- ADDW. -/
def courseAddw (k : Nat) (d s : Reg16) : Block → Course := onCore k 1 fun c => c.addWord d (c.reg16 s)

/-- ADDWI: the immediate is signed. -/
def courseAddwi (k : Nat) (d : Reg16) (imm : BitVec 10) : Block → Course := onCore k 1 fun c => c.addWord d (imm.signExtend 16)

/-! ### Memory (R288, R292) -/

/-- The address of a core's format-M access. -/
def coreAddr (b : Block) (k : Nat) (p : Ptr) (disp : BitVec 8) : Nat := ((b.core k).memAddr p disp).toNat

/-- LD. -/
def courseLd (k : Nat) (d : BitVec 4) (p : Ptr) (inc : Bool) (disp : BitVec 8) (b : Block) : Course :=
  withLoad k (coreAddr b k p disp) 1 b fun x b => b.modCore k fun c => (c.setReg d (byteAt x 0)).postInc p inc 1

/-- ST. -/
def courseSt (k : Nat) (s : BitVec 4) (p : Ptr) (inc : Bool) (disp : BitVec 8) (b : Block) : Course :=
  withStore k (coreAddr b k p disp) [(b.core k).reg s] b fun b => b.modCore k fun c => c.postInc p inc 1

/-- LDW. -/
def courseLdw (k : Nat) (d : BitVec 3) (p : Ptr) (inc : Bool) (disp : BitVec 8) (b : Block) : Course :=
  withLoad k (coreAddr b k p disp) 2 b fun x b =>
    b.modCore k fun c => (c.setPair d (BitVec.ofNat 16 (leField x 0 2))).postInc p inc 2

/-- The bytes of a 16-bit word, low first. -/
def wordBytes (v : BitVec 16) : Bytes := [v.extractLsb' 0 8, v.extractLsb' 8 8]

/-- STW. -/
def courseStw (k : Nat) (s : BitVec 3) (p : Ptr) (inc : Bool) (disp : BitVec 8) (b : Block) : Course :=
  withStore k (coreAddr b k p disp) (wordBytes ((b.core k).pair s)) b fun b => b.modCore k fun c => c.postInc p inc 2

/-- MOVB: the byte at [X] to [Y], and both advance, a denial or not (R293). -/
def courseMovb (k : Nat) (b : Block) : Course :=
  let c := b.core k
  match coreLoad b k c.x.toNat 1 with
  | .error p => .stall b (.stalled (.window p))
  | .ok (d, b) =>
    let b := coreStore (coreEvent b k 0x006) k c.y.toNat [byteAt d 0]
    .next ((coreEvent b k 0x007).modCore k fun c => { c with x := c.x + 1, y := c.y + 1 }) (1 + controlCost c.x.toNat)

/-- CMPB: the byte at [X] less a register, and X advances. -/
def courseCmpb (k : Nat) (s : BitVec 4) (b : Block) : Course :=
  withLoad k (b.core k).x.toNat 1 b fun d b =>
    b.modCore k fun c => { c with flags := (byteSub c.flags (byteAt d 0) (c.reg s)).2, x := c.x + 1 }

/-! ### The stack (R293) -/

/-- A push of bytes, or the fault. -/
def coursePushBytes (k : Nat) (d : Bytes) (b : Block) : Course :=
  match corePush k d b with
  | some b => .next (coreEvent b k 0x007) 1
  | none => .fault b .stack

/-- A pop of `n` bytes into the core, or the fault. -/
def coursePopBytes (k n : Nat) (g : Bytes → Core → Core) (b : Block) : Course :=
  match corePop k n b with
  | some (d, b) => .next ((coreEvent b k 0x006).modCore k (g d)) 1
  | none => .fault b .stack

/-- PUSH. -/
def coursePush (k : Nat) (s : BitVec 4) (b : Block) : Course := coursePushBytes k [(b.core k).reg s] b
/-- POP. -/
def coursePop (k : Nat) (d : BitVec 4) : Block → Course := coursePopBytes k 1 fun x c => c.setReg d (byteAt x 0)
/-- PUSHW. -/
def coursePushw (k : Nat) (s : BitVec 3) (b : Block) : Course := coursePushBytes k (wordBytes ((b.core k).pair s)) b
/-- POPW. -/
def coursePopw (k : Nat) (d : BitVec 3) : Block → Course :=
  coursePopBytes k 2 fun x c => c.setPair d (BitVec.ofNat 16 (leField x 0 2))

/-! ### Control (R290, R295) -/

/-- NOP. -/
def courseNop (b : Block) : Course := .next b 1

/-- The target of a relative branch or call. -/
def relTarget (b : Block) (k : Nat) (off : BitVec 14) : BitVec 16 := (b.core k).pc + 1 + off.signExtend 16

/-- BR. -/
def courseBr (k : Nat) (off : BitVec 14) (b : Block) : Course := .jump b (relTarget b k off) 2
/-- CALL. -/
def courseCall (k : Nat) (off : BitVec 14) (b : Block) : Course := coreCall k (relTarget b k off) b
/-- JR. -/
def courseJr (k : Nat) (p : BitVec 3) (b : Block) : Course := .jump b ((b.core k).pair p) 2
/-- CALLR. -/
def courseCallr (k : Nat) (p : BitVec 3) (b : Block) : Course := coreCall k ((b.core k).pair p) b
/-- LOOP. -/
def courseLoop (k : Nat) (p : BitVec 3) (off : BitVec 11) (b : Block) : Course := coreLoop k off.toNat ((b.core k).pair p) b
/-- LOOPI. -/
def courseLoopi (k : Nat) (count : BitVec 6) (off : BitVec 8) (b : Block) : Course := coreLoop k off.toNat (count.zeroExtend 16) b
/-- EWAIT. -/
def courseEwait (k : Nat) (s : BitVec 4) (b : Block) : Course := ewait k ((b.core k).reg s).toNat b

/-- TAKE: an idle core joins its cluster's TAKE set and sleeps where the condition holds (R248, R270, R284); in a recipe it is a fault (R279). -/
def coreTake (b : Block) (k : Nat) (cond : BitVec 4) : Block :=
  match (b.core k).st with
  | .running => runInstr b k cond fun b => .fault b .illegal
  | .idle => if condHolds cond (b.core k).flags then joinTake b k else b
  | _ => b

/-- MICRO: an execution of a CX instruction reaches its 257th microword and faults (R313). -/
def coreMicro (b : Block) (k : Nat) (cond : BitVec 4) (n : BitVec 3) (opnd : BitVec 14) : Block :=
  match cxEntry b k n.toNat with
  | none => b
  | some e =>
    if condHolds cond (b.core k).flags then
      match cxRun k e opnd b with
      | .fault _ .micro => coreCx b k cond n opnd
      | _ => b
    else b

/-! ### The core control region by name (R263, R264, R527) -/

/-- CC_WINPOS: a running core writes the register, as its Ferrule admits. -/
def ccWinpos (b : Block) (k : Nat) (v : Byte) : Block := if (b.core k).st = .running then coreStore b k 0xF300 [v] else b

/-- A running core reads a byte of the control region, as its Ferrule admits; what it gets is shown. -/
def ccRead (b : Block) (k a : Nat) : Block :=
  if (b.core k).st = .running then
    match coreLoad b k a 1 with
    | .ok (d, b) => b.answer (byteAt d 0).toNat
    | .error _ => b
  else b

/-- The lowest byte of the cycle counter, or of a programmable counter. -/
def counterAddr : Option Nat → Nat
  | none => 0xF100
  | some n => 0xF108 + 4 * n

end Sys2Proof.Machine
end

