-- ==== Sys2Proof/Machine/BimorTable.lean ====
section
/-! DEFINITION. The catalogue of Bimor's commands (R355 to R366, R431, R516, R548): version, class, mailboxes, and the objects they act on. -/
namespace Sys2Proof.Machine

/-- The class of a command (R347). -/
inductive CmdClass where
  | q
  | o
  /-- C/S: the system custodians. -/
  | cs
  /-- C/c: the custodians of the chamber named. -/
  | cc
  /-- C/x: the custodians of the SCOPE named. -/
  | cx
  deriving DecidableEq, Repr

/-- A row of the catalogue. -/
structure CmdRow where
  code : Nat
  name : String
  /-- Since, major and minor. -/
  since : Nat × Nat
  cls : CmdClass
  boxes : List Mbx
  /-- Marked P (R347). -/
  p : Bool
  deriving DecidableEq, Repr

/-- Session commands (R355). -/
def sessionRows : List CmdRow :=
  [⟨0x0001, "HELLO", (1, 0), .q, [.pf, .so, .au, .ce, .op, .sb], false⟩,
   ⟨0x0002, "AUTH_CHALLENGE", (1, 0), .q, [.pf, .so, .ce], true⟩,
   ⟨0x0003, "AUTH_SUBMIT", (1, 0), .o, [.pf, .so, .ce], true⟩,
   ⟨0x0004, "AUTH_CANCEL", (2, 0), .o, [.pf, .so, .ce], true⟩]

/-- Chamber and queue commands (R356). -/
def chamberRows : List CmdRow :=
  [⟨0x0100, "CHAMBER_CREATE", (1, 0), .cs, [.so], false⟩,
   ⟨0x0101, "CHAMBER_DELETE", (1, 0), .cs, [.so], false⟩,
   ⟨0x0102, "CHAMBER_QUIESCE", (1, 0), .o, [.so], false⟩,
   ⟨0x0103, "CHAMBER_RESET", (1, 0), .o, [.so], false⟩,
   ⟨0x0104, "CHAMBER_CONFIG", (1, 0), .o, [.so], false⟩,
   ⟨0x0105, "CHAMBER_PINPOL", (1, 0), .cc, [.so], false⟩,
   ⟨0x0106, "DECTAB_LOAD", (1, 0), .cc, [.so], false⟩,
   ⟨0x0107, "CHAMBER_INFO", (1, 0), .q, [.pf, .so, .au, .op], false⟩,
   ⟨0x0110, "CQ_CREATE", (1, 0), .o, [.pf, .op], false⟩,
   ⟨0x0111, "SQ_CREATE", (1, 0), .o, [.pf, .op], false⟩,
   ⟨0x0112, "QUEUE_DELETE", (1, 0), .o, [.pf, .op], false⟩,
   ⟨0x0120, "SLICE_BIND", (1, 0), .cs, [.pf], false⟩]

/-- Key commands (R358). -/
def keyRows : List CmdRow :=
  [⟨0x0200, "CEREMONY_OPEN", (1, 0), .o, [.ce], false⟩,
   ⟨0x0201, "KEY_COMPONENT", (1, 0), .cx, [.ce], false⟩,
   ⟨0x0202, "KEY_GENERATE", (1, 0), .cx, [.ce], false⟩,
   ⟨0x0203, "CEREMONY_CLOSE", (1, 0), .o, [.ce], false⟩,
   ⟨0x0204, "KEY_DELETE", (1, 0), .cx, [.so], false⟩,
   ⟨0x0205, "KEY_INFO", (1, 0), .q, [.pf, .so, .au, .ce, .op], false⟩,
   ⟨0x0206, "KEY_LIST", (1, 0), .q, [.pf, .so, .au, .ce, .op], false⟩,
   ⟨0x0207, "KEY_PIN", (1, 0), .o, [.so], false⟩,
   ⟨0x0208, "CUSTODIAN_SET", (1, 0), .cx, [.so], false⟩]

/-- Audit, recipe and decode-table commands (R360, R361). -/
def auditRows : List CmdRow :=
  [⟨0x0300, "AUDIT_RING_CREATE", (1, 0), .o, [.pf, .op], false⟩,
   ⟨0x0301, "AUDIT_RING_DELETE", (1, 0), .o, [.pf, .op], false⟩,
   ⟨0x0302, "AUDIT_KEYS", (1, 0), .q, [.pf, .au], false⟩,
   ⟨0x0303, "AUDIT_FLUSH_SYSTEM", (1, 0), .o, [.pf, .au], false⟩,
   ⟨0x0400, "RECIPE_STAGE", (2, 0), .o, [.so], false⟩,
   ⟨0x0401, "RECIPE_LOAD", (1, 0), .cs, [.so], false⟩,
   ⟨0x0402, "RECIPE_MASK", (1, 0), .cs, [.so], false⟩,
   ⟨0x0403, "RECIPE_DELETE", (1, 0), .cs, [.so], false⟩,
   ⟨0x0404, "RECIPE_LIST", (1, 0), .q, [.pf, .so, .au], false⟩,
   ⟨0x0410, "DECODE_LOAD", (2, 1), .cs, [.so], false⟩,
   ⟨0x0411, "DECODE_MASK", (2, 1), .cs, [.so], false⟩,
   ⟨0x0412, "DECODE_READ", (2, 1), .q, [.pf, .so, .au], false⟩]

/-- Configuration, Sump, counter and record commands (R362, R364). -/
def configRows : List CmdRow :=
  [⟨0x0500, "CONFIG_READ", (1, 0), .q, [.pf, .so, .au], false⟩,
   ⟨0x0501, "CONFIG_COMMIT", (1, 0), .cs, [.so], false⟩,
   ⟨0x0510, "SUMP_JOURNAL", (1, 0), .o, [.so], false⟩,
   ⟨0x0511, "SUMP_SAVE", (3, 0), .o, [.so], false⟩,
   ⟨0x0512, "SUMP_RESTORE", (3, 0), .cs, [.so], false⟩,
   ⟨0x0513, "SUMP_INIT", (1, 0), .cs, [.so], false⟩,
   ⟨0x0600, "TALLY_READ", (1, 0), .q, [.pf, .au], false⟩,
   ⟨0x0601, "COUNTER_CONFIG", (1, 0), .o, [.pf, .so, .op], false⟩,
   ⟨0x0610, "STRATA_READ", (1, 0), .q, [.pf, .au, .sb], false⟩]

/-- Pair, lifecycle, firmware, tamper, reset and I/O commands (R365, R366, R431, R516, R548). -/
def deviceRows : List CmdRow :=
  [⟨0x0700, "PAIR_STATUS", (2, 0), .q, [.pf, .op, .sb], false⟩,
   ⟨0x0701, "PAIR_CREATE", (2, 0), .cs, [.so], false⟩,
   ⟨0x0702, "PAIR_DISSOLVE", (2, 0), .cs, [.so], true⟩,
   ⟨0x0703, "CLAIM_GRANT", (2, 0), .o, [.pf, .sb], true⟩,
   ⟨0x0800, "ATTEST", (1, 0), .q, [.pf, .so, .au, .sb], true⟩,
   ⟨0x0801, "LIFECYCLE_SET", (1, 0), .cs, [.ce], false⟩,
   ⟨0x0802, "UNLOCK", (1, 0), .cs, [.ce], false⟩,
   ⟨0x0803, "ZEROISE", (1, 0), .o, [.pf, .so, .ce], true⟩,
   ⟨0x0804, "TAMPER_SET", (3, 0), .cs, [.so], false⟩,
   ⟨0x0805, "DEVICE_RESET", (1, 0), .o, [.pf, .so, .sb], true⟩,
   ⟨0x0810, "FW_STAGE", (1, 0), .o, [.so], false⟩,
   ⟨0x0811, "FW_COMMIT", (1, 0), .cs, [.so], false⟩,
   ⟨0x0900, "IO_CONFIG", (1, 0), .o, [.pf, .so, .op], false⟩,
   ⟨0x0901, "IO_STATUS", (1, 0), .q, [.pf, .so, .au, .op, .sb], false⟩]

/-- The whole catalogue. -/
def catalogue : List CmdRow := sessionRows ++ chamberRows ++ keyRows ++ auditRows ++ configRows ++ deviceRows

/-- The row of a command code, where it is defined. -/
def cmdRow (code : Nat) : Option CmdRow := catalogue.find? fun r => r.code == code

/-- A command of class Q: it changes no state that custodians or the audit guard (R347). -/
def readOnly (code : Nat) : Bool := match cmdRow code with
  | some r => r.cls == .q
  | none => true

/-- The commands marked P (R345 step 5): a member that does not hold the claim runs them. -/
def markedP (code : Nat) : Bool := match cmdRow code with
  | some r => r.p || r.cls == .q
  | none => true

/-- The objects of R339. -/
inductive Obj where
  | chamber (c : Nat)
  | systemScope
  | config
  | recipes
  | decode
  | sump
  | pair
  | lifecycle
  deriving DecidableEq, Repr

/-- The object of a SCOPE byte. -/
def scopeObj (s : Nat) : Obj := if s = 0xFF then .systemScope else .chamber s

/-- The object a command that changes state acts on (R339), from its code and payload. -/
def cmdObject (code : Nat) (p : Bytes) : Option Obj :=
  let b0 := (byteAt p 0).toNat
  if readOnly code then none
  else if 0x0100 ≤ code ∧ code ≤ 0x0112 then some (.chamber b0)
  else if code = 0x0201 ∨ code = 0x0202 ∨ code = 0x0204 ∨ code = 0x0208 then some (scopeObj b0)
  else if code = 0x0207 then
    some (if (byteAt p 6).toNat ≥ 128 then .systemScope else .chamber ((byteAt p 7).toNat / 4))
  else if code = 0x0300 ∨ code = 0x0301 then some (scopeObj b0)
  else if code = 0x0303 then some .systemScope
  else if 0x0400 ≤ code ∧ code ≤ 0x0403 then some .recipes
  else if code = 0x0410 ∨ code = 0x0411 then some .decode
  else if code = 0x0501 then some .config
  else if 0x0510 ≤ code ∧ code ≤ 0x0513 then some .sump
  else if 0x0700 ≤ code ∧ code ≤ 0x0703 then some .pair
  else if code = 0x0801 ∨ code = 0x0802 ∨ code = 0x0803 then some .lifecycle
  else none

end Sys2Proof.Machine
end

