-- ==== Sys2Proof/Machine/ChuckFlow.lean ====
section
/-! DEFINITION. The course of a work item through Chuck (chapters 3 and 9): fetch and entry, dispatch, queue-control opcodes, completion;
and the reset of a chamber (chapter 13). -/
namespace Sys2Proof.Machine

/-! ### Entry (R70, R236, R576) -/

/-- DIRECT and AUDIT are permitted for an opcode (R69, R70, R83, R268). -/
def flagsPermitted (op flags : Nat) : Bool :=
  let direct := flags.testBit 4
  if isQueueControl op then !direct && !flags.testBit 0
  else if isRecipeRun op then !direct
  else match opRow op with
    | some r => r.direct || !direct
    | none => false

/-- A new work item's job. -/
def jobOf (c : Nat) (d : Bytes) : Job :=
  { Job.none with opcode := dOpcode d, flags := dFlags d, tag := dTag d, keyIn := dKeyIn d, keyOut := dKeyOut d
                  operands := dOperands d, ext := if (dFlags d).testBit 2 then 0 else dExt d, chamber := c }

/-- Step 1 of R70. -/
def stepOneOk (g : Nat) (d : Bytes) (j : Job) : Bool :=
  dGroup d == g && decide (dFlags d < 32) && opDefined j.opcode && flagsPermitted j.opcode j.flags && j.ext % 64 == 0
    && (if isQueueControl j.opcode then allZero (d.drop 8)
      else match opRow j.opcode with
        | some r => noneOk (r.keyIn j) j.keyIn && noneOk (r.keyOut j) j.keyOut
        | none => true)

/-- A handle field passes steps 1 and 2 of R37 where step 2 of R70 resolves it. -/
def handleFieldOk (b : Block) (c h : Nat) (n : KeyNeed) : Bool :=
  match n with
  | .none => true
  | .unused => true
  | .role _ => handleOwn b h c
  | .any => handleOwn b h c

/-- The checks of R236 after step 1: the recipe of R68, and steps 1 and 2 of R37; the status of the first that fails. -/
def entryChecks (b : Block) (j : Job) : Option Nat :=
  if isRecipeRun j.opcode then
    if (recipeFor b j.chamber j.operands).isNone then some stFormat
    else if (j.keyIn ≠ 0 ∧ !handleOwn b j.keyIn j.chamber) ∨ (j.keyOut ≠ 0 ∧ !handleOwn b j.keyOut j.chamber) then some stKeyNotFound
    else none
  else match opRow j.opcode with
    | some r =>
      if handleFieldOk b j.chamber j.keyIn (r.keyIn j) && handleFieldOk b j.chamber j.keyOut (r.keyOut j) then none
      else some stKeyNotFound
    | none => none

/-- The class of an item (R242): its opcode's for a direct one, else the Chisel pool. -/
def itemClass (d : Bytes) : Cls :=
  if (dFlags d).testBit 4 then opClass (dOpcode d) else .chs

/-- RESULT of an AUDIT_FLUSH: the number of the chain's last leaf (R69). -/
def flushResult (c : Chain) : Bytes := leBytes 6 (c.lastLeaf.getD 0)

/-- The place of the last header made of a batch that holds a leaf, of those not yet released. -/
def lastLeafHeader (c : Chain) : Option Nat := ((c.headers.filter fun h => leField h.signed 24 2 != 0).getLast?).map (·.pos)

/-- An AUDIT_FLUSH is fetched (R69): the open batch closes; what it waits for, and its RESULT. -/
def flushFetched (b : Block) (n c : Nat) : Block :=
  let i := ChainId.chamber c
  let r := okResult (flushResult (b.chain i))
  let b := closeBatch b i 2
  let ch := b.chain i
  let wait := if ch.batch.isSome then some ch.nextPos else lastLeafHeader ch
  b.modItem n fun x => { x with flushTo := wait, job := { x.job with held := some r } }

/-- A descriptor enters Chuck's buffer (R235, R236). -/
def enterItem (b : Block) (c g idx : Nat) (d : Bytes) : Block :=
  let j := jobOf c d
  let n := b.chuck.nextItem
  let audit := (dFlags d).testBit 0
  let ok := stepOneOk g d j
  let i : Item :=
    { chamber := c, group := g, index := idx, cq := (b.sq c g).cq, desc := d, residence := b.cyc, st := .closing, cls := itemClass d
      pipe := 0, ahead := false, needCount := false, needMiss := [], waited := none, done := false, written := none, mute := false, core := none
      job := j, leaf := if audit ∧ ok then .wanted else .none, step := 0, flushTo := none }
  let b := (b.setItem n i).modChuck fun x => { x with nextItem := n + 1 }
  let b := b.event 72 0x002 (some c)
  if !ok then closeItem b n (justStatus stFormat)
  else match entryChecks b j with
    | some s => if s = stFormat then refuseRecipe b n i else closeItem b n (justStatus s)
    | none =>
      if j.opcode = 0x0F01 then b.modCh c fun h => { h with fence := some n }
      else if j.opcode = 0x0F02 then flushFetched b n c
      else if isQueueControl j.opcode then b
      else settleItem b n i

/-- Entries whose data has arrived become fetched in index order, as long as the device fetches for the chamber (R76, R81, R252, R576). -/
def advanceQueue (c g : Nat) : Nat → Block → Block
  | 0, b => b
  | n + 1, b =>
    let s := b.sq c g
    match Tab.get? s.arrived s.head with
    | some d =>
      if mayFetch b c then
        let b := enterItem b c g s.head d
        advanceQueue c g n (b.modSq c g fun s => { s with arrived := Tab.erase s.arrived s.head, head := (s.head + 1) % s.depth })
      else b
    | none => b

/-- Every queue of a chamber advanced. -/
def advanceQueues (b : Block) (c : Nat) : Block :=
  (List.range 8).foldl (fun b g => advanceQueue c g (b.sq c g).arrived.length b) b

/-- FETCH_ISSUE: engine `e` issues its next fetch of up to 64 descriptors (R79, R237 to R240); where Bus Master Enable is clear the read fails (R71). -/
def fetchIssue (b : Block) (e : Nat) : Block :=
  if 256 ≤ engineReads b e then b
  else
    match engineChoice b e with
    | none =>
      let stopped := ((engineQueues b e).filter fun i => queueWants b (i / 8) (i % 8)).map (· / 8)
      if stopped = [] then b else b.events 72 0x00B stopped
    | some (i, pays) =>
      let c := i / 8
      let g := i % 8
      let s := b.sq c g
      if !b.bme (c + 1) then quiesceChamber b c qBme none
      else
        let waiting := (s.tail + s.depth - s.issued) % s.depth
        let toWrap := s.depth - s.issued
        let toPage := 64 - s.issued % 64
        let k := [64, waiting, toWrap, toPage, groupRoom b c g, (b.cq c s.cq).free].foldl min (if pays then fetchCredit b c else 64)
        let b := b.emit (.readRequest (c + 1) (s.base + 64 * s.issued) (64 * k))
        let b := b.modSq c g fun s => { s with issued := (s.issued + k) % s.depth, reads := s.reads ++ [(s.issued, k)] }
        let b := b.modCq c s.cq fun q => { q with reserved := q.reserved + k }
        let b := if pays then b.modCh c fun h => { h with credit := h.credit - k * b.n } else b
        b.modChuck fun x => { x with lastQueue := Tab.set x.lastQueue e i }

/-- DESCRIPTOR_FETCH: the data of the read of queue `g` of chamber `c` that began at entry `first` arrives, or the read fails and the
chamber is quiesced (R71, R539, R576). -/
def descriptorFetch (b : Block) (c g first : Nat) (x : DmaRead) : Block :=
  let s := b.sq c g
  match s.reads.find? fun r => r.1 == first with
  | none => b
  | some r =>
    match dmaRead b c x with
    | (.data d, b) =>
      let put (t : Tab Bytes) (k : Nat) : Tab Bytes := Tab.set t ((first + k) % s.depth) (fit 64 (slice d (64 * k) 64))
      let b := b.modSq c g fun s => { s with reads := s.reads.filter (· != r), arrived := (List.range r.2).foldl put s.arrived }
      issueBuffers (advanceQueue c g s.depth b) (c % 8)
    | (x, b) => quiesceChamber (queueReadFault b (c + 1) x) c qDmaRead none

/-! ### Dispatch (R241 to R249) -/

/-- A direct item dispatched: its leaf-buffer entry is taken, and with it its place at the consumer (R198, R241, R242); the chamber's PIN policy and
tables are read for it (R93). -/
def dispatchDirect (b : Block) (n : Nat) : Block :=
  match b.item? n with
  | none => b
  | some i =>
    let go (b : Block) : Block :=
      b.modItem n fun i =>
        { i with st := .dispatched, ahead := false, needMiss := [], waited := some (waitOf b i)
                 job := i.job.underPolicy (b.chamber i.chamber) |>.toKeys i.pipe }
    if i.audit ∧ i.leaf ≠ .entry then
      match entryCheck b (.chamber i.chamber) with
      | .granted => (go (takeEntry b (.chamber i.chamber))).modItem n fun i => { i with leaf := .entry }
      | .wait => b
      | .refused s => closeItem ((auditKeyReads b (.chamber i.chamber)).modItem n fun i => { i with leaf := .dropped }) n (justStatus s)
    else go b

/-- CHUCK_SELECT: the dispatch port takes one work item (R244 to R249). -/
def chuckSelect (b : Block) : Block :=
  let b := refreshHolds b
  if b.kerard.egressClosed then b
  else match chooseItem b with
    | none => b.event 72 0x005 none
    | some (k, n, b) =>
      match b.item? n with
      | none => b
      | some i =>
        let b := b.event 72 0x003 (some i.chamber)
        let b := match k, chooseCore b with
          | .chs, some core => deliverItem b n core
          | .chs, none => b
          | _, _ => dispatchDirect b n
        zeroAllDeficits b

/-! ### Queue-control opcodes (R69, R76) -/

/-- An item of a queue-control opcode in CLOSING whose outcome is not there yet. -/
def controlItem (b : Block) (r : Requester) (op : Nat) : Option (Nat × Item) :=
  match r with
  | .item n => match b.item? n with
    | some i => if i.st = .closing ∧ i.job.outcome.isNone ∧ i.job.opcode = op then some (n, i) else none
    | none => none
  | .ticket _ _ => none

/-- NOP (R69). -/
def opNop (b : Block) (r : Requester) : Block :=
  match controlItem b r 0x0F00 with
  | some (n, _) => closeItem b n (okResult [])
  | none => b

/-- FENCE: it completes once every descriptor of its chamber fetched before it has had its completion written (R76). -/
def opFence (b : Block) (r : Requester) : Block :=
  match controlItem b r 0x0F01 with
  | some (n, i) => if (b.itemsOf i.chamber).any fun p => decide (p.1 < n) then b else closeItem b n (okResult [])
  | none => b

/-- AUDIT_FLUSH: it completes once the headers it waits for are signed, recorded and mirrored (R69). -/
def opAuditFlush (b : Block) (r : Requester) : Block :=
  match controlItem b r 0x0F02 with
  | some (n, i) =>
    let done := match i.flushTo with
      | some pos => flushedTo b (.chamber i.chamber) pos
      | none => true
    if done then closeItem b n (i.job.held.getD (okResult [])) else b
  | none => b

/-! ### Completion (R64, R75, R78, R80, R82) -/

/-- The chamber of an operation on a Gallery core is this one. -/
def gaBusyFor (b : Block) (c : Nat) : Bool :=
  b.gallery.cores.any fun p =>
    let mine (q : GaReq) : Bool := q.payer == c && match q.owner with
      | .job _ => true
      | .header _ _ _ => false
      | .headstock => false
    match p.2 with
    | .idle => false
    | .validating q => mine q
    | .working q => mine q
    | .aborting q => mine q

/-- A completion (R64). -/
def completionBytes (b : Block) (i : Item) (o : Outcome) (phase : Bool) : Bytes :=
  let seq := match i.leaf with
    | .accepted s => some s
    | _ => none
  let out := o.output.isSome && !isFailure o.status
  leBytes 2 o.status ++ leBytes 2 b.claim ++ leBytes 4 (dTag i.desc) ++ leBytes 6 (seq.getD 0)
    ++ [BitVec.ofNat 8 (b2n phase + 2 * b2n out + 4 * b2n seq.isSome), 0] ++ (if isFailure o.status then zeros 16 else fit 16 o.result)

/-- The leaf of a closing item allows its completion (R14, R77, R200). -/
def leafSettled (i : Item) : Bool :=
  match i.leaf with
  | .none => true
  | .accepted _ => true
  | .dropped => true
  | _ => false

/-- A completion queue's message, where enough completions are outstanding (R82). -/
def signalCq (b : Block) (c q : Nat) : Block :=
  let x := b.cq c q
  if x.vecEn ∧ 0 < x.unsignalled ∧ x.coalCount ≤ x.unsignalled then
    (b.modCq c q fun x => { x with unsignalled := 0 }).msix (c + 1) x.vector
  else b

/-- The completion queue after one more entry (R64, R79, R82). -/
def Cq.push (q : Cq) (irq : Bool) : Cq :=
  let wrap := decide (q.tail + 1 = q.depth)
  { q with tail := if wrap then 0 else q.tail + 1, phase := if wrap then !q.phase else q.phase, reserved := q.reserved - 1
           unsignalled := if irq && q.vecEn then q.unsignalled + 1 else q.unsignalled }

/-- An item leaves Chuck's buffer. -/
def removeItem (b : Block) (n : Nat) : Block := b.modChuck fun x => { x with items := Tab.erase x.items n }

/-- A completion written: the entry, the counts, the message, and the end of a chamber FENCE (R64, R76, R82). -/
def writeCompletion (b : Block) (n : Nat) (i : Item) (o : Outcome) : Block :=
  let c := i.chamber
  let q := b.cq c i.cq
  let b := b.dmaWrite (hostMaster c) (some c) (c + 1) (q.base + 32 * q.tail) (completionBytes b i o q.phase)
  let b := removeItem (b.modCq c i.cq fun q => q.push i.irq) n
  let b := b.tally c
  let b := if isFailure o.status then b.tally (64 + c) else b
  let b := signalCq (b.event 72 0x004 (some c)) c i.cq
  if (b.chamber c).fence = some n then advanceQueues (b.modCh c fun h => { h with fence := none }) c else b

/-- The item's completion may be written now (R75, R77, R80). A later descriptor of a queue that needs no dispatch does not wait for an earlier fenced
one: R75 speaks of dispatch only (DESIGN CHOICE, log entry 106). Once PERST_N is asserted no completion is written (R66). -/
def mayComplete (b : Block) (n : Nat) (i : Item) : Bool :=
  let h := b.chamber i.chamber
  i.st == .closing && leafSettled i && !(i.fence && !(earlierItems b n i).isEmpty)
    && !(h.st == .quiesced && gaBusyFor b i.chamber) && !h.resetting && !b.kerard.egressClosed && !b.pmc.perstDue

/-- An item ends without a completion (R66): its reserved entry is free. -/
def dropCompletion (b : Block) (n : Nat) (i : Item) : Block :=
  let b := removeItem (b.modCq i.chamber i.cq fun q => { q with reserved := q.reserved - 1 }) n
  b.modCh i.chamber fun h => if h.fence = some n then { h with fence := none } else h

/-- COMPLETION_WRITE of item `n` (R64, R75 to R82): written once its leaf and any FENCE allow; a write that fails quiesces the chamber
(R71, R539). A descriptor whose write fails, or that the device had when it learnt of a higher claim, has no completion (R66). -/
def completionWrite (b : Block) (n : Nat) (e : Egress) : Block :=
  match b.item? n with
  | none => b
  | some i =>
    match i.job.outcome with
    | none => b
    | some o =>
      let c := i.chamber
      if i.mute then (if i.st = .closing ∧ leafSettled i then dropCompletion b n i else b)
      else if !mayComplete b n i then b
      else if !b.bme (c + 1) then dropCompletion (quiesceChamber b c qBme (some n)) n i
      else if e = .bufferError then
        dropCompletion (quiesceChamber (b.aer (c + 1) "Uncorrectable Internal Error" false) c qDmaWrite (some n)) n i
      else writeCompletion b n i o

/-- COALESCE_TIMER: COAL_TIME has passed since the first completion not yet signalled (R82). -/
def coalesceTimer (b : Block) (c q : Nat) : Block :=
  let x := b.cq c q
  if x.vecEn ∧ 0 < x.unsignalled then (b.modCq c q fun x => { x with unsignalled := 0 }).msix (c + 1) x.vector else b

/-- MSIX_UNMASK: a vector's mask bit is cleared, and its pending message is sent (R537). -/
def msixUnmask (b : Block) (fn vec : Nat) : Block :=
  let k := 64 * fn + vec
  let p := b.pcie
  let b := { b with pcie := { p with unmasked := p.unmasked.filter (· != k) ++ [k], pendingMsix := p.pendingMsix.filter (· != k) } }
  if p.pendingMsix.contains k then b.msix fn vec else b

/-- A vector's mask bit set (R537). -/
def msixMask (b : Block) (fn vec : Nat) : Block :=
  { b with pcie := { b.pcie with unmasked := b.pcie.unmasked.filter (· != 64 * fn + vec) } }

/-! ### Chamber reset (R333, R334) -/

/-- A work item of a chamber that is being reset discarded, whatever it was doing: no completion is written (R80, R252). -/
def discardItem (b : Block) (n : Nat) : Block :=
  match b.item? n with
  | none => b
  | some i =>
    let b := endJobRefs (stopItem b n i) i.job
    let b := dropItemLeaf b n i
    removeItem b n

/-- A chamber's reset begins (R333): fetching stops, its work ends without completions, its queues and ring are deleted and the registers
of its VF window take their reset values, with its waits in Chuck (R254). A reset that is running absorbs another (R334). -/
def beginReset (b : Block) (c : Nat) : Block :=
  let h := b.chamber c
  if h.st = .none ∨ h.resetting then b
  else
    let b := b.modCh c fun h => { h with resetting := true }
    let b := (b.itemsOf c).foldl (fun b p => discardItem b p.1) b
    let b := closeBatch (abortSignatures b (.chamber c)) (.chamber c) 3
    let b := b.modCh c fun h =>
      { h with sqs := [], cqs := [], qerr := 0, fence := none, qreason := 0, lastFault := 0, faultCnt := 0
               groups := Tab.mapVals h.groups fun _ g => { g with wmax := 0, wavg := 0 } }
    let b := modRing b (.chamber c) fun _ => Ring.reset
    let b := b.modLanPort (lanPortVf c) fun p => { p with buf := [], err := false }
    freeChamberCounters b c

/-- CHAMBER_RESET_COMPLETE: the reset ends once the chamber's Gallery operations have reported (R189, R333): ACTIVE without queues, or
QUIESCED with no reason in LOCKED (R379). -/
def chamberResetComplete (b : Block) (c : Nat) : Block :=
  let h := b.chamber c
  if h.resetting ∧ !gaBusyFor b c then
    b.modCh c fun h => { h with resetting := false, st := if b.life = 4 then .quiesced else .active, qreason := 0 }
  else b

end Sys2Proof.Machine
end

