-- ==== Sys2Proof/Machine/StrataOps.lean ====
section
/-! DEFINITION. Strata (chapter 19): the record and its time base, the evidence area, the recorder, and the lifecycle log. -/
namespace Sys2Proof.Machine

/-- The class field of FLG (R449). -/
def RClass.code : RClass → Nat
  | .w => 0
  | .l => 1
  | .z => 2
  | .none => 3

/-- OPT: operating time in units of 1/16 s (R451). -/
def Block.opt (b : Block) : Nat := b.now / 62500

/-- A record of R449, stamped, for main power or for battery. -/
def recordBytes (b : Block) (r : Report) (battery : Bool) : Bytes :=
  let body := leBytes 2 r.code ++ [BitVec.ofNat 8 r.src]
    ++ [BitVec.ofNat 8 (r.cls.code + 4 * b2n battery + 8 * b2n r.rom + 16 * b2n r.overrun)]
    ++ leBytes 4 b.strata.pcc ++ leBytes 5 b.opt ++ leBytes 3 (if battery then b.bbram.batSeconds else 0)
    ++ leBytes 4 r.p0 ++ leBytes 4 r.p1 ++ leBytes 4 r.p2
  body ++ leBytes 4 (crc32c body)

/-- A code writes to the evidence area; the others of R453 to the recorder. -/
def isEvidence (code : Nat) : Bool := decide (code < 0x0200)

/-- The codes the last fifteen evidence slots take (R456). -/
def lastSlotCodes : List Nat := [0x0100, 0x0101, 0x0110, 0x0111, 0x0112, 0x0131, 0x0130]

/-- CODE of a record. -/
def recordCode (r : Bytes) : Nat := leField r 0 2

/-- A record put in the lowest unused evidence slot (R455): `failures` is how often programming failed its read-back, and each failed slot
stays used, holding what `torn` says was programmed. The device after, without the consequences of a full area. -/
def evidenceProgram (s : Strata) (r : Bytes) (torn : List Bytes) : Strata :=
  let failed := torn.take 3
  { s with evidence := (s.evidence ++ failed.map (fit 32) ++ (if failed.length < 3 then [r] else [])).take 8192 }

/-- The evidence record of a full area (R456), class L. -/
def evidenceFullRecord (b : Block) : Bytes :=
  recordBytes b { code := 0x0141, src := 0, cls := .l, p0 := 0, p1 := 0, p2 := 0, rom := false, overrun := false, quiesce := 64, detected := b.now } false

/-- An evidence record written (R455, R456): the Strata after, and whether the area became full with it. -/
def evidenceAppend (b : Block) (r : Bytes) (torn : List Bytes) : Block × Bool :=
  let s := b.strata
  if s.evidence.length < 8176 then (b.modStrata fun s => evidenceProgram s r torn, false)
  else if !s.evidenceFull then
    let s1 := { s with evidence := s.evidence ++ [evidenceFullRecord b], evidenceFull := true }
    let s2 := if lastSlotCodes.contains (recordCode r) then evidenceProgram s1 r torn else s1
    ({ b with strata := s2 }, true)
  else if lastSlotCodes.contains (recordCode r) then (b.modStrata fun s => evidenceProgram s r torn, false)
  else (b, false)

/-- The recorder's capacity from its code in the settings block (R362, R457). -/
def recorderCapacity (code : Nat) : Nat := if code = 0 then 4096 else if code = 1 then 16384 else 32768

/-- Byte `i` of the settings in force (R362). -/
def Block.setting (b : Block) (i : Nat) : Nat := (byteAt b.bimor.settings i).toNat

/-- The slot of SERIAL `s` (R457). -/
def recorderSlot (c s : Nat) : Nat := if s < c / 4 ∨ c = 32768 then s else c / 4 + (s - c / 4) % (3 * c / 4)

/-- A recorder record written at the next SERIAL, or counted in RECORDER_FULL (R457, R458). -/
def recorderAppend (b : Block) (c : Nat) (r : Bytes) : Block :=
  let s := b.strata
  if c = 32768 ∧ 32767 ≤ s.serial then
    b.modStrata fun s => { s with fullCount := min (2 ^ 32 - 1) (s.fullCount + 1), fullLast := recordCode r }
  else b.modStrata fun s => { s with recorder := Tab.set s.recorder (recorderSlot c s.serial) r, serial := s.serial + 1 }

/-- RECORDER_FULL_UPDATE: the record of SERIAL 32,767 rewritten with its changed count (R458). -/
def recorderFull (b : Block) (c : Nat) : Block :=
  let s := b.strata
  if c = 32768 ∧ 32767 ≤ s.serial ∧ s.fullCount ≠ 0 then
    let r := recordBytes b { code := 0x0250, src := 0, cls := .none, p0 := s.fullCount, p1 := s.fullLast, p2 := 0, rom := false, overrun := false, quiesce := 64, detected := b.now } false
    b.modStrata fun s => { s with recorder := Tab.set s.recorder 32767 r, serial := 32768 }
  else b

/-! ### The lifecycle log -/

/-- An entry of the lifecycle log (R369). -/
def lifecycleEntry (b : Block) (fromState to_ cause : Nat) : Bytes :=
  let a := [BitVec.ofNat 8 fromState, BitVec.ofNat 8 to_, BitVec.ofNat 8 cause]
  let z := leBytes 4 b.strata.pcc
  a ++ [BitVec.ofNat 8 (crc32c (a ++ z))] ++ z

/-- An entry's CHK is correct (R369). -/
def lifecycleEntryOk (e : Bytes) : Bool :=
  e.length == 8 && (byteAt e 3).toNat == crc32c (e.take 3 ++ e.drop 4) % 256

/-- The state the log gives: the TO of its last good entry, BLANK where there is none (R369). -/
def lifecycleOf (log : List Bytes) : Nat :=
  match log.reverse.find? lifecycleEntryOk with
  | some e => (byteAt e 1).toNat
  | none => 0

/-- A transition takes effect at the instant its entry is written (R369, R377). -/
def setLifecycle (b : Block) (to_ cause : Nat) : Block :=
  let e := lifecycleEntry b b.life to_ cause
  { (b.modStrata fun s => { s with lifecycleLog := s.lifecycleLog ++ [e] }) with life := to_, bbram := { b.bbram with lifecycle := to_ } }

/-- LCOUNT: entries used (R369). -/
def Block.lcount (b : Block) : Nat := b.strata.lifecycleLog.length

/-- STRATA_READ's records (R461): next index and records, from area, first index and count. -/
def strataRead (b : Block) (c area first count : Nat) : Nat × List Bytes :=
  let s := b.strata
  if area = 0 then
    let l := (s.evidence.drop first).take count
    (if l.isEmpty then first else first + l.length, l)
  else
    let lowest :=
      if c = 32768 ∨ s.serial ≤ c then first
      else if first < c / 4 then first else max first (s.serial - 3 * c / 4)
    let idx := (List.range count).map fun i =>
      let x := lowest + i
      if c ≠ 32768 ∧ c < s.serial ∧ c / 4 ≤ x ∧ x < s.serial - 3 * c / 4 then x + (s.serial - 3 * c / 4 - c / 4) else x
    let l := (idx.filter (· < s.serial)).map fun x => (x, Tab.get s.recorder (zeros 32) (recorderSlot c x))
    match l.getLast? with
    | some (x, _) => (x + 1, l.map (·.2))
    | none => (first, [])

end Sys2Proof.Machine
end

