-- ==== Sys2Proof/Machine/KerardOps.lean ====
section
/-! DEFINITION. The Kerard ring and the twin pair (chapter 20): links, frames, pairing, mirroring, heartbeats, claims. -/
namespace Sys2Proof.Machine

/-! ### Links and frames (R464 to R476) -/

/-- A Kerard port. -/
def Block.link (b : Block) : KPort → Link
  | .ka => b.kerard.linkA
  | .kb => b.kerard.linkB

/-- A Kerard port changed by `f`. -/
def Block.modLink (b : Block) (p : KPort) (f : Link → Link) : Block :=
  match p with
  | .ka => b.modKerard fun k => { k with linkA := f k.linkA }
  | .kb => b.modKerard fun k => { k with linkB := f k.linkB }

/-- The other port. -/
def otherPort : KPort → KPort
  | .ka => .kb
  | .kb => .ka

/-- A port is trained. -/
def Block.linkUp (b : Block) (p : KPort) : Bool := (b.link p).st == .up

/-- A frame put on a port, which its DMA engine sends where the port is trained (R9). -/
def kEmit (b : Block) (p : KPort) (f : Bytes) : Block :=
  if b.linkUp p then
    let x := dmaOut b (kerardMaster p) none f
    x.2.emit (.frame p x.1)
  else b

/-- KIND of a frame (R473). -/
def fKind (f : Bytes) : Nat := leField f 0 1
/-- SRCN. -/
def fSrc (f : Bytes) : Nat := leField f 2 1
/-- DSTN. -/
def fDst (f : Bytes) : Nat := leField f 3 1
/-- PAIRNO. -/
def fPair (f : Bytes) : Nat := leField f 4 1
/-- TTL. -/
def fTtl (f : Bytes) : Nat := leField f 5 1
/-- CLAIM. -/
def fClaim (f : Bytes) : Nat := leField f 6 2
/-- FSEQ. -/
def fSeq (f : Bytes) : Nat := leField f 8 6
/-- LEN. -/
def fLen (f : Bytes) : Nat := leField f 14 2
/-- The payload. -/
def fPayload (f : Bytes) : Bytes := slice f 16 (fLen f)
/-- The tag. -/
def fTag (f : Bytes) : Bytes := slice f (16 + fLen f) 16
/-- A frame has the length its header gives (R473). -/
def fWhole (f : Bytes) : Bool := decide (fLen f ≤ 5136) && f.length == 32 + fLen f

/-- FFLAGS with SYNC and RETRY. -/
def fflags (sync retry : Bool) : Nat := b2n sync + 2 * b2n retry

/-- The kinds of R474. -/
abbrev kVersion : Nat := 0x01
/-- DISCOVER. -/
abbrev kDiscover : Nat := 0x02
/-- PAIR_JOIN. -/
abbrev kJoin : Nat := 0x10
/-- HEARTBEAT. -/
abbrev kHeartbeat : Nat := 0x11
/-- CLAIM. -/
abbrev kClaim : Nat := 0x12
/-- DISSOLVE. -/
abbrev kDissolve : Nat := 0x13
/-- MIRROR. -/
abbrev kMirror : Nat := 0x20
/-- MIRROR_HDR. -/
abbrev kMirrorHdr : Nat := 0x21
/-- MIRROR_ACK. -/
abbrev kMirrorAck : Nat := 0x22
/-- LEAF. -/
abbrev kLeaf : Nat := 0x23
/-- LEAF_ACK. -/
abbrev kLeafAck : Nat := 0x24

/-- The header of R473. -/
def frameHeader (kind flags src dst pairNo claim fseq len : Nat) : Bytes :=
  leBytes 1 kind ++ leBytes 1 flags ++ leBytes 1 src ++ leBytes 1 dst ++ leBytes 1 pairNo ++ [8] ++ leBytes 2 claim
    ++ leBytes 6 fseq ++ leBytes 2 len

/-- The device belongs to a pair, as a member. -/
def Block.paired (b : Block) : Bool := b.kerard.st != .none

/-- PAIRNO of the device's own pair (R473). -/
def Block.pairNo (b : Block) : Nat := if b.paired then min b.kerard.node b.kerard.peerNode else 0xFF

/-- CLAIM of the frames a member sends (R473): the holder's own, the standby's the pair's as it knows it. -/
def Block.frameClaim (b : Block) : Nat :=
  if !b.paired then 0 else if b.kerard.role = .active then b.kerard.held else b.kerard.claimSeen

/-- An endpoint to which the device has a key (R478): its peer, its ring referee, or a member of a pair it serves. -/
inductive KEnd where
  | peer
  | referee
  | member (pairNo : Nat) (standby : Bool)
  deriving DecidableEq, Repr

/-- A pair the device serves. -/
def Block.servedPair (b : Block) (pn : Nat) : Option RefPair := Tab.get? b.kerard.served pn

/-- The node, link key, PAIRNO and CLAIM of an endpoint. -/
def kEndOf (b : Block) : KEnd → Nat × Bytes × Nat × Nat
  | .peer => (b.kerard.peerNode, b.kerard.linkKey, b.pairNo, b.frameClaim)
  | .referee => (b.kerard.referee, b.kerard.refKey, b.pairNo, b.frameClaim)
  | .member pn s =>
    match b.servedPair pn with
    | some r => if s then (r.standbyNode, r.keyS, pn, r.claim) else (r.activeNode, r.keyA, pn, r.claim)
    | none => (0, [], pn, 0)

/-- The FSEQ counters of an endpoint (R473). -/
def kSeqOf (b : Block) (e : KEnd) : FSeq :=
  match e with
  | .peer => b.kerard.fPeer
  | .referee => b.kerard.fRef
  | .member _ _ => Tab.get b.kerard.fMembers FSeq.reset (kEndOf b e).1

/-- The FSEQ counters of an endpoint changed by `f`. -/
def modKSeq (b : Block) (e : KEnd) (f : FSeq → FSeq) : Block :=
  match e with
  | .peer => b.modKerard fun k => { k with fPeer := f k.fPeer }
  | .referee => b.modKerard fun k => { k with fRef := f k.fRef }
  | .member _ _ => let n := (kEndOf b e).1
                   b.modKerard fun k => { k with fMembers := Tab.modify k.fMembers FSeq.reset n f }

/-- The port of a "Path" frame to a node (R476): the way with fewer open nodes, KA on a tie, the other where that port is down. -/
def kPath (b : Block) (node : Nat) : KPort :=
  let s := Tab.get b.kerard.seen Seen.reset node
  let p : KPort := match s.viaA, s.viaB with
    | some x, some y => if y < x then .kb else .ka
    | none, some _ => .kb
    | _, none => .ka
  if b.linkUp p then p else (otherPort p)

/-- A frame protected by the link key's CMAC sent to an endpoint, on both ports or on the path (R474). -/
def kSend (b : Block) (e : KEnd) (kind : Nat) (payload : Bytes) (both : Bool) : Block :=
  let (node, key, pn, claim) := kEndOf b e
  let n := (kSeqOf b e).sent + 1
  let b := modKSeq b e fun s => { s with sent := n }
  let h := frameHeader kind 0 b.kerard.node node pn claim n payload.length
  let f := h ++ payload ++ aesCmac key (h ++ payload)
  if both then kEmit (kEmit b .ka f) .kb f else kEmit b (kPath b node) f

/-- A frame without a key sent on both ports: its tag is zero (R474). -/
def kSendPlain (b : Block) (kind dst pn claim : Nat) (payload : Bytes) : Block :=
  let f := frameHeader kind 0 b.kerard.node dst pn claim 0 payload.length ++ payload ++ zeros 16
  kEmit (kEmit b .ka f) .kb f

/-- A frame forwarded out of the other port (R466): TTL counts down and the frame goes when it reaches zero. It passes link buffers only, and no Ferrule.
VERSION frames are never forwarded. -/
def kForward (b : Block) (p : KPort) (f : Bytes) : Block :=
  if fTtl f ≤ 1 ∨ fKind f = kVersion ∨ !b.linkUp (otherPort p) then b
  else b.emit (.frame (otherPort p) (patch f 5 (leBytes 1 (fTtl f - 1))))

/-- A frame that the node consumes, brought in by the port's DMA engine (R466): of a frame whose write is denied (R416) the buffer holds zeros, which are no
frame. -/
def kTake (b : Block) (p : KPort) (consume : Block → Block) : Block :=
  match ferruleAccess b (kerardMaster p) .write (dmaAddress (kerardMaster p)) none with
  | (true, b) => consume b
  | (false, b) => b

/-- A frame that arrives on a port (R466): a trained port of an open node takes it in, consumes it where it is addressed to the node or to all,
and forwards it where it is not the node's alone. -/
def kIntake (b : Block) (p : KPort) (f : Bytes) (kind : Nat) (consume : Block → Block) : Block :=
  if !b.linkUp p ∨ !b.kerard.bypassOpen ∨ !fWhole f ∨ fKind f ≠ kind then b
  else if fDst f = b.kerard.node then kTake b p consume
  else if fDst f = 0xFF then kForward (kTake b p consume) p f
  else kForward b p f

/-- FRAME_FORWARD: a frame that is not addressed to the node (R466). -/
def frameForward (b : Block) (p : KPort) (f : Bytes) : Block :=
  if !b.linkUp p ∨ !b.kerard.bypassOpen ∨ !fWhole f ∨ fDst f = b.kerard.node then b else kForward b p f

/-! ### Pair state -/

/-- A change of the pair's registers (R499): `KRD_CFG.VECTOR` is signalled where VEC_EN asks for it and the claims or STATE change. -/
def kPair (b : Block) (f : Kerard → Kerard) : Block :=
  let old := b.kerard
  let b := b.modKerard f
  if b.kerard.vecEn ∧ (old.st ≠ b.kerard.st ∨ old.held ≠ b.kerard.held ∨ old.claimSeen ≠ b.kerard.claimSeen) then
    b.msix 0 b.kerard.vector
  else b

/-- The claim-table entry of the device's own pair (R492), which its persistent state keeps. -/
def claimEntry (b : Block) : Nat := Tab.get b.kerard.table b.kerard.claimSeen b.pairNo

/-- A claim entered as the highest seen (R491, R492). -/
def noteClaim (k : Kerard) (pn c : Nat) : Kerard :=
  { k with claimSeen := max k.claimSeen c, table := Tab.set k.table pn (max k.claimSeen c) }

/-- A request or commit answers to a mailbox. -/
def Waiter.isBox (i : Nat) : Waiter → Bool
  | .mailbox m => mbxNo m == i
  | _ => false

/-- The commit of a mailbox's command has started (R367): it is in the commit in progress, or complete and awaiting the standby. -/
def commitStarted (b : Block) (i : Nat) : Bool :=
  (((b.sump.commit.map fun c => c.reqs.map (·.waiter)).getD []) ++ b.kerard.out.flatMap (·.waiters) ++ b.kerard.released).any fun w => w.isBox i

/-- A referee's handshake with a pair, given up: the scalars that answered the members are zeroised (R11). -/
def RefPair.unjoin (r : RefPair) : RefPair := { r with joinA := none, joinS := none, scalarA := [], scalarS := [], rejoin := false }

/-- The handshakes that a referee has answered and that are not over, given up; a pair that has never been formed is none of its. -/
def Kerard.dropServed (k : Kerard) : Kerard :=
  { k with served := Tab.mapVals (k.served.filter fun p => p.2.pairId != []) fun _ r => r.unjoin }

/-- Every handshake under way given up, its scalars zeroised (R11); a member of a recorded pair stays what it was. -/
def Kerard.dropHandshakes (k : Kerard) : Kerard :=
  let k := k.dropServed
  { k with joinScalar := [], joinPeer := none, joinRef := none, rejoin := false
           st := if k.rejoin ∧ k.role ≠ .active then .stale else if k.st = .joining ∧ k.joinScalar ≠ [] then .none else k.st }

/-- Commands cut short with a status (R367): those that wait, whose commit has not started; what they had queued for a commit goes, and a
PAIR_CREATE gives up its handshake. A command still before its checks meets them in the state that follows. -/
def cutCommands (b : Block) (status : Nat) (spared : Mailbox → Bool) : Block :=
  (List.range 6).foldl
    (fun b i =>
      let x := b.mbx i
      if x.phase = .waiting ∧ !commitStarted b i ∧ !spared x then
        let b := b.modSump fun s => { s with queue := s.queue.filter fun r => !r.waiter.isBox i }
        let b := b.modKerard fun k =>
          if (k.joinMbx.map mbxNo) = some i then
            { k with joinMbx := none, joinScalar := [], joinPeer := none, joinRef := none, st := .none, role := .none }
          else k
        b.modMbx i fun x => { x with waits := 0, await := .nothing, failed := some status }
      else b) b

/-- Every item that is not dispatched is discarded (R252). -/
def discardUndispatched (b : Block) : Block :=
  (b.chuck.items.filter fun p => p.2.st == .ready || (match p.2.st with | .held _ => true | _ => false)).foldl
    (fun b p => discardItem b p.1) b

/-- The device serves no more (R252, R493): fetching stops, nothing undispatched stays, work in flight is lost, and commands not marked P whose commit has
not started are over (R367). -/
def stopServing (b : Block) : Block :=
  let b := b.ch.foldl (fun b p => abandonReads b p.1) (discardUndispatched b)
  let b := b.modChuck fun x => { x with items := Tab.mapVals x.items fun _ i => { i with mute := true } }
  cutCommands b stClaimLost fun x => markedP (mbxCode x)

/-- The device learns of a higher claim of its own pair, which its peer holds (R252, R493): its egress closes, nothing undispatched stays, and
a member other than one just paired is STALE (R488). Commits past their start complete (R367). -/
def learnClaim (b : Block) (c : Nat) : Block :=
  let fresh : Bool := b.kerard.st == .joining
  stopServing (kPair b fun k =>
    { noteClaim k (min k.node k.peerNode) c with
      role := .standby, st := if fresh then .syncing else .stale, egressClosed := true
      released := k.released ++ k.out.flatMap (·.waiters), out := [], resync := [], resyncing := false })

/-! ### Receiving (R475, R492) -/

/-- The endpoint a protected frame comes from, as its header says: in the device's own pair its peer or referee, else a member of a pair it
serves. -/
def kSender (b : Block) (f : Bytes) : Option KEnd :=
  if b.paired ∧ fPair f = b.pairNo then
    if fSrc f = b.kerard.peerNode then some .peer
    else if !b.kerard.refHost ∧ fSrc f = b.kerard.referee then some .referee
    else none
  else match b.servedPair (fPair f) with
    | some r =>
      if fSrc f = r.activeNode then some (.member (fPair f) false)
      else if fSrc f = r.standbyNode then some (.member (fPair f) true)
      else none
    | none => none

/-- A failed tag or a replay counted (R475, R530). -/
def dropAuth (b : Block) : Block :=
  (b.modKerard fun k => { k with dropsAuth := min 0xFFFF (k.dropsAuth + 1) }).tally 150

/-- A frame below the claim table's entry counted (R492, R530). -/
def dropClaim (b : Block) : Block :=
  (b.modKerard fun k => { k with dropsClaim := min 0xFFFF (k.dropsClaim + 1) }).tally 149

/-- The claim table's rule for a frame of the device's own pair (R492). -/
def claimDrops (b : Block) (f : Bytes) : Bool :=
  b.paired && fPair f == b.pairNo && fKind f != kClaim && decide (fClaim f < claimEntry b)

/-- What a verified frame's header teaches of the pair's claim (R493). -/
def headerClaim (b : Block) (e : KEnd) (f : Bytes) : Block :=
  match e with
  | .member _ _ => b
  | _ => if b.kerard.claimSeen < fClaim f ∧ fKind f ≠ kClaim then learnClaim b (fClaim f) else b

/-- A protected frame checked (R475, R492): from whom, or nothing with the drop counted. The second copy of the frame accepted last is
discarded without a count. `open_` says whether the frame authenticates. -/
def kVerify (b : Block) (f : Bytes) (open_ : KEnd → Bool) : Option KEnd × Block :=
  if claimDrops b f then (none, dropClaim b)
  else match kSender b f with
    | none => (none, dropAuth b)
    | some e =>
      if !open_ e then (none, dropAuth b)
      else if fSeq f = (kSeqOf b e).accepted ∧ fSeq f ≠ 0 then (none, b)
      else if fSeq f < (kSeqOf b e).accepted ∨ fSeq f = 0 then (none, dropAuth b)
      else
        let b := modKSeq b e fun s => { s with accepted := fSeq f }
        (some e, headerClaim b e f)

/-- A frame under a link key authenticates (R474). -/
def cmacOpens (b : Block) (f : Bytes) (e : KEnd) : Bool :=
  let key := (kEndOf b e).2.1
  !key.isEmpty && aesCmac key (f.take (16 + fLen f)) == fTag f

/-- A frame under a link key taken in, and acted on where it verifies. -/
def kAuth (b : Block) (p : KPort) (f : Bytes) (kind : Nat) (act : Block → KEnd → Block) : Block :=
  kIntake b p f kind fun b =>
    match kVerify b f (cmacOpens b f) with
    | (some e, b) => act b e
    | (none, b) => b

/-! ### Mirroring (R482 to R486) -/

/-- A holder in the state `st` has a standby to keep current (R480, R488). -/
def Kerard.follows (k : Kerard) (st : PState) : Bool := st == .inSync || st == .syncing || (st == .degraded && k.resyncing)

/-- The device has a standby that its commits belong to. In ISOLATED (R489) and in LOCKED (R437) it sends none of them, and keeps them for when it may. DESIGN
CHOICE, log entry 125. -/
def Block.keepsFrames (b : Block) : Bool :=
  b.kerard.role == .active && b.life != 5 && b.kerard.follows (if b.kerard.st = .isolated then b.kerard.before else b.kerard.st)

/-- The device sends mirror frames (R437, R480, R488, R489). -/
def Block.mirroring (b : Block) : Bool := b.keepsFrames && b.kerard.st != .isolated && b.life != 4

/-- The record of the pair transport key (R213, R478) with a mark: ALG, USAGE, MODE and COUNTED are the manual's, the other attributes are
the model's. DESIGN CHOICE, log entry 109. -/
def transportLine (b : Block) (epoch count : Nat) : Bytes :=
  let k := b.kerard
  let a : Attr :=
    { alg := 5, length := 256, usage := ascii "D0", mode := 0x42, exp := 0x4E, counted := true, fingerprint := false, notAfter := 0
      owner := 0x8000, kvn := ascii "00", kcv := symmetricKcv 5 k.transport, chain := 0xFFFFFFFF }
  withMark ((recordLines a k.transport (slotIndex b 64 k.txGidx)).headD []) epoch count

/-- A write of that record: with its key, or as a new mark (R39), or with RETIRED set (R42). -/
def transportWrite (b : Block) (cls : Option Nat) (line : Bytes) (mark : Nat) : Block :=
  b.sumpQueue { writes := [{ gidx := b.kerard.txGidx, lines := [line], newClass := cls }], range := none, waiter := .transport mark }

/-- The counter IV of a mirror frame (R139, R483): which pipeline draws the count is open, so it is a free value (log entry 2). The last count
below 2^48 retires the key (R42). -/
def transportIv (b : Block) : Bytes × Block :=
  let (x, b) := b.fresh 1
  let k := b.kerard
  let iv := beBytes 2 b.claim ++ [0xFF, BitVec.ofNat 8 ((byteAt x 0).toNat % 4)] ++ beBytes 8 k.txCount
  let b := if k.txCount + 1 = 2 ^ 48 then transportWrite b none (withRetired (transportLine b k.txEpoch k.txMark)) k.txMark else b
  (iv, b.modKerard fun k => { k with txCount := k.txCount + 1 })

/-- The next block of the transport key's counts reserved, once 3,072 of the current one are used (R39, R41, R478). -/
def transportReserve (b : Block) : Block :=
  let k := b.kerard
  let asked := (b.sump.queue.any fun r => match r.waiter with | .transport _ => true | _ => false)
    || ((b.sump.commit.map fun c => c.reqs.any fun r => match r.waiter with | .transport _ => true | _ => false).getD false)
  let m := k.txMark / 4096 * 4096 + 4096
  if k.txCount + 1024 < k.txMark ∨ asked ∨ k.transport = [] ∨ 2 ^ 48 < m then b
  else transportWrite b none (transportLine b b.claim m) m

/-- A mirror frame put on the path to the standby (R476, R483), as far as a count is reserved for it; without one it waits for its
resend. -/
def transmit (b : Block) (m : MirrorOut) (retry : Bool) : Block :=
  let k := b.kerard
  if k.transport = [] ∨ k.txMark ≤ k.txCount then transportReserve b
  else
    let (iv, b) := transportIv b
    let n := k.fPeer.sent + 1
    let b := modKSeq b .peer fun s => { s with sent := n }
    let kind := if m.hdrScope.isSome then kMirrorHdr else kMirror
    let h := frameHeader kind (fflags m.sync retry) k.node k.peerNode b.pairNo b.frameClaim n m.payload.length
    let f := h ++ gcmSeal k.transport iv h m.payload 16
    transportReserve (kEmit b (kPath b k.peerNode) f)

/-- A mirror frame sent, where the device may send, and kept until it is acknowledged. -/
def mirrorSend (b : Block) (m : MirrorOut) : Block :=
  let b := b.modKerard fun k => { k with out := k.out ++ [m] }
  if b.mirroring then transmit b m false else b

/-- An entry of a mirrored commit (R483). -/
def mirrorEntry (gidx mk version cls n : Nat) (record : Bytes) : Bytes :=
  leBytes 5 gidx ++ leBytes 1 mk ++ leBytes 2 version ++ leBytes 1 cls ++ leBytes 3 n ++ zeros 4 ++ fit 64 record

/-- A commit's payload: header and entries. -/
def mirrorPayload (mseq : Nat) (entries : List Bytes) : Bytes :=
  leBytes 6 mseq ++ leBytes 2 entries.length ++ zeros 8 ++ entries.flatten

/-- A global index lies in the mirrored scope (R482, R213): which of Headstock's system records do, their requests say. -/
def inScope (g : Nat) : Bool := decide (g < 64) || g == 255 || decide (256 ≤ g)

/-- A request's records are mirrored (R482): not those of the pair itself, nor the system custodian set. -/
def mirroredRequest (b : Block) (r : SumpReq) : Bool :=
  match r.waiter with
  | .transport _ => false
  | .mirror _ => false
  | .mailbox m =>
    let x := b.mbx (mbxNo m)
    !([0x0701, 0x0702].contains (mbxCode x)) && !(mbxCode x == 0x0208 && leField x.command 16 1 == 0xFF)
  | _ => true

/-- The mirror entries of a request that has been committed. -/
def requestEntries (b : Block) (r : SumpReq) : List Bytes :=
  match r.range with
  | some (first, n) => [mirrorEntry first 1 0 0 n []]
  | none => (r.slots b).filterMap fun s =>
      if inScope s.1 then
        let v := slotVersion b s.1
        some (mirrorEntry s.1 0 (verVersion v) (verClass v) 0 s.2.2)
      else none

/-- A commit of the active sent to its standby (R483): its waiters wait for the acknowledgement where the pair's rules hold them (R488); those
that nothing holds are answered. -/
def mirrorCommit (b : Block) (reqs : List SumpReq) : Block :=
  let free (l : List SumpReq) : List Waiter := l.map (·.waiter)
  if !b.keepsFrames then b.modKerard fun k => { k with released := k.released ++ free reqs }
  else
    let sent := reqs.filter fun r => mirroredRequest b r && requestEntries b r != []
    let rest := reqs.filter fun r => !(mirroredRequest b r && requestEntries b r != [])
    let b := b.modKerard fun k => { k with released := k.released ++ free rest }
    if sent = [] then b
    else
      let n := b.kerard.mseq + 1
      let held := b.mirrored && b.mirroring
      let b := b.modKerard fun k => { k with mseq := n, released := if held then k.released else k.released ++ free sent }
      mirrorSend b { no := n, hdrScope := none, payload := mirrorPayload n (sent.flatMap (requestEntries b)), sync := false
                     waiters := if held then free sent else [] }

/-- SCOPE of a chain (R474). -/
def scopeOf (i : ChainId) : Nat := chamberByte i

/-- The chain of a SCOPE. -/
def chainOfScope (s : Nat) : ChainId := if s = 0xFF then .system else .chamber s

/-- A header entry's frame payload (R474). -/
def hdrPayload (i : ChainId) (entry : Bytes) : Bytes := leBytes 1 (scopeOf i) ++ zeros 15 ++ entry

/-- A header entry sent to the standby once it is signed and recorded (R206, R484). -/
def mirrorHeaders (b : Block) (i : ChainId) : Block :=
  if !b.mirroring then b
  else (b.chain i).headers.foldl
    (fun b h =>
      let c := b.chain i
      let whole := h.signatures c.pq && h.recorded && !h.mirrored
      let asked := b.kerard.out.any fun m => m.hdrScope == some (scopeOf i) && m.no == h.batch && m.payload == hdrPayload i (headerEntry c.pq h)
      if whole ∧ !asked then
        mirrorSend b { no := h.batch, hdrScope := some (scopeOf i), payload := hdrPayload i (headerEntry c.pq h), sync := false
                       waiters := [] }
      else b) b

/-- The records of the mirrored scope in use, in ascending global index (R480). -/
def recordsInScope (b : Block) : List Nat := ((b.sump.ddr.records.map (·.1)).filter fun g => inScope g && g != b.kerard.txGidx && b.sump.ddr.hint.contains g)

/-- The last header entry of every chain sent in a resynchronisation (R480). -/
def resyncHeaders (b : Block) : Block :=
  b.kerard.headers.foldl
    (fun b p =>
      let i := chainOf p.1
      if (b.chain i).present then
        mirrorSend b { no := p.2.1 % 2 ^ 64, hdrScope := some (scopeOf i), payload := hdrPayload i p.2.2, sync := true, waiters := [] }
      else b) b

/-- The pair's keys have been agreed and the device holds the claim: resynchronisation begins (R480). -/
def resyncStart (b : Block) : Block :=
  let b := b.modKerard fun k => { k with resync := recordsInScope b, resyncing := true, lastSync := none }
  let b := resyncHeaders b
  if b.kerard.resync = [] then b.modKerard fun k => { k with lastSync := some k.mseq } else b

/-- RESYNC_COPY: up to 64 records of the mirrored scope go to the standby in a SYNC frame (R480). A record that does not verify is counted as
any read's and left out. -/
def resyncCopy (b : Block) (ret : DdrReturn) : Block :=
  let k := b.kerard
  if !k.resyncing ∨ k.resync = [] ∨ !b.mirroring then b
  else
    let batch := k.resync.take 64
    let (b, es) := batch.foldl
      (fun (acc : Block × List Bytes) g =>
        match readRecord acc.1 ret g with
        | (.ok v _, line) => (acc.1, acc.2 ++ [mirrorEntry g 0 (verVersion v) (verClass v) 0 line])
        | _ => acc) (b, [])
    let n := b.kerard.mseq + 1
    let rest := k.resync.drop 64
    let b := b.modKerard fun k => { k with mseq := n, resync := rest, lastSync := if rest = [] then some n else none }
    mirrorSend b { no := n, hdrScope := none, payload := mirrorPayload n es, sync := true, waiters := [] }

/-- An acknowledgement's payload (R474). -/
def ackPayload (akind scope no : Nat) : Bytes := leBytes 1 akind ++ leBytes 1 scope ++ zeros 6 ++ leBytes 8 no

/-- The standby acknowledges to the active. -/
def mirrorAckSend (b : Block) (akind scope no : Nat) : Block := kSend b .peer kMirrorAck (ackPayload akind scope no) false

/-- The records of a mirrored commit as a request to the standby's own Sump (R228, R483). -/
def mirrorRequest (mseq : Nat) (payload : Bytes) : List SumpReq :=
  let n := leField payload 6 2
  let es := (List.range n).map fun i => slice payload (16 + 80 * i) 80
  let writes := (es.filter fun e => byteAt e 5 == 0).map fun e =>
    ({ gidx := leField e 0 5, lines := [slice e 16 64], newClass := some (4 + 4 * leField e 6 2 + leField e 8 1 % 4) } : NewRecord)
  let ranges := (es.filter fun e => byteAt e 5 != 0).map fun e =>
    ({ writes := [], range := some (leField e 0 5, leField e 9 3), waiter := .nobody } : SumpReq)
  ranges ++ [{ writes := writes, range := none, waiter := .mirror mseq }]

/-- The frames that are next in MSEQ order are given to the standby's Sump (R483). -/
def applyMirrors : Nat → Block → Block
  | 0, b => b
  | fuel + 1, b =>
    match (b.kerard.early.filter fun p => !p.2.asked).head? with
    | some (n, m) =>
      let before := b.kerard.early.all fun p => decide (n ≤ p.1) || p.2.asked
      let next := ((b.kerard.early.filter fun p => p.2.asked).map (·.1)).foldl max b.kerard.mseq + 1
      if before ∧ n = next then
        let b := b.modKerard fun k => { k with early := Tab.set k.early n { m with asked := true } }
        applyMirrors fuel ((mirrorRequest n m.payload).foldl (fun b r => b.sumpQueue r) b)
      else b
    | none => b

/-- The standby opens a frame under the transport key (R483); the counter IV is not in the frame, so it comes with the command. -/
def transportOpen (b : Block) (f iv : Bytes) : Option Bytes :=
  if b.kerard.transport = [] then none
  else gcmOpen b.kerard.transport iv (f.take 16) (fPayload f) (fTag f)

/-- A mirror frame taken in from the holder of the claim (R483, R492), and acted on where it verifies. -/
def kMirrorIn (b : Block) (p : KPort) (f iv : Bytes) (kind : Nat) (act : Block → Bytes → Block) : Block :=
  kIntake b p f kind fun b =>
    let body := transportOpen b f iv
    match kVerify b f (fun e => e == .peer && body.isSome) with
    | (some _, b) =>
      if b.kerard.role = .standby ∧ fClaim f = claimEntry b ∧ (b.kerard.st = .syncing ∨ b.kerard.st = .inSync) then
        act b (body.getD [])
      else b
    | (none, b) => b

/-- MIRROR: a commit of the active arrives (R483): a repeated MSEQ is acknowledged again (R476), a new one is held until it is next. -/
def mirrorReceive (b : Block) (p : KPort) (f iv : Bytes) (setups : List Setup) (last : Bool) : Block :=
  kMirrorIn b p f iv kMirror fun b x =>
    let n := leField x 0 6
    if n ≤ b.kerard.mseq then mirrorAckSend b 0 0 n
    else if (Tab.get? b.kerard.early n).isSome then b
    else
      let b := b.modKerard fun k => { k with early := Tab.set k.early n { payload := x, setups := setups, last := last, asked := false } }
      applyMirrors (b.kerard.early.length) b

/-- MIRROR_HDR: a chain's last header entry arrives (R484); the standby keeps it on chip and acknowledges. -/
def mirrorHdrReceive (b : Block) (p : KPort) (f iv : Bytes) : Block :=
  kMirrorIn b p f iv kMirrorHdr fun b x =>
    let i := chainOfScope (leField x 0 1)
    let entry := x.drop 16
    let batch := leField entry 8 8
    let pos := placeOf (leField entry 26 2) batch
    let newer := match Tab.get? b.kerard.headers (chainIx i) with
      | some (n, _) => decide (n < pos)
      | none => true
    let b := if newer then b.modKerard fun k => { k with headers := Tab.set k.headers (chainIx i) (pos, entry) } else b
    mirrorAckSend b 1 (leField x 0 1) batch

/-- MIRROR_ACK: the standby acknowledges a commit, a header or the resynchronisation (R474, R480). -/
def mirrorAckReceive (b : Block) (p : KPort) (f : Bytes) : Block :=
  kAuth b p f kMirrorAck fun b e =>
    if e ≠ .peer ∨ b.kerard.role ≠ .active then b
    else
      let x := fPayload f
      let kind := leField x 0 1
      let no := leField x 8 8
      let scope := leField x 1 1
      if kind = 0 then
        let done (m : MirrorOut) : Bool := m.hdrScope.isNone && m.no == no
        b.modKerard fun k =>
          { k with out := k.out.filter fun m => !done m, released := k.released ++ (k.out.filter done).flatMap (·.waiters) }
      else if kind = 1 then
        let i := chainOfScope scope
        let b := match b.kerard.out.find? fun m => m.hdrScope == some scope && m.no == no with
          | some m => b.modKerard fun k => { k with out := k.out.erase m }
          | none => b
        match (b.chain i).headers.find? fun h => h.batch == no && h.recorded && !h.mirrored with
        | some h => modHeader b i h.pos fun h => { h with mirrored := true }
        | none => b
      else if kind = 2 ∧ b.kerard.resyncing ∧ b.kerard.lastSync.isSome then
        kPair b fun k => { k with st := .inSync, resyncing := false, lastSync := none }
      else b

/-- MIRROR_RESEND: a frame that has not been acknowledged within 50 us is sent again (R476): `hdr` names a header entry's SCOPE. -/
def mirrorResend (b : Block) (hdr : Option Nat) (no : Nat) : Block :=
  match b.kerard.out.find? fun m => m.hdrScope == hdr && m.no == no with
  | some m => if b.mirroring then transmit b m true else b
  | none => b

/-! ### Claims (R488 to R498) -/

/-- Every chain that exists. -/
def chainIds (b : Block) : List ChainId := (b.chains.filter fun p => p.2.present).map fun p => chainOf p.1

/-- A queue pair and ring set to reset values, configuration aside (R495 step 4). -/
def emptyQueues (b : Block) : Block :=
  let b := { b with ch := Tab.mapVals b.ch fun _ h =>
    { h with sqs := Tab.mapVals h.sqs fun _ s => { s with head := 0, tail := 0, issued := 0, reads := [], arrived := [] }
             cqs := Tab.mapVals h.cqs fun _ q => { q with tail := 0, phase := true, head := 0, reserved := 0, unsignalled := 0 } } }
  (chainIds b).foldl
    (fun b i =>
      let b := b.modChain i fun c => { c with heldLeaves := [], heldHeaders := [], waiting := [], entries := 0 }
      modRing b i fun r => { r with lhead := 0, ltail := 0, hhead := 0, htail := 0, err := 0, stopped := false }) b

/-- The system chain's audit keys read from Sump into the key file (R45, R192). -/
def loadKeyFile (b : Block) : Block :=
  let c := b.chain .system
  let load (b : Block) (g : Nat) : Block :=
    match readWhole b .faithful g with
    | (.ok l, b) => b.modKeys fun k => { k with auditSeeds := Tab.set k.auditSeeds g (recMaterial (l.map (·.1)) 1) }
    | (.error _, b) => b
  if !c.present then b else (if c.pq then [c.edGidx, c.pqGidx] else [c.edGidx]).foldl load b

/-- A standby takes over (R495): claim, announcement, emptied queues and rings, the last mirrored header entries and the gap batches, and then
fetching. Commits already asked for complete; frames held for want of an earlier one are dropped. -/
def takeOver (b : Block) (c : Nat) : Block :=
  let b := b.modKerard fun k =>
    { noteClaim k (min k.node k.peerNode) c with
      held := c, role := .active, st := .degraded, egressClosed := false, early := k.early.filter fun p => p.2.asked
      missPeer := 0, resync := [], resyncing := false }
  let b := kSend b .peer kClaim (b.kerard.pairId ++ leBytes 2 c ++ leBytes 1 b.kerard.node ++ [4] ++ zeros 4) true
  let b := emptyQueues b
  let b := (chainIds b).foldl
    (fun b i =>
      let b := match Tab.get? b.kerard.headers (chainIx i) with
        | some (_, e) => b.modChain i fun x => { x with heldHeaders := [e] }
        | none => b
      resumeWithGap b i) (loadKeyFile b)
  if b.kerard.vecEn then b.msix 0 b.kerard.vector else b

/-- A holder is granted the next claim, its peer having failed (R208, R488): every chain closes its batch under the old claim and makes a gap
batch of no number, and nothing waits for the standby any more. -/
def claimAgain (b : Block) (c : Nat) : Block :=
  let b := (chainIds b).foldl (fun b i => claimRises b i c) b
  kPair b fun k =>
    { noteClaim k (min k.node k.peerNode) c with
      held := c, role := .active, st := .degraded, egressClosed := false
      released := k.released ++ k.out.flatMap (·.waiters), out := [], resync := [], resyncing := false }

/-- The first claim of a pair (R479): the active holds it and starts mirroring, and PAIR_CREATE may be answered. -/
def firstClaim (b : Block) (c : Nat) : Block :=
  let m := b.kerard.joinMbx
  let b := kPair b fun k =>
    { noteClaim k (min k.node k.peerNode) c with
      held := c, role := .active, st := .syncing, egressClosed := false, txEpoch := c, joinMbx := none }
  let b := transportWrite b none (transportLine b c 4096) 4096
  let b := match m with
    | some m => b.modMbx (mbxNo m) fun x => { x with await := .nothing }
    | none => b
  resyncStart b

/-- A claim granted to this device: the pair's first, a takeover, or a renewed one (R479, R488, R495). -/
def gainClaim (b : Block) (c : Nat) : Block :=
  let k := b.kerard
  if k.st = .joining then firstClaim b c
  else if k.role = .active then claimAgain b c
  else takeOver b c

/-- The standby of a new pair learns that the first claim has been granted: its own PAIR_CREATE may be answered
(R477, R479), and the transport key's mark gets the first claim as its epoch (R478). -/
def joinAnswered (b : Block) : Block :=
  match b.kerard.joinMbx with
  | some m =>
    if b.kerard.st = .joining then b
    else
      let b := transportWrite b none (transportLine b b.kerard.claimSeen 4096) 4096
      (b.modMbx (mbxNo m) fun x => { x with await := .nothing }).modKerard fun k => { k with joinMbx := none, txEpoch := k.claimSeen }
  | none => b

/-- CLAIM: a grant or an announcement (R479, R488, R492, R495): accepted only above the table's entry. -/
def claimReceive (b : Block) (p : KPort) (f : Bytes) : Block :=
  let b := kAuth b p f kClaim fun b e =>
    let x := fPayload f
    let c := leField x 8 2
    let mine : Bool := match e with
      | .member _ _ => false
      | _ => true
    if !mine ∨ x.take 8 ≠ b.kerard.pairId ∨ c ≤ claimEntry b then b
    else if leField x 10 1 = b.kerard.node ∧ e = .referee then gainClaim b c
    else if leField x 10 1 = b.kerard.node then b
    else learnClaim b c
  joinAnswered b

/-- A served pair changed by `f`. -/
def modServed (b : Block) (pn : Nat) (f : RefPair → RefPair) : Block :=
  match b.servedPair pn with
  | some r => b.modKerard fun k => { k with served := Tab.set k.served pn (f r) }
  | none => b

/-- A ring referee grants a pair's next claim to one member (R479, R488, R491): recorded first, then sent. The member named becomes the pair's
active. -/
def refereeGrant (b : Block) (pn : Nat) (toStandby : Bool) (reason : Nat) : Block :=
  match b.servedPair pn with
  | none => b
  | some r =>
    if 65535 ≤ r.claim then b
    else
      let c := r.claim + 1
      let node := if toStandby then r.standbyNode else r.activeNode
      let r1 := { r with claim := c, holder := node }
      let r2 := if toStandby then
          { r1 with activeNode := r.standbyNode, standbyNode := r.activeNode, missA := r.missS, missS := r.missA
                    failedA := r.failedS, failedS := r.failedA, keyA := r.keyS, keyS := r.keyA, sSync := false }
        else r1
      let b := b.modKerard fun k => { k with served := Tab.set k.served pn r2 }
      kSend b (.member pn false) kClaim (r.pairId ++ leBytes 2 c ++ leBytes 1 node ++ leBytes 1 reason ++ zeros 4) true

/-- A ring referee declares a member failed (R488). -/
def declareFailed (b : Block) (pn : Nat) (standby : Bool) : Block :=
  let b := modServed b pn fun r => if standby then { r with failedS := true } else { r with failedA := true }
  match b.servedPair pn with
  | none => b
  | some r =>
    if r.claim = 0 then b
    else if standby then (if r.failedA then b else refereeGrant b pn false 2)
    else if r.sSync ∧ !r.failedS then refereeGrant b pn true 1
    else b

/-- An active that hears neither its referee nor its peer is ISOLATED (R489): after 400 us, which is eight intervals, or with a host referee after
HOST_TIMEOUT, whose millisecond is twenty. It acts as one that has learnt of a higher claim, and keeps its own. -/
def isolateIfAlone (b : Block) : Block :=
  let k := b.kerard
  let alone : Bool := if k.refHost then k.hostLost && decide (20 * k.hostTimeout ≤ k.missPeer) else decide (8 ≤ k.missRef) && decide (8 ≤ k.missPeer)
  if k.role = .active ∧ k.st ≠ .isolated ∧ k.st ≠ .joining ∧ k.st ≠ .none ∧ alone then
    stopServing (kPair b fun k =>
      { k with before := k.st, st := .isolated, egressClosed := true, released := k.released ++ k.out.flatMap (·.waiters)
               out := k.out.map fun m => { m with waiters := [] } })
  else b

/-- An isolated active returns to service (R489). -/
def rejoinService (b : Block) : Block :=
  if b.kerard.st = .isolated then kPair b fun k => { k with st := k.before, egressClosed := false } else b

/-- HEARTBEAT_MISSED: an interval has passed without a verified HEARTBEAT of a party (R487 to R489). -/
def heartbeatMissed (b : Block) (who : Party) : Block :=
  match who with
  | .peer =>
    if !b.paired ∨ b.kerard.linkKey = [] then b
    else isolateIfAlone (b.modKerard fun k => { k with missPeer := k.missPeer + 1, peerOk := false })
  | .referee =>
    if !b.paired ∨ b.kerard.refHost ∨ b.kerard.refKey = [] then b
    else isolateIfAlone (b.modKerard fun k => { k with missRef := k.missRef + 1, refOk := false })
  | .served pn standby =>
    match b.servedPair pn with
    | none => b
    | some r =>
      let n := if standby then r.missS + 1 else r.missA + 1
      let b := modServed b pn fun r => if standby then { r with missS := n } else { r with missA := n }
      let failed := if standby then r.failedS else r.failedA
      if n = 8 ∧ !failed then declareFailed b pn standby else b

/-- HOST_TIMEOUT: no host beat has arrived in time, and the referee counts as lost (R489, R490). -/
def hostTimeout (b : Block) : Block :=
  if b.paired ∧ b.kerard.refHost then isolateIfAlone (b.modKerard fun k => { k with refOk := false, hostLost := true }) else b

/-- A beat of the host referee (R490). -/
def hostBeat (b : Block) : Block :=
  if b.paired ∧ b.kerard.refHost then
    rejoinService (b.modKerard fun k => { k with refOk := true, hostLost := false, lastBeat := b.now })
  else b

/-- The code of `KRD_PAIR.STATE` (R499). -/
def pstateCode : PState → Nat
  | .none => 0
  | .joining => 1
  | .syncing => 2
  | .inSync => 3
  | .degraded => 4
  | .stale => 5
  | .isolated => 6

/-- The code of a role (R499). -/
def proleCode : PRole → Nat
  | .none => 0
  | .active => 1
  | .standby => 2

/-- HEARTBEAT_SEND: members and referees heartbeat every 50 us (R437, R487); a device in LOCKED or ZEROISED does not. A member that has learnt
of a higher claim no longer sends as active. -/
def heartbeatSend (b : Block) : Block :=
  if b.life = 4 ∨ b.life = 5 then b
  else
    let k := b.kerard
    let own := leBytes 1 (proleCode k.role) ++ leBytes 1 (pstateCode k.st) ++ leBytes 2 k.held
      ++ leBytes 1 (if k.role = .active then k.node else k.peerNode) ++ zeros 1 ++ leBytes 6 k.mseq ++ zeros 4
    let b := if k.role = .none ∨ k.linkKey = [] ∨ k.st = .isolated then b else kSend b .peer kHeartbeat own true
    let b := if k.role = .none ∨ k.refHost ∨ k.refKey = [] ∨ k.st = .isolated then b else kSend b .referee kHeartbeat own true
    b.kerard.served.foldl
      (fun b p =>
        let r := p.2
        let x := [3, 0] ++ leBytes 2 r.claim ++ leBytes 1 r.holder ++ zeros 11
        let b := if r.keyA = [] then b else kSend b (.member p.1 false) kHeartbeat x true
        if r.keyS = [] then b else kSend b (.member p.1 true) kHeartbeat x true) b

/-- HEARTBEAT: a verified HEARTBEAT ends a run of missed intervals (R487 to R489). At a referee, the member that holds the current claim and comes
back after both had failed is granted the next one (R488). -/
def heartbeatReceive (b : Block) (p : KPort) (f : Bytes) : Block :=
  let b := kAuth b p f kHeartbeat fun b e =>
    let x := fPayload f
    match e with
    | .peer => b.modKerard fun k => { k with missPeer := 0, peerOk := true, lastBeat := b.now }
    | .referee =>
      let b := b.modKerard fun k => { k with missRef := 0, refOk := true, lastBeat := b.now }
      if leField x 4 1 = b.kerard.node ∧ leField x 2 2 = b.kerard.held ∧ b.kerard.role = .active then rejoinService b else b
    | .member pn standby =>
      match b.servedPair pn with
      | none => b
      | some r =>
        let b := modServed b pn fun r =>
          if standby then { r with missS := 0, sSync := leField x 1 1 == 3 } else { r with missA := 0 }
        let back := !standby && r.failedA && leField x 2 2 == r.claim
        if back then
          let b := modServed b pn fun r => { r with failedA := false }
          if r.failedS then refereeGrant b pn false 2 else b
        else b
  joinAnswered b

/-! ### Pairing (R477 to R481) -/

/-- The node of a device that DISCOVER frames have shown. -/
def nodeOf (b : Block) (device : Bytes) : Option Nat := (b.kerard.seen.find? fun p => p.2.live && p.2.device == device).map (·.1)

/-- The bytes of a PAIR_JOIN payload that its signature covers (R478). -/
def joinBody (b : Block) (peer ref : Bytes) (role : Nat) (rejoin : Bool) (claim : Nat) (scalar : Bytes) : Bytes :=
  b.device ++ fit 8 peer ++ fit 8 ref ++ leBytes 1 role ++ leBytes 1 (b2n rejoin) ++ leBytes 2 claim ++ leBytes 4 b.sumpT
    ++ leBytes 1 b.nlog2 ++ zeros 7 ++ fit 56 (montPublic true scalar)

/-- A whole PAIR_JOIN payload, signed under the identity key. -/
def joinPayload (b : Block) (peer ref : Bytes) (role : Nat) (rejoin : Bool) (claim : Nat) (scalar : Bytes) : Bytes :=
  let x := joinBody b peer ref role rejoin claim scalar
  x ++ edSign true false (ascii "VWPAIR") b.identity.seed x

/-- A key of R478. -/
def pairKey (z : Bytes) (label : String) (pairId : Bytes) : Bytes := (sha3_512 ([0, 0, 0, 1] ++ z ++ ascii label ++ pairId)).take 32

/-- PAIR_ID (R478). -/
def pairIdOf (actDevice stbDevice actPk stbPk : Bytes) : Bytes := shake256 ([0x0A] ++ actDevice ++ stbDevice ++ actPk ++ stbPk) 8

/-- The public key of a PAIR_JOIN payload. -/
def joinPk (x : Bytes) : Bytes := slice x 40 56

/-- A member's PAIR_JOIN sent to its peer and to its ring referee (R478), as far as their nodes are known. -/
def joinSend (b : Block) : Block :=
  let k := b.kerard
  let pay := joinPayload b k.peerDevice k.refereeDevice (proleCode k.joinRole) k.rejoin k.claimSeen k.joinScalar
  let reach (b : Block) (d : Bytes) : Block := match nodeOf b d with
    | some n => kSendPlain b kJoin n 0xFF 0 pay
    | none => b
  let b := reach b k.peerDevice
  if k.refHost then b else reach b k.refereeDevice

/-- The handshake given up: the scalar is zeroised, PAIR_CREATE fails with a status, and a member of a recorded pair stays what it was. -/
def joinFail (b : Block) (status : Nat) : Block :=
  let b := match b.kerard.joinMbx with
    | some m => (failMailbox b m status).modMbx (mbxNo m) fun x => { x with await := .nothing }
    | none => b
  kPair b fun k =>
    { k with joinScalar := [], joinPeer := none, joinRef := none, joinMbx := none, rejoin := false
             st := if k.rejoin then (if k.role = .active then k.st else .stale) else .none
             role := if k.rejoin then k.role else .none }

/-- The peer's PAIR_JOIN agrees with what this member asks for (R477). -/
def joinAgrees (b : Block) (x : Bytes) : Bool :=
  let k := b.kerard
  slice x 8 8 == b.device && slice x 16 8 == fit 8 k.refereeDevice && leField x 24 1 == 3 - proleCode k.joinRole
    && leField x 28 4 == b.sumpT && leField x 32 1 == b.nlog2

/-- The handshake's keys agreed (R478): they replace earlier ones, FSEQ and MSEQ start anew, and the transport key's first block is reserved. -/
def joinKeys (b : Block) (x : Bytes) (refPk : Option Bytes) : Block :=
  let k := b.kerard
  let mine := montPublic true k.joinScalar
  let pid := if k.joinRole = .active then pairIdOf b.device k.peerDevice mine (joinPk x)
    else pairIdOf k.peerDevice b.device (joinPk x) mine
  let z := montShared true k.joinScalar (joinPk x)
  let refKey := match refPk with
    | some pk => pairKey (montShared true k.joinScalar pk) "VWPAIR REF" pid
    | none => []
  let b := b.modKerard fun k =>
    { k with pairId := pid, transport := pairKey z "VWPAIR TX" pid, linkKey := pairKey z "VWPAIR LINK" pid, refKey := refKey
             joinScalar := [], joinPeer := none, joinRef := none, fPeer := FSeq.reset, fRef := FSeq.reset, mseq := 0
             released := k.released ++ k.out.flatMap (·.waiters), out := [], early := [], lastSync := none
             missPeer := 0, missRef := 0, txEpoch := k.claimSeen, txCount := 0, txMark := 4096
             txGidx := if k.txGidx = 0 then (lowestRun b 64 1).getD 0 else k.txGidx }
  let g : NewRecord := { gidx := b.kerard.txGidx, lines := [zeros 64], newClass := none }
  sysWrite (transportWrite (reserveSlots b 64 [g]) (some 0) (transportLine b b.kerard.claimSeen 4096) 4096) .nobody

/-- The handshake goes on as far as the PAIR_JOIN frames have arrived (R477, R478, R480, R486): with both there the keys are agreed. A new
standby closes its own system chain's batch. In a rejoin the holder starts the resynchronisation at once. -/
def joinTry (b : Block) : Block :=
  let k := b.kerard
  match k.joinPeer with
  | some x =>
    if x.take 8 ≠ k.peerDevice then b
    else if !joinAgrees b x ∨ (!k.refHost ∧ nodeOf b k.refereeDevice = nodeOf b k.peerDevice ∧ (nodeOf b k.peerDevice).isSome) then
      joinFail b stObjectState
    else if k.refHost ∨ k.joinRef.isSome then
      let b := joinKeys b x (k.joinRef.map joinPk)
      let b := if k.joinRole = .standby then closeBatch b .system 3 else b
      if k.rejoin then
        let b := kPair b fun k =>
          { k with rejoin := false, st := if k.joinRole = .standby then .syncing else k.st }
        if k.joinRole = .active then resyncStart b else b
      else b
    else b
  | none => b

/-- A holder answers its recorded peer's REJOIN with a PAIR_JOIN of its own (R478, R481), where Lantern delivers. -/
def rejoinAnswer (b : Block) : Block :=
  if b.kerard.joinScalar ≠ [] then b
  else match b.draw 56 with
    | none => b
    | some (s, b) => joinSend (b.modKerard fun k => { k with joinScalar := s, joinRole := .active, rejoin := true })

/-- A PAIR_JOIN from a device that names this one its peer: kept until this member's own PAIR_CREATE, or answered in a rejoin. -/
def joinFromPeer (b : Block) (node : Nat) (x : Bytes) : Block :=
  let k := b.kerard
  let rejoins := bit (leField x 25 1) 0
  if k.st = .joining ∨ k.rejoin then
    if x.take 8 = k.peerDevice then joinTry (b.modKerard fun k => { k with joinPeer := some x, peerNode := node }) else b
  else if k.st = .none then b.modKerard fun k => { k with joinPeer := some x }
  else if rejoins ∧ k.role = .active ∧ x.take 8 = k.peerDevice then
    joinTry (rejoinAnswer (b.modKerard fun k => { k with joinPeer := some x, peerNode := node }))
  else b

/-- A ring referee's entry for a pair, with a member's PAIR_JOIN put in. -/
def joinEntry (old : Option RefPair) (node other : Nat) (active : Bool) (rejoin : Bool) (x scalar : Bytes) : RefPair :=
  let r : RefPair := match old with
    | some r => r
    | none =>
      { pairId := [], activeNode := 0, standbyNode := 0, claim := 0, holder := 0, missA := 0, missS := 0, failedA := false
        failedS := false, sSync := false, keyA := [], keyS := [], joinA := none, joinS := none, scalarA := [], scalarS := []
        rejoin := false }
  if active then { r with activeNode := node, standbyNode := other, joinA := some x, scalarA := scalar, rejoin := rejoin }
  else { r with standbyNode := node, activeNode := other, joinS := some x, scalarS := scalar, rejoin := rejoin }

/-- A ring referee with both members' PAIR_JOIN (R478, R479): it computes their keys, and grants a new pair's first claim. -/
def joinReferee (b : Block) (pn : Nat) : Block :=
  match b.servedPair pn with
  | none => b
  | some r =>
    match r.joinA, r.joinS with
    | some xa, some xs =>
      let pid := pairIdOf (xa.take 8) (xs.take 8) (joinPk xa) (joinPk xs)
      let claim := max r.claim (max (leField xa 26 2) (leField xs 26 2))
      let r1 : RefPair :=
        { r with pairId := pid, claim := claim, keyA := pairKey (montShared true r.scalarA (joinPk xa)) "VWPAIR REF" pid
                 keyS := pairKey (montShared true r.scalarS (joinPk xs)) "VWPAIR REF" pid
                 joinA := none, joinS := none, scalarA := [], scalarS := [], missA := 0, missS := 0, failedA := false
                 failedS := false, sSync := false }
      let b := b.modKerard fun k =>
        { k with served := Tab.set k.served pn r1
                 fMembers := Tab.set (Tab.set k.fMembers r.activeNode FSeq.reset) r.standbyNode FSeq.reset }
      if r.rejoin then b else refereeGrant b pn false 0
    | _, _ => b

/-- A PAIR_JOIN from a member that names this device its referee (R465, R477, R478, R487): answered with one of its own. -/
def joinAtReferee (b : Block) (node : Nat) (x : Bytes) : Block :=
  let role := b.setting 2
  match nodeOf b (slice x 8 8), b.draw 56 with
  | some other, some (s, b1) =>
    let pn := min node other
    let old := b.servedPair pn
    if (role ≠ 2 ∧ role ≠ 3) ∨ b.kerard.dupId ∨ (old.isNone ∧ 4 ≤ b.kerard.served.length) then b
    else
      let r := joinEntry old node other (leField x 24 1 == 1) (bit (leField x 25 1) 0) x s
      let b := b1.modKerard fun k => { k with served := Tab.set k.served pn r }
      let b := kSendPlain b kJoin node 0xFF 0 (joinPayload b (x.take 8) b.device 3 false r.claim s)
      joinReferee b pn
  | _, _ => b

/-- PAIR_JOIN: the handshake advances (R478); `pk` is the identity public key whose hash the frame's DEVICE must be. -/
def joinReceive (b : Block) (p : KPort) (f pk : Bytes) : Block :=
  kIntake b p f kJoin fun b =>
    let x := fPayload f
    let good := x.length == 210 && keyId pk == x.take 8 && edCheck true false (ascii "VWPAIR") pk (x.take 96) (x.drop 96)
      && montValid true (joinPk x)
    if !good then b
    else if leField x 24 1 = 3 then
      if (b.kerard.st = .joining ∨ b.kerard.rejoin) ∧ !b.kerard.refHost ∧ x.take 8 = b.kerard.refereeDevice ∧ slice x 8 8 = b.device then
        joinTry (b.modKerard fun k => { k with joinRef := some x, referee := fSrc f })
      else b
    else if slice x 8 8 = b.device then joinFromPeer b (fSrc f) x
    else if slice x 16 8 = b.device then joinAtReferee b (fSrc f) x
    else b

/-- PAIR_JOIN_TIMEOUT: a PAIR_JOIN has not arrived within 1 s (R477). A referee that waits for the other member's needs its scalar no longer (R11, log
entry 121). -/
def joinTimeout (b : Block) : Block :=
  let b := b.modKerard Kerard.dropServed
  let k := b.kerard
  if (k.st = .joining ∨ k.rejoin) ∧ k.joinScalar ≠ [] then joinFail b stBusy else b

/-! ### Ring and bypass (R465 to R474) -/

/-- DISCOVER_SEND: DISCOVER goes out on both ports (R474). -/
def discoverSend (b : Block) : Block :=
  let k := b.kerard
  kSendPlain b kDiscover 0xFF b.pairNo b.frameClaim
    (b.device ++ leBytes 1 k.node ++ leBytes 1 (b.setting 2) ++ leBytes 1 b.pairNo ++ leBytes 1 (proleCode k.role) ++ zeros 4)

/-- DISCOVER: what it says of its sender is noted, or its node ID is this device's own (R465, R474). A handshake whose party shows itself now
sends its PAIR_JOIN. -/
def discoverReceive (b : Block) (p : KPort) (f : Bytes) : Block :=
  kIntake b p f kDiscover fun b =>
    let x := fPayload f
    let n := leField x 8 1
    let d := x.take 8
    if fSrc f = b.kerard.node then
      if d = b.device then b else b.modKerard fun k => { k with dupId := true }
    else
      let known := (nodeOf b d).isSome
      let hops := 8 - fTtl f
      let old := Tab.get b.kerard.seen Seen.reset n
      let s : Seen :=
        { device := d, role := leField x 9 1, pairNo := leField x 10 1, pairRole := leField x 11 1
          viaA := if p = .ka then some hops else old.viaA, viaB := if p = .kb then some hops else old.viaB, live := true }
      let b := b.modKerard fun k => { k with seen := Tab.set k.seen n s }
      let b := if d = b.kerard.peerDevice ∧ b.kerard.st = .joining then b.modKerard fun k => { k with peerNode := n } else b
      let waiting := b.kerard.joinScalar != [] && (d == b.kerard.peerDevice || (!b.kerard.refHost && d == b.kerard.refereeDevice))
      if !known ∧ waiting then joinSend b else b

/-- DISCOVER_SEEN_EXPIRY: 3 ms without a DISCOVER of a node (R499). -/
def seenExpiry (b : Block) (n : Nat) : Block :=
  b.modKerard fun k => match Tab.get? k.seen n with
    | some s => { k with seen := Tab.set k.seen n { s with live := false, viaA := none, viaB := none } }
    | none => k

/-- A port begins its training (R467): the retrain counter, the Tally, and a VERSION frame, whose layout is not stated. -/
def trainBegin (b : Block) (p : KPort) : Block :=
  if !b.kerard.bypassOpen then b
  else
    let b := (b.modLink p fun l =>
      { l with st := .training, gen2 := false, lmaj := 0, lmin := 0, peerGen := 0, retrains := min 0xFFFF (l.retrains + 1) }).tally 151
    let (x, b) := b.fresh 16
    b.emit (.frame p (frameHeader kVersion 0 b.kerard.node 0xFF 0xFF 0 0 16 ++ x ++ zeros 16))

/-- KERARD_TRAIN: the port detects the far end and trains, or its training ends (R467): UP with Kerard 2 where both ends offer it, GEN1 is clear and
every lane's error ratio allows (`lanes2`), else with Kerard 1; or failed. -/
def kerardTrain (b : Block) (p : KPort) (good lanes2 : Bool) : Block :=
  match (b.link p).st with
  | .down => trainBegin b p
  | .training =>
    if !good then b.modLink p fun l => { l with st := .down }
    else if (b.link p).peerGen = 0 then b
    else
      let b := b.modLink p fun l => { l with st := .up, gen2 := decide (2 ≤ l.peerGen) && !b.kerard.gen1 && lanes2 }
      if b.linkUp .ka ∧ b.linkUp .kb then b.modKerard fun k => { k with bypassTrying := false } else b
  | _ => b

/-- VERSION: the far end's VERSION frame (R468): the highest version both ends support is used, and without a shared major version the port
stays down. -/
def versionReceive (b : Block) (p : KPort) (node gen : Nat) (lo hi : Nat × Nat) : Block :=
  if (b.link p).st ≠ .training ∧ (b.link p).st ≠ .version then b
  else
    let shares := decide (lo.1 ≤ 1 ∧ 1 ≤ hi.1 ∧ (lo.1 < 1 ∨ lo.2 ≤ 1))
    if shares then
      let minor := if 1 < hi.1 then 1 else min 1 hi.2
      b.modLink p fun l => { l with st := .training, lmaj := 1, lmin := minor, neighbour := node, peerGen := gen }
    else b.modLink p fun l => { l with st := .version, neighbour := node }

/-- RETRAIN_TIMER: 1 ms after a failure the sequence is repeated (R467). -/
def retrainTimer (b : Block) (p : KPort) : Block :=
  if (b.link p).st = .down ∨ (b.link p).st = .version then trainBegin b p else b

/-- KERARD_LINK_LOSS: an UP port loses its far end (R470). -/
def linkLoss (b : Block) (p : KPort) : Block :=
  if b.linkUp p then b.modLink p fun l => { l with st := .down, gen2 := false } else b

/-- The bypass closes, which ends both links (R470). -/
def bypassClose (b : Block) : Block :=
  b.modKerard fun k =>
    { k with bypassOpen := false, bypassTrying := false, linkA := { k.linkA with st := .down, gen2 := false }
             linkB := { k.linkB with st := .down, gen2 := false } }

/-- The conditions of R469 that the device itself knows: Lit or Twilight, no reset, and both Kerard domains on. -/
def bypassMayOpen (b : Block) : Bool :=
  decide (b.pmc.st ≤ 1) && b.pmc.powerGood && b.pmc.warm.isNone && !b.pmc.sysRst && b.domainOn 21 && b.domainOn 22

/-- BYPASS_OPEN: the device opens its bypass, VDD_RING being good and both receivers trained on the passing traffic (R469, R470). -/
def bypassOpen (b : Block) : Block :=
  if bypassMayOpen b ∧ !b.kerard.bypassOpen then b.modKerard fun k => { k with bypassOpen := true, bypassTrying := true } else b

/-- BYPASS_UP_TIMEOUT: a port is not UP 100 us after the bypass opened, and it closes again (R470). -/
def bypassTimeout (b : Block) : Block :=
  if b.kerard.bypassTrying ∧ !(b.linkUp .ka && b.linkUp .kb) then bypassClose b else b

/-! ### Leaves of a standby (R484) -/

/-- The answer to a standby's LEAF (R474). -/
def leafAckSend (b : Block) (seq status : Nat) : Block := kSend b .peer kLeafAck (leBytes 6 seq ++ leBytes 2 status) false

/-- LEAF: the active takes a standby's leaf into its system chain, or answers BUSY (R484). -/
def leafReceive (b : Block) (p : KPort) (f : Bytes) : Block :=
  kAuth b p f kLeaf fun b e =>
    if e ≠ .peer ∨ b.kerard.role ≠ .active ∨ (fPayload f).length ≠ 64 then b
    else match entryCheck b .system with
      | .granted => queueLeaf (takeEntry b .system) .system { src := .remote (fSeq f), body := fPayload f }
      | _ => leafAckSend b 0 stBusy

/-- The standby's oldest unanswered LEAF is over: its command goes on, or is refused with BUSY before it acts (R484). -/
def leafOutDone (b : Block) (good : Bool) : Block :=
  match b.kerard.leafOut with
  | [] => b
  | (r, m) :: rest =>
    let b := b.modKerard fun k => { k with leafOut := rest }
    if (b.mbx (mbxNo m)).await ≠ .remoteLeaf r then b
    else if good then b.modMbx (mbxNo m) fun x => { x with await := .nothing, leaf := .accepted 0 }
    else (failMailbox b m stBusy).modMbx (mbxNo m) fun x => { x with await := .nothing, leaf := .none }

/-- LEAF_ACK: the active's answer arrives (R484). -/
def leafAckReceive (b : Block) (p : KPort) (f : Bytes) : Block :=
  kAuth b p f kLeafAck fun b e => if e = .peer then leafOutDone b (leField (fPayload f) 6 2 == stOk) else b

/-- A standby's leaf sent to the active (R484). -/
def leafSend (b : Block) (m : Mbx) (body : Bytes) : Block :=
  let r := b.kerard.nextLeafRef
  let b := b.modKerard fun k => { k with leafOut := k.leafOut ++ [(r, m)], nextLeafRef := r + 1 }
  let b := b.modMbx (mbxNo m) fun x => { x with await := .remoteLeaf r }
  kSend b .peer kLeaf body false

end Sys2Proof.Machine
end

