-- ==== Sys2Proof/Machine/RecipeOps.lean ====
section
/-! DEFINITION. The recipe table and store (R266 to R269) and the decode image (R305 to R317). -/
namespace Sys2Proof.Machine

/-- An entry of the decode image (R306). -/
def decodeEntryBytes (e : DecodeEntry) : Bytes :=
  leBytes 1 (b2n e.valid) ++ leBytes 2 e.start ++ leBytes 1 e.len ++ leBytes 8 e.mask.toNat ++ zeros 4

/-- The decode image in force (R306). -/
def decodeImage (b : Block) : Bytes :=
  (List.range 8).flatMap (fun i => decodeEntryBytes (Tab.get b.chisel.decode DecodeEntry.reset i))
    ++ (List.range 512).flatMap fun i => leBytes 6 (Tab.get b.chisel.micro 0 i).toNat

/-- An entry read from an image. -/
def imageEntry (x : Bytes) (i : Nat) : DecodeEntry :=
  { valid := bit (leField x (16 * i) 1) 0, start := leField x (16 * i + 1) 2, len := leField x (16 * i + 3) 1
    mask := BitVec.ofNat 64 (leField x (16 * i + 4) 8) }

/-- A microword read from an image. -/
def imageWord (x : Bytes) (i : Nat) : Nat := leField x (128 + 6 * i) 6

/-- The image put in force (R317). -/
def loadImage (b : Block) (x : Bytes) : Block :=
  { b with chisel := { b.chisel with
      decode := (List.range 8).foldl (fun t i => Tab.set t i (imageEntry x i)) []
      micro := ((List.range 512).filter fun i => imageWord x i != 0).map fun i => (i, BitVec.ofNat 48 (imageWord x i)) } }

/-- Reserved fields of an entry (R316 check 1). -/
def entryReservedOk (x : Bytes) (i : Nat) : Bool := decide (leField x (16 * i) 1 < 2) && leField x (16 * i + 12) 4 == 0

/-- Two ranges overlap. -/
def rangesMeet (a n c m : Nat) : Bool := decide (a < c + m) && decide (c < a + n)

/-- The range of a valid entry (R316 check 2). -/
def entryRangeOk (x : Bytes) (i : Nat) : Bool :=
  let e := imageEntry x i
  !e.valid || (decide (1 ≤ e.len ∧ e.len ≤ 32 ∧ e.start + e.len ≤ 512)
    && (List.range i).all fun j => let o := imageEntry x j; !o.valid || !rangesMeet e.start e.len o.start o.len)

/-- The codes of a microword (R308, R309, R316 check 3). -/
def microCodesOk (w : Nat) : Bool :=
  decide (bits w 47 45 ≤ 3) && decide (bits w 35 32 ≤ 11) && decide (bits w 31 28 ≤ 14) && decide (bits w 27 24 ≤ 14) && decide (bits w 23 20 ≤ 10)
    && decide (bits w 19 18 ≤ 2)

/-- UCOND and TARGET of a microword in a sequence of `len` (R316 check 4). -/
def microTargetOk (w len : Nat) : Bool :=
  let seq := bits w 47 45
  (bits w 44 41 == 0 || seq == 2 || seq == 3) && (if seq = 2 then decide (bits w 40 36 < len) else bits w 40 36 == 0)

/-- B is zero where the operation has one operand (R308, R316 check 5). -/
def microBOk (w : Nat) : Bool := decide (1 ≤ bits w 35 32 ∧ bits w 35 32 ≤ 7) || bits w 27 24 == 0

/-- Source 9 goes with a LOAD (R316 check 6). -/
def microLoadOk (w : Nat) : Bool := !(bits w 31 28 == 9 || bits w 27 24 == 9) || bits w 19 18 == 1

/-- The sequence that holds a microword: its length and whether it is the last; 32 where no entry uses it. -/
def sequenceOf (x : Bytes) (i : Nat) : Nat × Bool :=
  match ((List.range 8).map (imageEntry x)).find? fun e => e.valid && decide (e.start ≤ i ∧ i < e.start + e.len) with
  | some e => (e.len, i + 1 == e.start + e.len)
  | none => (32, false)

/-- The last microword of a sequence ends it (R316 check 7). -/
def microEndOk (x : Bytes) (i : Nat) : Bool := !(sequenceOf x i).2 || bits (imageWord x i) 47 45 == 1

/-- The first breach of an image (R316), as DETAIL codes it: bit 15 for a microword, and the index. The checks run in their order, each over all
entries or microwords. -/
def imageBreach (x : Bytes) : Option Nat :=
  let ent (f : Nat → Bool) : Option Nat := (List.range 8).find? fun i => !f i
  let mic (f : Nat → Bool) : Option Nat := ((List.range 512).find? fun i => !f i).map (· + 0x8000)
  (ent (entryReservedOk x)).orElse fun _ => (mic fun i => bits (imageWord x i) 11 8 == 0).orElse fun _ =>
    (ent (entryRangeOk x)).orElse fun _ => (mic fun i => microCodesOk (imageWord x i)).orElse fun _ =>
      (mic fun i => microTargetOk (imageWord x i) (sequenceOf x i).1).orElse fun _ =>
        (mic fun i => microBOk (imageWord x i)).orElse fun _ => (mic fun i => microLoadOk (imageWord x i)).orElse fun _ => mic (microEndOk x)

/-! ### Recipes -/

/-- Instructions of the store, 3 bytes each, little-endian. -/
def storeBytes (b : Block) (entry len : Nat) : Bytes :=
  (List.range len).flatMap fun i => leBytes 3 (Tab.get b.chisel.store 0 (entry + i)).toNat

/-- A core still runs a recipe's range (R269). -/
def rangeRunning (b : Block) (entry len : Nat) : Bool :=
  b.chisel.cores.any fun p => p.2.item.isSome && p.2.len != 0 && rangesMeet entry len p.2.entry p.2.len

/-- Ranges of the store in use: the table's, the reserved first instruction, and those deleted while a core still runs them (R266, R269). -/
def usedRanges (b : Block) : List (Nat × Nat) :=
  (0, 1) :: b.chisel.table.map (fun r => (r.entry, r.len)) ++ b.chisel.deleted.filter fun p => rangeRunning b p.1 p.2

/-- A range of the store is free. -/
def rangeFree (b : Block) (len s : Nat) : Bool := decide (s + len ≤ 65536) && (usedRanges b).all fun p => !rangesMeet s len p.1 p.2

/-- A free range of the store. Which of them the device takes is open: the one at a free value where that fits, else the lowest (log entry 20). -/
def freeRange (b : Block) (len : Nat) : Option Nat × Block :=
  let (x, b') := b.fresh 2
  let starts := (usedRanges b).map fun p => p.1 + p.2
  match starts.filter (rangeFree b len) with
  | [] => (none, b)
  | s :: rest => (some (if rangeFree b len (ofLe x) then ofLe x else rest.foldl min s), b')

/-- A recipe entered in the table in order of identifier, with its instructions. -/
def installRecipe (b : Block) (r : Recipe) (words : List Nat) : Block :=
  let old := b.chisel.table.filter fun x => x.id == r.id
  { b with chisel := { b.chisel with
      table := (b.chisel.table.filter fun x => decide (x.id < r.id)) ++ [r] ++ (b.chisel.table.filter fun x => decide (r.id < x.id))
      store := (List.range words.length).foldl (fun t i => Tab.set t (r.entry + i) (BitVec.ofNat 24 (words.getD i 0))) b.chisel.store
      deleted := (b.chisel.deleted ++ old.map fun x => (x.entry, x.len)).filter fun p => rangeRunning b p.1 p.2 } }

/-- A recipe removed from the table. -/
def removeRecipe (b : Block) (id : Nat) : Block :=
  let old := b.chisel.table.filter fun x => x.id == id
  { b with chisel := { b.chisel with
      table := b.chisel.table.filter fun x => x.id != id
      deleted := (b.chisel.deleted ++ old.map fun x => (x.entry, x.len)).filter fun p => rangeRunning b p.1 p.2 } }

end Sys2Proof.Machine
end

