-- ==== Sys2Proof/Machine/Commits.lean ====
section
/-! DEFINITION. What follows a commit of Sump (R220, R221, R228, R483): the key cache, the standby's mirror frame, and those who wait. -/
namespace Sys2Proof.Machine

/-! ### What mirrored system records set up on a standby (R482, R485) -/

/-- One setup put in force. A chamber of a standby is restored as after a reset: ACTIVE, without reasons to be quiesced (R331). -/
def applySetup (b : Block) (s : Setup) : Block :=
  match s with
  | .chamber c creation key pinpol weights interval uread k cust =>
    let b := b.modStrata fun s => { s with creation := Tab.set s.creation c creation }
    let b := b.modKeys fun x => { x with handleKeys := Tab.set x.handleKeys c key }
    let b := b.modChain (.chamber c) fun x => { x with interval := interval }
    b.modCh c fun h =>
      { h with st := .active, restored := true, pinpol := BitVec.ofNat 32 pinpol, uread := uread
               custodians := { k := k, keys := cust }
               groups := (List.range 8).map fun g => (g, { Tab.get h.groups Group.reset g with weight := weights.getD g 1 }) }
  | .table c n d => b.modCh c fun h => { h with decTabs := Tab.set h.decTabs n d }
  | .noChamber c =>
    let b := { b with ch := Tab.erase b.ch c, chains := Tab.erase b.chains c }
    let b := b.modKeys fun x => { x with handleKeys := Tab.erase x.handleKeys c }
    wipeChamberSets b c
  | .sq c g base depth cq fmt =>
    b.modSq c g fun _ => { Sq.reset with en := true, base := base, depthLog2 := depth, cq := cq, fmt := fmt }
  | .cq c q base depth vecEn vector fmt cc ct =>
    b.modCq c q fun _ =>
      { Cq.reset with en := true, base := base, depthLog2 := depth, vecEn := vecEn, vector := vector, fmt := fmt, coalCount := cc
                      coalTime := ct }
  | .noSq c g => b.modCh c fun h => { h with sqs := Tab.erase h.sqs g }
  | .noCq c q => b.modCh c fun h => { h with cqs := Tab.erase h.cqs q }
  | .ring i lb hb ll hl ve v =>
    modRing b i fun _ => { Ring.reset with en := true, leafBase := lb, hdrBase := hb, llog2 := ll, hlog2 := hl, vecEn := ve, vector := v }
  | .noRing i => modRing b i fun _ => Ring.reset
  | .chain i pq no rb rs me m d ed pqp eg pg =>
    let b := b.modChain i fun c =>
      { c with present := true, pq := pq, chainNo := no, nextBatch := rb + 1, nextSeq := m, markEpoch := me, mark := m, prev := d
               recNo := some no, recDigest := d, recBatch := rb, recSeq := rs, edPub := ed, pqPub := pqp, kidEd := keyId ed
               kidPq := if pq then keyId pqp else [], edGidx := eg, pqGidx := pg, batch := none, headers := [], waiting := [] }
    pinAuditKeys b i
  | .systemKey k => b.modKeys fun x => { x with sysHandleKey := k }
  | .recipe id entry len mask maxcyc words =>
    installRecipe b { id := id, entry := entry, len := len, mask := BitVec.ofNat 64 mask, maxcyc := maxcyc } words
  | .noRecipe id => removeRecipe b id
  | .decode x => loadImage b x

/-- A mirror frame's commit is complete on the standby (R483, R480): what its system records set up holds, the frame is acknowledged, and after the
last one of a resynchronisation the standby is IN_SYNC. -/
def mirrorApplied (b : Block) (n : Nat) : Block :=
  match Tab.get? b.kerard.early n with
  | none => b
  | some m =>
    let b := b.modKerard fun k => { k with mseq := n, early := Tab.erase k.early n }
    if b.kerard.role ≠ .standby then m.setups.foldl applySetup b
    else
      let b := mirrorAckSend (m.setups.foldl applySetup b) 0 0 n
      if m.last then mirrorAckSend (kPair b fun k => { k with st := .inSync }) 2 0 n else b

/-! ### Waiters -/

/-- A commit is over for one who waits, with OK or the status of its failure (R115, R221, R577). -/
def notify (b : Block) (w : Waiter) (status : Nat) : Block :=
  let good := status == stOk
  match w with
  | .nobody => b
  | .job r => jobCommitted b r [] status
  | .mailbox m =>
    let b := b.modMbx (mbxNo m) fun x => { x with waits := x.waits - 1 }
    if good then b else failMailbox b m status
  | .counter g e c =>
    if good then wakeCounts (counterReserved b g e c) g
    else wakeCounts (b.modKeys fun k => { k with reserving := k.reserving.filter (· != g) }) g
  | .retire g => wakeCounts b g
  | .seqMark i e c => if good then seqReserved b i e c else b
  | .header i n => if good then mirrorHeaders (headerRecorded b i n) i else b
  | .auditKeys i => if good then auditKeysStand b i else b
  | .mirror n =>
    if good then mirrorApplied b n
    else b.modKerard fun k => { k with early := Tab.erase k.early n }
  | .erase c next => if good then rangeErased b c next else b
  | .transport m => if good then b.modKerard fun k => { k with txMark := m, txEpoch := b.claim } else b

/-- The slots reserved for a request's new records are free to look for again (R166). -/
def requestSlotsFree (b : Block) (r : SumpReq) : Block :=
  match r.waiter, r.writes with
  | .job _, w :: _ => releaseSlots b (b.chamberOfGidx w.gidx) r.writes
  | .mailbox _, w :: _ => releaseSlots b (b.chamberOfGidx w.gidx) r.writes
  | .auditKeys i, ws => releaseSlots b (chainIx i) ws
  | .transport _, ws => releaseSlots b 64 ws
  | _, _ => b

/-- A failed commit of a chain's stalls the chain, and is kept to be repeated (R577); who waits for any other is told. -/
def commitFailed (b : Block) (r : SumpReq) (status : Nat) : Block :=
  match r.waiter with
  | .seqMark i _ _ => chainStalled b i r status
  | .header i _ => chainStalled b i r status
  | .auditKeys i => chainStalled b i r status
  | _ => notify (requestSlotsFree b r) r.waiter status

/-- Those whom no acknowledgement holds any more are told. -/
def drainReleased (b : Block) : Block :=
  let l := b.kerard.released
  l.foldl (fun b w => notify b w stOk) (b.modKerard fun k => { k with released := [] })

/-- SUMP_COMMIT, with those whose requests fail told (R220, R224). -/
def commitStart (b : Block) (ret : DdrReturn) : Block :=
  let p := sumpCommit b ret
  p.2.foldl (fun b f => commitFailed b f.1 f.2) p.1

/-- A complete commit's consequences (R49, R50, R221, R228, R483). -/
def commitDone (b : Block) (done : List SumpReq) : Block :=
  if done = [] then b
  else
    let b := done.foldl (fun b r => requestSlotsFree (cacheFollows b r) r) b
    let b := snapshotIfDue b
    drainReleased (mirrorCommit b done)

/-- SUMP_HEAD_WRITE with what follows (R221). -/
def headWrite (b : Block) : Block :=
  let p := sumpHeadWrite b
  commitDone p.1 p.2

/-- SYNC_RELEASE_TIMEOUT with what follows (R222). -/
def syncTimeout (b : Block) : Block := drainReleased (syncReleaseTimeout b)

end Sys2Proof.Machine
end

