-- ==== Sys2Proof/Machine/BelayOps.lean ====
section
/-! DEFINITION. Belay: monitors, reports, responses and evidence (chapters 17 to 19). -/
namespace Sys2Proof.Machine

/-! ### Monitors (R422 to R431) -/

/-- A monitor. -/
def Block.monitor (b : Block) (k : Nat) : Monitor := Tab.get b.belay.monitors (Monitor.reset k) k

/-- A monitor changed by `f`. -/
def Block.modMonitor (b : Block) (k : Nat) (f : Monitor → Monitor) : Block :=
  b.modBelay fun y => { y with monitors := Tab.modify y.monitors (Monitor.reset k) k f }

/-- The class a monitor raises (R422, R429). -/
def monitorClass (b : Block) (k : Nat) : RClass :=
  if k = 16 then .w
  else if k = 3 ∨ k = 17 then .l
  else if 8 ≤ k ∧ k ≤ 15 then (if b.belay.loopL.testBit (k - 8) then .l else .z)
  else .z

/-- A monitor runs on battery (R422). -/
def runsOnBattery (k : Nat) : Bool := k ∈ [1, 2, 3, 7, 8, 9, 10, 11, 12, 13, 14, 15, 16, 18]

/-- A monitor runs now (R422, R423, R428, R440): a disabled loop never does, and VCORE only while main power is good. -/
def monitorRuns (b : Block) (k : Nat) : Bool :=
  decide (k ≤ 18) && (b.pmc.powerGood || runsOnBattery k) && (if 8 ≤ k ∧ k ≤ 15 then b.belay.loopEn.testBit (k - 8) else true)

/-- The entry of the bounds that a monitor has, none for those without (R429). -/
def boundsEntry (k : Nat) : Option Nat :=
  if k ≤ 5 then some k else if 8 ≤ k ∧ k ≤ 15 then some (k - 2) else if k = 17 then some 14 else none

/-- The bounds in force of a monitor: M and W code, each least and greatest (R429). -/
def monitorBounds (b : Block) (k : Nat) : Option (Nat × Nat × Nat × Nat) :=
  (boundsEntry k).map fun e =>
    (b.setting (12 + 4 * e), b.setting (13 + 4 * e), b.setting (14 + 4 * e), b.setting (15 + 4 * e))

/-- P0 of an alarm's record but for the class executed (R439). -/
def alarmP0 (b : Block) (m : Monitor) (fault : Bool) (cls : RClass) : Nat :=
  m.countA + 2 ^ 8 * m.countB + 2 ^ 16 * b2n (decide (m.m ≤ m.countA)) + 2 ^ 17 * b2n (decide (m.m ≤ m.countB)) + 2 ^ 18 * b2n fault
    + 2 ^ 19 * b2n (!b.pmc.powerGood) + 2 ^ 20 * cls.code

/-- A monitor's alarm or detector fault reported (R418, R439). -/
def monitorReport (b : Block) (k code : Nat) (cls : RClass) : Block :=
  let m := b.monitor k
  b.report code k cls (alarmP0 b m (code == 0x0101) cls) (m.m + 2 ^ 8 * m.wcode) 0

/-- An event counted at a detector (R425, R426): counts saturate, and a count that reaches M raises the alarm of an IDLE monitor. Activity in
REARMING returns to ALARM. -/
def monitorCount (b : Block) (k : Nat) (detB : Bool) : Block :=
  let b := b.modMonitor k fun m =>
    if detB then { m with countB := min 255 (m.countB + 1) } else { m with countA := min 255 (m.countA + 1) }
  let m := b.monitor k
  match m.st with
  | .idle =>
    if m.m ≤ m.countA ∨ m.m ≤ m.countB then
      monitorReport (b.modMonitor k fun m => { m with st := .alarm }) k 0x0100 (monitorClass b k)
    else b
  | .rearming => b.modMonitor k fun m => { m with st := .alarm }
  | .alarm => b

/-- The detectors whose pulses count (R425): CLOCK A and both of RSTGLITCH. -/
def countsPulses (k : Nat) (detB : Bool) : Bool := (k == 4 && !detB) || k == 17

/-- A filter takes a sample (R424): the filter after it. -/
def Filter.step (f : Filter) (v : Bool) : Filter :=
  if v = f.last then { f with same := min 4 (f.same + 1), changes := 0 } else { last := v, same := 1, changes := min 3 (f.changes + 1) }

/-- The filter's output after a sample, where it was `out` (R424): four equal samples set it, and a third change in a row makes it active. -/
def Filter.output (f : Filter) (out : Bool) : Bool := if f.changes = 3 then true else if f.same = 4 then f.last else out

/-- A detector's filtered output becomes active, which is an event (R425). -/
def detectorRise (b : Block) (k : Nat) (detB : Bool) : Block :=
  monitorCount (b.modMonitor k fun m => if detB then { m with actB := true } else { m with actA := true }) k detB

/-- A monitor in ALARM whose filtered outputs are both inactive, as after a pulse, is in REARMING (R426). -/
def monitorRest (b : Block) (k : Nat) : Block :=
  b.modMonitor k fun m => if m.st = .alarm ∧ !m.actA ∧ !m.actB then { m with st := .rearming } else m

/-- A detector's filtered output becomes inactive: with the other's, the monitor leaves ALARM (R426). -/
def detectorFall (b : Block) (k : Nat) (detB : Bool) : Block :=
  monitorRest (b.modMonitor k fun m => if detB then { m with actB := false } else { m with actA := false }) k

/-- A detector's filter takes a sample of its raw output (R424). -/
def detectorSample (k : Nat) (detB : Bool) (b : Block) (v : Bool) : Block :=
  let m := b.monitor k
  let f := (if detB then m.filterB else m.filterA).step v
  let out := if detB then m.actB else m.actA
  let b := b.modMonitor k fun m => if detB then { m with filterB := f } else { m with filterA := f }
  if f.output out = out then b else if f.output out then detectorRise b k detB else detectorFall b k detB

/-- DETECTOR_EVENT: a detector's samples pass its filter, or it passes a pulse (R424 to R426). -/
def detectorEvent (b : Block) (k : Nat) (detB : Bool) (e : DetEvent) : Block :=
  if !monitorRuns b k then b
  else match e with
    | .samples raw => raw.foldl (detectorSample k detB) b
    | .pulse => if countsPulses k detB then monitorRest (monitorCount b k detB) k else b

/-- SUSTAINED_EVENT: an interval of W / M has passed with the filtered output still active (R425). -/
def sustainedEvent (b : Block) (k : Nat) (detB : Bool) : Block :=
  let m := b.monitor k
  if monitorRuns b k && (if detB then m.actB else m.actA) then monitorCount b k detB else b

/-- EVENT_WINDOW_EXPIRY: an event leaves a detector's trailing window (R425). -/
def windowExpiry (b : Block) (k : Nat) (detB : Bool) : Block :=
  if 18 < k then b
  else b.modMonitor k fun m => if detB then { m with countB := m.countB - 1 } else { m with countA := m.countA - 1 }

/-- REARM_HOLD_EXPIRY: a monitor has stayed inactive in REARMING for 10 ms (R426). -/
def rearmExpiry (b : Block) (k : Nat) : Block :=
  if 18 < k then b
  else b.modMonitor k fun m => if m.st = .rearming ∧ !m.actA ∧ !m.actB then { m with st := .idle } else m

/-- A built-in stimulus applies to a monitor's detectors (R427). -/
def hasStimulus (k : Nat) : Bool := decide (k ≤ 5) || decide (16 ≤ k ∧ k ≤ 18)

/-- BUILTIN_STIMULUS: Belay applies its stimulus to a detector, which answers or not (R427); the event is not counted. -/
def builtinStimulus (b : Block) (k : Nat) (detB answers : Bool) : Block :=
  if !hasStimulus k ∨ !b.pmc.powerGood then b
  else b.modMonitor k fun m =>
    { m with stimA := if detB then m.stimA else !answers, stimB := if detB then !answers else m.stimB
             answered := m.answered || answers }

/-- DETECTOR_FAULT: the detectors have disagreed for 1 s, or one has failed its stimulus (R427). -/
def detectorFault (b : Block) (k : Nat) : Block :=
  let m := b.monitor k
  if !monitorRuns b k ∨ m.dfault ∨ !(m.actA != m.actB || (hasStimulus k && b.pmc.powerGood && (m.stimA || m.stimB))) then b
  else monitorReport (b.modMonitor k fun m => { m with dfault := true, answered := false }) k 0x0101 .l

/-- DFAULT_CLEAR: the detectors have agreed for 1 s and, where one applies, the next stimulus has been answered (R427). -/
def dfaultClear (b : Block) (k : Nat) : Block :=
  if 18 < k then b
  else b.modMonitor k fun m =>
    if m.dfault ∧ m.actA = m.actB ∧ (!hasStimulus k ∨ (m.answered ∧ !m.stimA ∧ !m.stimB)) then { m with dfault := false } else m

/-- New M and W of a monitor (R431): its counts restart and its state stays. -/
def monitorSet (b : Block) (k m w : Nat) : Block :=
  let b := b.modMonitor k fun x => { x with m := m, wcode := w, countA := 0, countB := 0 }
  b.modStrata fun s => { s with tamperCopy := Tab.set s.tamperCopy k (m, w) }

/-- The bounds of the settings in force act (R429, R431): every M and W code that they exclude moves to the nearer bound, and the loops are
enabled and classed as they say. -/
def clampMonitors (b : Block) : Block :=
  let b := (List.range 19).foldl
    (fun b k =>
      match monitorBounds b k with
      | some (mn, mx, wn, wx) => b.modMonitor k fun x => { x with m := max mn (min mx x.m), wcode := max wn (min wx x.wcode) }
      | none => b) b
  b.modBelay fun y => { y with loopEn := b.setting 72, loopL := b.setting 73 }

/-- LOCKSTEP_MISMATCH: the Headstock lockstep checker reports a mismatch (R418, R454). -/
def lockstepMismatch (b : Block) (pc : BitVec 32) (verdicts : Bool) : Block := b.report 0x0111 64 .l pc.toNat (b2n verdicts) 0

/-! ### Classes (R378, R432 to R438) -/

/-- The class that a raised class executes as in a lifecycle state (R378), `w` standing for recorded only; and the CAUSE of its entry. In BLANK
the monitors' alarms are recorded only, and so is every other report. -/
def executedClass (life : Nat) (cls : RClass) : RClass × Nat :=
  match cls with
  | .z => if life = 0 then (.w, 1) else (.z, 1)
  | .l => if life = 1 then (.z, 3) else if life = 2 ∨ life = 3 then (.l, 1) else (.w, 1)
  | _ => (.w, 1)

/-- The code that P0 of R439 gives the class executed. -/
def executedCode : RClass → Nat
  | .l => 1
  | .z => 2
  | _ => 0

/-- A report's record as written once its class has been executed (R439): an alarm's record says which, and how long it took. -/
def finishReport (b : Block) (r : Report) (executed : RClass) : Report :=
  if r.code = 0x0100 ∨ r.code = 0x0101 then
    { r with p0 := r.p0 + 2 ^ 22 * executedCode executed
             p2 := if executed = .l ∨ executed = .z then min (2 ^ 32 - 1) (b.now - r.detected) else 0 }
  else r

/-- A report's record handed to its area (R453, R455, R457): a record's time is that of its detection. -/
def fileReport (b : Block) (r : Report) : Block :=
  let x := recordBytes { b with now := r.detected } r false
  if isEvidence r.code then b.modBelay fun y => { y with evidence := y.evidence ++ [x] }
  else b.modBelay fun y => { y with recorder := y.recorder ++ [x] }

/-- A chamber shows QUIESCED for a lock response, without a reason (R379, R436). Its batch stays open: a gap batch covers it (R380). -/
def lockChamber (b : Block) (c : Nat) : Block :=
  let h := b.chamber c
  if h.st ≠ .active then b
  else
    let b := abandonReads (b.modCh c fun h => { h with st := .quiesced }) c
    (b.itemsOf c).foldl (fun b p => quiesceItem b p.1) b

/-- The ceremony sessions end and every AUTHREF is cancelled (R353, R359). -/
def cancelCeremonies (b : Block) : Block := b.modBimor fun m => { m with auths := [], sessions := [] }

/-- The steps of a class L response on the device's work (R379, R436); Gallery's operations are aborted, those of no item too (R188), and
the scalars of a handshake under way are zeroised (R11). -/
def lockWork (b : Block) : Block :=
  let b := engineLocalAbort (b.ch.foldl (fun b p => lockChamber b p.1) b) none
  (cutCommands (cancelCeremonies b) stAborted fun _ => false).modKerard Kerard.dropHandshakes

/-- The pair state cleared by a zeroisation (R491): links and what DISCOVER frames showed stay. The referee's link keys were in the system key
file (R478). -/
def zeroPair (k : Kerard) : Kerard :=
  { Kerard.reset with
    linkA := k.linkA, linkB := k.linkB, bypassOpen := k.bypassOpen, bypassTrying := k.bypassTrying, node := k.node, seen := k.seen
    dupId := k.dupId, dropsClaim := k.dropsClaim, dropsAuth := k.dropsAuth, gen1 := k.gen1, vecEn := k.vecEn, vector := k.vector
    hostTimeout := k.hostTimeout, err := k.err
    served := Tab.mapVals k.served fun _ r => { r with keyA := [], keyS := [], joinA := none, joinS := none, scalarA := [], scalarS := [] } }

/-- What the commands in progress come to in a zeroise response (R367): those whose commit has started complete, the others are ABORTED. -/
def zeroCommands (b : Block) : Block :=
  let b := cutCommands b stAborted fun _ => false
  let started : List Waiter := ((b.sump.commit.map fun c => c.reqs.map (·.waiter)).getD []) ++ b.kerard.out.flatMap (·.waiters) ++ b.kerard.released
  let b := started.foldl (fun b w => match w with | .mailbox _ => notify b w stOk | _ => b) b
  { b with bimor := { b.bimor with mbx := Tab.mapVals b.bimor.mbx fun _ x =>
      { x with waits := 0, await := .nothing
               leaf := match x.leaf with
                 | .entry => .dropped
                 | .waiting => .dropped
                 | .wanted => .dropped
                 | l => l } } }

/-- Steps 2 to 5 of a class Z response (R434, R435): work is discarded without a completion, and every array with a secret is zero. -/
def zeroiseWork (b : Block) : Block :=
  let b := zeroCommands b
  { b with
    bbram := { b.bbram with drk := none, markerOk := false }
    ch := [], records := none, chains := []
    chuck := { b.chuck with items := [], take := [], lastQueue := [], lastChamber := [] }
    spindle := { b.spindle with queue := [], reserved := [], flight := [], waiting := [], outReg := [], converter := [], inReg := [] }
    auger := { b.auger with msgs := [] }
    gallery := { b.gallery with queue := [], held := [], cores := [], abortReq := [], secret := [], operands := [] }
    keys := Keys.reset
    sump := { b.sump with st := .erased, rootv := 0, nodeCache := [], queue := [], commit := none, erasing := [], save := none, restore := none }
    lantern := { b.lantern with central := [], block := none, ports := Tab.mapVals b.lantern.ports fun _ p => { p with buf := [] }
                                sources := Tab.mapVals b.lantern.sources fun _ s => { s with packed := [] } }
    chisel := Chisel.reset, stored := none
    bimor := { b.bimor with auths := [], sessions := [], staging := none, fwStage := [], fwStaged := 0, custodians := { k := 0, keys := [] }
                            binds := [(2, 1)] }
    spdm := Spdm.reset
    io := { b.io with config := none }
    kerard := zeroPair b.kerard }

/-- A zeroisation with its lifecycle entry where the state has one (R371, R378). -/
def zeroise (b : Block) (cause : Nat) : Block :=
  let b := zeroiseWork b
  if 1 ≤ b.life ∧ b.life ≤ 4 then setLifecycle b 5 cause else b

/-- A lock with its lifecycle entry (R371, R436). -/
def lock (b : Block) (cause : Nat) : Block := if b.life = 2 ∨ b.life = 3 then setLifecycle (lockWork b) 4 cause else b

/-- BELAY_INTAKE: Belay takes the oldest report (R418, R433): a class that executes is due, any other is recorded at once; a chamber named by an
escalation is quiesced (R419). -/
def belayIntake (b : Block) : Block :=
  match b.belay.intake with
  | [] => b
  | r :: rest =>
    let b := b.modBelay fun y => { y with intake := rest }
    let b := if r.quiesce < 64 then quiesceChamber b r.quiesce qFerrule none else b
    let e := executedClass b.life r.cls
    if e.1 = .l ∨ e.1 = .z then
      b.modBelay fun y => { y with responses := y.responses ++ [{ cls := e.1, report := some r, cause := e.2 }] }
    else fileReport b (finishReport b r .w)

/-- Every response that is due is over, executed as a class (R438, R439). -/
def closeResponses (b : Block) (executed : RClass) : Block :=
  let l := b.belay.responses
  l.foldl (fun b x => match x.report with | some r => fileReport b (finishReport b r executed) | none => b)
    (b.modBelay fun y => { y with responses := [] })

/-- A zeroisation is due. -/
def zeroDue (b : Block) : Option Response := b.belay.responses.find? fun x => x.cls == .z

/-- CLASS_Z_RESPONSE: Belay zeroises (R434, R438). Locks that are due go with it. -/
def classZ (b : Block) : Block :=
  match zeroDue b with
  | some x => (closeResponses (zeroise b x.cause) .z).modBelay fun y => { y with alarmOut := true }
  | none => b

/-- CLASS_L_RESPONSE: Belay locks (R436), unless a zeroisation is due as well, which includes it (R438). -/
def classL (b : Block) : Block :=
  if (zeroDue b).isSome then b
  else match b.belay.responses with
    | [] => b
    | x :: _ => (closeResponses (lock b x.cause) .l).modBelay fun y => { y with alarmOut := true }

/-- BATTERY_RESPONSE: on battery an alarm executes from VBAT (R442): the key area is zeroised or L_DONE set, and the record goes into the lowest
free pending slot, or is counted. -/
def batteryResponse (b : Block) : Block :=
  if b.pmc.powerGood then b
  else match b.belay.intake with
    | [] => b
    | r :: rest =>
      let b := b.modBelay fun y => { y with intake := rest }
      let life := if b.bbram.zDone then 5 else b.bbram.lifecycle
      let e := (executedClass life r.cls).1
      let b := match e with
        | .z => { b with bbram := { b.bbram with drk := none, markerOk := false, zDone := true } }
        | .l => { b with bbram := { b.bbram with lDone := true } }
        | _ => b
      let x := recordBytes b (finishReport b r e) true
      if b.bbram.pending.length < 16 then { b with bbram := { b.bbram with pending := b.bbram.pending ++ [x] } }
      else { b with bbram := { b.bbram with overflow := min 0xFFFF (b.bbram.overflow + 1) } }

/-! ### Strata (R451 to R460) -/

/-- The evidence area has become full (R381). -/
def evidenceIsFull (b : Block) : Block := if b.life = 1 then zeroise b 2 else lock b 2

/-- EVIDENCE_WRITE: the oldest evidence record goes to the next slot; `torn` is what slots hold whose programming failed (R455, R456). -/
def evidenceWrite (b : Block) (torn : List Bytes) : Block :=
  match b.belay.evidence with
  | [] => b
  | r :: rest =>
    let b := b.modBelay fun y => { y with evidence := rest }
    let p := evidenceAppend b r torn
    if p.2 then evidenceIsFull p.1 else p.1

/-- C in force (R457). -/
def Block.recorderC (b : Block) : Nat := recorderCapacity (b.setting 1)

/-- RECORDER_WRITE: the oldest recorder record goes to its slot (R455, R457), not while an evidence record is pending. -/
def recorderWrite (b : Block) : Block :=
  if b.belay.evidence ≠ [] then b
  else match b.belay.recorder with
    | [] => b
    | r :: rest => recorderAppend (b.modBelay fun y => { y with recorder := rest }) b.recorderC r

/-- OPT_BASE_WRITE: the operating-time base written to the state area (R451). -/
def optBaseWrite (b : Block) : Block := if b.pmc.powerGood then b.modStrata fun s => { s with optBase := b.opt } else b

/-- BATTERY_SECOND: the battery seconds counter advances (R452). -/
def batterySecond (b : Block) : Block :=
  if b.pmc.onBattery then { b with bbram := { b.bbram with batSeconds := min (2 ^ 24 - 1) (b.bbram.batSeconds + 1) } } else b

/-- SUPPLY_SWITCHOVER: the always-on supply changes between VMAIN_AON and VBAT (R440, R556). -/
def supplySwitch (b : Block) (battery : Bool) : Block := b.modPmc fun p => { p with onBattery := battery }

/-- BATTERY_LOSS: VBAT goes while main power is absent, and BBRAM and the TMP state are lost (R444, R446). -/
def batteryLoss (b : Block) : Block :=
  if b.pmc.powerGood then b
  else
    { b with
      bbram := { drk := none, markerOk := false, crcOk := false, lifecycle := 0, zDone := false, lDone := false, overflow := 0
                 batSeconds := 0, pending := [] }
      belay := { Belay.reset with evidence := b.belay.evidence, recorder := b.belay.recorder } }

/-- TMP_POWER_ON: the TMP domain powers on after both supplies were absent (R446): every monitor IDLE with its default M and W. -/
def tmpPowerOn (b : Block) : Block :=
  { b with belay := { Belay.reset with armed := false } }

/-! ### Registers (R446) -/

/-- A monitor is in ALARM or REARMING. -/
def monitorAlarms (b : Block) : Nat :=
  (List.range 19).foldl (fun a k => if (b.monitor k).st ≠ .idle then a + 2 ^ k else a) 0

/-- Monitors with DFAULT set. -/
def monitorFaults (b : Block) : Nat := (List.range 19).foldl (fun a k => if (b.monitor k).dfault then a + 2 ^ k else a) 0

/-- `BLY_STATUS`. -/
def blyStatus (b : Block) : Nat :=
  b2n b.belay.armed + 2 * b2n (monitorAlarms b != 0) + 4 * b2n (monitorFaults b != 0) + 8 * b2n (b.belay.responses != [])

/-- `BLY_PEND`. -/
def blyPend (b : Block) : Nat := b.belay.committed + 2 ^ 16 * b.belay.overflowCommitted

/-- `BLY_LOOPCFG`. -/
def blyLoopCfg (b : Block) : Nat := b.belay.loopEn + 2 ^ 8 * b.belay.loopL

/-- `BLY_MON<k>`. -/
def blyMon (b : Block) (k : Nat) : Nat :=
  let m := b.monitor k
  let st := match m.st with
    | .idle => 0
    | .alarm => 1
    | .rearming => 2
  m.countA + 2 ^ 8 * m.countB + 2 ^ 16 * b2n m.actA + 2 ^ 17 * b2n m.actB + 2 ^ 18 * st + 2 ^ 20 * b2n m.dfault
    + 2 ^ 21 * (monitorClass b k).code + 2 ^ 23 * b2n (monitorRuns b k)

/-- `BLY_MCFG<k>`. -/
def blyMcfg (b : Block) (k : Nat) : Nat := (b.monitor k).m + 2 ^ 8 * (if (boundsEntry k).isSome then (b.monitor k).wcode else 0)

end Sys2Proof.Machine
end

