-- ==== Sys2Proof/Machine/BimorOps.lean ====
section
/-! DEFINITION. The mailboxes and the course of a Bimor command (R336 to R354): the request, its checks, its stages, its leaf and its response.
A command is one function from the device to what it comes to; those that wait go on by stages. -/
namespace Sys2Proof.Machine

/-! ### Requests (R341) -/

/-- VMAJ and VMIN of a request. -/
def reqVersion (x : Mailbox) : Nat × Nat := ((byteAt x.command 0).toNat, (byteAt x.command 1).toNat)
/-- TAG. -/
def reqTag (x : Mailbox) : Nat := leField x.command 4 4
/-- LENGTH. -/
def reqLength (x : Mailbox) : Nat := leField x.command 8 2
/-- SLICE. -/
def reqSlice (x : Mailbox) : Nat := (byteAt x.command 10).toNat
/-- AUTHREF. -/
def reqAuthref (x : Mailbox) : Nat := leField x.command 12 4
/-- The payload. -/
def reqPayload (x : Mailbox) : Bytes := slice x.command 16 (min (reqLength x) 4080)
/-- The request buffer at its header's length (R195). -/
def reqWhole (x : Mailbox) : Bytes := x.command.take (16 + min (reqLength x) 4080)

/-- RDIGEST of a request (R349). -/
def rdigest (code slc : Nat) (p : Bytes) : Bytes :=
  shake256 ([0x05] ++ leBytes 2 code ++ [BitVec.ofNat 8 slc] ++ p) 64

/-- Versions compared. -/
def versionLe (a c : Nat × Nat) : Bool := decide (a.1 < c.1 ∨ (a.1 = c.1 ∧ a.2 ≤ c.2))

/-! ### Custodians and AUTHREFs (R349 to R353) -/

/-- The custodian set of a scope. -/
def scopeCustodians (b : Block) (scope : Nat) : Custodians :=
  if scope = 0xFF then b.bimor.custodians else (b.chamber scope).custodians

/-- The chamber of a scope, 64 for the system. -/
def scopeChamber (scope : Nat) : Nat := if scope = 0xFF then 64 else scope

/-- A scope byte is a chamber number or 0xFF. -/
def scopeValid (b : Block) (scope : Nat) : Bool := scope == 0xFF || decide (scope < b.n)

/-- A scope exists: the system's, or that of a chamber that has been created. -/
def scopeExists (b : Block) (scope : Nat) : Bool := scope == 0xFF || (b.chamber scope).st != .none

/-- Microseconds that an AUTHREF lives (R349). -/
def authLife : Nat := 300000000

/-- An AUTHREF is open now: issued, not consumed, cancelled or expired. -/
def openAuth (b : Block) (ref : Nat) : Option AuthRef :=
  b.bimor.auths.find? fun a => a.ref == ref && decide (b.now < a.issued + authLife)

/-- AUTHREFs that a predicate names are gone. -/
def cancelAuths (b : Block) (f : AuthRef → Bool) : Block :=
  b.modBimor fun m => { m with auths := m.auths.filter fun a => !f a }

/-- The scope a command of class C is authorised in (R347). -/
def cmdScope (cls : CmdClass) (p : Bytes) : Nat := if cls = .cs then 0xFF else (byteAt p 0).toNat

/-- The states without custodians (R372). -/
def noCustodians (life : Nat) : Bool := life == 0 || life == 1 || life == 5

/-- The states without a system chain (R372). -/
def noSystemChain (life : Nat) : Bool := life == 0 || life == 1 || life == 5 || life == 6 || life == 7

/-- Step 6 of R345: the status of the first failure, or nothing; and the device with the AUTHREF consumed (R352, R372). -/
def authorise (b : Block) (x : Mailbox) (r : CmdRow) : Option Nat × Block :=
  if r.cls = .q ∨ r.cls = .o then (none, b)
  else if noCustodians b.life then (if reqAuthref x ≠ 0 then (some stAuthFailed, b) else (none, b))
  else if reqAuthref x = 0 then (some stAuthRequired, b)
  else
    let gone := cancelAuths b fun a => a.ref == reqAuthref x
    match openAuth b (reqAuthref x) with
    | none => (some stAuthFailed, gone)
    | some a =>
      let scope := cmdScope r.cls (reqPayload x)
      let k := max 1 (scopeCustodians b scope).k
      if a.command = r.code ∧ a.slice = reqSlice x ∧ a.scope = scope ∧ a.rdigest = rdigest r.code (reqSlice x) (reqPayload x)
          ∧ k ≤ a.counted.length then
        (none, gone)
      else (some stAuthFailed, gone)

/-! ### The other checks (R344, R345, R348) -/

/-- Step 1 of R345. -/
def headerCheck (i : Nat) (x : Mailbox) : Option Nat :=
  let row := cmdRow (mbxCode x)
  let v := reqVersion x
  let since : Bool := match row with
    | some r => versionLe r.since v
    | none => true
  if mbxCode x ≠ 0x0001 ∧ (x.vmaj = 0 ∨ v.1 ≠ x.vmaj ∨ x.vmin < v.2 ∨ !since) then some stVersion
  else match row with
    | none => some stFormat
    | some r =>
      if reqSlice x ≠ i ∨ 4080 < reqLength x ∨ byteAt x.command 11 ≠ 0 ∨ ((r.cls = .q ∨ r.cls = .o) ∧ reqAuthref x ≠ 0) then some stFormat
      else none

/-- The lifecycle state admits a command (R348). -/
def lifeAdmits (life : Nat) (r : CmdRow) : Bool :=
  if life = 0 then [0x0001, 0x0800, 0x0801, 0x0610, 0x0500].contains r.code
  else if life = 1 then [0x0001, 0x0800, 0x0801, 0x0610, 0x0500, 0x0803].contains r.code
  else if life = 2 ∨ life = 3 then true
  else if life = 4 then r.cls == .q || [0x0003, 0x0004, 0x0802, 0x0803].contains r.code
  else if life = 5 then r.cls == .q || r.code == 0x0801
  else [0x0001, 0x0800, 0x0610].contains r.code

/-- A pair member that does not hold its pair's current claim (R345 step 5). -/
def claimless (b : Block) : Bool := b.paired && b.kerard.st != .joining && b.kerard.role != .active

/-- A command makes a leaf (R346, R366, R372). -/
def makesLeaf (b : Block) (r : CmdRow) : Bool := (r.cls != .q || r.code == 0x0412) && r.code != 0x0803 && !noSystemChain b.life && (b.chain .system).present

/-- Steps 3 to 5 of R345. -/
def admissionCheck (b : Block) (i : Nat) (r : CmdRow) : Option Nat :=
  if !(r.boxes.map mbxNo).contains i then some stAuthRequired
  else if !lifeAdmits b.life r then some stLifecycle
  else if claimless b ∧ r.cls ≠ .q ∧ !r.p then some stClaimLost
  else none

/-! ### What a command comes to -/

/-- What a stage of a command comes to: an answer, with DETAIL and payload, or a wait for commits or another completion, with what the next
stage needs. -/
inductive Res where
  | reply (b : Block) (status detail : Nat) (payload : Bytes)
  | wait (b : Block) (hold : List Bytes)

/-- Success. -/
def ok (b : Block) (payload : Bytes) : Res := .reply b stOk 0 payload

/-- A refusal. -/
def no (b : Block) (status : Nat) : Res := .reply b status 0 []

/-- A command asks for a commit of records (R346). -/
def askCommit (b : Block) (m : Mbx) (writes : List NewRecord) : Block :=
  (b.sumpQueue { writes := writes, range := none, waiter := .mailbox m }).modMbx (mbxNo m) fun x => { x with waits := x.waits + 1 }

/-- A system record's write: which index and what layout are the firmware's own (R213), so both are free values. -/
def systemRecord (b : Block) : NewRecord × Block :=
  let (x, b) := b.fresh 66
  ({ gidx := 256 + ofLe (x.take 2) % 3840, lines := [x.drop 2], newClass := none }, b)

/-- A command persists one change in a system record, besides other records. -/
def persist (b : Block) (m : Mbx) (writes : List NewRecord) : Block :=
  let (s, b) := systemRecord b
  askCommit b m (writes ++ [s])

/-- A command waits for something other than commits. -/
def awaits (b : Block) (m : Mbx) (a : MbxAwait) : Block := b.modMbx (mbxNo m) fun x => { x with await := a }

/-- What a command awaits has come about. -/
def awaitOver (b : Block) : MbxAwait → Bool
  | .nothing => true
  | .pin g => !b.keys.misses.any fun x => x.gidx == g
  | .flush n => flushedTo b .system n
  | .pair => false
  | .remoteLeaf _ => false
  | .chamber c => !(b.chamber c).resetting
  | .quiesced c => (b.itemsOf c).isEmpty && !gaBusyFor b c
  | .queue c g => !(b.itemsOf c).any fun p => p.2.group == g
  | .drained c =>
    let x := b.chain (.chamber c)
    (b.itemsOf c).isEmpty && !gaBusyFor b c && x.batch.isNone && x.headers.isEmpty && x.waiting.isEmpty && x.heldLeaves.isEmpty
      && x.heldHeaders.isEmpty
  | .noCommit => b.sump.commit.isNone
  | .firstEntry => match entryCheck b .system with
    | .wait => false
    | _ => true
  | .snapshot => (b.sump.save.map (·.started)).getD true

/-- A waiting command may go on. -/
def mayGoOn (b : Block) (i : Nat) : Bool :=
  let x := b.mbx i
  x.phase == .waiting && x.waits == 0 && (x.failed.isSome || awaitOver b x.await)

/-! ### Responses (R342, R346) -/

/-- The response of a command (R342). -/
def responseBytes (x : Mailbox) : Bytes :=
  let d := if x.vmaj < 3 then 0 else x.detail
  [BitVec.ofNat 8 x.vmaj, BitVec.ofNat 8 x.vmin] ++ slice x.command 2 6 ++ leBytes 2 x.payload.length ++ slice x.command 10 1 ++ [0]
    ++ leBytes 2 x.status ++ leBytes 2 d ++ x.payload

/-- The first handle that a command names (R194): those of KEY_DELETE and KEY_PIN. -/
def namedHandle (x : Mailbox) : Nat :=
  if mbxCode x = 0x0204 then leField x.command 24 8 else if mbxCode x = 0x0207 then leField x.command 16 8 else 0

/-- The body of a command's leaf (R194, R195). -/
def commandLeaf (i : Nat) (x : Mailbox) : Bytes :=
  leafBytes
    { chamber := 0xFF, kind := 3, opcode := mbxCode x, status := x.status, group := i, lflags := 1, tag := reqTag x, recipe := 0
      step := 0, keyIn := namedHandle x, keyOut := 0, data := commandDigest (reqWhole x) (responseBytes x) }

/-- The record of a response with AUTH_FAILED (R351, R453, R530). `scope` is that of the open AUTHREF named. -/
def authFailed (b : Block) (i : Nat) (x : Mailbox) (scope : Nat) : Block :=
  let ref := if mbxCode x = 0x0003 then leField x.command 16 4 else reqAuthref x
  (b.tally 148).report 0x0230 i .w ref (mbxCode x + 2 ^ 16 * scope) 0

/-- The SCOPE that an AUTH_FAILED record of a request carries. -/
def namedScope (b : Block) (x : Mailbox) : Nat :=
  let ref := if mbxCode x = 0x0003 then leField x.command 16 4 else reqAuthref x
  ((openAuth b ref).map (·.scope)).getD 0xFE

/-- The operations of Gallery that Headstock asks for in the work of a command: the chamber charged, or the system, how many on a curve core, and how
many on a lattice core. Which they are follows from what the command computes; the manual lists none (DESIGN CHOICE, log entry 113). -/
def headstockWork (code : Nat) (p : Bytes) : Nat × Nat × Nat :=
  let n (i : Nat) : Nat := (byteAt p i).toNat
  if code = 0x0200 ∨ code = 0x0302 ∨ code = 0x0800 then (64, 1, 0)
  else if code = 0x0003 then (64, min 16 (n 4), 0)
  else if code = 0x0201 then (scopeChamber (n 0), 1, 0)
  else if code = 0x0100 then (n 0, 1, n 1 % 2)
  else if code = 0x0801 ∧ n 0 = 2 then (64, 1 + min 16 (n 7), n 6 % 2)
  else (64, 0, 0)

/-- Headstock's work for a command on the engines (R124, R150, R157): its operations, and the digest of its leaf. -/
def chargeCommand (b : Block) (code : Nat) (p : Bytes) (leaf : Bool) : Block :=
  let w := headstockWork code p
  let b := (List.range w.2.1).foldl (fun b _ => b.headGallery w.1 false) b
  let b := (List.range w.2.2).foldl (fun b _ => b.headGallery w.1 true) b
  if leaf then b.headHash (shakeSlots (1 + p.length)) else b

/-- A command is over (R346): its leaf waits for its number where it has an entry, else its response may be written. -/
def finishCommand (b : Block) (m : Mbx) (status detail : Nat) (payload : Bytes) (scope : Nat) : Block :=
  let i := mbxNo m
  let b := b.modMbx i fun x =>
    { x with status := status, detail := detail, payload := payload, hold := [], await := .nothing, failed := none, phase := .respond }
  let x := b.mbx i
  let b := if status = stAuthFailed then authFailed b i x scope else b
  let b := if status = stOk ∨ (status = stAuthFailed ∧ mbxCode x = 0x0003) then chargeCommand b (mbxCode x) (reqPayload x) (x.leaf == .entry) else b
  if x.leaf = .entry then
    let b := queueLeaf b .system { src := .mailbox m, body := commandLeaf i x }
    b.modMbx i fun x => { x with leaf := .waiting, phase := .leaf }
  else b

/-- A stage's result carried out. -/
def settleRes (m : Mbx) (scope : Nat) : Res → Block
  | .reply b s d p => finishCommand b m s d p scope
  | .wait b h => b.modMbx (mbxNo m) fun x => { x with phase := .waiting, cont := x.cont + 1, hold := h }

/-! ### Running a command -/

/-- Another mailbox runs, or was told earlier to run, a command on the same object (R339). -/
def objectBusy (b : Block) (i : Nat) : Bool :=
  let x := b.mbx i
  match cmdObject (mbxCode x) (reqPayload x) with
  | none => false
  | some o => (List.range 6).any fun j =>
      let y := b.mbx j
      j != i && cmdObject (mbxCode y) (reqPayload y) == some o &&
        (y.phase == .waiting || (y.phase == .running && decide (y.goNo < x.goNo)))

/-- A mailbox has a command of this code to start. -/
def mayStart (b : Block) (i code : Nat) : Bool :=
  let x := b.mbx i
  x.phase == .running && mbxCode x == code && !objectBusy b i

/-- The leaf of a command that a standby is about to execute, sent to the active with the status and response the command would have (R484). -/
def standbyLeaf (b : Block) (m : Mbx) (r : Res) : Block :=
  let i := mbxNo m
  let (s, d, p) := match r with
    | .reply _ s d p => (s, d, p)
    | .wait _ _ => (stOk, 0, [])
  let x := { b.mbx i with status := s, detail := d, payload := p }
  let b := leafSend b m (commandLeaf i x)
  b.modMbx i fun x => { x with phase := .waiting, leaf := .wanted, cont := 0 }

/-- A CLAIM_GRANT that makes this standby active (R365, R490): its leaf is made in its own chain, once takeover is complete (R484). -/
def grantsSelf (b : Block) (x : Mailbox) : Bool :=
  let p := reqPayload x
  mbxCode x == 0x0703 && p.length == 16 && allZero (slice p 2 6) && slice p 8 8 == b.device && b.kerard.refHost
    && b.kerard.st == .inSync && decide (b.kerard.claimSeen < leField p 0 2)

/-- Steps 6 to 8 of R345 for a command that has passed those before. -/
def execCommand (b : Block) (m : Mbx) (r : CmdRow) (run : Block → Bytes → Res) : Block :=
  let x := b.mbx (mbxNo m)
  let scope := namedScope b x
  match authorise b x r with
  | (some s, b) => settleRes m scope (no b s)
  | (none, b) => settleRes m scope (run b (reqPayload x))

/-- A command of a mailbox taken up: the checks of R345, then its first stage. Until a restore after Dormant is over every command but HELLO is
answered with BUSY (R504). -/
def startCommand (b : Block) (m : Mbx) (code : Nat) (run : Block → Bytes → Res) : Block :=
  let i := mbxNo m
  if !mayStart b i code then b
  else
    let x := b.mbx i
    match headerCheck i x, cmdRow code with
    | some s, _ => settleRes m 0xFE (no b s)
    | none, none => settleRes m 0xFE (no b stFormat)
    | none, some r =>
      if b.pmc.restoring ∧ code ≠ 0x0001 then settleRes m 0xFE (no b stBusy)
      else if makesLeaf b r ∧ claimless b then
        match admissionCheck b i r with
        | some s => settleRes m 0xFE (no b s)
        | none =>
          if grantsSelf b x then execCommand b m r run
          else match authorise b x r with
            | (some s, b') => standbyLeaf b m (no b' s)
            | (none, b') => standbyLeaf b m (run b' (reqPayload x))
      else
        let granted : Option Nat × Block :=
          if !makesLeaf b r then (none, b)
          else match entryCheck b .system with
            | .granted => (none, (takeEntry b .system).modMbx i fun x => { x with leaf := .entry })
            | .refused s => (some s, b)
            | .wait => (some stBusy, b)
        match granted with
        | (some s, b) => settleRes m 0xFE (no b s)
        | (none, b) =>
          match admissionCheck b i r with
          | some s => settleRes m (namedScope b x) (no b s)
          | none => execCommand b m r run

/-- A mailbox that holds no defined command answers with FORMAT or VERSION (R345 step 1). -/
def undefinedCommand (b : Block) (m : Mbx) : Block :=
  let i := mbxNo m
  let x := b.mbx i
  if x.phase = .running ∧ (cmdRow (mbxCode x)).isNone then
    match headerCheck i x with
    | some s => settleRes m 0xFE (no b s)
    | none => b
  else b

/-- GO (R337, R338): the request is copied and the command waits to be taken up; while BUSY or DONE is set it is an overrun. -/
def mbxGo (b : Block) (m : Mbx) : Block :=
  let i := mbxNo m
  let x := b.mbx i
  if x.busy ∨ x.done then b.modMbx i fun x => { x with err := x.err ||| 1 }
  else
    let n := b.bimor.nextGo
    let b := b.modBimor fun y => { y with nextGo := n + 1 }
    (b.modMbx i fun x =>
      { x with busy := true, phase := .running, command := x.req.readBytes 0 4096, goNo := n, cont := 0, hold := [], waits := 0
               await := .nothing, leaf := .none, failed := none, status := 0, detail := 0, payload := [], discard := false }).tally 147

/-- The response is written (R338): BUSY clears, DONE is set, and the vector is signalled; a discarded response sets nothing (R340). A
DEVICE_RESET that has responded starts its 10 us (R516). -/
def mbxRespond (b : Block) (m : Mbx) : Block :=
  let i := mbxNo m
  let x := b.mbx i
  if x.phase ≠ .respond then b
  else if x.discard then b.modMbx i fun x => { x with phase := .idle, busy := false, discard := false, leaf := .none }
  else
    let b := b.modMbx i fun x =>
      { x with rsp := x.rsp.writeBytes 0 (responseBytes x), busy := false, done := true, phase := .idle, leaf := .none }
    let b := if mbxCode x = 0x0805 ∧ x.status = stOk then b.modPmc fun p => { p with resetScheduled := true } else b
    if x.irqEn then b.msix 0 x.vector else b

/-! ### Reading a payload -/

/-- A payload byte. -/
def pb (p : Bytes) (i : Nat) : Nat := (byteAt p i).toNat

/-- A payload has a length, and zeros in the ranges given as offset and count. -/
def shaped (p : Bytes) (len : Nat) (res : List (Nat × Nat)) : Bool :=
  p.length == len && res.all fun r => allZero (slice p r.1 r.2)

end Sys2Proof.Machine
end

