-- ==== Sys2Proof/Machine/CmdSession.lean ====
section
/-! DEFINITION. Session and dual-control commands of Bimor (R343, R349 to R355). -/
namespace Sys2Proof.Machine

/-- The versions supported (R343), lowest first: the highest minor version of each major one is supported with all below it. -/
def grantVersion (maj min : Nat) : Option (Nat × Nat) :=
  if maj = 0 then none
  else if maj = 1 then some (1, Nat.min min 2)
  else if maj = 2 then some (2, Nat.min min 3)
  else if maj = 3 then some (3, Nat.min min 1)
  else some (3, 1)

/-- FWVER of the running image (R384). -/
def Block.fwver (b : Block) : Nat := leField b.identity.running 8 4

/-- HELLO (R343, R355). -/
def cmdHello (m : Mbx) (b : Block) (p : Bytes) : Res :=
  if !shaped p 4 [(2, 2)] then no b stFormat
  else match grantVersion (pb p 0) (pb p 1) with
    | none => no b stVersion
    | some (maj, min) =>
      let b := b.modMbx (mbxNo m) fun x => { x with vmaj := maj, vmin := min }
      ok b ([BitVec.ofNat 8 maj, BitVec.ofNat 8 min, BitVec.ofNat 8 b.life, BitVec.ofNat 8 b.nlog2] ++ leBytes 2 b.claim ++ [1, 0]
        ++ fit 8 b.device ++ leBytes 4 b.fwver ++ zeros 4)

/-- AUTHREFs that may be open at once (R349). -/
def authLimit : Nat := 16

/-- AUTH_CHALLENGE (R349, R355). -/
def cmdAuthChallenge (m : Mbx) (b : Block) (p : Bytes) : Res :=
  let scope := pb p 2
  let suits : Bool := match cmdRow (leField p 0 2) with
    | some r => match r.cls with
      | .cs => scope == 0xFF
      | .cc => decide (scope < b.n)
      | .cx => scopeValid b scope
      | _ => false
    | none => false
  let b := cancelAuths b fun a => decide (a.issued + authLife ≤ b.now)
  if !shaped p 68 [(3, 1)] ∨ !suits then no b stFormat
  else if !scopeExists b scope then no b stObjectState
  else if authLimit ≤ b.bimor.auths.length then no b stBusy
  else match b.draw 32 with
    | none => no b stRng
    | some (nonce, b) =>
      let ref := b.bimor.nextRef
      let a : AuthRef :=
        { ref := ref, nonce := nonce, command := leField p 0 2, slice := mbxNo m, scope := scope, rdigest := slice p 4 64
          issued := b.now, counted := [] }
      let b := b.modBimor fun y => { y with auths := y.auths ++ [a], nextRef := ref + 1 }
      let set := scopeCustodians b scope
      ok b (leBytes 4 ref ++ nonce ++ leBytes 4 ((b.now + authLife) / 1000000 % 2 ^ 32)
        ++ [BitVec.ofNat 8 set.k, BitVec.ofNat 8 set.keys.length, 0, 0])

/-- The token that a custodian signs (R350). -/
def authToken (b : Block) (a : AuthRef) : Bytes :=
  ascii "VWAT" ++ leBytes 4 a.ref ++ a.nonce ++ leBytes 2 a.command ++ [BitVec.ofNat 8 a.slice, BitVec.ofNat 8 a.scope]
    ++ fit 8 b.device ++ fit 64 a.rdigest

/-- The entries of an AUTH_SUBMIT: custodian index, reserved byte, signature. -/
def tokenEntries (p : Bytes) (off n : Nat) : List (Nat × Nat × Bytes) :=
  (List.range n).map fun k => (pb p (off + 116 * k), pb p (off + 116 * k + 1), slice p (off + 116 * k + 2) 114)

/-- AUTH_SUBMIT (R351, R355). -/
def cmdAuthSubmit (_ : Mbx) (b : Block) (p : Bytes) : Res :=
  let n := pb p 4
  let es := tokenEntries p 8 n
  if n = 0 ∨ 16 < n ∨ !shaped p (8 + 116 * n) [(5, 3)] ∨ es.any (fun e => e.2.1 != 0) then no b stFormat
  else match openAuth b (leField p 0 4) with
    | none => no b stAuthFailed
    | some a =>
      let set := scopeCustodians b a.scope
      let good (e : Nat × Nat × Bytes) : Bool :=
        decide (e.1 < set.keys.length) && edCheck true false (ascii "VWAUTH") (set.keys.getD e.1 []) (authToken b a) e.2.2
      if !es.all good then no b stAuthFailed
      else
        let counted := dedup (a.counted ++ es.map (·.1))
        let b := b.modBimor fun y =>
          { y with auths := y.auths.map fun x => if x.ref = a.ref then { x with counted := counted } else x }
        ok b (leBytes 2 (counted.map fun k => 2 ^ k).sum ++ [BitVec.ofNat 8 set.k, 0])

/-- AUTH_CANCEL (R353, R355). -/
def cmdAuthCancel (_ : Mbx) (b : Block) (p : Bytes) : Res :=
  if !shaped p 4 [] then no b stFormat
  else match openAuth b (leField p 0 4) with
    | none => no b stObjectState
    | some a => ok (cancelAuths b fun x => x.ref == a.ref) []

/-- AUTHREF_EXPIRY: an AUTHREF is 300 s old (R349). -/
def authExpiry (b : Block) (ref : Nat) : Block :=
  cancelAuths b fun a => a.ref == ref && decide (a.issued + authLife ≤ b.now)

end Sys2Proof.Machine
end

