-- ==== Sys2Proof/Machine/CmdChambers.lean ====
section
/-! DEFINITION. Chamber and queue commands of Bimor (R324 to R327, R356, R357). -/
namespace Sys2Proof.Machine

/-- A payload's chamber exists (R356, R357): FORMAT above N, OBJECT_STATE in state NONE. -/
def chamberCheck (b : Block) (c : Nat) : Option Nat :=
  if b.n ≤ c then some stFormat else if (b.chamber c).st = .none then some stObjectState else none

/-- A first check and what follows it. -/
def orElse (b : Block) (x : Option Nat) (r : Res) : Res := match x with
  | some s => no b s
  | none => r

/-- A command that changes a persisted state needs Sump (R224). -/
def needSump (b : Block) (r : Res) : Res := if b.sump.st ≠ .ready then no b stSumpUnavailable else r

/-- Custodian keys in a payload. -/
def custodianKeys (p : Bytes) (off n : Nat) : List Bytes := (List.range n).map fun i => slice p (off + 57 * i) 57

/-- K of NCUST custodians (R357). -/
def kOfN (k n : Nat) : Bool := decide (1 ≤ n ∧ n ≤ 16 ∧ 1 ≤ k ∧ k ≤ n)

/-! ### Creation and deletion -/

/-- N will change at the next reset (R363). -/
def nPending (b : Block) : Bool := match b.bimor.pending with
  | some s => (byteAt s 0).toNat != b.nlog2
  | none => false

/-- CHAMBER_CREATE, first stage (R325, R357): checks, creation number, audit keys drawn, and the commit asked for. -/
def cmdChamberCreate (m : Mbx) (b : Block) (p : Bytes) : Res :=
  let c := pb p 0
  let pq := (pb p 1).testBit 0
  let x := b.mbx (mbxNo m)
  let n := pb p 3
  if b.n ≤ c ∨ 2 ≤ pb p 1 ∨ (pq ∧ (reqVersion x).1 < 3) ∨ !kOfN (pb p 2) n ∨ !shaped p (8 + 57 * n) [(4, 4)] then no b stFormat
  else if (b.chamber c).st ≠ .none then no b stObjectState
  else if nPending b ∨ b.sump.erasing.any (fun e => e.1 == c) then no b stBusy
  else needSump b <|
    match newAuditKeys { b with ch := Tab.erase b.ch c } c pq with
    | .error s => no b s
    | .ok ((ed, q, g, g2, writes), b) =>
      let no_ := (Tab.get b.strata.creation 0 c + 1) % 2 ^ 32
      let b := b.modStrata fun s => { s with creation := Tab.set s.creation c no_ }
      .wait (persist (reserveSlots b c writes) m writes) [leBytes 4 no_, ed, q, leBytes 8 g, leBytes 8 g2]

/-- A chamber just created (R91, R92, R245, R323, R325): its credits stand at their ceilings. -/
def newChamber (b : Block) (c : Nat) (k : Nat) (keys : List Bytes) : Chamber :=
  { Chamber.absent with
    st := .active, restored := true, decTabs := [(0, [0x01, 0x23, 0x45, 0x67, 0x89, 0x01, 0x23, 0x45])]
    groups := (List.range 8).map fun g => (g, Group.reset)
    credit := 4096 * b.n, spCredit := 256 * b.n, curve := 1000000 * b.n, lattice := 1000000 * b.n
    borrow := (b.setting (4 + c / 8)).testBit (c % 8), custodians := { k := k, keys := keys }
    reservedSlots := (b.chamber c).reservedSlots }

/-- CHAMBER_CREATE at its commit: the chamber, its handle key, its chain with the audit keys pinned (R48, R192, R325). -/
def cmdChamberCreate2 (_ : Mbx) (b : Block) (p : Bytes) (hold : List Bytes) : Res :=
  let c := pb p 0
  let pq := (pb p 1).testBit 0
  let creation := ofLe (hold.getD 0 [])
  let keys := (hold.getD 1 [], hold.getD 2 [], ofLe (hold.getD 3 []), ofLe (hold.getD 4 []))
  let b := b.modCh c fun _ => newChamber b c (pb p 2) (custodianKeys p 8 (pb p 3))
  let b := b.modKeys fun k => { k with handleKeys := Tab.set k.handleKeys c (chamberHandleKey b c creation) }
  let b := pinAuditKeys (createChain b (.chamber c) pq keys) (.chamber c)
  let x := b.chain (.chamber c)
  ok b (leBytes 4 creation ++ fit 8 x.kidEd ++ fit 8 x.kidPq)

/-- CHAMBER_DELETE, first stage (R326): refused while the chain holds unwritten data; else the chamber is quiesced and its batch closes. -/
def cmdChamberDelete (m : Mbx) (b : Block) (p : Bytes) : Res :=
  let c := pb p 0
  if !shaped p 4 [(1, 3)] then no b stFormat
  else orElse b (chamberCheck b c) <|
    let x := b.chain (.chamber c)
    if (b.chamber c).resetting ∨ !x.headers.isEmpty ∨ !x.waiting.isEmpty ∨ !x.heldLeaves.isEmpty ∨ !x.heldHeaders.isEmpty then no b stBusy
    else needSump b (.wait (awaits (quiesceChamber b c qCommand none) m (.drained c)) [])

/-- The records that a chamber's deletion frees at once: its audit keys (R326 step 3). -/
def freeLines (g n : Nat) : NewRecord := { gidx := g, lines := List.replicate n (zeros 64), newClass := none }

/-- CHAMBER_DELETE with the ring drained: the deletion's commit. -/
def cmdChamberDelete2 (m : Mbx) (b : Block) (p : Bytes) : Res :=
  let x := b.chain (.chamber (pb p 0))
  .wait (persist b m ([freeLines x.edGidx 2] ++ (if x.pq then [freeLines x.pqGidx 1] else []))) []

/-- A chamber gone, with its queues, ring, chain, counters, cached keys and AUTHREFs (R326, R353). -/
def dropChamber (b : Block) (c : Nat) : Block :=
  let b := freeChamberCounters b c
  let b := { b with ch := Tab.erase b.ch c, chains := Tab.erase b.chains c }
  let b := b.modKeys fun k => { k with handleKeys := Tab.erase k.handleKeys c }
  wipeChamberSets (cancelAuths b fun a => a.scope == c) c

/-- CHAMBER_DELETE at its commit: the erase begins (R326 step 5, R231). -/
def cmdChamberDelete3 (_ : Mbx) (b : Block) (p : Bytes) : Res :=
  let c := pb p 0
  ok ((dropChamber b c).modSump fun s => { s with erasing := s.erasing ++ [(c, b.gidxOf c 0)] }) []

/-! ### Quiesce, reset, configuration -/

/-- CHAMBER_QUIESCE (R334, R357): it waits for a reset to end, and responds when step 4 of R332 is done. -/
def cmdChamberQuiesce (m : Mbx) (b : Block) (p : Bytes) : Res :=
  let c := pb p 0
  if !shaped p 4 [(1, 3)] then no b stFormat
  else orElse b (chamberCheck b c) <|
    if (b.chamber c).resetting then .wait (awaits b m (.chamber c)) []
    else if (b.chamber c).st = .quiesced then ok (quiesceChamber b c qCommand none) []
    else .wait (awaits (quiesceChamber b c qCommand none) m (.quiesced c)) [[1]]

/-- CHAMBER_QUIESCE once the reset or the quiesce has ended. -/
def cmdChamberQuiesce2 (m : Mbx) (b : Block) (p : Bytes) (hold : List Bytes) : Res :=
  let c := pb p 0
  if hold = [[1]] then ok b []
  else .wait (awaits (quiesceChamber b c qCommand none) m (.quiesced c)) [[1]]

/-- CHAMBER_RESET (R333, R357): it responds at the reset's end. -/
def cmdChamberReset (m : Mbx) (b : Block) (p : Bytes) : Res :=
  let c := pb p 0
  if !shaped p 4 [(1, 3)] then no b stFormat
  else orElse b (chamberCheck b c) (.wait (awaits (beginReset b c) m (.chamber c)) [])

/-- CHAMBER_CONFIG (R356, R357). -/
def cmdChamberConfig (m : Mbx) (b : Block) (p : Bytes) : Res :=
  let c := pb p 0
  let sel := pb p 1
  let weights := (List.range 8).all fun g => pb p (2 + g) != 0
  if !shaped p 16 [(12, 4)] ∨ 8 ≤ sel ∨ b.n ≤ c ∨ (sel.testBit 0 ∧ !weights) ∨ (sel.testBit 1 ∧ (pb p 10 = 0 ∨ 100 < pb p 10))
      ∨ (sel.testBit 2 ∧ 2 ≤ pb p 11) then no b stFormat
  else orElse b (chamberCheck b c) (needSump b (.wait (persist b m []) []))

/-- CHAMBER_CONFIG at its commit. -/
def cmdChamberConfig2 (_ : Mbx) (b : Block) (p : Bytes) : Res :=
  let c := pb p 0
  let sel := pb p 1
  let b := if sel.testBit 0 then
      b.modCh c fun h => { h with groups := (List.range 8).map fun g => (g, { Tab.get h.groups Group.reset g with weight := pb p (2 + g) }) }
    else b
  let b := if sel.testBit 1 then b.modChain (.chamber c) fun x => { x with interval := pb p 10 } else b
  ok (if sel.testBit 2 then b.modCh c fun h => { h with uread := (pb p 11).testBit 0 } else b) []

/-- A PIN policy word is permitted (R91). -/
def pinpolOk (v : Nat) : Bool :=
  let lo := v / 16 % 16
  let hi := v / 256 % 16
  decide (4 ≤ lo ∧ lo ≤ hi ∧ hi ≤ 12 ∧ v < 4096)

/-- CHAMBER_PINPOL (R91, R356). -/
def cmdChamberPinpol (m : Mbx) (b : Block) (p : Bytes) : Res :=
  let c := pb p 0
  if !shaped p 8 [(1, 3)] ∨ !pinpolOk (leField p 4 4) then no b stFormat
  else orElse b (chamberCheck b c) (needSump b (.wait (persist b m []) []))

/-- CHAMBER_PINPOL at its commit (R93). -/
def cmdChamberPinpol2 (_ : Mbx) (b : Block) (p : Bytes) : Res :=
  ok (b.modCh (pb p 0) fun h => { h with pinpol := BitVec.ofNat 32 (leField p 4 4) }) []

/-- A decimalisation table is permitted (R92): decimal digits, each of them present. -/
def dectabOk (t : Bytes) : Bool := allDigits (nibbles t) && (List.range 10).all fun d => (nibbles t).contains d

/-- DECTAB_LOAD (R92, R356). -/
def cmdDectabLoad (m : Mbx) (b : Block) (p : Bytes) : Res :=
  let c := pb p 0
  if !shaped p 16 [(2, 6)] ∨ 8 ≤ pb p 1 ∨ !dectabOk (slice p 8 8) then no b stFormat
  else orElse b (chamberCheck b c) (needSump b (.wait (persist b m []) []))

/-- DECTAB_LOAD at its commit. -/
def cmdDectabLoad2 (_ : Mbx) (b : Block) (p : Bytes) : Res :=
  ok (b.modCh (pb p 0) fun h => { h with decTabs := Tab.set h.decTabs (pb p 1) (slice p 8 8) }) []

/-- STATE of `VFC_STATUS` (R330). -/
def chStateCode : ChState → Nat
  | .none => 0
  | .active => 1
  | .quiesced => 2

/-- CHAMBER_INFO (R356): of a chamber that does not exist only STATE and the creation number say anything. -/
def cmdChamberInfo (_ : Mbx) (b : Block) (p : Bytes) : Res :=
  let c := pb p 0
  if !shaped p 4 [(1, 3)] ∨ b.n ≤ c then no b stFormat
  else
    let h := b.chamber c
    let x := b.chain (.chamber c)
    let creation := leBytes 4 (Tab.get b.strata.creation 0 c)
    if h.st = .none then ok b (zeros 4 ++ creation ++ zeros 16)
    else
      let tabs := ((List.range 8).map fun t => if (Tab.get? h.decTabs t).isSome then 2 ^ t else 0).sum
      ok b ([BitVec.ofNat 8 (chStateCode h.st), BitVec.ofNat 8 (b2n x.pq), BitVec.ofNat 8 h.custodians.k, BitVec.ofNat 8 h.custodians.keys.length]
        ++ creation ++ leBytes 4 h.pinpol.toNat
        ++ ((List.range 8).map fun g => BitVec.ofNat 8 (Tab.get h.groups Group.reset g).weight)
        ++ [BitVec.ofNat 8 x.interval, BitVec.ofNat 8 (b2n h.borrow + 2 * b2n h.uread), BitVec.ofNat 8 tabs, 0])

/-! ### Queues -/

/-- The format version granted (R55): this device supports version 1. -/
def grantFormat (proposed : Nat) : Nat := Nat.min proposed 1

/-- A queue command may run on a chamber (R357, R367). -/
def queueState (b : Block) (c : Nat) : Option Nat :=
  if (b.chamber c).st ≠ .active ∨ (b.chamber c).resetting then some stObjectState else none

/-- A queue's own ranges are right (R53): chamber, number, depth and base. -/
def queueShape (b : Block) (p : Bytes) : Bool :=
  decide (pb p 0 < b.n) && decide (pb p 1 < 8) && decide (4 ≤ pb p 2 ∧ pb p 2 ≤ 16) && leField p 4 8 % 4096 == 0

/-- CQ_CREATE (R53, R55, R82, R357). -/
def cmdCqCreate (m : Mbx) (b : Block) (p : Bytes) : Res :=
  let c := pb p 0
  if !shaped p 16 [(15, 1)] ∨ !queueShape b p ∨ 16 ≤ pb p 12 ∨ pb p 13 = 0 ∨ (1 < pb p 13 ∧ pb p 14 = 0) then no b stFormat
  else if pb p 3 = 0 then no b stVersion
  else orElse b (queueState b c) <|
    if (b.cq c (pb p 1)).en then no b stObjectState
    else needSump b (.wait (persist b m []) [])

/-- CQ_CREATE at its commit. -/
def cmdCqCreate2 (_ : Mbx) (b : Block) (p : Bytes) : Res :=
  let b := b.modCq (pb p 0) (pb p 1) fun _ =>
    { Cq.reset with en := true, base := leField p 4 8, depthLog2 := pb p 2, vecEn := (pb p 12).testBit 0, vector := pb p 12 / 2
                    fmt := grantFormat (pb p 3), coalCount := pb p 13, coalTime := pb p 14 }
  ok b [BitVec.ofNat 8 (grantFormat (pb p 3)), 0, 0, 0]

/-- SQ_CREATE (R53, R55, R357). -/
def cmdSqCreate (m : Mbx) (b : Block) (p : Bytes) : Res :=
  let c := pb p 0
  if !shaped p 16 [(13, 3)] ∨ !queueShape b p ∨ 8 ≤ pb p 12 then no b stFormat
  else if pb p 3 = 0 then no b stVersion
  else orElse b (queueState b c) <|
    if (b.sq c (pb p 1)).en then no b stObjectState
    else if !(b.cq c (pb p 12)).en then no b stFormat
    else if (b.cq c (pb p 12)).fmt ≠ grantFormat (pb p 3) then no b stVersion
    else needSump b (.wait (persist b m []) [])

/-- SQ_CREATE at its commit. -/
def cmdSqCreate2 (_ : Mbx) (b : Block) (p : Bytes) : Res :=
  let b := b.modSq (pb p 0) (pb p 1) fun _ =>
    { Sq.reset with en := true, base := leField p 4 8, depthLog2 := pb p 2, cq := pb p 12, fmt := grantFormat (pb p 3) }
  ok b [BitVec.ofNat 8 (grantFormat (pb p 3)), 0, 0, 0]

/-- A submission queue's fetching stops: what was issued and not fetched is given up (R357). -/
def stopQueue (b : Block) (c g : Nat) : Block :=
  let s := b.sq c g
  let n := (s.issued + s.depth - s.head) % s.depth
  let b := b.modCq c s.cq fun q => { q with reserved := q.reserved - n }
  b.modSq c g fun s => { s with issued := s.head, reads := [], arrived := [], stopping := true }

/-- QUEUE_DELETE (R357). -/
def cmdQueueDelete (m : Mbx) (b : Block) (p : Bytes) : Res :=
  let c := pb p 0
  let g := pb p 2
  if !shaped p 4 [(3, 1)] ∨ b.n ≤ c ∨ 2 ≤ pb p 1 ∨ 8 ≤ g then no b stFormat
  else orElse b (queueState b c) <|
    if pb p 1 = 0 then
      if !(b.sq c g).en then no b stObjectState
      else needSump b (.wait (awaits (stopQueue b c g) m (.queue c g)) [])
    else if !(b.cq c g).en ∨ (b.chamber c).sqs.any (fun s => s.2.en && s.2.cq == g) then no b stObjectState
    else needSump b (.wait b [])

/-- QUEUE_DELETE once the completions are written: its commit. -/
def cmdQueueDelete2 (m : Mbx) (b : Block) (_ : Bytes) : Res := .wait (persist b m []) []

/-- QUEUE_DELETE at its commit. -/
def cmdQueueDelete3 (_ : Mbx) (b : Block) (p : Bytes) : Res :=
  ok (b.modCh (pb p 0) fun h =>
    if pb p 1 = 0 then { h with sqs := Tab.erase h.sqs (pb p 2) } else { h with cqs := Tab.erase h.cqs (pb p 2) }) []

/-- SLICE_BIND (R327, R356). -/
def cmdSliceBind (_ : Mbx) (b : Block) (p : Bytes) : Res :=
  let s := pb p 0
  let pasid := leField p 4 4
  let unbind := (pb p 1).testBit 0
  if !shaped p 8 [(2, 2)] ∨ s = 0 ∨ 4 < s ∨ 2 ≤ pb p 1 ∨ 2 ^ 20 ≤ pasid then no b stFormat
  else if unbind then ok (b.modBimor fun y => { y with binds := Tab.erase y.binds (s - 1) }) []
  else if b.bimor.binds.any (fun e => e.1 != s - 1 && e.2 == pasid) then no b stFormat
  else ok (b.modBimor fun y => { y with binds := Tab.set y.binds (s - 1) pasid }) []

end Sys2Proof.Machine
end

