-- ==== Sys2Proof/Machine/CmdKeys.lean ====
section
/-! DEFINITION. Key and ceremony commands of Bimor (R48, R49, R358, R359). -/
namespace Sys2Proof.Machine

/-! ### Ceremony sessions (R359) -/

/-- Microseconds that a ceremony session lives. -/
def sessionLife : Nat := 3600000000

/-- The session open now under a number. -/
def openSession (b : Block) (id : Nat) : Option Session :=
  b.bimor.sessions.find? fun s => s.id == id && decide (b.now < s.opened + sessionLife)

/-- CEREMONY_OPEN (R358, R359): a new session ends the old one. -/
def cmdCeremonyOpen (_ : Mbx) (b : Block) (p : Bytes) : Res :=
  if p ≠ [] then no b stFormat
  else match b.draw 56 with
    | none => no b stRng
    | some (x, b) =>
      let id := b.bimor.nextSession
      let s : Session := { id := id, scope := 0, scalar := x, opened := b.now, attributes := [], parts := [] }
      ok (b.modBimor fun y => { y with sessions := [s], nextSession := id + 1 }) (leBytes 4 id ++ fit 56 (montPublic true x) ++ zeros 4)

/-- CEREMONY_CLOSE (R358, R359). -/
def cmdCeremonyClose (_ : Mbx) (b : Block) (p : Bytes) : Res :=
  if !shaped p 4 [] then no b stFormat
  else match openSession b (leField p 0 4) with
    | none => no b stObjectState
    | some s => ok (b.modBimor fun y => { y with sessions := y.sessions.filter fun x => x.id != s.id }) []

/-- SESSION_EXPIRY: a ceremony session is 3,600 s old (R359). -/
def sessionExpiry (b : Block) (id : Nat) : Block :=
  b.modBimor fun y => { y with sessions := y.sessions.filter fun s => !(s.id == id && decide (s.opened + sessionLife ≤ b.now)) }

/-- What every part of a key carries alike (R359): bytes 0 and 2 to 39. -/
def partAttributes (p : Bytes) : Bytes := slice p 0 1 ++ slice p 2 38

/-- The key under which a component travels (R359). -/
def componentKey (scalar pk : Bytes) (id : Nat) : Bytes :=
  (sha3_512 ([0, 0, 0, 1] ++ montShared true scalar pk ++ ascii "VWCOMP" ++ leBytes 4 id)).take 32

/-- A component's ranges are right (R359). -/
def componentShape (b : Block) (p : Bytes) : Bool :=
  let alg := pb p 12
  shaped p 156 [(3, 1), (24, 16)] && scopeValid b (pb p 0) && decide (2 ≤ pb p 2 ∧ pb p 2 ≤ 3) && decide (1 ≤ pb p 1 ∧ pb p 1 ≤ pb p 2)
    && decide (1 ≤ alg ∧ alg ≤ 6) && (slice p 13 3).all printable && (ascii "ENS").contains (byteAt p 16) && (slice p 17 2).all printable
    && (if alg = 6 then decide (16 ≤ pb p 19 ∧ pb p 19 ≤ 32) else pb p 19 == 0)

/-- The slot of a new symmetric record in a scope (R113 checks 6 and 7), from SLOT as a payload gives it. -/
def scopeSlot (b : Block) (c slot : Nat) : Except Nat Nat :=
  if c ≠ 64 ∨ slot = 0xFFFFFFFF then importSlot b c slot false
  else if slotFree b (b.chamber 64).reservedSlots slot then .ok slot else .error stSlotInUse

/-- SLOT lies in the scope's space. -/
def slotInScope (b : Block) (scope slot : Nat) : Bool :=
  if scope = 0xFF then decide (4096 ≤ slot ∧ slot < 65536) else decide (slot < b.sumpSpace)

/-- The passes of a symmetric key's KCV (R27): a TDES block, the two of CMAC over one block, and none for a generic secret. -/
def kcvPasses (alg : Nat) : Nat := if alg ≤ 2 then 1 else if alg ≤ 5 then 2 else 0

/-- A new symmetric key created by a command: its record's commit is asked for; the next stage answers with what is held. -/
def createSymmetric (m : Mbx) (b : Block) (c g alg : Nat) (usage : Bytes) (mode exp : Byte) (kvn : Bytes) (notAfter : Nat) (key : Bytes)
    (answer : Nat → Bytes → Bytes) : Res :=
  let r := newSymmetric b c g alg usage mode exp kvn notAfter 0xFFFFFFFF key
  .wait (askCommit ((reserveSlots b c [r.1]).passes .headstock c (kcvPasses alg)) m [r.1]) [answer r.2.1 r.2.2]

/-- KEY_COMPONENT (R358, R359). -/
def cmdKeyComponent (m : Mbx) (b : Block) (p : Bytes) : Res :=
  let scope := pb p 0
  let alg := pb p 12
  let slot := leField p 8 4
  if !componentShape b p ∨ !(slot == 0xFFFFFFFF || slotInScope b scope slot) then no b stFormat
  else if !scopeExists b scope then no b stObjectState
  else match openSession b (leField p 4 4) with
    | none => no b stObjectState
    | some s =>
      let put (b : Block) (f : Session → Session) : Block :=
        b.modBimor fun y => { y with sessions := y.sessions.map fun x => if x.id = s.id then f x else x }
      if pb p 1 ≠ s.parts.length + 1 then no b stObjectState
      else if s.parts ≠ [] ∧ s.attributes ≠ partAttributes p then no (put b fun x => { x with parts := [], attributes := [] }) stFormat
      else match gcmOpen (componentKey s.scalar (slice p 40 56) s.id) (slice p 96 12) (p.take 40) (slice p 108 32) (slice p 140 16) with
        | none => no b stKeyBlockAuth
        | some comp =>
          let part := comp.take (symmetricLen alg (8 * pb p 19))
          let kcv := symmetricKcv alg part
          if pb p 1 < pb p 2 then
            let c : Component := { part := pb p 1, data := part }
            ok (put b fun x => { x with parts := x.parts ++ [c], attributes := partAttributes p }) (kcv ++ zeros 5)
          else
            let sum := s.parts.foldl (fun k c => xorBytes k c.data) part
            let key := if alg ≤ 2 then oddParity sum else sum
            if !symmetricUse alg (slice p 13 2) (byteAt p 15) then no b stKeyUsage
            else match scopeSlot b (scopeChamber scope) slot with
              | .error e => no b e
              | .ok g =>
                needSump b <|
                  createSymmetric m (put b fun x => { x with parts := [], attributes := [] }) (scopeChamber scope) g alg (slice p 13 2)
                    (byteAt p 15) (byteAt p 16) (slice p 17 2) (leField p 20 4) key fun h k => kcv ++ zeros 5 ++ leBytes 8 h ++ k ++ [0]

/-- A command that answers with what it holds once its commit is complete. -/
def answerHeld (b : Block) (hold : List Bytes) : Res := ok b (hold.headD [])

/-! ### KEY_GENERATE (R173, R174, R358) -/

/-- A generation as an operation: SCHEME, KEYBITS and the record fields of R173 in their operand places. -/
def generateJob (p : Bytes) : Job :=
  let s := pb p 1
  { Job.none with operands := fit 40 (slice p 1 1 ++ [0, 0, if schemeHashed s then 1 else 0] ++ slice p 2 2 ++ zeros 2 ++ slice p 4 16)
                  chamber := scopeChamber (pb p 0) }

/-- KEY_GENERATE. -/
def cmdKeyGenerate (m : Mbx) (b : Block) (p : Bytes) : Res :=
  let scope := pb p 0
  let c := scopeChamber scope
  let j := generateJob p
  let alg := pb p 4
  if !shaped p 20 [] ∨ !scopeValid b scope then no b stFormat
  else if pb p 1 = 0 then
    if leField p 2 2 ≠ 0 ∨ !newRecordOk j false then no b stFormat
    else if !scopeExists b scope then no b stObjectState
    else if !symmetricUse alg (slice p 5 2) (byteAt p 7) then no b stKeyUsage
    else match lowestRun b c 1, b.draw (symmetricLen alg (8 * pb p 11)) with
      | none, _ => no b stSlotExhausted
      | some _, none => no b stRng
      | some g, some (k, b) =>
        let key := if alg ≤ 2 then oddParity k else k
        needSump b <|
          createSymmetric m b c g alg (slice p 5 2) (byteAt p 7) (byteAt p 8) (slice p 9 2) (leField p 12 4) key fun h k =>
            leBytes 8 h ++ zeros 8 ++ k ++ [0]
  else if !pkSyntax (.ticket 0 0) j 3 ∨ !newRecordOk j true then no b stFormat
  else if !scopeExists b scope then no b stObjectState
  else match keygenPlan b (.ticket 0 0) j with
    | .error s => no b s
    | .ok places =>
      let made (b : Block) (drawn : Bytes) : Res :=
        let k := keygenRecords b j places drawn
        needSump b <|
          let b := (reserveSlots b c k.2).headGallery c (schemeLattice j.scheme)
          let kcv := recKcv ((k.2.headD (freeLines 0 1)).lines.headD [])
          .wait (askCommit b m k.2) [k.1.result ++ kcv ++ [0] ++ k.1.output.getD []]
      if schemeRsa j.scheme then
        match keygenPrimes b j with
        | none => no b stRng
        | some (none, b) => no b stInternal
        | some (some p, b) => made b p
      else match b.draw (keygenDraw j.scheme) with
        | none => no b stRng
        | some (drawn, b) => made b drawn

/-! ### Records by handle and by slot -/

/-- A record of a scope found by handle without being used: steps 1 to 4 of R37 and the audit-key rule of R28. Its lines, or the status of the
refusal. -/
def findRecord (b : Block) (ret : DdrReturn) (h c : Nat) : Except Nat (List Bytes) × Block :=
  let rule (lines : List Bytes) : Except Nat (List Bytes) :=
    if recUsage (lines.headD []) = ascii "9A" then .error stKeyUsage else .ok lines
  match resolve b h c false with
  | .fail s => (.error s, b)
  | .ok _ => (rule ((residentLines b (handleGidx b h)).getD []), b)
  | .miss g =>
    if b.sump.st ≠ .ready then (.error stSumpUnavailable, b)
    else match readWhole (ddrRead b ret).2 (ddrRead b ret).1 g with
      | (.error _, b) => (.error stSumpIntegrity, b)
      | (.ok lines, b) =>
        let l := lines.headD ([], 0)
        if !contLine b g l.1 ∧ recordAgrees h c l.1 l.2 then (rule (lines.map (·.1)), b) else (.error stKeyNotFound, b)

/-- KEY_DELETE (R49, R358): `ret` is what memory returns where the record is not resident. -/
def cmdKeyDelete (ret : DdrReturn) (m : Mbx) (b : Block) (p : Bytes) : Res :=
  let scope := pb p 0
  let h := leField p 8 8
  if !shaped p 16 [(1, 7)] ∨ !scopeValid b scope then no b stFormat
  else if !scopeExists b scope then no b stObjectState
  else match findRecord b ret h (scopeChamber scope) with
    | (.error s, b) => no b s
    | (.ok lines, b) => needSump b (.wait (askCommit b m [freeLines (handleGidx b h) lines.length]) [])

/-- A slot's line and version, from the cache or from Sump. -/
def lineAt (b : Block) (ret : DdrReturn) (g : Nat) : Except Nat (Bytes × Nat) × Block :=
  match findSlot b g with
  | some (_, s) => (.ok (s.line, s.version), b)
  | none =>
    if b.sump.st ≠ .ready then (.error stSumpUnavailable, b)
    else
      let (ret, b) := ddrRead b ret
      match readRecord b ret g with
      | (.ok v nodes, line) =>
        let b := cacheNodes b nodes
        if attributesAgree b g v line then (.ok (line, v), b) else (.error stSumpIntegrity, sumpFailure b g 0 2)
      | (.known, _) => (.error stSumpIntegrity, b)
      | (.failed l k nodes, _) => (.error stSumpIntegrity, sumpFailure (cacheNodes b nodes) g l k)

/-- A line is the head of a key record. -/
def isKeyHead (b : Block) (g : Nat) (line : Bytes) : Bool := recAlg line != 0 && !contLine b g line

/-- The global index of SLOT in a scope. -/
def scopeGidx (b : Block) (scope slot : Nat) : Nat := if scope = 0xFF then slot else b.gidxOf scope slot

/-- KEY_INFO (R358). -/
def cmdKeyInfo (ret : DdrReturn) (_ : Mbx) (b : Block) (p : Bytes) : Res :=
  let scope := pb p 0
  if !shaped p 8 [(1, 3)] ∨ !scopeValid b scope ∨ !slotInScope b scope (leField p 4 4) then no b stFormat
  else if !scopeExists b scope then no b stObjectState
  else
    let g := scopeGidx b scope (leField p 4 4)
    match lineAt b ret g with
    | (.error s, b) => no b s
    | (.ok (line, v), b) =>
      if !isKeyHead b g line then no b stObjectState
      else ok b (leBytes 8 (issueHandle b (scopeChamber scope) g (verClass v) (verVersion v)) ++ fit 32 (line.drop 32))

/-- Head slots of a list read until `max` have been found: the entries of KEY_LIST, and the next head slot where there is one. -/
def listKeys (c : Nat) (ret : DdrReturn) : List Nat → Nat → Bytes → Nat → Block → Except Nat (Bytes × Nat × Option Nat) × Block
  | [], _, acc, n, b => (.ok (acc, n, none), b)
  | g :: rest, max, acc, n, b =>
    match lineAt b ret g with
    | (.error s, b) => (.error s, b)
    | (.ok (line, v), b) =>
      if !isKeyHead b g line then listKeys c ret rest max acc n b
      else if max = 0 then (.ok (acc, n, some g), b)
      else
        let e := leBytes 8 (issueHandle b c g (verClass v) (verVersion v)) ++ slice line 32 1 ++ slice line 35 2 ++ slice line 37 1
          ++ slice line 39 1 ++ slice line 51 1 ++ zeros 2
        listKeys c ret rest (max - 1) (acc ++ e) (n + 1) b

/-- KEY_LIST (R358). -/
def cmdKeyList (ret : DdrReturn) (_ : Mbx) (b : Block) (p : Bytes) : Res :=
  let scope := pb p 0
  let first := leField p 4 4
  let max := leField p 8 2
  if !shaped p 10 [(1, 3)] ∨ !scopeValid b scope ∨ max = 0 ∨ 254 < max then no b stFormat
  else if !scopeExists b scope then no b stObjectState
  else
    let lo := scopeGidx b scope first
    let hi := if scope = 0xFF then 65536 else b.gidxOf scope b.sumpSpace
    let from_ := if scope = 0xFF then Nat.max lo 4096 else lo
    let used := (b.sump.ddr.hint.filter fun i => decide (from_ ≤ i ∧ i < hi)).mergeSort fun a c => a ≤ c
    match listKeys (scopeChamber scope) ret used max [] 0 b with
    | (.error s, b) => no b s
    | (.ok (es, n, next), b) =>
      let nextSlot := match next with
        | some g => if scope = 0xFF then g else g - b.gidxOf scope 0
        | none => 0xFFFFFFFF
      ok b (leBytes 2 n ++ zeros 2 ++ leBytes 4 nextSlot ++ es)

/-- A resident record pinned, or CACHE_PIN_LIMIT (R48). -/
def pinOrLimit (b : Block) (gidx w : Nat) : Res := if pinExceeds b gidx w then no b stPinLimit else ok (pinRecord b gidx w) []

/-- KEY_PIN (R48, R358): a record that is not resident is fetched first. -/
def cmdKeyPin (m : Mbx) (b : Block) (p : Bytes) : Res :=
  let h := leField p 0 8
  let c := if hSystem h then 64 else hChamber h
  let g := handleGidx b h
  if !shaped p 12 [(9, 3)] ∨ 2 ≤ pb p 8 then no b stFormat
  else if c ≠ 64 ∧ (b.n ≤ c ∨ (b.chamber c).st = .none) then no b stKeyNotFound
  else match resolve b h c false with
    | .fail s => no b s
    | .ok r =>
      if recUsage r.head = ascii "9A" then no b stKeyUsage
      else if (pb p 8).testBit 0 then ok (unpinRecord b g (recWidth r.head)) []
      else pinOrLimit b g (recWidth r.head)
    | .miss _ =>
      if b.sump.st ≠ .ready then no b stSumpUnavailable
      else
        let join (x : Miss) : Miss := if x.gidx = g then { x with pinFor := x.pinFor ++ [m] } else x
        let b := b.modKeys fun k =>
          { k with misses := if k.misses.any fun x => x.gidx == g then k.misses.map join
                             else k.misses ++ [{ gidx := g, payer := c, waiters := [], pinFor := [m], refetch := false }] }
        .wait (awaits b m (.pin g)) []

end Sys2Proof.Machine
end

