-- ==== Sys2Proof/Machine/CmdAudit.lean ====
section
/-! DEFINITION. Custodian, audit, recipe and decode-table commands of Bimor (R269, R315 to R317, R353, R358, R360, R361). -/
namespace Sys2Proof.Machine

/-- CUSTODIAN_SET (R358). -/
def cmdCustodianSet (m : Mbx) (b : Block) (p : Bytes) : Res :=
  let scope := pb p 0
  if !scopeValid b scope ∨ !kOfN (pb p 1) (pb p 2) ∨ !shaped p (4 + 57 * pb p 2) [(3, 1)] then no b stFormat
  else if !scopeExists b scope then no b stObjectState
  else needSump b (.wait (persist b m []) [])

/-- CUSTODIAN_SET at its commit: the whole set is replaced and the scope's AUTHREFs are cancelled (R353). -/
def cmdCustodianSet2 (_ : Mbx) (b : Block) (p : Bytes) : Res :=
  let scope := pb p 0
  let set : Custodians := { k := pb p 1, keys := custodianKeys p 4 (pb p 2) }
  let b := cancelAuths b fun a => a.scope == scope
  if scope = 0xFF then ok (b.modBimor fun y => { y with custodians := set }) []
  else ok (b.modCh scope fun h => { h with custodians := set }) []

/-! ### Audit (R360) -/

/-- The chain of a SCOPE byte. -/
def scopeChain (scope : Nat) : ChainId := if scope = 0xFF then .system else .chamber scope

/-- A ring command may run on a scope (R357, R367): a chamber is ACTIVE, the system chain exists. -/
def ringState (b : Block) (scope : Nat) : Option Nat :=
  if scope = 0xFF then (if (b.chain .system).present then none else some stObjectState) else queueState b scope

/-- AUDIT_RING_CREATE (R207, R360). -/
def cmdAuditRingCreate (m : Mbx) (b : Block) (p : Bytes) : Res :=
  let scope := pb p 0
  let v := pb p 3 / 2
  if !shaped p 20 [] ∨ !scopeValid b scope ∨ pb p 1 < 12 ∨ 22 < pb p 1 ∨ pb p 2 < 4 ∨ 16 < pb p 2 ∨ 128 ≤ pb p 3
      ∨ (scope ≠ 0xFF ∧ 8 ≤ v) ∨ leField p 4 8 % 4096 ≠ 0 ∨ leField p 12 8 % 4096 ≠ 0 then no b stFormat
  else orElse b (ringState b scope) <|
    if (b.chain (scopeChain scope)).ring.en then no b stObjectState
    else needSump b (.wait (persist b m []) [])

/-- AUDIT_RING_CREATE at its commit: the ring's registers stand at their reset values but for its configuration (R207). -/
def cmdAuditRingCreate2 (_ : Mbx) (b : Block) (p : Bytes) : Res :=
  ok (modRing b (scopeChain (pb p 0)) fun _ =>
    { Ring.reset with en := true, leafBase := leField p 4 8, hdrBase := leField p 12 8, llog2 := pb p 1, hlog2 := pb p 2
                      vecEn := (pb p 3).testBit 0, vector := pb p 3 / 2 }) []

/-- AUDIT_RING_DELETE (R360). -/
def cmdAuditRingDelete (m : Mbx) (b : Block) (p : Bytes) : Res :=
  let scope := pb p 0
  if !shaped p 4 [(1, 3)] ∨ !scopeValid b scope then no b stFormat
  else orElse b (ringState b scope) <|
    if !(b.chain (scopeChain scope)).ring.en then no b stObjectState
    else needSump b (.wait (persist b m []) [])

/-- AUDIT_RING_DELETE at its commit: unwritten data stays on chip. -/
def cmdAuditRingDelete2 (_ : Mbx) (b : Block) (p : Bytes) : Res := ok (modRing b (scopeChain (pb p 0)) fun _ => Ring.reset) []

/-- A signature by the device identity key under a context (R392). -/
def identitySign (b : Block) (ctx : String) (msg : Bytes) : Bytes := edSign true false (ascii ctx) b.identity.seed msg

/-- AUDIT_KEYS (R360): the current chain's keys, or those of the one before it. -/
def cmdAuditKeys (_ : Mbx) (b : Block) (p : Bytes) : Res :=
  let scope := pb p 0
  let n := leField p 2 2
  let c := b.chain (scopeChain scope)
  if !shaped p 4 [(1, 1)] ∨ !scopeValid b scope then no b stFormat
  else
    let keys : Option (Bytes × Bytes) :=
      if !c.present then none
      else if n = c.chainNo then some (c.edPub, c.pqPub)
      else if n + 1 = c.chainNo then c.before.map fun k => (k.edPub, k.pqPub)
      else none
    match keys with
    | none => no b stObjectState
    | some (ed, pq) =>
      let s := ascii "VWAK" ++ [BitVec.ofNat 8 scope, BitVec.ofNat 8 (b2n c.pq)] ++ leBytes 2 n ++ fit 8 b.device ++ fit 57 ed ++ zeros 7
        ++ (if c.pq then fit 2592 pq else [])
      ok b (s ++ identitySign b "VWAUDITKEY" s)

/-- AUDIT_FLUSH_SYSTEM (R69, R360). -/
def cmdAuditFlushSystem (m : Mbx) (b : Block) (p : Bytes) : Res :=
  if p ≠ [] then no b stFormat
  else
    let r := flushResult (b.chain .system)
    let b := closeBatch b .system 2
    let c := b.chain .system
    match (if c.batch.isSome then some c.nextPos else lastLeafHeader c) with
    | none => ok b r
    | some n => .wait (awaits b m (.flush n)) [r]

/-! ### Recipes (R266 to R269, R361) -/

/-- Instructions that staging holds. -/
def stagingLimit : Nat := 65535

/-- RECIPE_STAGE (R361). -/
def cmdRecipeStage (_ : Mbx) (b : Block) (p : Bytes) : Res :=
  let id := leField p 0 2
  let first := leField p 4 4
  let n := leField p 8 2
  if n = 0 ∨ 1354 < n ∨ !shaped p (16 + 3 * n) [(2, 2), (10, 6)] then no b stFormat
  else
    let old : Bytes := match b.bimor.staging with
      | some s => if s.id = id then s.image else []
      | none => []
    if stagingLimit < first + n then no b stNoRoom
    else
      let image := patch (fit (Nat.max old.length (3 * (first + n))) old) (3 * first) (p.drop 16)
      ok (b.modBimor fun y => { y with staging := some { id := id, image := image } }) []

/-- The first LEN staged instructions of an identifier. -/
def stagedImage (b : Block) (id len : Nat) : Option Bytes := match b.bimor.staging with
  | some s => if s.id = id ∧ 3 * len ≤ s.image.length then some (s.image.take (3 * len)) else none
  | none => none

/-- Instructions of an image. -/
def imageInstructions (x : Bytes) : List Nat := (List.range (x.length / 3)).map fun i => leField x (3 * i) 3

/-- RECIPE_LOAD (R361). -/
def cmdRecipeLoad (m : Mbx) (b : Block) (p : Bytes) : Res :=
  let id := leField p 0 2
  let len := leField p 4 2
  let known := (recipe? b id).isSome
  if !shaped p 80 [(7, 1)] ∨ id < 0x1000 ∨ id = 0xFFFF ∨ leField p 2 2 = 0 ∨ len = 0 ∨ 2 ≤ pb p 6 then no b stFormat
  else match stagedImage b id len with
    | none => no b stFormat
    | some x =>
      if shake256 x 64 ≠ slice p 16 64 then no b stFormat
      else if known ∧ pb p 6 = 0 then no b stObjectState
      else if !known ∧ 512 ≤ b.chisel.table.length then no b stNoRoom
      else match freeRange b len with
        | (none, _) => no b stNoRoom
        | (some e, b) => needSump b (.wait (persist b m []) [leBytes 2 e, x])

/-- RECIPE_LOAD at its commit (R269): staging is emptied. -/
def cmdRecipeLoad2 (_ : Mbx) (b : Block) (p : Bytes) (hold : List Bytes) : Res :=
  let r : Recipe := { id := leField p 0 2, entry := ofLe (hold.getD 0 []), len := leField p 4 2, mask := BitVec.ofNat 64 (leField p 8 8)
                      maxcyc := leField p 2 2 }
  let b := installRecipe b r (imageInstructions (hold.getD 1 []))
  ok (b.modBimor fun y => { y with staging := none }) (leBytes 2 r.entry ++ zeros 2)

/-- RECIPE_MASK (R267, R361). -/
def cmdRecipeMask (m : Mbx) (b : Block) (p : Bytes) : Res :=
  let id := leField p 0 2
  if !shaped p 16 [(2, 6)] ∨ id < 0x0800 ∨ id = 0xFFFF then no b stFormat
  else if (recipe? b id).isNone then no b stObjectState
  else needSump b (.wait (persist b m []) [])

/-- RECIPE_MASK at its commit. -/
def cmdRecipeMask2 (_ : Mbx) (b : Block) (p : Bytes) : Res :=
  let id := leField p 0 2
  ok { b with chisel := { b.chisel with
        table := b.chisel.table.map fun r => if r.id = id then { r with mask := BitVec.ofNat 64 (leField p 8 8) } else r } } []

/-- RECIPE_DELETE (R361): Halsyn standard recipes cannot be deleted. -/
def cmdRecipeDelete (m : Mbx) (b : Block) (p : Bytes) : Res :=
  let id := leField p 0 2
  if !shaped p 4 [(2, 2)] ∨ id < 0x1000 ∨ id = 0xFFFF then no b stFormat
  else if (recipe? b id).isNone then no b stObjectState
  else needSump b (.wait (persist b m []) [])

/-- RECIPE_DELETE at its commit. -/
def cmdRecipeDelete2 (_ : Mbx) (b : Block) (p : Bytes) : Res := ok (removeRecipe b (leField p 0 2)) []

/-- A table entry as RECIPE_LIST returns it. -/
def recipeEntry (b : Block) (r : Recipe) : Bytes :=
  leBytes 2 r.id ++ leBytes 2 r.entry ++ leBytes 2 r.len ++ leBytes 2 r.maxcyc ++ leBytes 8 r.mask.toNat
    ++ shake256 (storeBytes b r.entry r.len) 8

/-- Entries that fit into a response. -/
def recipesPerList : Nat := 169

/-- RECIPE_LIST (R361). -/
def cmdRecipeList (_ : Mbx) (b : Block) (p : Bytes) : Res :=
  if !shaped p 4 [(2, 2)] then no b stFormat
  else
    let all := b.chisel.table.filter fun r => decide (leField p 0 2 ≤ r.id)
    let now := all.take recipesPerList
    let next := ((all.drop recipesPerList).head?.map (·.id)).getD 0xFFFF
    ok b (leBytes 2 now.length ++ leBytes 2 next ++ (now.map (recipeEntry b)).flatten)

/-! ### The decode table (R315 to R317, R361) -/

/-- DECODE_LOAD (R316, R317): on FORMAT, DETAIL says what broke the checks first. -/
def cmdDecodeLoad (m : Mbx) (b : Block) (p : Bytes) : Res :=
  if p.length ≠ 3200 then no b stFormat
  else match imageBreach p with
    | some d => .reply b stFormat d []
    | none => needSump b (.wait (persist b m []) [])

/-- DECODE_LOAD at its commit. -/
def cmdDecodeLoad2 (_ : Mbx) (b : Block) (p : Bytes) : Res := ok (decodeInstalled (loadImage b p)) []

/-- DECODE_MASK (R317, R361). -/
def cmdDecodeMask (m : Mbx) (b : Block) (p : Bytes) : Res :=
  if !shaped p 16 [(1, 7)] ∨ 8 ≤ pb p 0 then no b stFormat
  else if !(Tab.get b.chisel.decode DecodeEntry.reset (pb p 0)).valid then no b stObjectState
  else needSump b (.wait (persist b m []) [])

/-- DECODE_MASK at its commit. -/
def cmdDecodeMask2 (_ : Mbx) (b : Block) (p : Bytes) : Res :=
  ok (decodeInstalled { b with chisel := { b.chisel with
        decode := Tab.modify b.chisel.decode DecodeEntry.reset (pb p 0) fun e => { e with mask := BitVec.ofNat 64 (leField p 8 8) } } }) []

/-- DECODE_READ (R361). -/
def cmdDecodeRead (_ : Mbx) (b : Block) (p : Bytes) : Res :=
  let x := decodeImage b
  if p ≠ [] then no b stFormat else ok b (x ++ shake256 x 64)

end Sys2Proof.Machine
end

