-- ==== Sys2Proof/Machine/PowerOps.lean ====
section
/-! DEFINITION. The power manager (chapter 21): wakes and their inrush budget (R505 to R510), the power ladder (R501 to R504) and its
registers (R519). -/
namespace Sys2Proof.Machine

/-! ### Domains (R502, R507) -/

/-- The domains in the order in which wakes queue (R507). -/
def wakeOrder : List Nat := [0, 20, 1, 23, 18, 19, 17, 21, 22, 15, 16, 10, 11, 12, 13, 14, 2, 3, 4, 5, 6, 7, 8, 9]

/-- A domain's place in that order. -/
def wakeRank (d : Nat) : Nat := wakeOrder.findIdx (· == d)

/-- What a wake costs on VDD_CORE, VDD_SRAM, VDD_SER and VDDQ (R507). -/
def wakeCost (d : Nat) : List Nat :=
  if d = 0 then [48, 16, 0, 0]
  else if d = 20 then [0, 0, 106, 0]
  else if d = 1 then [40, 12, 0, 0]
  else if d = 23 then [4, 52, 0, 0]
  else if d = 18 then [2, 0, 0, 0]
  else if d = 19 then [12, 10, 0, 55]
  else if d = 17 then [40, 4, 0, 0]
  else if d = 21 ∨ d = 22 then [0, 0, 36, 0]
  else if d = 15 ∨ d = 16 then [72, 0, 0, 0]
  else if 10 ≤ d ∧ d ≤ 13 then [140, 4, 0, 0]
  else if d = 14 then [86, 2, 0, 0]
  else [10, 4, 0, 0]

/-- Domain `d` as a mask. -/
def domainBit (d : Nat) : BitVec 24 := 1 <<< d

/-- The device runs: main power is good and no warm reset is under way. -/
def Block.running (b : Block) : Bool := b.pmc.powerGood && b.pmc.warm.isNone

/-- The host reaches the device's windows: PCI is not in reset, nor off in Dormant (R502, R514). While a reset of PCI
waits for a commit the link is still there (R222). -/
def Block.hostOn (b : Block) : Bool := b.running && !(b.pmc.perstN && !b.pmc.perstDue) && decide (b.pmc.st < 4)

/-! ### Wakes (R506 to R509) -/

/-- A request put in its place in the queue (R508). -/
def insertWake (d t : Nat) : List (Nat × Nat) → List (Nat × Nat)
  | [] => [(d, t)]
  | p :: rest => if wakeRank d < wakeRank p.1 then (d, t) :: p :: rest else p :: insertWake d t rest

/-- FLW holds nothing that R201 keeps it on for. -/
def flowstoneClear (b : Block) : Bool :=
  b.chains.all fun p =>
    let c := p.2
    c.batch.isNone && c.headers.isEmpty && c.waiting.isEmpty && c.heldLeaves.isEmpty && c.heldHeaders.isEmpty && decide (c.entries = 0)

/-- The lowest-numbered of some domains that is off and not warming. -/
def lowestOff (b : Block) (ds : List Nat) : Option Nat :=
  ds.find? fun d => !b.pmc.on.getLsbD d && !b.pmc.warming.getLsbD d

/-- A domain of some is warming. -/
def anyWarming (b : Block) (ds : List Nat) : Bool := ds.any fun d => b.pmc.warming.getLsbD d

/-- The domains of the curve quads. -/
def quadDomains : List Nat := (List.range 4).map gqDomain
/-- The domains of the clusters. -/
def clusterDomains : List Nat := (List.range 8).map ccDomain

/-- The domains that an item's class and kind of core name (R242). -/
def itemDomains (i : Item) : List Nat :=
  match i.cls with
  | .spa => [spDomain 0]
  | .spb => [spDomain 1]
  | .aug => [17]
  | .gal => if isLattice (dOperands i.desc) then [gltDomain] else quadDomains
  | .chs => clusterDomains

/-- An item that has the state, is of the class, and asks for the kind of Gallery core. -/
def itemsLike (b : Block) (st : ItemState) (k : Cls) (lattice : Bool) : Nat :=
  (b.chuck.items.filter fun p => p.2.st == st && p.2.cls == k && (k != .gal || isLattice (dOperands p.2.desc) == lattice)).length

/-- Idle cores of Gallery's quads or of GLT that are on or warming (R250, R509). -/
def gaIdle (b : Block) (lattice : Bool) : Nat :=
  ((List.range 20).filter fun k => gaLattice k == lattice && (b.domainOn (gaDomain k) || b.pmc.warming.getLsbD (gaDomain k)) && b.gaCore k == .idle).length

/-- The domains that Chuck asks for (R250). A domain that warms for an item counts as there, and so do the TAKE cores of a warming cluster (R509). -/
def chuckWakes (b : Block) : List Nat :=
  let held := b.chuck.items.flatMap fun p =>
    if p.2.st = .held .power ∧ !anyWarming b (itemDomains p.2) then (lowestOff b (itemDomains p.2)).toList else []
  let curve := if gaIdle b false < itemsLike b .ready .gal false then (lowestOff b quadDomains).toList else []
  let lattice := if gaIdle b true < itemsLike b .ready .gal true then (lowestOff b [gltDomain]).toList else []
  let take := b.chuck.take.any fun k => b.domainOn (ccDomain (k / 8))
  let cluster := if 0 < itemsLike b .ready .chs false ∧ !take ∧ !anyWarming b clusterDomains then (lowestOff b clusterDomains).toList else []
  held ++ curve ++ lattice ++ cluster

/-- The domains that requests need which do not come through Chuck: engine calls, and the work of Flowstone, Headstock and the Sump controller. The manual does
not say who asks for these (DESIGN CHOICE, log entry 117). -/
def engineWakes (b : Block) : List Nat :=
  let g := b.gallery
  let waits (lattice : Bool) : Bool := (g.queue ++ g.held).any (fun q => q.lattice == lattice) && gaIdle b lattice == 0
  let pipes := b.spindle.queue.map (·.pipe) ++ b.spindle.waiting.map (·.pipe) ++ b.spindle.reserved.map (·.pipe)
  let leaf := !flowstoneClear b || !b.auger.msgs.isEmpty || b.chuck.items.any fun p => p.2.leaf == .wanted
  ((List.range 2).filter fun k => pipes.any fun p => p / 2 == k).map spDomain
    ++ (if waits false then (lowestOff b quadDomains).toList else []) ++ (if waits true then [gltDomain] else []) ++ (if leaf then [17] else [])

/-- There is a cause for a wake of domain `d`: of an engine domain, that Chuck asks for it or its work does (R250); the others follow the ladder (R505). -/
def wakeCause (b : Block) (d : Nat) : Bool :=
  decide (d < 2) || decide (17 < d) || (chuckWakes b).contains d || (engineWakes b).contains d

/-- WAKE_REQUEST: a domain's wake is queued, unless it is on, warming or queued (R508); from then on it is warming (R509). -/
def wakeRequest (b : Block) (d : Nat) : Block :=
  if 24 ≤ d ∨ b.pmc.on.getLsbD d ∨ b.pmc.warming.getLsbD d then b
  else b.modPmc fun p => { p with queue := insertWake d b.cyc p.queue, warming := p.warming ||| domainBit d }

/-- Every rail holds a cost. -/
def railsHold (p : Pmc) (cost : List Nat) : Bool := (List.range 4).all fun r => decide (cost.getD r 0 ≤ Tab.get p.tokens 0 r)

/-- WAKE_GRANT: the request at the head of the queue is granted when every rail holds its tokens, which are taken (R507, R508). -/
def wakeGrant (b : Block) : Block :=
  match b.pmc.queue with
  | [] => b
  | (d, t) :: rest =>
    if !railsHold b.pmc (wakeCost d) then b
    else
      (b.modPmc fun p =>
        { p with queue := rest, granted := p.granted ++ [(d, t)]
                 tokens := (List.range 4).map fun r => (r, Tab.get p.tokens 0 r - (wakeCost d).getD r 0) }).tally 154

/-- SMP is back: the level-D block is verified again before any request is served (R225, R233). -/
def sumpRecheck (b : Block) (ret : DdrReturn) : Block :=
  if b.sump.st ≠ .ready then b
  else if rootVerifies b ret b.sump.rootv then b
  else
    let blk := ddrLine b.sump.ddr ret (.node b.depth 0)
    let b := b.modSump fun s => { s with st := .empty }
    if allZero blk then b else b.report 0x0221 0 .w (b.sump.rootv % 2 ^ 32) 0 0

/-- What a domain does when it stops warming (R248, R504, R509). -/
def domainUp (b : Block) (d : Nat) (ret : DdrReturn) : Block :=
  if 2 ≤ d ∧ d ≤ 9 then
    (List.range 8).foldl (fun b j => if (b.core (8 * (d - 2) + j)).st = .idle then joinTake b (8 * (d - 2) + j) else b) b
  else if d = 19 then sumpRecheck b ret
  else b

/-- WARMING_END: a granted domain's clock ramp ends (R509): it is on, and its longest warming time is kept in ns. `ret` is what memory returns
where the domain is SMP. After Dormant no cluster and no curve quad stops warming until its stores and tables are back (R257, R504). -/
def warmingEnd (b : Block) (d : Nat) (ret : DdrReturn) : Block :=
  match (if b.pmc.restoring ∧ 2 ≤ d ∧ d ≤ 13 then none else b.pmc.granted.find? fun p => p.1 == d) with
  | none => b
  | some (_, t) =>
    let ns := min (2 ^ 24 - 1) ((b.cyc - t) * 4 / 5)
    let b := b.modPmc fun p =>
      { p with granted := p.granted.filter (fun q => q.1 != d), on := p.on ||| domainBit d, warming := p.warming &&& ~~~ domainBit d
               retain := p.retain &&& ~~~ domainBit d, wmax := Tab.modify p.wmax 0 d (max ns) }
    refreshHolds (domainUp b d ret)

/-- Queued wakes are cancelled (R510). -/
def cancelWakes (b : Block) (f : Nat → Bool) : Block :=
  let gone := b.pmc.queue.filter fun p => f p.1
  b.modPmc fun p =>
    { p with queue := p.queue.filter (fun q => !f q.1), warming := gone.foldl (fun w q => w &&& ~~~ domainBit q.1) p.warming }

/-- A microsecond in the power manager (R506, R510): a rail's new settings take effect, tokens above CAP go, and the buckets are refilled. -/
def pmcMicro (b : Block) : Block :=
  b.modPmc fun p =>
    let p := p.pendingRail.foldl (fun p x => { p with cap := Tab.set p.cap x.1 x.2.1, refill := Tab.set p.refill x.1 x.2.2 }) p
    { p with pendingRail := []
             tokens := (List.range 4).map fun r =>
               (r, min (Tab.get p.cap 0 r) (min (Tab.get p.cap 0 r) (Tab.get p.tokens 0 r) + Tab.get p.refill 0 r)) }

/-! ### Domains on demand (R505) -/

/-- FLW has nothing to do but for open batches and what is held for want of ring space. -/
def flowstoneIdle (b : Block) : Bool :=
  b.auger.msgs.isEmpty && b.chains.all fun p => p.2.waiting.isEmpty && decide (p.2.entries ≤ p.2.heldLeaves.length)

/-- FLW is about to be switched off: the open batches close, with CLOSE 0b11 (R201). -/
def closeBatches (b : Block) : Block := (chainIds b).foldl (fun b i => closeBatch b i 3) b

/-- A batch is open. -/
def batchOpen (b : Block) : Bool := b.chains.any fun p => p.2.batch.isSome

/-- Every chain's mark stands at its next unassigned number (R197). -/
def marksLow (b : Block) : Bool := b.chains.all fun p => !p.2.present || (decide (p.2.mark ≤ p.2.nextSeq) && !p.2.reserving)

/-- Every mark that is not is being lowered (R197). -/
def lowerMarks (b : Block) : Block := (chainIds b).foldl lowerMark b

/-- The core is in no work item. -/
def coreQuiet (b : Block) (k : Nat) : Bool := (b.core k).st == .idle || (b.core k).st == .take

/-- A direct item that has been dispatched to a domain of some and has no result yet: its lookups, its buffer or its operation are under way. -/
def dispatchedTo (b : Block) (f : Item → Bool) : Bool :=
  b.chuck.items.any fun p => p.2.st == .dispatched && p.2.core.isNone && f p.2
    && [Phase.keys, .buffer, .reread, .ready, .engine].contains p.2.job.phase

/-- No work is dispatched in a domain and none is running (R250). -/
def domainQuiet (b : Block) (d : Nat) : Bool :=
  if 2 ≤ d ∧ d ≤ 9 then (List.range 8).all fun j => coreQuiet b (8 * (d - 2) + j)
  else if 10 ≤ d ∧ d ≤ 14 then
    let lattice : Bool := d == gltDomain
    (List.range 4).all (fun j => b.gaCore (4 * (d - 10) + j) == .idle) && (b.gallery.queue ++ b.gallery.held).all (fun q => q.lattice != lattice)
      && !dispatchedTo b fun i => i.cls == .gal && isLattice (dOperands i.desc) == lattice
  else if d = 15 ∨ d = 16 then
    (b.spindle.queue ++ b.spindle.waiting).all (fun q => q.pipe / 2 != d - 15) && b.spindle.reserved.all (fun q => q.pipe / 2 != d - 15)
      && [0, 1].all (fun j => (Tab.get b.spindle.flight [] (2 * (d - 15) + j)).isEmpty)
      && !dispatchedTo b fun i => (i.cls == .spa || i.cls == .spb) && i.pipe / 2 == d - 15
  else if d = 17 then b.auger.msgs.isEmpty && flowstoneClear b && !dispatchedTo b fun i => i.cls == .aug
  else false

/-- A domain loses its power: a cluster's stores stay at retention (R257), and its cores leave TAKE. What Gallery's cores held is gone. -/
def dropDomain (b : Block) (d : Nat) : Block :=
  let cluster : Bool := decide (2 ≤ d ∧ d ≤ 9)
  let b := b.modPmc fun p =>
    { p with on := p.on &&& ~~~ domainBit d, retain := if cluster then p.retain ||| domainBit d else p.retain }
  if 10 ≤ d ∧ d ≤ 14 then (List.range 4).foldl (fun b j => gaErase b (4 * (d - 10) + j)) b
  else if !cluster then b
  else
    let b := b.modChuck fun x => { x with take := x.take.filter fun k => k / 8 != d - 2 }
    (List.range 8).foldl (fun b j => b.modCore (8 * (d - 2) + j) fun c => { c with st := .idle }) b

/-- DOMAIN_OFF: an engine domain that has been idle for OFF_DELAY is switched off (R505), unless KEEP holds it; before FLW goes its chains'
open batches are closed (R201) and their marks lowered (R197). -/
def domainOff (b : Block) (d : Nat) : Block :=
  if !(decide (2 ≤ d ∧ d ≤ 17) && decide (b.pmc.st ≤ 1) && b.domainOn d && !b.pmc.keep.getLsbD d) then b
  else if d = 17 ∧ flowstoneIdle b ∧ batchOpen b then closeBatches b
  else if !domainQuiet b d then b
  else if d = 17 ∧ !marksLow b then lowerMarks b
  else refreshHolds (dropDomain b d)

/-! ### The ladder (R501 to R504) -/

/-- The device is idle (R503). -/
def deviceIdle (b : Block) : Bool :=
  b.chuck.items.isEmpty && (List.range 17).all (fun d => decide (d < 2) || domainQuiet b d) && b.auger.msgs.isEmpty
    && (List.range 6).all (fun i => (b.mbx i).phase == .idle) && b.gallery.queue.isEmpty && b.sump.commit.isNone && b.sump.queue.isEmpty
    && b.belay.responses.isEmpty && b.pmc.queue.isEmpty && b.pmc.granted.isEmpty

/-- R472: an active, a standby or a serving referee never goes below Twilight. -/
def staysAwake (b : Block) : Bool := b.setting 2 != 0 && (b.paired || !b.kerard.served.isEmpty)

/-- `PMC_STATE.LIMIT` (R519). -/
def pmcLimit (b : Block) : Nat := if staysAwake b then min 1 b.pmc.floor else b.pmc.floor

/-- The domains of Dark (R502): HSK, LAN and PCI on, KCA at retention with the clusters. -/
def enterDark (b : Block) : Block :=
  let b := bypassClose ((List.range 18).foldl (fun b d => if 2 ≤ d then dropDomain b d else b) b)
  let b := b.modSump fun s => { s with nodeCache := [] }
  b.modPmc fun p => { p with st := 2, on := domainBit 0 ||| domainBit 18 ||| domainBit 20, retain := p.retain ||| domainBit 23 }

/-- The domains of Deep (R502): LAN alone on, HSK and PCI at retention, the key cache lost (R51). -/
def enterDeep (b : Block) : Block :=
  let b := b.modKeys fun k => { k with cache := [], plru := [], sysCache := [] }
  b.modPmc fun p =>
    { p with st := 3, on := domainBit 18, retain := (p.retain &&& ~~~ domainBit 23) ||| domainBit 0 ||| domainBit 20 }

/-- Dormant (R502): every domain off, and Lantern's state zeroised first (R403). The recipe stores, the decode table and Gallery's tables are lost; the
firmware image and Sump's records keep what they held (R257). -/
def enterDormant (b : Block) : Block :=
  let b := enterDeep b
  let b := b.modLantern fun l => l.wipe
  let b := { b with ch := Tab.mapVals b.ch fun _ h => { h with vfe := [] }
                    stored := some { b.chisel with cores := [], deleted := [] }, chisel := Chisel.reset
                    gallery := { b.gallery with tablesOk := false } }
  let b := { b with counters := { b.counters with prog := [], latch := [], latchUnit := none, cycles := [], byteLatch := [], asserted := [] } }
  b.modPmc fun p => { p with st := 4, on := 0, retain := 0 }

/-- LADDER_ENTRY: an idle time passes and the device moves down one state as far as FLOOR and the pair permit (R503). -/
def ladderEntry (b : Block) : Block :=
  if !deviceIdle b then b
  else if b.pmc.st = 0 then (b.modPmc fun p => { p with st := 1 }).tally 155
  else if b.pmc.st = 1 ∧ 2 ≤ pmcLimit b then
    if flowstoneIdle b && batchOpen b then closeBatches b
    else if !flowstoneClear b then b
    else if marksLow b then (enterDark b).tally 155
    else lowerMarks b
  else if b.pmc.st = 2 ∧ 3 ≤ pmcLimit b then (enterDeep b).tally 155
  else b

/-- PME_TURN_OFF: the host turns the link off (R503): the device answers, and in Deep or Dark, with FLOOR at 4 and the PF in D3hot, enters
Dormant. -/
def pmeTurnOff (b : Block) : Block :=
  let b := b.emit (.message "PME_TO_Ack")
  if (b.pmc.st = 2 ∨ b.pmc.st = 3) ∧ pmcLimit b = 4 ∧ b.pcie.d3hot ∧ deviceIdle b then (enterDormant b).tally 155 else b

/-- LADDER_EXIT: a wake event (R504). Every state is left into Twilight, and Twilight for Lit; what Lit keeps on is woken. After Dormant
Lantern starts again, or stays failed (R409), and Headstock restores its state. -/
def ladderExit (b : Block) : Block :=
  if b.pmc.st = 0 then b
  else if b.pmc.st = 1 then b.modPmc fun p => { p with st := 0 }
  else
    let was := b.pmc.st
    let b := b.modPmc fun p => { p with st := 1, restoring := p.restoring || was == 4 }
    let b := if was = 4 then lanStart b else b
    let b := if 3 ≤ was then b.modKeys fun k => { k with refetching := !k.pins.isEmpty } else b
    [0, 20, 1, 23, 18, 19, 21, 22].foldl wakeRequest b

/-- DORMANT_RESTORE_COMPLETE: Headstock has restored its state after Dormant (R504): stores reloaded (R257, R318), Gallery's tables filled and
checked, `badTable` naming the word where they differ (R155). -/
def dormantRestored (b : Block) (badTable : Option Nat) : Block :=
  if !b.pmc.restoring then b
  else
    let b := b.modPmc fun p => { p with restoring := false }
    let b := { b with chisel := { b.stored.getD b.chisel with cores := b.chisel.cores }, stored := none
                      gallery := { b.gallery with tablesOk := badTable.isNone } }
    match badTable with
    | none => b
    | some a => b.report 0x0240 0 .w a 0 0

/-! ### Registers (R519) -/

/-- The least CAP that a write of a rail may give. -/
def railFloor (r : Nat) : Nat := [140, 52, 106, 55].getD r 0

/-- PMC_RAIL: a write of a rail's CAP and REFILL, in force at the next microsecond (R510, R519). -/
def pmcRail (b : Block) (r : Nat) (a : Access) (v : BitVec 32) : Block :=
  if a = .other then b.modPmc fun p => { p with err := p.err ||| 1 }
  else
    let cap := bits v.toNat 11 0
    let refill := bits v.toNat 23 12
    if cap < railFloor r ∨ refill = 0 then b.modPmc fun p => { p with err := p.err ||| 4 }
    else b.modPmc fun p => { p with pendingRail := p.pendingRail.filter (fun x => x.1 != r) ++ [(r, cap, refill)] }

/-- A write of `PMC_CFG` (R519): each field out of range keeps its value and sets CFG_RANGE. -/
def pmcCfg (b : Block) (v : BitVec 32) : Block :=
  b.modPmc fun p =>
    let floor := bits v.toNat 2 0
    let delay := bits v.toNat 23 16
    { p with floor := if floor ≤ 4 then floor else p.floor, darkIdle := bits v.toNat 11 8, deepIdle := bits v.toNat 15 12
             offDelay := if delay = 0 then p.offDelay else delay, err := if 4 < floor ∨ delay = 0 then p.err ||| 2 else p.err }

end Sys2Proof.Machine
end

