-- ==== Sys2Proof/Machine/ResetOps.lean ====
section
/-! DEFINITION. What a warm or cold device reset clears (R514), and the boot that follows: the ROM's choice of an image, the records it owes,
and the firmware's restoring of the device from Sump (R385 to R390, R443, R444, R448). -/
namespace Sys2Proof.Machine

/-! ### What a reset leaves -/

/-- The set-up that Sump's records hold at a reset (R213). -/
def recordsNow (b : Block) : Records :=
  b.records.getD
    { ch := b.ch.filter fun p => decide (p.1 < 64) && p.2.st != .none
      chains := b.chains, chisel := { b.stored.getD b.chisel with cores := [], deleted := [] }, handleKeys := b.keys.handleKeys
      sysHandleKey := b.keys.sysHandleKey, auditSeeds := b.keys.auditSeeds, io := b.io.config }

/-- A generation's CRC is right (R391). -/
def generationOk (g : Bytes) : Bool := g.length == 96 && leField g 80 4 == crc32c (g.take 80)

/-- The settings that a reset puts in force (R391). -/
def settingsInForce (s : Strata) : Bytes := ((s.generations.reverse.find? generationOk).map fun g => g.take 76).getD defaultSettings

/-- Kerard after a device reset (R469, R499): ports down, the bypass closed, nothing outstanding, the rest of the transport key's block of counts abandoned (R40); the pair's persistent state stays (R447,
R491). A handshake or a resynchronisation that was under way is lost. -/
def Kerard.afterReset (k : Kerard) : Kerard :=
  { k.dropServed with
    linkA := Link.reset, linkB := Link.reset, bypassOpen := false, bypassTrying := false, seen := [], dupId := false
    st := if k.st = .joining then (if k.rejoin then .stale else .none)
          else if k.st = .syncing then (if k.role = .active then .degraded else .stale)
          else k.st
    role := if k.st = .joining ∧ !k.rejoin then .none else k.role
    joinScalar := [], joinPeer := none, joinRef := none, joinMbx := none, rejoin := false, missPeer := 0, missRef := 0
    refOk := false, hostLost := false, peerOk := false, out := [], lastSync := none, early := [], released := [], headers := [], resync := []
    resyncing := false, leafOut := [], txCount := k.txMark, dropsClaim := 0, dropsAuth := 0, gen1 := false, vecEn := false, vector := 0
    hostTimeout := 10, err := 0 }

/-- Sump after a device reset (R225, R234): what memory, Strata and the journal's set-up hold stays. -/
def Sump.afterReset (s : Sump) : Sump :=
  { Sump.reset with
    ddr := { s.ddr with trained := false }, rootv := s.rootv, jmac := s.jmac, jmode := s.jmode, jbase := s.jbase, jlog2 := s.jlog2
    erasing := s.erasing, bad := s.bad }

/-- The PMC registers after a device reset (R519): a cold one initialises all of them. -/
def Pmc.afterReset (p : Pmc) (cold : Bool) : Pmc :=
  if cold then { Pmc.reset with powerGood := p.powerGood, perstN := p.perstN, onBattery := p.onBattery }
  else
    { Pmc.reset with
      floor := p.floor, darkIdle := p.darkIdle, deepIdle := p.deepIdle, offDelay := p.offDelay, keep := p.keep, cap := p.cap
      refill := p.refill, tokens := p.cap, powerGood := p.powerGood, sysRst := p.sysRst, perstN := p.perstN, warm := p.warm
      cause := p.cause, onBattery := p.onBattery }

/-- Strata's recorder as the settings of a generation leave it (R459): one that changes C zeroes the area, and SERIAL restarts. -/
def Strata.recorderFor (s : Strata) (old new : Nat) : Strata :=
  if recorderCapacity old = recorderCapacity new then s else { s with recorder := [], serial := 0, fullCount := 0, fullLast := 0 }

/-- A warm or cold device reset (R514): every domain starts anew, and the settings in force become those of the newest generation (R391).
Kept are BBRAM, TMP state, Strata, what Sump's records hold and, on a warm reset, DDR-5, the PMC's set-up, the Tally bank, the pins and the
sideband. -/
def deviceReset (b : Block) (cold : Bool) : Block :=
  let s := settingsInForce b.strata
  { b with
    strata := b.strata.recorderFor (b.setting 1) (byteAt s 1).toNat, nlog2 := (byteAt s 0).toNat, cyc := 0, ch := [], records := some (recordsNow b), stored := none, chuck := Chuck.reset, spindle := Spindle.reset
    auger := Auger.reset, gallery := Gallery.reset, keys := Keys.reset
    sump := if cold then { Sump.reset with jmode := b.sump.jmode, jbase := b.sump.jbase, jlog2 := b.sump.jlog2 } else b.sump.afterReset
    chains := [], lantern := { Lantern.reset with st := .off }, chisel := Chisel.reset
    bimor := { b.bimor with mbx := [], auths := [], sessions := [], staging := none, fwStage := [], fwStaged := 0
                            settings := s, pending := none }
    identity := { b.identity with noImage := false }, spdm := Spdm.reset, kerard := b.kerard.afterReset, ferrules := []
    belay := { b.belay with flast0 := 0, flast1 := 0, flast2 := 0, live0 := 0, live1 := 0, live2 := 0, err := 0, deniedItems := []
                            chamberTimes := [], dapTimes := [], alarmOut := false }
    pmc := b.pmc.afterReset cold
    counters := { Counters.reset with tally := if cold then [] else b.counters.tally }, pcie := Pcie.reset
    smbus := if cold then Smbus.reset else b.smbus
    io := if cold then { Io.reset with config := b.io.config } else b.io }

/-! ### Restoring from Sump (R390 steps 8 and 9) -/

/-- A chamber restored from its record (R323, R331): its queues exist and are empty, its credits stand at their ceilings; in LOCKED it is
QUIESCED (R379). -/
def restoreChamber (b : Block) (h : Chamber) : Chamber :=
  { Chamber.absent with
    st := if b.life = 4 then .quiesced else .active, restored := true, pinpol := h.pinpol, decTabs := h.decTabs
    sqs := Tab.mapVals h.sqs fun _ s => { Sq.reset with en := s.en, base := s.base, depthLog2 := s.depthLog2, cq := s.cq, fmt := s.fmt }
    cqs := Tab.mapVals h.cqs fun _ q => { q with tail := 0, phase := true, head := 0, reserved := 0, unsignalled := 0 }
    groups := Tab.mapVals h.groups fun _ g => { Group.reset with weight := g.weight }
    credit := 4096 * b.n, spCredit := 256 * b.n, curve := 1000000 * b.n, lattice := 1000000 * b.n
    borrow := h.borrow, custodians := h.custodians, uread := h.uread }

/-- A chain lost an open batch or an unreleased header (R208). -/
def chainLost (c : Chain) : Bool := c.batch.isSome || !c.headers.isEmpty

/-- A chain as its record in Sump gives it, with its ring empty. -/
def chainFromRecord (c : Chain) : Chain :=
  { c with
    nextBatch := c.recBatch + 1, nextSeq := c.recSeq, reserving := false, prev := c.recDigest, batch := none, headers := [], waiting := []
    accepted := 0, entries := 0, heldLeaves := [], heldHeaders := [], stalled := none, failed := [], closeDue := none, retiring := false
    unsignedStop := false, lastLeaf := if c.recSeq = 0 then none else some (c.recSeq - 1)
    ring := { c.ring with lhead := 0, ltail := 0, hhead := 0, htail := 0, err := 0, stopped := false } }

/-- A chain resumed, with a gap batch where something was lost (R208). -/
def resumeChain (b : Block) (p : Nat × Chain) : Block :=
  if !p.2.present then b
  else
    let i := chainOf p.1
    let b := b.modChain i fun _ => chainFromRecord p.2
    if chainLost p.2 then resumeWithGap b i else b

/-- The pins the device makes itself: the audit keys of the chambers (R48). -/
def auditPins (l : Tab Chain) : List (Nat × Nat) :=
  l.flatMap fun p => if p.1 < 64 ∧ p.2.present then (p.2.edGidx, 2) :: (if p.2.pq then [(p.2.pqGidx, 1)] else []) else []

/-- The I/O configuration of a payload of IO_CONFIG applied (R548). -/
def applyIo (b : Block) (p : Bytes) : Block :=
  { b with io := { b.io with gpio := (List.range 8).map fun n => (n, (byteAt p n).toNat)
                             led := (List.range 2).map fun n => (n, (byteAt p (8 + n)).toNat), config := some p } }

/-- Sump is READY after a reset and its records are read (R390): chambers, recipes and the decode image are back, the chains resume, and the
I/O configuration is applied again. -/
def restoreFromSump (b : Block) : Block :=
  match b.records with
  | none => b
  | some r =>
    let b := { b with records := none, ch := Tab.mapVals r.ch fun _ h => restoreChamber b h
                      chisel := { r.chisel with cores := b.chisel.cores } }
    let b := b.modKeys fun k =>
      { k with handleKeys := r.handleKeys, sysHandleKey := r.sysHandleKey, auditSeeds := r.auditSeeds, pins := auditPins r.chains
               refetching := !(auditPins r.chains).isEmpty }
    let b := r.chains.foldl resumeChain b
    match r.io with
    | some p => applyIo b p
    | none => b

/-- What of the records outlives a SUMP_INIT: the system chain, the system handle key and the I/O configuration, which the command is not said
to delete; the firmware writes their records again. -/
def restoreSystem (b : Block) : Block :=
  match b.records with
  | none => b
  | some r =>
    restoreFromSump
      { b with records := some { r with ch := [], chains := r.chains.filter (fun p => p.1 == 64), chisel := Chisel.reset, handleKeys := [] } }

/-- SUMP_START: DDR-5 training has ended and the level-D block is verified (R225); a Sump that is READY gives the device its set-up back. -/
def startSump (b : Block) (trained : Bool) (ret : DdrReturn) : Block :=
  if !b.pmc.booted ∨ b.sump.st ≠ .empty then b
  else
    let b := sumpStart b trained ret
    if b.sump.st = .ready then restoreFromSump b else b

/-! ### Images (R384 to R389) -/

/-- Fields of an image header. -/
def fwSvn (h : Bytes) : Nat := (byteAt h 5).toNat

/-- KEYIDX. -/
def fwKeyIdx (h : Bytes) : Nat := (byteAt h 6).toNat

/-- FWVER. -/
def fwVer (h : Bytes) : Nat := leField h 8 4

/-- LEN. -/
def fwLen (h : Bytes) : Nat := leField h 12 4

/-- A header's failure (R385), by the codes of R454; nothing where it is valid. -/
def headerFailure (b : Block) (h : Bytes) : Option Nat :=
  if h.length ≠ 256 ∨ slice h 0 4 ≠ ascii "VWFW" ∨ byteAt h 4 ≠ 1 ∨ 64 < fwSvn h ∨ 16 ≤ (byteAt h 7).toNat ∨ fwLen h = 0
      ∨ 2097152 < fwLen h ∨ !allZero (slice h 137 3) ∨ !allZero (slice h 254 2) then some 1
  else if 4 ≤ fwKeyIdx h ∨ b.identity.revoked.getLsbD (fwKeyIdx h) ∨ b.identity.vkh.getD (fwKeyIdx h) [] ≠ shake256 (slice h 80 57) 32 then
    some 2
  else if !edCheck true true (ascii "VWFIRMWARE") (slice h 80 57) (shake256 (h.take 140) 64) (slice h 140 114) then some 3
  else if fwSvn h < b.identity.arb then some 4
  else none

/-- An image's failure: that of its header, or 5 for its body (R385, R454). -/
def imageFailure (b : Block) (h body : Bytes) : Option Nat :=
  (headerFailure b h).orElse fun _ =>
    if shake256 (0x06 :: body.take (fwLen h)) 64 = slice h 16 64 ∧ fwLen h ≤ body.length then none else some 5

/-- Slot A is tried first of two valid headers (R386). -/
def slotAFirst (a c : Bytes) : Bool :=
  decide (fwSvn c < fwSvn a) || (decide (fwSvn c = fwSvn a) && decide (fwVer c ≤ fwVer a))

/-- The slot that boots, or the failures of both (R386, R387); `errA` and `errB` say that the flash could not be read. -/
def chooseSlot (b : Block) (errA errB : Bool) : Except (Nat × Nat) Nat :=
  let sa := b.identity.slotA
  let sb := b.identity.slotB
  let fa := if errA then some 6 else imageFailure b sa.header sa.body
  let fb := if errB then some 6 else imageFailure b sb.header sb.body
  match fa, fb with
  | some x, some y => .error (x, y)
  | none, some _ => .ok 0
  | some _, none => .ok 1
  | none, none => .ok (if slotAFirst sa.header sb.header then 0 else 1)

/-! ### The ROM's records (R443, R444, R448) -/

/-- An evidence record of the boot ROM written at once (R449, R455); a full area has its consequence (R381). -/
def romRecord (b : Block) (code src : Nat) (cls : RClass) (p0 p1 : Nat) : Block :=
  let r : Report :=
    { code := code, src := src, cls := cls, p0 := p0, p1 := p1, p2 := 0, rom := true, overrun := false, quiesce := 64, detected := b.now }
  let x := evidenceAppend b (recordBytes b r false) []
  if x.2 then evidenceIsFull x.1 else x.1

/-- The pending slots committed at a main power-up, with their overflow, and PCC incremented (R443, R450), unless it is about to be restored (R448). -/
def commitPending (b : Block) (count : Bool) : Block :=
  let p := b.bbram
  let w := p.pending.foldl (fun x r => let y := evidenceAppend x.1 r []; (y.1, x.2 || y.2)) (b, false)
  let b := if w.2 then evidenceIsFull w.1 else w.1
  let b := if p.overflow = 0 then b else romRecord b 0x0130 0 .w p.overflow 0
  let b := b.modBelay fun y => { y with committed := p.pending.length, overflowCommitted := p.overflow }
  let b := if count then b.modStrata fun s => { s with pcc := min (2 ^ 32 - 1) (s.pcc + 1) } else b
  { b with bbram := { b.bbram with pending := [], overflow := 0 } }

/-- The lifecycle entry that the flags of a response on battery call for (R443). -/
def flaggedEntry (b : Block) : Block :=
  let z := b.bbram.zDone
  let l := b.bbram.lDone
  let b := { b with bbram := { b.bbram with zDone := false, lDone := false } }
  if z ∧ 1 ≤ b.life ∧ b.life ≤ 4 then zeroise b 1 else if l then lock b 1 else b

/-- M and W of every monitor from the copy in Strata, or the defaults (R444). -/
def monitorsFromCopy (b : Block) : Block :=
  (List.range 19).foldl
    (fun b k => let p := Tab.get b.strata.tamperCopy (Monitor.defaults k) k
                b.modMonitor k fun x => { x with m := p.1, wcode := p.2 }) b

/-- The check of BBRAM at a main power-up (R444). -/
def checkBbram (b : Block) : Block :=
  let bad := !b.bbram.markerOk || !b.bbram.crcOk
  let p0 := b2n (!b.bbram.markerOk) + 2 * b2n (!b.bbram.crcOk)
  let b := if b.bbram.crcOk then b
    else { monitorsFromCopy b with bbram := { b.bbram with crcOk := true, lifecycle := b.life, pending := [] } }
  if bad ∧ 1 ≤ b.life ∧ b.life ≤ 4 then romRecord (zeroise b 1) 0x0131 0xFE .z p0 0 else b

/-- The state area of Strata is lost in both copies (R448): the counts are restored from the records, and class Z is executed. -/
def stateLost (b : Block) : Block :=
  let recs := b.strata.evidence ++ b.strata.recorder.map (·.2)
  let pcc := min (2 ^ 32 - 1) (1 + (recs.map (fun r => leField r 4 4) ++ b.strata.lifecycleLog.map fun e => leField e 4 4).foldl max 0)
  let opt := 16 + (recs.map fun r => leField r 8 5).foldl max 0
  let b := { (b.modStrata fun s => { s with pcc := pcc, optBase := opt, sumpHead := none, creation := [], tamperCopy := [] })
             with now := max b.now (opt * 62500) }
  let b := romRecord b 0x0132 0 .z pcc 0
  if 1 ≤ b.life ∧ b.life ≤ 4 then zeroise b 1 else if 5 ≤ b.life then zeroiseWork b else b

/-! ### The boot (R390) -/

/-- Headstock commits each Ferrule's rules during boot (R421): those of a core are R259's, those of a DMA engine admit its
transfers, the others' are the firmware's own. -/
def bootFerrules : Tab Ferrule :=
  (List.range 80).map fun m =>
    let rules := if m < 64 then coreRules else if 66 ≤ m ∧ m < 79 then dmaRules m else []
    (m, { Ferrule.reset with active := rules, shadow := rules, epoch := 1 })

/-- The firmware starts (R390 steps 6 and 7): the running image, the keys derived from the DRK, Gallery's tables, `badTable` naming the word at
which their check failed (R155), and the record of the start (R453). -/
def firmwareStarts (b : Block) (slot : Nat) (badTable : Option Nat) : Block :=
  let h := if slot = 0 then b.identity.slotA.header else b.identity.slotB.header
  let b := { b with identity := { b.identity with slot := slot, running := h.take 140 }, ferrules := bootFerrules
                    gallery := { b.gallery with tablesOk := badTable.isNone } }
  let b := clampMonitors (if b.bbram.drk.isSome then deriveSumpKeys b else b)
  let b := match badTable with
    | some a => b.report 0x0240 0 .w a 0 0
    | none => b
  let b := b.report 0x0200 b.pmc.cause .none (fwVer h) (slot + 256 * fwSvn h) 0
  b.modPmc fun p => { p with booted := true }

/-- BOOT (R386 to R390): the ROM chooses an image, commits what was pending at a main power-up and checks BBRAM and the state area, and the
firmware starts. `flash` is what the board has written to the flash since (R387): headers and bodies of both slots. -/
def boot (b : Block) (flash : Option (Bytes × Bytes × Bytes × Bytes)) (errA errB lost : Bool) (badTable : Option Nat) : Block :=
  if !b.running ∨ b.pmc.booted ∨ b.identity.noImage then b
  else
    let b := match flash with
      | some (ha, ba, hb, bb) =>
        { b with identity := { b.identity with slotA := { header := ha, body := ba }, slotB := { header := hb, body := bb } } }
      | none => b
    match chooseSlot b errA errB with
    | .error (x, y) => { romRecord b 0x0140 0 .w x y with identity := { b.identity with noImage := true } }
    | .ok slot =>
      let found := if b.pmc.cause ≠ 0 then b
        else checkBbram (flaggedEntry (if lost then stateLost (commitPending b false) else commitPending b true))
      firmwareStarts found slot badTable

/-- READY (R390 steps 9 and 10): the anti-rollback value and the revocations of the running image, `MBX_STATUS.READY`, and its record. -/
def deviceReady (b : Block) : Block :=
  if !b.running ∨ !b.pmc.booted ∨ b.pmc.ready then b
  else
    let h := b.identity.running
    let own : BitVec 4 := 1 <<< fwKeyIdx h
    let b := { b with identity := { b.identity with
      arb := max b.identity.arb (fwSvn h), revoked := b.identity.revoked ||| (BitVec.ofNat 4 (byteAt h 7).toNat &&& ~~~ own) } }
    let b := b.modPmc fun p => { p with ready := true }
    let b := (List.range 6).foldl (fun b i => b.modMbx i fun x => { x with busy := x.phase != .idle }) b
    b.report 0x0201 0 .none (min (2 ^ 32 - 1) (b.now - b.pmc.reference)) 0 0

/-- COLD_RESET: main power-good rises (R514, R518). The operating time resumes 16 units beyond its stored base (R451). -/
def coldReset (b : Block) : Block :=
  if b.pmc.powerGood then b
  else
    let b := deviceReset (b.modPmc fun p => { p with powerGood := true, onBattery := false }) true
    let now := (b.strata.optBase + 16) * 62500
    { b with now := now, pmc := { b.pmc with reference := now } }

/-- MAIN_POWER_LOSS: main power-good falls (R555): no array keeps its contents, Sump's memory included (R222). What Belay had not executed yet it
executes from VBAT (R442), and the battery seconds start again (R452). -/
def mainPowerLoss (b : Block) : Block :=
  if !b.pmc.powerGood then b
  else
    let due := b.belay.responses.filterMap (·.report)
    let b := deviceReset (b.modPmc fun p => { p with powerGood := false, onBattery := true, warm := none }) true
    let b := b.modBelay fun y => { y with intake := due ++ y.intake, responses := [], evidence := [], recorder := [] }
    { b with bbram := { b.bbram with batSeconds := 0 } }

/-- RAIL_OUT_OF_RANGE: a main rail outside R500 leaves its range (R555): VDD_RING closes the bypass, a Kerard SerDes rail fails its link; the
other rails' links retrain of themselves. -/
def railOutOfRange (b : Block) (ring : Bool) (link : Option KPort) : Block :=
  let b := if ring then bypassClose b else b
  match link with
  | some p => linkLoss b p
  | none => b

end Sys2Proof.Machine
end

