-- ==== Sys2Proof/Machine/CmdConfig.lean ====
section
/-! DEFINITION. The configuration, Sump, counter and record commands of Bimor (R361 to R364, R227 to R230, R461). -/
namespace Sys2Proof.Machine

/-! ### Configuration (R362, R363) -/

/-- CONFIG_READ (R362). -/
def cmdConfigRead (_ : Mbx) (b : Block) (p : Bytes) : Res :=
  if p ≠ [] then no b stFormat
  else
    let x := b.bimor
    ok b ([BitVec.ofNat 8 b.strata.generations.length, BitVec.ofNat 8 (b2n x.pending.isSome), 0, 0] ++ x.settings ++ x.pending.getD (zeros 76))

/-- An entry of the tamper window bounds is permitted (R429). -/
def boundsOk (p : Bytes) (e : Nat) : Bool :=
  let f (i : Nat) : Nat := pb p (12 + 4 * e + i)
  decide (1 ≤ f 0 ∧ f 0 ≤ f 1 ∧ f 1 ≤ 16 ∧ f 2 ≤ f 3 ∧ f 3 ≤ 15)

/-- A settings block is permitted (R362, R383, R429). -/
def settingsOk (p : Bytes) : Bool :=
  p.length == 76 && decide (pb p 0 ≤ 6 ∧ pb p 1 ≤ 2 ∧ pb p 2 ≤ 3 ∧ pb p 3 ≤ 7 ∧ pb p 3 % 4 ≠ 3) && (List.range 15).all (boundsOk p)
    && allZero (slice p 74 2)

/-- A chamber exists, or Sump's records that have not been read yet hold one (R231). -/
def anyChamber (b : Block) : Bool :=
  (b.ch.any fun p => decide (p.1 < 64) && p.2.st != .none) || (b.records.map fun r => !r.ch.isEmpty).getD false

/-- The borrow flags of a settings block put in force (R252, R363). -/
def setBorrow (b : Block) (p : Bytes) : Block :=
  let b := { b with ch := Tab.mapVals b.ch fun c h => { h with borrow := (pb p (4 + c / 8)).testBit (c % 8) } }
  b.modBimor fun x => { x with settings := patch x.settings 4 (slice p 4 8) }

/-- CONFIG_COMMIT (R362, R363). -/
def cmdConfigCommit (_ : Mbx) (b : Block) (p : Bytes) : Res :=
  let n := b.strata.generations.length
  if !settingsOk p ∨ p = b.bimor.settings ∨ b.bimor.pending = some p then no b stFormat
  else if pb p 0 ≠ b.nlog2 ∧ anyChamber b then no b stBusy
  else if 16 ≤ n then no b stGenerations
  else
    let body := p ++ leBytes 4 b.strata.pcc
    let g := body ++ leBytes 4 (crc32c body) ++ zeros 12
    let b := (setBorrow b p).modStrata fun s => { s with generations := s.generations ++ [g] }
    ok (b.modBimor fun x => { x with pending := some p }) [BitVec.ofNat 8 (15 - n), 0, 0, 0]

/-! ### Sump (R362) -/

/-- SUMP_JOURNAL (R227, R362). -/
def cmdSumpJournal (_ : Mbx) (b : Block) (p : Bytes) : Res :=
  let mode := pb p 0
  let log2 := pb p 1
  let base := leField p 4 8
  if !shaped p 12 [(2, 2)] ∨ 2 < mode ∨ log2 < 10 ∨ 20 < log2 ∨ base % 4096 ≠ 0 ∨ (mode = 0 ∧ base ≠ 0) then no b stFormat
  else
    let replaces : Bool := base != b.sump.jbase || log2 != b.sump.jlog2
    if replaces ∧ b.sump.jhead ≠ b.sump.jtail then no b stObjectState
    else
      let m : JMode := if mode = 0 then .off else if mode = 1 then .async else .sync
      let b := b.modSump fun s => { s with jmode := m, jbase := base, jlog2 := log2 }
      ok (if replaces then b.modSump fun s => { s with jhead := 0, jtail := 0 } else b) []

/-- Bytes of a SUMP_SAVE image (R229): header, tags, tree and records. -/
def imageBytes (b : Block) : Nat := 64 + 72 * b.sumpT + 64 * blocksBelow b.sumpT (b.depth + 1)

/-- SUMP_SAVE (R229, R362): it responds once the snapshot boundary is fixed. -/
def cmdSumpSave (m : Mbx) (b : Block) (p : Bytes) : Res :=
  let size := leBytes 8 (imageBytes b)
  if p.length ≠ 16 then no b stFormat
  else if leField p 8 8 < imageBytes b then .reply b stFormat 0 size
  else if b.sump.st ≠ .ready then no b stSumpUnavailable
  else if b.sump.save.isSome then no b stObjectState
  else
    let v : Save := { base := leField p 0 8, started := false, snapshot := Ddr.blank, rootv := 0, jmac := [] }
    .wait (awaits (snapshotIfDue (b.modSump fun s => { s with save := some v })) m .snapshot) []

/-- SUMP_SAVE at its snapshot boundary. -/
def cmdSumpSave2 (_ : Mbx) (b : Block) (_ : Bytes) : Res := ok b (leBytes 8 (imageBytes b))

/-- SUMP_RESTORE (R229, R362), with what the host's image and journal buffers hold: it responds at the end of the replay. -/
def cmdSumpRestore (header : Bytes) (lines : List (DdrLine × Bytes)) (hint : List Nat) (journal : List Bytes) (_ : Mbx) (b : Block)
    (p : Bytes) : Res :=
  if !shaped p 32 [(28, 4)] then no b stFormat
  else if b.sump.st ≠ .empty then no b stObjectState
  else if !b.sump.ddr.trained then no b stSumpUnavailable
  else match sumpRestore b header lines hint (journal.take (leField p 24 4)) with
    | some b => ok (restoreFromSump b) []
    | none => no b stSumpIntegrity

/-- A request queued by what SUMP_INIT deletes. -/
def Waiter.ofChamber : Waiter → Bool
  | .job _ => true
  | .counter _ _ _ => true
  | .retire _ => true
  | .erase _ _ => true
  | .seqMark (.chamber _) _ _ => true
  | .header (.chamber _) _ => true
  | .auditKeys (.chamber _) => true
  | _ => false

/-- SUMP_INIT's effect on the device (R230, R318): every chamber goes with its work, Sump is initialised, and no recipe and no decode image
is left. -/
def initSump (b : Block) : Block :=
  let all := (b.ch.filter fun p => decide (p.1 < 64)).map (·.1)
  let b := all.foldl (fun b c => dropChamber (beginReset b c) c) b
  let b := b.modSump fun s => { s with queue := s.queue.filter fun r => !r.waiter.ofChamber }
  let b := wipeCache (sumpInit b)
  restoreSystem { b with chisel := { Chisel.reset with cores := b.chisel.cores } }

/-- SUMP_INIT (R230, R362): a commit in progress comes first. -/
def cmdSumpInit (m : Mbx) (b : Block) (p : Bytes) : Res :=
  if p ≠ [] then no b stFormat
  else if !b.sump.ddr.trained then no b stSumpUnavailable
  else if b.sump.commit.isSome then .wait (awaits b m .noCommit) []
  else ok (initSump b) []

/-! ### Counters and records (R364) -/

/-- TALLY_READ (R364, R530). -/
def cmdTallyRead (_ : Mbx) (b : Block) (p : Bytes) : Res :=
  let first := pb p 0
  let count := if pb p 1 = 0 then 256 else pb p 1
  if !shaped p 4 [(2, 2)] ∨ 256 < first + count then no b stFormat
  else ok b ((List.range count).flatMap fun i => leBytes 6 (b.tallyOf (first + i)) ++ [0, 0])

/-- COUNTER_CONFIG (R364, R523). -/
def cmdCounterConfig (_ : Mbx) (b : Block) (p : Bytes) : Res :=
  if p.length ≠ 4 then no b stFormat
  else
    let r := ctrConfig b (pb p 0) (pb p 1) (leField p 2 2) stFormat stObjectState stOk
    .reply r.2 r.1 0 []

/-- STRATA_READ (R364, R461). -/
def cmdStrataRead (_ : Mbx) (b : Block) (p : Bytes) : Res :=
  let count := leField p 8 2
  if !shaped p 10 [(1, 3)] ∨ 1 < pb p 0 ∨ count = 0 ∨ 127 < count then no b stFormat
  else
    let r := strataRead b b.recorderC (pb p 0) (leField p 4 4) count
    ok b (leBytes 4 r.1 ++ leBytes 4 r.2.length ++ zeros 8 ++ r.2.flatten)

end Sys2Proof.Machine
end

