-- ==== Sys2Proof/Machine/PairOps.lean ====
section
/-! DEFINITION. How a device leaves a twin pair or rejoins it (R481, R498), and the pair's commands of Bimor (R365, R477, R490). -/
namespace Sys2Proof.Machine

/-! ### Leaving and rejoining -/

/-- Every chamber and every record of the mirrored scope deleted (R481, R482): their leaves and headers are discarded, the erases of their
spaces begin, and the tables are empty. -/
def dropMirrored (b : Block) : Block :=
  let all := (b.ch.filter fun p => decide (p.1 < 64)).map (·.1)
  let b := all.foldl (fun b c => dropChamber (beginReset b c) c) b
  let b := b.modSump fun s => { s with erasing := s.erasing ++ all.map fun c => (c, b.gidxOf c 0) }
  let b := (List.range 15).foldl
    (fun b k => b.sumpQueue { writes := [], range := some (4096 * (k + 1), 4096), waiter := .nobody }) b
  let b := b.modKeys fun k => { k with sysCache := [], pins := [], handleKeys := [], sysHandleKey := [], auditSeeds := [] }
  { b with chains := [], chisel := { Chisel.reset with cores := b.chisel.cores } }

/-- The pair given up (R498): the claim held is kept, the transport key is deleted, and whatever awaited the standby goes on. -/
def unpair (b : Block) : Block :=
  let g := b.kerard.txGidx
  let b := if g = 0 then b
    else b.sumpQueue { writes := [{ gidx := g, lines := [zeros 64], newClass := none }], range := none, waiter := .nobody }
  let b := kPair b fun k =>
    { k with st := .none, role := .none, refHost := false, peerNode := 0, peerDevice := [], referee := 0, refereeDevice := [], pairId := []
             transport := [], linkKey := [], refKey := [], txGidx := 0, txEpoch := 0, txCount := 0, txMark := 0, egressClosed := false
             released := k.released ++ k.out.flatMap (·.waiters), out := [], resync := [], resyncing := false, early := [], headers := []
             leafOut := [] }
  sysWrite b .nobody

/-- A new system chain as at commissioning (R376 step 4, R498), where Lantern delivers its keys: the device, and the records to commit. -/
def newSystemChain (b : Block) (pq : Bool) : Option (Block × List NewRecord) :=
  match newAuditKeys b 64 pq with
  | .error _ => none
  | .ok ((ed, q, g, g2, writes), b) => some (createChain b .system pq (ed, q, g, g2), writes)

/-- The member without the claim leaves the pair (R498). -/
def leavePair (b : Block) : Block :=
  let pq := (b.chain .system).pq
  let b := unpair (dropMirrored b)
  let b := b.modKeys fun k => { k with sysHandleKey := systemHandleKey b }
  match newSystemChain b pq with
  | some (b, writes) => b.sumpQueue { writes := writes, range := none, waiter := .nobody }
  | none => b

/-- The holder of the claim leaves the pair (R498): DISSOLVE goes to its peer and to a ring referee. -/
def dissolveHeld (b : Block) : Block :=
  let b := kSend b .peer kDissolve b.kerard.pairId true
  let b := if b.kerard.refHost then b else kSend b .referee kDissolve b.kerard.pairId true
  unpair b

/-- DISSOLVE: a verified frame of the pair (R498): a member without the claim leaves, and a referee deletes its entry. -/
def dissolveReceive (b : Block) (p : KPort) (f : Bytes) : Block :=
  kAuth b p f kDissolve fun b e =>
    match e with
    | .peer => if b.kerard.role = .standby ∧ fPayload f = b.kerard.pairId then leavePair b else b
    | .referee => b
    | .member pn _ => b.modKerard fun k => { k with served := Tab.erase k.served pn }

/-- REJOIN: a former member rejoins its recorded pair (R481): it deletes the mirrored scope and sends PAIR_JOIN with REJOIN set. -/
def rejoinBegin (b : Block) : Block :=
  let k := b.kerard
  let may := (b.life == 2 || b.life == 3) && b.sump.st == .ready && b.paired && k.st != .joining && k.role == .standby && k.joinScalar == []
    && (nodeOf b k.peerDevice).isSome
  if !may then b
  else match b.draw 56 with
    | none => b
    | some (s, b) =>
      let b := dropMirrored b
      joinSend (b.modKerard fun k =>
        { k with joinScalar := s, joinRole := .standby, rejoin := true, joinPeer := none, joinRef := none, joinMbx := none
                 headers := [], early := [] })

/-! ### Commands (R365) -/

/-- PAIR_STATUS (R365). -/
def cmdPairStatus (_ : Mbx) (b : Block) (p : Bytes) : Res :=
  if p ≠ [] then no b stFormat
  else
    let k := b.kerard
    let role := if k.role ≠ .none then proleCode k.role else if k.served.isEmpty then 0 else 3
    ok b ([BitVec.ofNat 8 role, BitVec.ofNat 8 (b2n k.refHost)] ++ leBytes 2 k.held ++ leBytes 2 k.claimSeen ++ zeros 2
      ++ fit 8 k.peerDevice ++ leBytes 8 k.lastBeat ++ leBytes 8 k.missPeer)

/-- A system-scope key record of the mirrored scope exists (R477, R482): the chains' audit keys and the transport key are none. -/
def systemKeyExists (b : Block) : Bool :=
  b.sump.ddr.records.any fun p =>
    let line := unsealRecord b p.1 p.2
    decide (4096 ≤ p.1 ∧ p.1 < 65536) && b.sump.ddr.hint.contains p.1 && isKeyHead b p.1 line && recUsage line != ascii "9A"
      && p.1 != b.kerard.txGidx

/-- The first refusal of PAIR_CREATE that the device can see by itself (R477). -/
def pairRefusal (b : Block) (p : Bytes) : Option Nat :=
  let peer := slice p 4 8
  let ref := slice p 12 8
  let refNode := nodeOf b ref
  let refServes : Bool := match refNode with
    | some n => decide (2 ≤ (Tab.get b.kerard.seen Seen.reset n).role)
    | none => true
  if b.setting 2 % 2 = 0 ∨ b.paired then some stObjectState
  else if pb p 1 = 0 ∧ (!refServes ∨ ref = b.device ∨ ref = peer) then some stObjectState
  else if peer = b.device ∨ (pb p 0 = 2 ∧ (anyChamber b ∨ systemKeyExists b)) then some stObjectState
  else if b.kerard.dupId then some stObjectState
  else none

/-- PAIR_CREATE (R365, R477): the handshake begins. -/
def cmdPairCreate (m : Mbx) (b : Block) (p : Bytes) : Res :=
  let host := pb p 1
  if !shaped p 20 [(2, 2)] ∨ pb p 0 = 0 ∨ 2 < pb p 0 ∨ 1 < host ∨ (host = 1 ∧ !allZero (slice p 12 8)) then no b stFormat
  else orElse b (pairRefusal b p) (needSump b (match b.draw 56 with
    | none => no b stRng
    | some (s, b) =>
      let peer := slice p 4 8
      let ref := slice p 12 8
      let b := kPair b fun k =>
        { k with st := .joining, role := .none, joinScalar := s, joinRole := if pb p 0 = 1 then .active else .standby, rejoin := false
                 refHost := host = 1, peerDevice := peer, refereeDevice := ref, referee := (nodeOf b ref).getD 0
                 peerNode := (nodeOf b peer).getD 0, joinMbx := some m, joinRef := none
                 joinPeer := k.joinPeer.filter fun x => x.take 8 == peer }
      .wait (joinTry (joinSend (awaits b m .pair))) []))

/-- PAIR_CREATE once the first claim has been granted: the pair's record is committed (R346). -/
def cmdPairCreate2 (m : Mbx) (b : Block) (_ : Bytes) : Res := .wait (persist b m []) []

/-- A command that answers without payload once its commit is complete. -/
def answerPlain (b : Block) : Res := ok b []

/-- PAIR_DISSOLVE (R365, R498). -/
def cmdPairDissolve (m : Mbx) (b : Block) (p : Bytes) : Res :=
  if p ≠ [] then no b stFormat
  else if !b.paired ∨ b.kerard.st = .joining then no b stObjectState
  else needSump b (
    if b.kerard.role = .active then .wait (persist (dissolveHeld b) m []) []
    else if !b.delivering then no b stRng
    else .wait (persist (leavePair b) m []) [])

/-- CLAIM_GRANT names this device: the claim may be taken (R479, R490). -/
def grantToSelf (k : Kerard) : Bool :=
  if k.st = .joining then k.joinRole == .active && k.joinScalar == [] else k.role == .active || k.st == .inSync

/-- CLAIM_GRANT names the peer (R479, R490): a standby may be named only while it is IN_SYNC, as the active knows it. -/
def grantToPeer (k : Kerard) : Bool :=
  if k.st = .joining then k.joinRole == .standby && k.joinScalar == []
  else if k.role = .active then k.st == .inSync || (k.st == .isolated && k.before == .inSync)
  else true

/-- CLAIM_GRANT (R365, R479, R484, R490, R491). -/
def cmdClaimGrant (m : Mbx) (b : Block) (p : Bytes) : Res :=
  let c := leField p 0 2
  let self : Bool := slice p 8 8 == b.device
  let k := b.kerard
  if !shaped p 16 [(2, 6)] then no b stFormat
  else if !b.paired ∨ !k.refHost ∨ (!self ∧ slice p 8 8 ≠ k.peerDevice) ∨ c ≤ k.claimSeen then no b stObjectState
  else if self then
    if !grantToSelf k then no b stObjectState
    else
      let takes : Bool := k.st == .inSync && k.role == .standby
      let b := gainClaim b c
      let b := if takes then
          match entryCheck b .system with
          | .granted => (takeEntry b .system).modMbx (mbxNo m) fun x => { x with leaf := .entry }
          | _ => b
        else b
      ok b (leBytes 2 b.kerard.held)
  else if !grantToPeer k then no b stObjectState
  else
    let b := joinAnswered (learnClaim b c)
    ok b (leBytes 2 b.kerard.held)

end Sys2Proof.Machine
end

