-- ==== Sys2Proof/Machine/CmdDevice.lean ====
section
/-! DEFINITION. The lifecycle, firmware, tamper, reset and I/O commands of Bimor (R366, R371 to R377, R389, R393, R394, R431, R445, R516,
R548). -/
namespace Sys2Proof.Machine

/-! ### Attestation (R393, R394) -/

/-- Measurement `i` of a content. -/
def measure (i : Nat) (content : Bytes) : Bytes := shake256 (0x07 :: BitVec.ofNat 8 i :: content) 64

/-- The five measurements. -/
def measurements (b : Block) : List Bytes :=
  [ measure 0 b.identity.rom, measure 1 b.identity.running, measure 2 (b.chisel.table.flatMap (recipeEntry b)), measure 3 (decodeImage b)
  , measure 4 (b.bimor.settings ++ b.bimor.pending.getD (zeros 76)) ]

/-- The report before its signature (R393). -/
def attestBody (b : Block) (nonce : Bytes) : Bytes :=
  let ev := b.strata.evidence
  ascii "VWAR" ++ [1, BitVec.ofNat 8 b.life, BitVec.ofNat 8 b.strata.generations.length, BitVec.ofNat 8 b.identity.arb] ++ b.device
    ++ fit 32 nonce ++ leBytes 8 b.now ++ leBytes 4 b.strata.pcc ++ leBytes 4 b.fwver
    ++ [BitVec.ofNat 8 (fwSvn b.identity.running), BitVec.ofNat 8 b.identity.slot] ++ leBytes 2 b.kerard.held
    ++ leBytes 2 b.kerard.claimSeen ++ [BitVec.ofNat 8 (b.nlog2 + 8 * b.setting 2), BitVec.ofNat 8 (sumpStateCode b.sump.st)]
    ++ leBytes 7 b.sump.rootv ++ [0] ++ leBytes 4 ev.length ++ fit 32 (ev.getLast?.getD []) ++ leBytes 2 b.lcount ++ zeros 10
    ++ (measurements b).flatten

/-- ATTEST (R366, R393). -/
def cmdAttest (_ : Mbx) (b : Block) (p : Bytes) : Res :=
  if p.length ≠ 32 then no b stFormat
  else
    let x := attestBody b p
    ok b (x ++ identitySign b "VWATTEST" x)

/-! ### Lifecycle (R370 to R377, R380, R381) -/

/-- The battery is reported low: BATLOW is active (R422). -/
def batteryLow (b : Block) : Bool :=
  let m := b.monitor 16
  m.actA || m.actB || m.st != .idle

/-- A transition that takes an unreserved entry of the lifecycle log (R370). -/
def logHasRoom (b : Block) : Bool := decide (b.lcount < 4092)

/-- A new DRK drawn into BBRAM with its marker (R20). -/
def drawDrk (b : Block) : Option Block :=
  (b.draw 32).map fun (k, b) => { b with bbram := { b.bbram with drk := some k, markerOk := true } }

/-- BLANK to PROVISIONED (R373). -/
def provision (b : Block) : Res :=
  if b.strata.evidenceFull ∨ monitorAlarms b ≠ 0 ∨ batteryLow b ∨ !logHasRoom b then no b stLifecycle
  else match drawDrk b with
    | none => no b stRng
    | some b =>
      let b := setLifecycle (b.modBelay fun y => { y with armed := true }) 1 0
      ok b [BitVec.ofNat 8 b.life, 0, 0, 0]

/-- The parts of a commissioning block (R374): its keys, and its proofs as index, reserved byte and signature. -/
def blockKeys (p : Bytes) : List Bytes := (List.range (pb p 5)).map fun i => slice p (8 + 57 * i) 57

/-- The proofs. -/
def blockProofs (p : Bytes) : List (Nat × Nat × Bytes) :=
  (List.range (pb p 7)).map fun i =>
    let o := 8 + 57 * pb p 5 + 116 * i
    (pb p o, pb p (o + 1), slice p (o + 2) 114)

/-- The syntax of a commissioning block (R374). -/
def blockOk (p : Bytes) : Bool :=
  let k := pb p 4
  let n := pb p 5
  let m := pb p 7
  decide (1 ≤ n ∧ n ≤ 16 ∧ 1 ≤ k ∧ k ≤ n ∧ k ≤ m ∧ m ≤ n ∧ pb p 6 ≤ 1) && p.length == 8 + 57 * n + 116 * m
    && decide (blockKeys p).Nodup && decide ((blockProofs p).map (·.1)).Nodup
    && (blockProofs p).all fun x => decide (x.1 < n) && x.2.1 == 0

/-- The commissioning statement (R375). -/
def commissionStatement (b : Block) (p : Bytes) : Bytes :=
  ascii "VWCM" ++ b.device ++ leBytes 4 b.lcount ++ zeros 4 ++ shake256 (0x08 :: slice p 4 (4 + 57 * pb p 5)) 64

/-- Every proof verifies (R375). -/
def proofsHold (b : Block) (p : Bytes) : Bool :=
  let msg := commissionStatement b p
  (blockProofs p).all fun x => edCheck true false (ascii "VWCOMMISSION") ((blockKeys p).getD x.1 []) msg x.2.2

/-- Commissioning, steps 1 to 4 of R376 up to the commit of the custodian set and the chain's audit keys. -/
def commission (m : Mbx) (b : Block) (p : Bytes) : Res :=
  if b.strata.evidenceFull ∨ !logHasRoom b then no b stLifecycle
  else if !proofsHold b p then no b stAuthFailed
  else if !b.delivering then no b stRng
  else if !b.sump.ddr.trained then no b stSumpUnavailable
  else
    let fresh : Option Block := if b.life = 5 then
        (drawDrk b).map fun b => b.modStrata fun s => { s with creation := [] }
      else some b
    match fresh with
    | none => no b stRng
    | some b =>
      let b := initSump (deriveSumpKeys { b with records := none })
      let b := b.modKeys fun k => { k with sysHandleKey := systemHandleKey b }
      match newAuditKeys b 64 ((pb p 6).testBit 0) with
      | .error s => no b s
      | .ok ((ed, q, g, g2, writes), b) => .wait (persist b m writes) [ed, q, leBytes 8 g, leBytes 8 g2]

/-- Steps 3 to 6 of R376 at that commit. -/
def commission2 (m : Mbx) (b : Block) (p : Bytes) (hold : List Bytes) : Res :=
  let keys := (hold.getD 0 [], hold.getD 1 [], ofLe (hold.getD 2 []), ofLe (hold.getD 3 []))
  let b := b.modBimor fun x => { x with custodians := { k := pb p 4, keys := blockKeys p } }
  let b := setLifecycle (createChain b .system ((pb p 6).testBit 0) keys) 2 0
  let b := seqReserve (b.modBimor fun x => { x with binds := [] }) .system
  .wait (awaits b m .firstEntry) []

/-- Step 7 of R376: the command's leaf is the first of the system chain. -/
def commission3 (m : Mbx) (b : Block) : Res :=
  match entryCheck b .system with
  | .granted =>
    ok ((takeEntry b .system).modMbx (mbxNo m) fun x => { x with leaf := .entry }) [BitVec.ofNat 8 b.life, 0, 0, 0]
  | _ => ok b [BitVec.ofNat 8 b.life, 0, 0, 0]

/-- LIFECYCLE_SET (R366, R371). -/
def cmdLifecycleSet (m : Mbx) (b : Block) (p : Bytes) : Res :=
  let target := pb p 0
  let well : Bool := if target = 2 then decide (8 ≤ p.length) && blockOk p else p.length == 4
  let go (b : Block) : Res := ok b [BitVec.ofNat 8 b.life, 0, 0, 0]
  if !well ∨ !allZero (slice p 1 3) then no b stFormat
  else if b.life = 0 ∧ target = 1 then provision b
  else if (b.life = 1 ∨ b.life = 5) ∧ target = 2 then commission m b p
  else if b.life = 1 ∧ target = 5 then go (setLifecycle (zeroiseWork b) 5 0)
  else if b.life = 2 ∧ target = 3 then (if logHasRoom b then go (setLifecycle b 3 0) else no b stLifecycle)
  else if b.life = 5 ∧ (target = 6 ∨ target = 7) then go (setLifecycle b target 0)
  else no b stLifecycle

/-- The state that the lock left (R380): FROM of the log's last good entry. -/
def lockedFrom (b : Block) : Nat := ((b.strata.lifecycleLog.filter lifecycleEntryOk).getLast?.map fun e => pb e 0).getD 3

/-- The conditions of UNLOCK (R370, R381, R445). -/
def mayUnlock (b : Block) : Bool :=
  b.life == 4 && monitorAlarms b == 0 && monitorFaults b == 0 && !batteryLow b && b.belay.intake.isEmpty && b.belay.responses.isEmpty
    && b.belay.evidence.isEmpty && b.bbram.pending.isEmpty && logHasRoom b && !b.strata.evidenceFull

/-- A chain goes on after a lock (R208, R380): headers that its record holds are still released, and what follows them is a gap. -/
def unlockChain (b : Block) (i : ChainId) : Block :=
  let c := b.chain i
  if !c.present then b
  else
    let kept := c.headers.filter (·.recorded)
    (resumeWithGap b i).modChain i fun c => { c with headers := kept ++ c.headers }

/-- UNLOCK (R366, R380, R445). -/
def cmdUnlock (_ : Mbx) (b : Block) (p : Bytes) : Res :=
  if p ≠ [] then no b stFormat
  else if !mayUnlock b then no b stLifecycle
  else
    let b := setLifecycle b (lockedFrom b) 0
    ok ((chainIds b).foldl unlockChain b) []

/-- ZEROISE (R366, R371, R453): a class Z response by command, its evidence record in place of a leaf. -/
def cmdZeroise (m : Mbx) (b : Block) (p : Bytes) : Res :=
  if !shaped p 4 [(0, 4)] then no b stFormat
  else
    let tag := reqTag (b.mbx (mbxNo m))
    let r : Report :=
      { code := 0x0150, src := mbxNo m, cls := .z, p0 := tag, p1 := 0, p2 := 0, rom := false, overrun := false, quiesce := 64
        detected := b.now }
    ok ((fileReport (zeroise (cancelWakes b fun _ => true) 1) r).modBelay fun y => { y with alarmOut := true }) []

/-! ### Firmware (R366, R389, R544) -/

/-- Bytes that firmware staging holds: a header and the longest body. -/
def fwLimit : Nat := 256 + 2097152

/-- FW_STAGE (R366). -/
def cmdFwStage (_ : Mbx) (b : Block) (p : Bytes) : Res :=
  let off := leField p 0 4
  let d := p.drop 8
  if p.length < 9 ∨ !allZero (slice p 4 4) then no b stFormat
  else if fwLimit < off + d.length then no b stNoRoom
  else ok (b.modBimor fun x => { x with fwStage := x.fwStage.writeBytes off d, fwStaged := max x.fwStaged (off + d.length) }) []

/-- FW_COMMIT (R366, R389, R544). -/
def cmdFwCommit (_ : Mbx) (b : Block) (p : Bytes) : Res :=
  let n := leField p 0 4
  if !shaped p 72 [(4, 4)] ∨ n < 257 ∨ b.bimor.fwStaged < n then no b stFormat
  else
    let x := b.bimor.fwStage.readBytes 0 n
    let slot : FwSlot := { header := x.take 256, body := x.drop 256 }
    if shake256 x 64 ≠ slice p 8 64 then no b stFormat
    else if (imageFailure b slot.header slot.body).isSome ∨ fwLen slot.header ≠ n - 256 then no b stAuthFailed
    else
      let id := b.identity
      ok { b with identity := if id.slot = 0 then { id with slotB := slot } else { id with slotA := slot } } []

/-! ### Tamper settings and reset (R431, R516) -/

/-- TAMPER_SET (R431). -/
def cmdTamperSet (_ : Mbx) (b : Block) (p : Bytes) : Res :=
  if !shaped p 4 [(3, 1)] then no b stFormat
  else match monitorBounds b (pb p 0) with
    | none => no b stFormat
    | some (mn, mx, wn, wx) =>
      if pb p 1 < mn ∨ mx < pb p 1 ∨ pb p 2 < wn ∨ wx < pb p 2 then no b stFormat else ok (monitorSet b (pb p 0) (pb p 1) (pb p 2)) []

/-- DEVICE_RESET (R516). -/
def cmdDeviceReset (_ : Mbx) (b : Block) (p : Bytes) : Res := if shaped p 4 [(0, 4)] then ok b [] else no b stFormat

/-! ### I/O (R548) -/

/-- An IO_CONFIG payload is permitted. -/
def ioOk (p : Bytes) : Bool :=
  let fn (n : Nat) : Nat := pb p n % 16
  shaped p 16 [(10, 6)] && (List.range 8).all (fun n => decide (fn n ≤ 5 ∧ pb p n < 64))
    && [8, 9].all (fun n => decide (pb p n % 16 ≤ 4 ∧ pb p n / 16 < 3)) && decide (((List.range 8).filter fun n => fn n == 3).length ≤ 1)

/-- IO_CONFIG (R548): the configuration is kept as a system record. -/
def cmdIoConfig (m : Mbx) (b : Block) (p : Bytes) : Res :=
  if ioOk p then needSump b (.wait (persist b m []) []) else no b stFormat

/-- IO_CONFIG at its commit. -/
def cmdIoConfig2 (_ : Mbx) (b : Block) (p : Bytes) : Res := ok (applyIo b p) []

/-- The level that a GPIO pin drives, as an output, SMBALERT_N or ALARM (R548); false where it drives none. -/
def gpioLevel (b : Block) (n : Nat) : Bool :=
  let v := Tab.get b.io.gpio 0 n
  let f := v % 16
  if f = 1 then bit v 5
  else if f = 4 then !(b.mbx 5).done
  else if f = 5 then b.belay.alarmOut != bit v 4
  else false

/-- What an LED shows (R551). -/
inductive LedLook where
  | off
  | on
  | blinking (hz : Nat)
  deriving DecidableEq, Repr

/-- What LED `n` shows, by its mode (R551). -/
def ledLook (b : Block) (n : Nat) : LedLook :=
  match Tab.get b.io.led 0 n % 16 with
  | 1 => .on
  | 2 => .blinking 1
  | 3 => if b.pmc.ready && b.life == 3 then .on else if b.life = 4 then .blinking 4 else .off
  | 4 => if b.pmc.st = 0 then .on else .off
  | _ => .off

/-- IO_STATUS (R548, R550): the suppressed wakes are those since the last one. -/
def cmdIoStatus (_ : Mbx) (b : Block) (p : Bytes) : Res :=
  if p ≠ [] then no b stFormat
  else
    let out := (List.range 8).foldl (fun a n => if gpioLevel b n then a + 2 ^ n else a) 0
    ok { b with io := { b.io with suppressed := 0 } }
      [BitVec.ofNat 8 b.io.inputs.toNat, BitVec.ofNat 8 out, BitVec.ofNat 8 b.io.suppressed.toNat, 0]

end Sys2Proof.Machine
end

