-- ==== Sys2Proof/Machine/Settle.lean ====
section
/-! DEFINITION. What goes on by itself once something it waited for has come about: commands of the mailboxes (R345, R346), leaves without an
entry (R198), header signatures without room at Gallery (R157), and waiters of mirrored commits (R488). -/
namespace Sys2Proof.Machine

/-- The commands marked P of class O and C (R345 step 5), as a standby runs them once its leaf has been acknowledged (R484). -/
def standbyRun (code : Nat) : Mbx → Block → Bytes → Res :=
  if code = 0x0003 then cmdAuthSubmit
  else if code = 0x0004 then cmdAuthCancel
  else if code = 0x0702 then cmdPairDissolve
  else if code = 0x0703 then cmdClaimGrant
  else cmdDeviceReset

/-- The further stages of the chamber and queue commands; nothing for another code. -/
def continueChamber (m : Mbx) (b : Block) (code cont : Nat) (p : Bytes) (hold : List Bytes) : Option Res :=
  if code = 0x0100 then some (cmdChamberCreate2 m b p hold)
  else if code = 0x0101 then some (if cont = 1 then cmdChamberDelete2 m b p else cmdChamberDelete3 m b p)
  else if code = 0x0102 then some (cmdChamberQuiesce2 m b p hold)
  else if code = 0x0104 then some (cmdChamberConfig2 m b p)
  else if code = 0x0105 then some (cmdChamberPinpol2 m b p)
  else if code = 0x0106 then some (cmdDectabLoad2 m b p)
  else if code = 0x0110 then some (cmdCqCreate2 m b p)
  else if code = 0x0111 then some (cmdSqCreate2 m b p)
  else if code = 0x0112 then some (if cont = 1 then cmdQueueDelete2 m b p else cmdQueueDelete3 m b p)
  else none

/-- The further stages of the key, audit, recipe and decode-table commands. -/
def continueKeys (m : Mbx) (b : Block) (code : Nat) (p : Bytes) (hold : List Bytes) : Option Res :=
  if code = 0x0201 ∨ code = 0x0202 ∨ code = 0x0303 then some (answerHeld b hold)
  else if code = 0x0207 then some (cmdKeyPin m b p)
  else if code = 0x0208 then some (cmdCustodianSet2 m b p)
  else if code = 0x0300 then some (cmdAuditRingCreate2 m b p)
  else if code = 0x0301 then some (cmdAuditRingDelete2 m b p)
  else if code = 0x0401 then some (cmdRecipeLoad2 m b p hold)
  else if code = 0x0402 then some (cmdRecipeMask2 m b p)
  else if code = 0x0403 then some (cmdRecipeDelete2 m b p)
  else if code = 0x0410 then some (cmdDecodeLoad2 m b p)
  else if code = 0x0411 then some (cmdDecodeMask2 m b p)
  else none

/-- The further stages of the other commands. Those not named answer without payload. -/
def continueDevice (m : Mbx) (b : Block) (code cont : Nat) (p : Bytes) (hold : List Bytes) : Res :=
  if code = 0x0511 then cmdSumpSave2 m b p
  else if code = 0x0513 then ok (initSump b) []
  else if code = 0x0701 ∧ cont = 1 then cmdPairCreate2 m b p
  else if code = 0x0801 then (if cont = 1 then commission2 m b p hold else commission3 m b)
  else if code = 0x0900 then cmdIoConfig2 m b p
  else answerPlain b

/-- The next stage of a mailbox's command. -/
def continueCommand (b : Block) (m : Mbx) : Block :=
  let x := b.mbx (mbxNo m)
  let code := mbxCode x
  let p := reqPayload x
  let b := b.modMbx (mbxNo m) fun x => { x with await := .nothing }
  if x.cont = 0 then
    match cmdRow code with
    | some r => execCommand b m r (standbyRun code m)
    | none => b
  else
    let r := (continueChamber m b code x.cont p x.hold).getD
      ((continueKeys m b code p x.hold).getD (continueDevice m b code x.cont p x.hold))
    settleRes m 0xFE r

/-- What a command that has failed while it waited leaves behind: a queue whose deletion has failed is served again (R357). -/
def undoCommand (b : Block) (x : Mailbox) : Block :=
  let p := reqPayload x
  if mbxCode x = 0x0112 ∧ pb p 1 = 0 then b.modSq (pb p 0) (pb p 2) fun s => { s with stopping := false } else b

/-- A mailbox's command goes on where it may. -/
def settleMailbox (b : Block) (m : Mbx) : Block :=
  let x := b.mbx (mbxNo m)
  if !mayGoOn b (mbxNo m) then b
  else match x.failed with
    | some s => finishCommand (undoCommand b x) m s 0 [] 0xFE
    | none => continueCommand b m


/-- Whatever may go on goes on. -/
def settle (b : Block) : Block :=
  let b := drainReleased b
  let b := (b.chuck.items.filter fun p => p.2.leaf == .wanted).foldl (fun b p => closeLeaf b p.1) b
  let b := (chainIds b).foldl (fun b i => mirrorHeaders (pumpHeaders b i) i) b
  allMbx.foldl settleMailbox b

/-- Whose leaf has been accepted hears of its number (R77, R277, R346, R484). -/
def leafTaken (b : Block) (s : LeafSrc) (seq : Nat) : Block :=
  match s with
  | .item n => b.modItem n fun i => { i with leaf := .accepted seq }
  | .step k t => b.modTicket k t fun x => { x with leaf := .accepted seq }
  | .mailbox m => b.modMbx (mbxNo m) fun x => { x with leaf := .accepted seq, phase := if x.phase = .leaf then .respond else x.phase }
  | .remote _ => leafAckSend b seq stOk

/-- LEAF_ACCEPT with those who waited for it told (R197, R199). -/
def acceptLeaf (b : Block) (i : ChainId) : Block :=
  match leafAccept b i with
  | (b, some (s, n)) => leafTaken b s n
  | (b, none) => b

/-- The sequence reservation that a chain is due, asked for (R197). -/
def reserveSeqs (b : Block) (i : ChainId) : Block := settle (seqReserve b i)

end Sys2Proof.Machine
end

