-- ==== Sys2Proof/Machine/ResetFlow.lean ====
section
/-! DEFINITION. The course of the resets: what stops work, how a warm reset begins and ends, PERST_N, the function-level resets, and DORMANT's
and the ladder's exits through them (R222, R333, R340, R514 to R518, R532). -/
namespace Sys2Proof.Machine

/-! ### Warm resets -/

/-- A mailbox whose command a device reset ends (R340): one whose commit has started goes on to the commit's end. -/
def endMailbox (b : Block) (i : Nat) : Block :=
  if commitStarted b i ∧ (b.mbx i).phase = .waiting then b else b.modMbx i fun _ => Mailbox.reset

/-- The work of the device ends: no item, engine or core goes on, no queued write starts, the bypass closes, and what awaits only the standby is
over (R340, R469, R514). -/
def stopWork (b : Block) : Block :=
  let b := { b with chuck := { b.chuck with items := [], take := [] }, spindle := Spindle.reset, auger := Auger.reset
                    gallery := Gallery.reset, chisel := { b.chisel with cores := [] } }
  let b := (List.range 6).foldl endMailbox b
  let b := bypassClose (b.modSump fun s => { s with queue := [] })
  settle (b.modKerard fun k => { k with released := k.released ++ k.out.flatMap (·.waiters), out := [] })

/-- A warm reset begins (R514): the device stops, and resets at once unless a commit is in progress (R222). -/
def warmBegin (b : Block) (cause : Nat) : Block :=
  let b := stopWork (cancelWakes b fun _ => true)
  let b := b.modPmc fun p => { p with warm := some cause, ready := false, resetScheduled := false, resetDue := false }
  if b.sump.commit.isNone then deviceReset b false else b

/-- A pin's filter passes a level held for so many samples of 8 MHz (R515, R549): four in a row. -/
def pinPasses (samples : Nat) : Bool := decide (4 ≤ samples)

/-- A reset pin holds a level for so many samples (R515): four or more take effect, and a shorter pulse is ignored and counts at both detectors of
RSTGLITCH (R422). -/
def resetPin (b : Block) (samples : Nat) (f : Block → Block) : Block :=
  if pinPasses samples then f b
  else if samples = 0 then b
  else detectorEvent (detectorEvent b 17 false .pulse) 17 true .pulse

/-- SYS_RST_N_ASSERT: a filtered falling edge of SYS_RST_N (R514, R515): it waits for responses of Belay that are due, and a warm reset that
runs absorbs it. -/
def sysRstAssert (b : Block) : Block :=
  if !b.pmc.powerGood then b
  else
    let b := b.modPmc fun p => { p with sysRst := true }
    if b.pmc.warm.isSome ∨ b.belay.responses ≠ [] then b else warmBegin b 1

/-- The last response of Belay is over: a reset that waited for it begins (R517). -/
def afterResponse (b : Block) : Block :=
  if b.pmc.warm.isSome ∨ b.belay.responses ≠ [] then b
  else if b.pmc.sysRst then warmBegin b 1
  else if b.pmc.resetDue then warmBegin b 2 else b

/-- DEVICE_RESET_TIMER: 10 us after DONE of DEVICE_RESET a warm reset begins (R516), after a response of Belay that is due, and not while SYS_RST_N is
asserted (R517). -/
def deviceResetTimer (b : Block) : Block :=
  if !b.running ∨ !b.pmc.resetScheduled then b
  else
    let b := b.modPmc fun p => { p with resetScheduled := false }
    if b.pmc.sysRst then b
    else if b.belay.responses = [] then warmBegin b 2 else b.modPmc fun p => { p with resetDue := true }

/-- WARM_RESET_RELEASE: the reset is released and boot begins (R390, R515). -/
def warmRelease (b : Block) : Block :=
  match b.pmc.warm with
  | none => b
  | some c =>
    if b.sump.commit.isSome then b
    else (deviceReset b false).modPmc fun p => { p with sysRst := false, warm := none, cause := c, reference := b.now }

/-! ### Resets of the PCI domain and of functions -/

/-- A mailbox's registers reset (R337, R340): a command that runs goes on and its response will be discarded. BUSY stays while it runs or READY
is clear. -/
def mbxReset (b : Block) (i : Nat) : Block :=
  b.modMbx i fun x =>
    if x.phase = .idle then { Mailbox.reset with busy := !b.pmc.ready }
    else { x with req := [], rsp := [], busy := true, done := false, vmaj := 0, vmin := 0, irqEn := false, vector := 0, err := 0, discard := true }

/-- The registers of the mailboxes in PCIe space reset. -/
def mbxResets (b : Block) : Block := (List.range 5).foldl mbxReset b

/-- Every chamber reset (R333). -/
def resetChambers (b : Block) : Block := ((b.ch.filter fun p => decide (p.1 < 64)).map (·.1)).foldl beginReset b

/-- Function `fn`'s configuration space reset. -/
def resetFunction (b : Block) (fn : Nat) : Block :=
  { b with pcie := { b.pcie with
      bme := Tab.erase b.pcie.bme fn, msixEn := Tab.erase b.pcie.msixEn fn, table := b.pcie.table.filter fun v => v.1 / 64 != fn
      unmasked := b.pcie.unmasked.filter fun v => v / 64 != fn
      pendingMsix := b.pcie.pendingMsix.filter fun v => v / 64 != fn } }

/-- VF Enable cleared: the VFs are gone and every chamber is reset (R333). -/
def dropVfs (b : Block) : Block :=
  let b := ((b.pcie.bme ++ b.pcie.msixEn).map (·.1)).foldl (fun b fn => if fn = 0 then b else resetFunction b fn) b
  let b := { b with pcie := { b.pcie with
      vfEnable := false, table := b.pcie.table.filter (·.1 < 64), unmasked := b.pcie.unmasked.filter (· < 64), pendingMsix := b.pcie.pendingMsix.filter (· < 64) } }
  resetChambers b

/-- What PERST_N, a hot reset or DL_Down resets (R337, R395, R510, R514, R532): PCI's configuration space, the chambers, the mailboxes. -/
def portReset (b : Block) : Block :=
  let b := mbxResets (dropVfs b)
  cancelWakes { b with pcie := Pcie.reset, spdm := { b.spdm with answer := none } } fun d => d == 20

/-- A reset of the PCI domain, after the commit in progress (R222). -/
def portResetDue (b : Block) : Block :=
  if b.sump.commit.isSome then b.modPmc fun p => { p with perstDue := true } else portReset b

/-- PERST_N_ASSERT (R514). -/
def perstAssert (b : Block) : Block :=
  let b := b.modPmc fun p => { p with perstN := true, perst := true }
  if b.running then settle (portResetDue b) else b

/-- PERST_N_RELEASE (R504, R518): link training begins; in Dormant it wakes the device. -/
def perstRelease (b : Block) : Block :=
  if !b.pmc.perstN then b
  else
    let b := b.modPmc fun p => { p with perstN := false }
    if b.running ∧ b.pmc.st = 4 then ladderExit b else b

/-- DL_DOWN: a hot reset or DL_Down has the effect of PERST_N (R532). -/
def dlDown (b : Block) : Block := if b.hostOn then settle (portResetDue b) else b

/-- PF_FLR: VF Enable is cleared and the mailbox registers are reset (R514). -/
def pfFlr (b : Block) : Block := if b.hostOn then settle (mbxResets (dropVfs b)) else b

/-- VF_ENABLE_CLEAR (R333). -/
def vfEnableClear (b : Block) : Block := if b.hostOn ∧ b.pcie.vfEnable then settle (dropVfs b) else b

/-- VF_FLR: a chamber reset begins (R333). -/
def vfFlr (b : Block) (c : Nat) : Block := if b.hostOn ∧ b.pcie.vfEnable then settle (beginReset (resetFunction b (c + 1)) c) else b

/-! ### Commits and the resets that wait for them -/

/-- A commit is over: the resets that waited for it go on (R222). -/
def afterCommit (b : Block) : Block :=
  if b.sump.commit.isSome then b
  else
    let b := if b.pmc.perstDue then portReset (b.modPmc fun p => { p with perstDue := false }) else b
    if b.pmc.warm.isSome then deviceReset b false else b

/-- SUMP_COMMIT: no commit starts in a reset (R222). -/
def startCommit (b : Block) (ret : DdrReturn) : Block := if b.running ∧ !b.pmc.perstDue then settle (commitStart b ret) else b

/-- SUMP_HEAD_WRITE: it goes on in a reset that waits for it (R222). -/
def endCommit (b : Block) : Block := if b.pmc.powerGood then afterCommit (settle (headWrite b)) else b

/-- The host can release journal entries (R221, R222): also while a warm reset waits for it. -/
def Block.jheadOn (b : Block) : Bool := b.hostOn || (b.pmc.powerGood && b.pmc.warm.isSome && b.sump.commit.isSome && !b.pmc.perstN)

/-- SYNC_RELEASE_TIMEOUT, in a warm reset (R222). -/
def releaseTimeout (b : Block) : Block := if b.pmc.powerGood ∧ b.pmc.warm.isSome then syncTimeout b else b

/-! ### Power -/

/-- MAIN_POWER_LOSS: what a commit has made permanent and nothing but the standby's answer awaited takes effect before the arrays go (R222,
R555). -/
def powerLoss (b : Block) : Block := if b.pmc.powerGood then mainPowerLoss (stopWork b) else b

end Sys2Proof.Machine
end

