-- ==== Sys2Proof/Machine/RegOps.lean ====
section
/-! DEFINITION. The host's accesses to the register windows: who reaches which block (R327, R328, R535, R536) and what a write to each register
does (R4), in the PF window, the VF windows and the configuration the manual names. -/
namespace Sys2Proof.Machine

/-! ### The PF window (R327, R328, R535) -/

/-- A block of the PF window. -/
inductive PfBlock where
  | mbx
  | chk
  | tly
  | pmc
  | bly
  | krd
  | smp
  | lan
  | flw
  | slc (k : Nat)
  | reserved
  deriving DecidableEq, Repr

/-- The block an offset lies in. -/
def regionOf (off : Nat) : PfBlock :=
  match off / 65536 with
  | 0 => .mbx
  | 1 => .chk
  | 2 => .tly
  | 3 => .pmc
  | 4 => .bly
  | 5 => .krd
  | 6 => .smp
  | 7 => .lan
  | 8 => .flw
  | 16 => .slc 0
  | 17 => .slc 1
  | 18 => .slc 2
  | 19 => .slc 3
  | _ => .reserved

/-- Who makes a request: the PF, a slice, or nobody the device knows (R327, R328). -/
inductive Asker where
  | pf
  | slc (k : Nat)
  | unknown
  deriving DecidableEq, Repr

/-- The maker of a request by its PASID (R328). -/
def askerOf (b : Block) : Option Nat → Asker
  | none => .pf
  | some p => match b.bimor.binds.find? fun x => x.2 == p with
    | some x => .slc x.1
    | none => .unknown

/-- The table of R328, slices 0 to 3 being Security Officer, Audit, Ceremony and Operator. -/
def admits : Asker → PfBlock → Bool
  | .unknown, _ => false
  | .pf, .slc _ => false
  | .pf, _ => true
  | .slc k, .chk => k == 0 || k == 3
  | .slc k, .tly => k == 1
  | .slc k, .pmc => k == 3
  | .slc k, .bly => k == 0 || k == 1
  | .slc k, .krd => k == 3
  | .slc k, .smp => k == 0
  | .slc k, .flw => k == 1
  | .slc k, .slc j => k == j
  | .slc _, _ => false

/-- A request rejected (R328): logged through AER on the PF; a read receives an Unsupported Request completion. -/
def pfReject (b : Block) (read : Bool) : Block :=
  let b := b.aer 0 "Unsupported Request" false
  if read then b.emit .unsupportedRead else b

/-- A request to a block of the PF window carried out, rejected, or without a device to receive it. -/
def pfRequest (b : Block) (pasid : Option Nat) (r : PfBlock) (read : Bool) (f : Block → Block) : Block :=
  if !b.hostOn then b else if admits (askerOf b pasid) r then f b else pfReject b read

/-- The VF window of a chamber answers: VF Enable is set, the chamber is one of N and no reset of it runs (R320, R333). -/
def Block.vfOn (b : Block) (c : Nat) : Bool := b.hostOn && b.pcie.vfEnable && decide (c < b.n) && !(b.chamber c).resetting

/-- A request to a VF window. -/
def vfRequest (b : Block) (c : Nat) (f : Block → Block) : Block := if b.vfOn c then f b else b

/-! ### Writes to the blocks -/

/-- The access of a write's size to a 32-bit register at an offset. -/
def accessOf (off : Nat) : WSize → Access
  | .word => if off % 4 = 0 then .word else .other
  | _ => .other

/-- W1C bits of an error register. -/
def clearBits (err : BitVec 32) (v : Nat) : BitVec 32 := err &&& ~~~ BitVec.ofNat 32 v

/-- A write to a mailbox's block (R336, R337). -/
def mbxWrite (b : Block) (m : Mbx) (off : Nat) (size : WSize) (v : BitVec 64) : Block :=
  let i := mbxNo m
  let fail (k : Nat) : Block := b.modMbx i fun x => { x with err := x.err ||| BitVec.ofNat 32 k }
  let w := v.toNat % 2 ^ 32
  let wide : Bool := size == .dword && off % 8 == 0
  if off < 0x1000 then
    if size ≠ .dword ∧ accessOf off size = .other ∨ (size = .dword ∧ !wide) then fail 4
    else if (b.mbx i).busy then fail 2
    else b.modMbx i fun x => { x with req := x.req.writeBytes off (leBytes (if wide then 8 else 4) v.toNat) }
  else if off < 0x2000 then
    if size ≠ .dword ∧ accessOf off size = .other ∨ (size = .dword ∧ !wide) then fail 4 else fail 8
  else if 0x2010 ≤ off then b
  else if accessOf off size = .other then fail 4
  else if off = 0x2000 then (if w.testBit 0 then mbxGo b m else b)
  else if off = 0x2004 then b.modMbx i fun x => { x with done := x.done && !w.testBit 1 }
  else if off = 0x2008 then b.modMbx i fun x => { x with irqEn := w.testBit 0, vector := bits w 6 1 }
  else b.modMbx i fun x => { x with err := clearBits x.err w }

/-- A write to the CHK block (R254). -/
def chkWrite (b : Block) (off : Nat) (a : Access) (v : Nat) : Block :=
  if a = .other then b.modChuck fun x => { x with err := x.err ||| 1 }
  else if off = 4 then
    let s := bits v 3 0
    let w := bits v 7 4
    b.modChuck fun x =>
      { x with ewmaShift := if 1 ≤ s ∧ s ≤ 8 then s else x.ewmaShift, busyWin := if w ≤ 8 then w else x.busyWin }
  else if off = 8 then chkClrmax b a v
  else if off = 12 then b.modChuck fun x => { x with err := clearBits x.err v }
  else b

/-- A write to the TLY block (R529). -/
def tlyWrite (b : Block) (off : Nat) (a : Access) (v : Nat) : Block :=
  if a = .other then tlySize b
  else if off = 0x3200 then { b with counters := { b.counters with tlyErr := clearBits b.counters.tlyErr v } }
  else b

/-- A write to the PMC block (R519). -/
def pmcWrite (b : Block) (off : Nat) (a : Access) (v : Nat) : Block :=
  if a = .other then b.modPmc fun p => { p with err := p.err ||| 1 }
  else if off = 0 then b.modPmc fun p => { p with perst := p.perst && !v.testBit 8 }
  else if off = 4 then pmcCfg b (BitVec.ofNat 32 v)
  else if off = 0x14 then b.modPmc fun p => { p with keep := BitVec.ofNat 24 v &&& 0x03FFFC }
  else if off = 0x18 then b.modPmc fun p => { p with err := clearBits p.err v }
  else if 0x20 ≤ off ∧ off < 0x30 then pmcRail b ((off - 0x20) / 4) a (BitVec.ofNat 32 v)
  else b

/-- A write to the BLY block (R421, R446). -/
def blyWrite (b : Block) (off : Nat) (a : Access) (v : Nat) : Block :=
  if a = .other then b.modBelay fun y => { y with err := y.err ||| 1 }
  else if off = 0x100C then b.modBelay fun y => { y with err := clearBits y.err v }
  else b

/-- KRD_HOSTBEAT: a write of 1 is one host referee beat (R490, R499). -/
def krdHostbeat (b : Block) (a : Access) (v : Nat) : Block :=
  if a = .other then b.modKerard fun k => { k with err := k.err ||| 1 } else if v.testBit 0 then hostBeat b else b

/-- A write to the KRD block (R499). -/
def krdWrite (b : Block) (off : Nat) (a : Access) (v : Nat) : Block :=
  if a = .other then b.modKerard fun k => { k with err := k.err ||| 1 }
  else if off = 0x20 then
    let t := bits v 14 8
    let good : Bool := decide (1 ≤ t ∧ t ≤ 100)
    b.modKerard fun k =>
      { k with gen1 := v.testBit 0, vecEn := v.testBit 1, vector := bits v 7 2, hostTimeout := if good then t else k.hostTimeout
               err := if good then k.err else k.err ||| 2 }
  else if off = 0x24 then krdHostbeat b a v
  else if off = 0x28 then b.modKerard fun k => { k with err := clearBits k.err v }
  else b

/-- A write to the SMP block (R234). -/
def smpWrite (b : Block) (off : Nat) (a : Access) (v : Nat) : Block :=
  if a = .other then b.modSump fun s => { s with err := s.err ||| 1 }
  else if off = 0x14 then smpJhead b a v
  else if off = 0x20 then b.modSump fun s => { s with err := clearBits s.err v }
  else b

/-- A write to the LAN block (R406). -/
def lanWrite (b : Block) (off : Nat) (a : Access) (v : Nat) : Block :=
  if a = .other then b.modLantern fun l => { l with sizeErr := l.sizeErr ||| 1 }
  else if off = 0 then b.modLanPort lanPortPf fun p => { p with err := p.err && !v.testBit 1 }
  else if off = 12 then b.modLantern fun l => { l with sizeErr := clearBits l.sizeErr v }
  else b

/-- A write to a chain's ring registers at an offset of its block (R207). -/
def ringRegWrite (b : Block) (i : ChainId) (off : Nat) (a : Access) (v : Nat) : Block :=
  if a = .other then modRing b i fun r => { r with err := r.err ||| 2 }
  else if off = 0 then ringHead b i false a v
  else if off = 8 then ringHead b i true a v
  else if off = 0x18 then modRing b i fun r => { r with err := clearBits r.err v }
  else b

/-- A write to the PF window, its requester admitted (R535, R536). -/
def pfWrite (b : Block) (off : Nat) (size : WSize) (v : BitVec 64) : Block :=
  let o := off % 65536
  let a := accessOf o size
  let w := v.toNat % 2 ^ 32
  match regionOf off with
  | .mbx => mbxWrite b .pf o size v
  | .chk => chkWrite b o a w
  | .tly => tlyWrite b o a w
  | .pmc => pmcWrite b o a w
  | .bly => blyWrite b o a w
  | .krd => krdWrite b o a w
  | .smp => smpWrite b o a w
  | .lan => lanWrite b o a w
  | .flw => if o < 0x1C then ringRegWrite b .system o a w else b
  | .slc k => mbxWrite b ([Mbx.so, .au, .ce, .op].getD k .op) o size v
  | .reserved => b

/-- A write to a VF window (R56, R320, R330, R406, R528, R536). -/
def vfWrite (b : Block) (c off : Nat) (size : WSize) (v : BitVec 64) : Block :=
  let a := accessOf off size
  let w := v.toNat % 2 ^ 32
  if 0x4000 ≤ off then b
  else if 0x3000 ≤ off then (if off < 0x301C then ringRegWrite b (.chamber c) (off - 0x3000) a w else b)
  else if a = .other then queueError b c 2
  else if off < 0x20 then sqDoorbell b c (off / 4) a w
  else if 0x80 ≤ off ∧ off < 0xA0 then cqDoorbell b c ((off - 0x80) / 4) a w
  else if off = 0x184 then b.modCh c fun h => { h with qerr := clearBits h.qerr w }
  else if off = 0x1164 then vfcClrmax b c a w
  else if 0x1200 ≤ off ∧ off < 0x1240 then vfeCfg b c ((off - 0x1200) / 4) a w
  else if off = 0x2000 then b.modLanPort (lanPortVf c) fun p => { p with err := p.err && !w.testBit 1 }
  else b

/-- The vectors of a function (R537). -/
def vectorsOf (fn : Nat) : Nat := if fn = 0 then 64 else 8

/-- A function exists for the host: the PF, or a VF while VF Enable is set. -/
def functionOn (b : Block) (fn : Nat) : Bool := b.hostOn && (fn == 0 || (b.pcie.vfEnable && decide (fn ≤ b.n)))

end Sys2Proof.Machine
end

