-- ==== Sys2Proof/Machine/RegRead.lean ====
section
/-! DEFINITION. What the host reads in the register windows (R4, R5): the value of each register by its fields, zero in a reserved field or range and
in a field that is only written, and the reads that latch or consume. The table has no row for a plain read, so a read is an operand of the
row that carries the host's accesses without a row of their own (log entry 18). -/
namespace Sys2Proof.Machine

/-! ### Mailboxes (R337) -/

/-- `MBX_STATUS`. -/
def mbxStatus (b : Block) (x : Mailbox) : Nat :=
  b2n x.busy + 2 * b2n x.done + 4 * b2n b.pmc.ready + 2 ^ 8 * (x.vmaj % 16) + 2 ^ 12 * (x.vmin % 16)

/-- A register of a mailbox's block. -/
def mbxReg (b : Block) (i off : Nat) : Nat :=
  let x := b.mbx i
  if off = 0x2004 then mbxStatus b x
  else if off = 0x2008 then b2n x.irqEn + 2 * (x.vector % 64)
  else if off = 0x200C then x.err.toNat
  else 0

/-- A read of a mailbox's block: the buffers by 32 or 64 bits, the registers by 32. A read of any other size or alignment is dropped, and returns
zero. -/
def mbxRead (b : Block) (m : Mbx) (off : Nat) (size : WSize) : Block :=
  let i := mbxNo m
  let n := if size = .dword then 8 else 4
  let x := b.mbx i
  if size = .other ∨ off % n ≠ 0 ∨ (size = .dword ∧ 0x2000 ≤ off) then (b.modMbx i fun x => { x with err := x.err ||| 4 }).answer 0
  else if off < 0x1000 then b.answer (ofLe (Memory.readBytes x.req off n))
  else if off < 0x2000 then b.answer (ofLe (Memory.readBytes x.rsp (off - 0x1000) n))
  else b.answer (mbxReg b i off)

/-! ### Chuck (R253 to R255) -/

/-- The domains that `CHK_STATUS` shows, bit by bit. -/
def chkDomains : List Nat := [15, 16, 10, 11, 12, 13, 14, 17, 2, 3, 4, 5, 6, 7, 8, 9]

/-- Bits of a list of flags, the first lowest. -/
def flagBits (l : List Bool) : Nat := l.foldr (fun x n => b2n x + 2 * n) 0

/-- `CHK_STATUS`. -/
def chkStatus (b : Block) : Nat :=
  flagBits (chkDomains.map fun d => b.pmc.on.getLsbD d) + 2 ^ 16 * flagBits (chkDomains.map fun d => b.pmc.warming.getLsbD d)

/-- The reasons of `CHK_HELD<r>`, by number. -/
def heldReasons : List Hold := [.fence, .miss, .counter, .leaf, .power, .full]

/-- `CHK_HELD<r>`. -/
def chkHeld (b : Block) (r : Nat) : Nat :=
  match heldReasons[r]? with
  | some h => (b.chuck.items.filter fun p => p.2.st == .held h).length
  | none => 0

/-- `CHK_CINFO<c>`: items in flight, whole units of fetch credit, and the borrow flag. -/
def chkCinfo (b : Block) (c : Nat) : Nat :=
  (b.itemsOf c).length + 2 ^ 17 * ((b.chamber c).credit / b.n) + 2 ^ 30 * b2n (b.chamber c).borrow

/-- `CHK_GDEPTH<i>`. -/
def chkGdepth (b : Block) (c g : Nat) : Nat :=
  let mine := (b.itemsOf c).filter fun p => p.2.group == g
  let held (i : Item) : Bool := match i.st with
    | .held _ => true
    | _ => false
  (mine.filter fun p => p.2.st == .ready).length % 65536 + 2 ^ 16 * ((mine.filter fun p => held p.2).length % 65536)

/-- `CHK_GWMAX<i>`. -/
def chkGwmax (b : Block) (c g : Nat) : Nat := (b.group c g).wmax

/-- `CHK_GWAVG<i>`: whole nanoseconds of a mean kept to 1/256 ns (R253). -/
def chkGwavg (b : Block) (c g : Nat) : Nat := (b.group c g).wavg / 256

/-- `CHK_GWT<i>`. -/
def chkGwt (b : Block) (c g : Nat) : Nat := (b.group c g).weight % 256 + 2 ^ 8 * ((b.group c g).deficit % 1024)

/-- A register of the CHK block (R254). -/
def chkReg (b : Block) (off : Nat) : Nat :=
  let i := off % 4096 / 4
  if off = 0 then chkStatus b
  else if off = 4 then b.chuck.ewmaShift + 2 ^ 4 * b.chuck.busyWin
  else if off = 12 then b.chuck.err.toNat
  else if 0x20 ≤ off ∧ off < 0x38 then chkHeld b ((off - 0x20) / 4)
  else if 0x1000 ≤ off ∧ off < 0x1100 then chkCinfo b i
  else if 0x2000 ≤ off ∧ off < 0x2800 then chkGdepth b (i / 8) (i % 8)
  else if 0x3000 ≤ off ∧ off < 0x3800 then chkGwmax b (i / 8) (i % 8)
  else if 0x4000 ≤ off ∧ off < 0x4800 then chkGwavg b (i / 8) (i % 8)
  else if 0x5000 ≤ off ∧ off < 0x5800 then chkGwt b (i / 8) (i % 8)
  else if 0x6000 ≤ off ∧ off < 0x6160 then Tab.get b.chuck.busy 0 i
  else 0

/-! ### The other blocks of the PF window -/

/-- A register of the TLY block whose read latches nothing (R529). -/
def tlyReg (b : Block) (off : Nat) : Nat :=
  let k := off % 4096 / 8
  if off < 0x800 then Tab.get b.counters.highLatch 0 k % 65536
  else if 0x2000 ≤ off ∧ off < 0x2920 then tlyUcfg b ((off - 0x2000) / 32) (off % 32 / 4)
  else if 0x3000 ≤ off ∧ off < 0x3200 then Tab.get b.counters.highLatch 0 (256 + k)
  else if off = 0x3200 then b.counters.tlyErr.toNat
  else 0

/-- A read of the TLY block: the low words and the unit counters latch. A counter of the unit latched last reads as latched. -/
def tlyRead (b : Block) (off : Nat) (a : Access) : Block :=
  if a = .other then tlySize b
  else if off < 0x800 ∧ off % 8 = 0 then tlyTL b (off / 8) a
  else if 0x1000 ≤ off ∧ off < 0x1920 then tlyUcnt b ((off - 0x1000) / 32) (off % 32 / 4) a
  else if 0x3000 ≤ off ∧ off < 0x3200 ∧ off % 8 = 0 then tlyCycL b ((off - 0x3000) / 8) a
  else b.answer (tlyReg b off)

/-- `PMC_RAIL<r>`: the last value written, which takes effect at the next microsecond (R4, R510). -/
def pmcRailValue (p : Pmc) (r : Nat) : Nat :=
  match p.pendingRail.reverse.find? fun x => x.1 == r with
  | some (_, cap, refill) => cap + 2 ^ 12 * refill
  | none => Tab.get p.cap 0 r + 2 ^ 12 * Tab.get p.refill 0 r

/-- A register of the PMC block (R519). -/
def pmcReg (b : Block) (off : Nat) : Nat :=
  let p := b.pmc
  if off = 0 then p.st + 2 ^ 3 * pmcLimit b + 2 ^ 6 * p.cause + 2 ^ 8 * b2n p.perst
  else if off = 4 then p.floor + 2 ^ 8 * p.darkIdle + 2 ^ 12 * p.deepIdle + 2 ^ 16 * p.offDelay
  else if off = 8 then p.on.toNat
  else if off = 0xC then p.warming.toNat
  else if off = 0x10 then p.retain.toNat
  else if off = 0x14 then p.keep.toNat
  else if off = 0x18 then p.err.toNat
  else if 0x20 ≤ off ∧ off < 0x30 then pmcRailValue p ((off - 0x20) / 4)
  else if 0x30 ≤ off ∧ off < 0x40 then Tab.get p.tokens 0 ((off - 0x30) / 4)
  else if 0x100 ≤ off ∧ off < 0x160 then Tab.get p.wmax 0 ((off - 0x100) / 4)
  else 0

/-- A register of the BLY block whose read latches nothing (R421, R446). -/
def blyReg (b : Block) (off : Nat) : Nat :=
  if off = 0 then blyStatus b
  else if off = 4 then monitorAlarms b
  else if off = 8 then monitorFaults b
  else if off = 0xC then blyPend b
  else if off = 0x10 then blyLoopCfg b
  else if 0x100 ≤ off ∧ off < 0x14C then blyMon b ((off - 0x100) / 4)
  else if 0x200 ≤ off ∧ off < 0x24C then blyMcfg b ((off - 0x200) / 4)
  else if off = 0x1004 then b.belay.flast1.toNat
  else if off = 0x1008 then b.belay.flast2.toNat
  else if off = 0x100C then b.belay.err.toNat
  else if 0x1100 ≤ off ∧ off < 0x1200 then (b.ferrule ((off - 0x1100) / 4)).viol
  else if 0x1200 ≤ off ∧ off < 0x1340 then blyFepoch b ((off - 0x1200) / 4)
  else 0

/-- `KRD_LINKA` or `KRD_LINKB` (R499). -/
def krdLink (l : Link) : Nat :=
  let st := match l.st with
    | .down => 0
    | .training => 1
    | .up => 2
    | .version => 3
  st + 2 ^ 3 * b2n l.gen2 + 2 ^ 4 * (l.lmaj % 4) + 2 ^ 6 * (l.lmin % 4) + 2 ^ 8 * (l.neighbour % 8) + 2 ^ 16 * l.retrains

/-- `KRD_RING` (R465, R474, R499). -/
def krdRing (b : Block) : Nat :=
  let k := b.kerard
  k.node % 8 + 2 ^ 3 * b2n k.bypassOpen + 2 ^ 4 * flagBits ((List.range 8).map fun n => (Tab.get k.seen Seen.reset n).live)
    + 2 ^ 12 * b2n k.dupId + 2 ^ 13 * (b.setting 2 % 4)

/-- `KRD_PAIR` (R499). -/
def krdPair (k : Kerard) : Nat :=
  pstateCode k.st + 2 ^ 3 * proleCode k.role + 2 ^ 5 * b2n k.refHost + 2 ^ 6 * (k.peerNode % 8) + 2 ^ 9 * (k.referee % 8)
    + 2 ^ 12 * b2n k.refOk + 2 ^ 13 * b2n k.peerOk

/-- A register of the KRD block (R499). -/
def krdReg (b : Block) (off : Nat) : Nat :=
  let k := b.kerard
  if off = 0 then krdLink k.linkA
  else if off = 4 then krdLink k.linkB
  else if off = 8 then krdRing b
  else if off = 0xC then krdPair k
  else if off = 0x10 then k.held + 2 ^ 16 * k.claimSeen
  else if off = 0x14 then k.resync.length
  else if off = 0x18 then k.out.length % 65536
  else if off = 0x1C then k.dropsClaim + 2 ^ 16 * k.dropsAuth
  else if off = 0x20 then b2n k.gen1 + 2 * b2n k.vecEn + 2 ^ 2 * (k.vector % 64) + 2 ^ 8 * k.hostTimeout
  else if off = 0x28 then k.err.toNat
  else 0

/-- A register of the SMP block whose read latches nothing (R234). -/
def smpReg (b : Block) (off : Nat) : Nat :=
  let s := b.sump
  if off = 0 then smpStatus b
  else if off = 4 then b.sumpT
  else if off = 8 then b.sumpSpace
  else if off = 0x10 then s.rootvLatch % 2 ^ 24
  else if off = 0x14 then s.jhead
  else if off = 0x18 then s.jtail
  else if off = 0x1C then s.faultsTag + 2 ^ 8 * s.faultsNode + 2 ^ 16 * s.faultsEcc
  else if off = 0x20 then s.err.toNat
  else 0

/-- A ring register of a chain, by its offset in the block (R207, R578). -/
def ringReg (b : Block) (i : ChainId) (off : Nat) : Nat :=
  let r := (b.chain i).ring
  if off = 0 then r.lhead
  else if off = 4 then r.ltail
  else if off = 8 then r.hhead
  else if off = 0xC then r.htail
  else if off = 0x10 then ringCfg b i
  else if off = 0x14 then ringStatus b i
  else if off = 0x18 then r.err.toNat
  else 0

/-! ### The VF window (R56, R57, R255, R330, R528) -/

/-- A register of the VFQ block (R57). -/
def vfqReg (b : Block) (c off : Nat) : Nat :=
  let sq := b.sq c (off % 32 / 4)
  let cq := b.cq c (off % 32 / 4)
  if 0x40 ≤ off ∧ off < 0x60 then sq.head
  else if 0xC0 ≤ off ∧ off < 0xE0 then cq.tail + 2 ^ 16 * b2n cq.phase
  else if 0x100 ≤ off ∧ off < 0x120 then b2n sq.en + 2 * sq.depthLog2 + 2 ^ 6 * sq.cq + 2 ^ 9 * sq.fmt
  else if 0x140 ≤ off ∧ off < 0x160 then
    b2n cq.en + 2 * cq.depthLog2 + 2 ^ 6 * b2n cq.vecEn + 2 ^ 7 * cq.vector + 2 ^ 10 * cq.fmt + 2 ^ 16 * cq.coalCount + 2 ^ 24 * cq.coalTime
  else if off = 0x180 then
    b2n ((b.chamber c).st == .quiesced) + 2 * b2n (b.kerard.role == .standby) + 2 ^ 16 * b.claim
  else if off = 0x184 then (b.chamber c).qerr.toNat
  else 0

/-- `VFE_CFG<n>` (R528). -/
def vfeReg (s : VfeSlot) : Nat :=
  s.event + 2 ^ 10 * b2n s.level + 2 ^ 11 * b2n s.chain + 2 ^ 12 * b2n s.en + 2 ^ 13 * s.counter + 2 ^ 16 * s.unit + 2 ^ 24 * b2n s.bound
    + 2 ^ 25 * b2n s.refused

/-- `VFE_CNT<n>`: the bound counter, zero while the slot is unbound (R528). -/
def vfeCount (b : Block) (c n : Nat) : Nat :=
  let s := b.vfe c n
  if s.bound then (b.ctr s.unit s.counter).count.toNat else 0

/-- A register of the block at 0x1000 (R255, R330, R528). -/
def vfcReg (b : Block) (c off : Nat) : Nat :=
  let h := b.chamber c
  let g := off % 32 / 4
  if off = 0x1000 then chStateCode h.st + 2 ^ 8 * c + 2 ^ 14 * b.nlog2
  else if off = 0x1004 then h.qreason.toNat
  else if off = 0x1008 then h.lastFault.toNat
  else if off = 0x100C then h.faultCnt
  else if off = 0x1010 then Tab.get b.strata.creation 0 c
  else if off = 0x1014 then h.pinpol.toNat
  else if 0x1100 ≤ off ∧ off < 0x1120 then chkGdepth b c g
  else if 0x1120 ≤ off ∧ off < 0x1140 then chkGwmax b c g
  else if 0x1140 ≤ off ∧ off < 0x1160 then chkGwavg b c g
  else if off = 0x1160 then chkCinfo b c
  else if 0x1200 ≤ off ∧ off < 0x1240 then vfeReg (b.vfe c ((off - 0x1200) / 4))
  else if 0x1240 ≤ off ∧ off < 0x1280 then vfeCount b c ((off - 0x1240) / 4)
  else 0

/-! ### Reads of the host -/

/-- A read of the PF window, its requester admitted. A read of another size or alignment sets the SIZE bit where the block's rule says so of every
access, and answers nothing (log entry 18). -/
def pfRead (b : Block) (off : Nat) (size : WSize) : Block :=
  let o := off % 65536
  let a := accessOf o size
  let plain (v : Nat) (bad : Block) : Block := if a = .other then bad else b.answer v
  match regionOf off with
  | .mbx => mbxRead b .pf o size
  | .slc k => mbxRead b ([Mbx.so, .au, .ce, .op].getD k .op) o size
  | .chk => plain (chkReg b o) b
  | .tly => tlyRead b o a
  | .pmc => plain (pmcReg b o) (b.modPmc fun p => { p with err := p.err ||| 1 })
  | .bly => if o = 0x1000 then blyFlast0 b a else plain (blyReg b o) (b.modBelay fun y => { y with err := y.err ||| 1 })
  | .krd => plain (krdReg b o) (b.modKerard fun k => { k with err := k.err ||| 1 })
  | .smp => if o = 0xC then smpRootvL b a else plain (smpReg b o) b
  | .lan =>
    if o = 4 then lanPfData b a
    else plain (if o = 0 then lanStatus b lanPortPf else if o = 8 then lanCause b else if o = 12 then b.lantern.sizeErr.toNat else 0)
      (b.modLantern fun l => { l with sizeErr := l.sizeErr ||| 1 })
  | .flw => plain (ringReg b .system o) b
  | .reserved => b.answer 0

/-- A read of a VF window. -/
def vfRead (b : Block) (c off : Nat) (size : WSize) : Block :=
  let a := accessOf off size
  if 0x4000 ≤ off then b.answer 0
  else if 0x2000 ≤ off ∧ off < 0x3000 then
    if a = .other ∨ off = 0x2004 then lanVfData b c a else b.answer (if off = 0x2000 then lanStatus b (lanPortVf c) else 0)
  else if a = .other then b
  else if off < 0x1000 then b.answer (vfqReg b c off)
  else if off < 0x2000 then b.answer (vfcReg b c off)
  else b.answer (ringReg b (.chamber c) (off - 0x3000))

/-- REGISTER_WRITE: an access of the host without a row of its own (R4, R328, R536, R537, R539). -/
def hostWrite (b : Block) : HostWrite → Block
  | .pf pasid off size v => pfRequest b pasid (regionOf off) false fun b => pfWrite b off size v
  | .vf c off size v => vfRequest b c fun b => vfWrite b c off size v
  | .readPf pasid off size => pfRequest b pasid (regionOf off) true fun b => pfRead b off size
  | .readVf c off size => vfRequest b c fun b => vfRead b c off size
  | .vector fn vec addr data =>
    if functionOn b fn ∧ vec < vectorsOf fn then
      { b with pcie := { b.pcie with table := Tab.set b.pcie.table (64 * fn + vec) (addr % 2 ^ 64, data % 2 ^ 32) } }
    else b
  | .mask fn vec => if functionOn b fn ∧ vec < vectorsOf fn then msixMask b fn vec else b
  | .msixEnable fn on =>
    if functionOn b fn then { b with pcie := { b.pcie with msixEn := Tab.set b.pcie.msixEn fn on } } else b
  | .busMaster fn on => if functionOn b fn then { b with pcie := { b.pcie with bme := Tab.set b.pcie.bme fn on } } else b
  | .vfEnable => if b.hostOn then { b with pcie := { b.pcie with vfEnable := true } } else b
  | .d3hot on => if b.hostOn then { b with pcie := { b.pcie with d3hot := on } } else b
  | .poisoned fn => if functionOn b fn then b.aer fn "Poisoned TLP Received" true else b

end Sys2Proof.Machine
end

