-- ==== Sys2Proof/Machine/SpdmOps.lean ====
section
/-! DEFINITION. The DOE capability and the SPDM responder (R395). The manual names DSP0274 1.1 and 1.2 and the DMTF measurement format;
their message layouts are PRESUMED as those documents give them (log entry 1). -/
namespace Sys2Proof.Machine

/-! ### Messages -/

/-- Version byte of the connection: that negotiated, 1.0 before. -/
def spdmVer (s : Spdm) : Byte := if s.version = 0 then 0x10 else BitVec.ofNat 8 s.version

/-- A message's header. -/
def spdmHead (s : Spdm) (code p1 p2 : Nat) : Bytes := [spdmVer s, BitVec.ofNat 8 code, BitVec.ofNat 8 p1, BitVec.ofNat 8 p2]

/-- An ERROR response. -/
def spdmError (s : Spdm) (code data : Nat) : Bytes := spdmHead s 0x7F code data

/-- A DOE data object of type `t` (PCI-SIG, 1 CMA/SPDM, 0 Discovery), padded to whole double words. -/
def doeObject (t : Nat) (p : Bytes) : Bytes :=
  let n := roundUp p.length 4
  leBytes 2 1 ++ leBytes 2 t ++ leBytes 4 (2 + n / 4) ++ fit n p

/-- An object answered: it is what the DOE mailbox presents from now on. -/
def doeAnswer (b : Block) (t : Nat) (p : Bytes) : Block :=
  { (b.emit (.doe (doeObject t p))) with spdm := { b.spdm with answer := some (doeObject t p) } }

/-- The negotiated hash. -/
def spdmHash (s : Spdm) (d : Bytes) : Bytes := if s.sha512 then sha512 d else sha384 d

/-- The certificate chain of slot 0 (R395): its length, the root hash, the intermediate certificate, and that of the key in use. -/
def spdmChain (b : Block) : Bytes :=
  let s := b.spdm
  let body := (if s.sha512 then b.identity.root512 else b.identity.root384) ++ b.identity.certInter
    ++ (if s.asym448 then b.identity.certIdentity else b.identity.certAlias)
  leBytes 2 (4 + body.length) ++ zeros 2 ++ body

/-- A signature over a transcript: version 1.2 signs under a prefix that names the context. `extra` is the randomness of a hedged ECDSA. -/
def spdmSign (b : Block) (context : String) (transcript extra : Bytes) : Bytes :=
  let s := b.spdm
  let h := spdmHash s transcript
  let name := ascii context
  let pre : Bytes := if s.version = 0x12 then
      (List.replicate 4 (ascii "dmtf-spdm-v1.2.*")).flatten ++ zeros (36 - name.length) ++ name
    else []
  if s.asym448 then edSign true false [] b.identity.seed (pre ++ h)
  else ecdsaSign p384 (ofBe b.identity.aliasKey) (if s.version = 0x12 then spdmHash s (pre ++ h) else h) extra

/-- A request is taken: the message has a header, the code is this one, and the firmware answers. -/
def spdmTakes (b : Block) (code : Nat) (msg : Bytes) : Bool :=
  b.hostOn && b.pmc.booted && decide (4 ≤ msg.length) && byteAt msg 1 == BitVec.ofNat 8 code

/-- The request carries the connection's version. -/
def spdmSame (b : Block) (msg : Bytes) : Bool := byteAt msg 0 == spdmVer b.spdm

/-- The connection has negotiated its algorithms. -/
def spdmReady (b : Block) : Bool := b.spdm.algos

/-! ### Requests -/

/-- GET_VERSION: the connection starts anew; versions 1.1 and 1.2. -/
def spdmGetVersion (b : Block) (msg : Bytes) : Block :=
  if !spdmTakes b 0x84 msg then b
  else if byteAt msg 0 ≠ 0x10 then doeAnswer b 1 (spdmError Spdm.reset 0x41 0)
  else
    let r : Bytes := [0x10, 0x04, 0, 0, 0, 2, 0x00, 0x11, 0x00, 0x12]
    doeAnswer { b with spdm := { Spdm.reset with vca := msg ++ r } } 1 r

/-- GET_CAPABILITIES: CERT_CAP, CHAL_CAP and MEAS_CAP with signature. What the manual gives no value for, CTExponent and the sizes of 1.2, is
free. -/
def spdmGetCapabilities (b : Block) (msg : Bytes) : Block :=
  let v := (byteAt msg 0).toNat
  if !spdmTakes b 0xE1 msg then b
  else if b.spdm.vca = [] ∨ b.spdm.caps then doeAnswer b 1 (spdmError b.spdm 0x04 0)
  else if v ≠ 0x11 ∧ v ≠ 0x12 then doeAnswer b 1 (spdmError b.spdm 0x41 0)
  else if msg.length ≠ (if v = 0x12 then 20 else 12) then doeAnswer b 1 (spdmError b.spdm 0x01 0)
  else
    let (x, b) := b.fresh 9
    let s := { b.spdm with version := v }
    let r := spdmHead s 0x61 0 0 ++ [0] ++ x.take 1 ++ [0, 0, 0x16, 0, 0, 0] ++ (if v = 0x12 then x.drop 1 else [])
    doeAnswer { b with spdm := { s with caps := true, vca := s.vca ++ msg ++ r } } 1 r

/-- NEGOTIATE_ALGORITHMS: ECDSA P-384 with the alias key, and under 1.2 Ed448 with the identity key; SHA-384 and SHA-512. Where the requester
offers both, which is selected is free. -/
def spdmNegotiate (b : Block) (msg : Bytes) : Block :=
  if !spdmTakes b 0xE3 msg then b
  else if !b.spdm.caps ∨ b.spdm.algos then doeAnswer b 1 (spdmError b.spdm 0x04 0)
  else if !spdmSame b msg then doeAnswer b 1 (spdmError b.spdm 0x41 0)
  else
    let asym := leField msg 8 4
    let hash := leField msg 12 4
    let ec := bit asym 7
    let ed := bit asym 11 && b.spdm.version == 0x12
    let h384 := bit hash 1
    let h512 := bit hash 2
    if msg.length < 32 ∨ leField msg 4 2 ≠ msg.length ∨ !(ec || ed) ∨ !(h384 || h512) then doeAnswer b 1 (spdmError b.spdm 0x01 0)
    else
      let (x, b) := b.fresh 1
      let pick := (byteAt x 0).toNat
      let useEd : Bool := ed && (!ec || bit pick 0)
      let use512 : Bool := h512 && (!h384 || bit pick 1)
      let s := { b.spdm with algos := true, asym448 := useEd, sha512 := use512 }
      let r := spdmHead s 0x63 0 0 ++ leBytes 2 36 ++ [byteAt msg 6 &&& 1, 0] ++ leBytes 4 1 ++ leBytes 4 (if useEd then 0x800 else 0x80)
        ++ leBytes 4 (if use512 then 4 else 2) ++ zeros 12 ++ [0, 0, 0, 0]
      doeAnswer { b with spdm := { s with vca := s.vca ++ msg ++ r } } 1 r

/-- A request that needs the algorithms: its own checks, or the error that turns it away. -/
def spdmAfter (b : Block) (code : Nat) (msg : Bytes) (f : Block → Block) : Block :=
  if !spdmTakes b code msg then b
  else if !spdmReady b then doeAnswer b 1 (spdmError b.spdm 0x04 0)
  else if !spdmSame b msg then doeAnswer b 1 (spdmError b.spdm 0x41 0)
  else f b

/-- GET_DIGESTS: slot 0 alone. -/
def spdmGetDigests (b : Block) (msg : Bytes) : Block :=
  spdmAfter b 0x81 msg fun b =>
    let r := spdmHead b.spdm 0x01 0 1 ++ spdmHash b.spdm (spdmChain b)
    doeAnswer { b with spdm := { b.spdm with certs := b.spdm.certs ++ msg ++ r } } 1 r

/-- GET_CERTIFICATE: a portion of slot 0's chain. -/
def spdmGetCertificate (b : Block) (msg : Bytes) : Block :=
  spdmAfter b 0x82 msg fun b =>
    let chain := spdmChain b
    let off := leField msg 4 2
    let len := min (leField msg 6 2) (chain.length - off)
    if msg.length ≠ 8 ∨ byteAt msg 2 &&& 0x0F ≠ 0 ∨ chain.length ≤ off then doeAnswer b 1 (spdmError b.spdm 0x01 0)
    else
      let r := spdmHead b.spdm 0x02 0 0 ++ leBytes 2 len ++ leBytes 2 (chain.length - off - len) ++ slice chain off len
      doeAnswer { b with spdm := { b.spdm with certs := b.spdm.certs ++ msg ++ r } } 1 r

/-- The measurement blocks of R394's values M0 to M4, indices 1 to 5, as raw bit streams: `vs` are the contents measured. -/
def spdmBlocks (vs : List Bytes) : List Bytes :=
  vs.zipIdx.map fun p =>
    leBytes 1 (p.2 + 1) ++ [1] ++ leBytes 2 (3 + p.1.length) ++ leBytes 1 (0x80 + min p.2 3) ++ leBytes 2 p.1.length ++ p.1

/-- CHALLENGE: the device proves its key over the transcript. The nonce comes from Lantern; without it the request is answered with an error. -/
def spdmChallenge (b : Block) (msg : Bytes) : Block :=
  spdmAfter b 0x83 msg fun b =>
    let t := (byteAt msg 3).toNat
    if msg.length ≠ 36 ∨ byteAt msg 2 ≠ 0 ∨ (t ≠ 0 ∧ t ≠ 1 ∧ t ≠ 0xFF) then doeAnswer b 1 (spdmError b.spdm 0x01 0)
    else match b.draw 80 with
      | none => doeAnswer b 1 (spdmError b.spdm 0x05 0)
      | some (x, b) =>
        let s := b.spdm
        let blocks := spdmBlocks (measurements b)
        let summary : Bytes := if t = 0 then [] else spdmHash s (if t = 1 then (blocks.take 1).flatten else blocks.flatten)
        let body := spdmHead s 0x03 0 1 ++ spdmHash s (spdmChain b) ++ x.take 32 ++ summary ++ zeros 2
        let r := body ++ spdmSign b "responder-challenge_auth signing" (s.vca ++ s.certs ++ msg ++ body) (x.drop 32)
        doeAnswer { b with spdm := { s with certs := [], meas := [] } } 1 r

/-- GET_MEASUREMENTS: how many there are, one, or all five, signed where the request asks for it. -/
def spdmGetMeasurements (b : Block) (msg : Bytes) : Block :=
  spdmAfter b 0xE0 msg fun b =>
    let signed := bit (byteAt msg 2).toNat 0
    let op := (byteAt msg 3).toNat
    if msg.length ≠ (if signed then 37 else 4) ∨ (5 < op ∧ op ≠ 0xFF) ∨ (signed ∧ byteAt msg 36 ≠ 0) then
      doeAnswer b 1 (spdmError b.spdm 0x01 0)
    else match b.draw 80 with
      | none => doeAnswer b 1 (spdmError b.spdm 0x05 0)
      | some (x, b) =>
        let s := b.spdm
        let blocks := spdmBlocks (measurements b)
        let chosen := if op = 0 then [] else if op = 0xFF then blocks else [blocks.getD (op - 1) []]
        let rec_ := chosen.flatten
        let body := spdmHead s 0x60 (if op = 0 then 5 else 0) 0 ++ leBytes 1 chosen.length ++ leBytes 3 rec_.length ++ rec_ ++ x.take 32
          ++ zeros 2
        let log := s.meas ++ msg ++ body
        let pre := if s.version = 0x12 then s.vca else []
        if signed then
          let r := body ++ spdmSign b "responder-measurements signing" (pre ++ log) (x.drop 32)
          doeAnswer { b with spdm := { s with meas := [] } } 1 r
        else doeAnswer { b with spdm := { s with meas := log } } 1 body

/-- The codes of the requests that the device supports. -/
def spdmCodes : List Byte := [0x84, 0xE1, 0xE3, 0x81, 0x82, 0x83, 0xE0]

/-- SPDM_UNSUPPORTED: any other request receives ERROR UnsupportedRequest. -/
def spdmUnsupported (b : Block) (msg : Bytes) : Block :=
  if !b.hostOn ∨ !b.pmc.booted ∨ msg.length < 4 ∨ spdmCodes.contains (byteAt msg 1) then b
  else doeAnswer b 1 (spdmError b.spdm 0x07 (byteAt msg 1).toNat)

/-! ### DOE -/

/-- DOE_DISCOVERY: the protocol of an index, and the next index; an index beyond the last names none. -/
def doeDiscovery (b : Block) (index : Nat) : Block :=
  if !b.hostOn ∨ !b.pmc.booted then b
  else if index = 0 then doeAnswer b 0 [1, 0, 0, 1]
  else if index = 1 then doeAnswer b 0 [1, 0, 1, 0]
  else doeAnswer b 0 [0xFF, 0xFF, 0, 0]

/-- DOE_ABORT: the object being answered is discarded. -/
def doeAbort (b : Block) : Block := if b.hostOn then { b with spdm := { b.spdm with answer := none } } else b

end Sys2Proof.Machine
end

