-- ==== Sys2Proof/Machine/SideOps.lean ====
section
/-! DEFINITION. The sideband, the GPIO pins and the debug port (R540 to R550, R383, R417, R563). -/
namespace Sys2Proof.Machine

/-! ### The boundary scan and the debug port's permissions (R383, R545 to R547) -/

/-- The pins are under scan control (R546): the SMBus and GPIO functions cease. -/
def scanControl (b : Block) : Bool := b.io.ir == .extest || b.io.ir == .highz || b.io.ir == .clamp

/-- Boundary scan is permitted (R383). -/
def scanOpen (b : Block) : Bool :=
  b.life == 0 || b.life == 1 || b.life == 6 || ((b.life == 2 || b.life == 3) && bit (b.setting 3) 2)

/-- The debug access port is open (R383). -/
def dapOpen (b : Block) : Bool :=
  let d := bits (b.setting 3) 1 0
  b.life == 0 || b.life == 1 || b.life == 6 || (b.life == 2 && (d == 1 || d == 2)) || (b.life == 3 && d == 2)

/-- An instruction is permitted now (R545). -/
def jtagPermits (b : Block) : JtagIr → Bool
  | .extest => scanOpen b
  | .sample => scanOpen b
  | .highz => scanOpen b
  | .clamp => scanOpen b
  | .dap => dapOpen b
  | .idcode => true
  | .bypass => true

/-- An instruction loaded at Update-IR, decoded as BYPASS where it is not permitted (R545). -/
def jtagLoad (b : Block) (i : JtagIr) : Block :=
  if !b.pmc.powerGood then b else { b with io := { b.io with ir := if jtagPermits b i then i else .bypass } }

/-- TAP_RESET: IDCODE becomes the current instruction (R545). -/
def tapReset (b : Block) : Block := { b with io := { b.io with ir := .idcode } }

/-- The IDCODE register (R545): the die revision and Halsyn's manufacturer code are not stated, so they are free. -/
def jtagIdcode (b : Block) : Block :=
  let b := jtagLoad b .idcode
  if !b.pmc.powerGood then b
  else
    let (x, b) := b.fresh 3
    b.emit (.jtag (2 ^ 28 * (leField x 0 1 % 16) + 2 ^ 12 * 0x6480 + 2 * (leField x 1 2 % 2048) + 1))

/-- DAP_ACCESS: a 32-bit access of the debug port at a device address (R416, R417, R547). The device's address map is not stated: what an
admitted read finds is free, and an admitted write reaches no state that the manual names. -/
def dapAccess (b : Block) (write : Bool) (addr : BitVec 40) : Block :=
  if !b.running ∨ b.io.ir ≠ .dap ∨ !dapOpen b then b
  else
    let r := ferruleAccess b 79 (if write then .write else .read) addr.toNat none
    if write then r.2
    else if r.1 then
      let (x, b) := r.2.fresh 4
      b.emit (.jtag (ofLe x))
    else r.2.emit (.jtag 0)

/-! ### SMBus (R540 to R542, R563) -/

/-- The packet error code of SMBus: CRC-8 with the polynomial x^8 + x^2 + x + 1. -/
def smbusPec (d : Bytes) : Byte :=
  d.foldl (fun c x => (List.range 8).foldl (fun (c : Byte) _ => if c.msb then (c <<< 1) ^^^ 0x07 else c <<< 1) (c ^^^ x)) 0

/-- The address byte of a transfer. -/
def smbusAddr (b : Block) (read : Bool) : Bytes := leBytes 1 (2 * b.smbus.addr + b2n read)

/-- The target answers (R540, R546): in every power state while main power is good. -/
def smbusOn (b : Block) : Bool := b.pmc.powerGood && !scanControl b

/-- The SMBus registers changed by `f`. -/
def Block.modSmbus (b : Block) (f : Smbus → Smbus) : Block := { b with smbus := f b.smbus }

/-- A write whose bytes after the address are `d`, with its PEC: one that fails is discarded (R540). -/
def smbusWrite (b : Block) (d : Bytes) (pec : Byte) (f : Block → Block) : Block :=
  if !smbusOn b then b
  else if smbusPec (smbusAddr b false ++ d) ≠ pec then b.modSmbus fun s => { s with pec := true }
  else f b

/-- A read's answer, followed by PEC (R540): `head` are the bytes written before it. -/
def smbusAnswer (b : Block) (head d : Bytes) : Block :=
  b.emit (.smbus (some (d ++ [smbusPec (smbusAddr b false ++ head ++ smbusAddr b true ++ d)])))

/-- STATUS (R541), with the temperature that the TEMP diode shows. -/
def smbusStatus (b : Block) (temp : BitVec 8) : Block :=
  if !smbusOn b then b
  else
    smbusAnswer b [0x01]
      ([8, BitVec.ofNat 8 b.life, BitVec.ofNat 8 b.pmc.st, BitVec.ofNat 8 (b2n b.pmc.ready), 0] ++ leBytes 2 b.kerard.held ++ [temp, 0])

/-- MBX_REQ (R541, R542): offset and bytes into the request buffer. -/
def smbusMbxReq (b : Block) (d : Bytes) (pec : Byte) : Block :=
  smbusWrite b ([0x10] ++ leBytes 1 d.length ++ d) pec fun b =>
    let off := leField d 0 2
    if d.length < 3 ∨ 255 < d.length then b
    else if (b.mbx 5).busy then b.modSmbus fun s => { s with reqBusy := true }
    else if 4096 < off + (d.length - 2) then b.modSmbus fun s => { s with range := true }
    else b.modMbx 5 fun x => { x with req := x.req.writeBytes off (d.drop 2) }

/-- MBX_GO (R541, R542). -/
def smbusMbxGo (b : Block) (v pec : Byte) : Block :=
  smbusWrite b [0x11, v] pec fun b =>
    if v ≠ 1 then b
    else if (b.mbx 5).busy ∨ (b.mbx 5).done then b.modSmbus fun s => { s with overrun := true }
    else mbxGo b .sb

/-- MBX_STAT (R541). -/
def smbusMbxStat (b : Block) : Block :=
  if !smbusOn b then b
  else
    let x := b.mbx 5
    let s := b.smbus
    smbusAnswer b [0x12]
      [BitVec.ofNat 8 (b2n x.busy + 2 * b2n x.done + 4 * b2n b.pmc.ready + 8 * b2n s.pec + 16 * b2n s.reqBusy + 32 * b2n s.overrun
        + 64 * b2n s.range)]

/-- MBX_RSP (R541, R542): bytes beyond the buffer are zero and set RANGE. A count outside 1 to 240 is not acknowledged. -/
def smbusMbxRsp (b : Block) (off : BitVec 16) (count : Byte) : Block :=
  if !smbusOn b then b
  else if count = 0 ∨ 240 < count.toNat then b.emit (.smbus none)
  else
    let n := count.toNat
    let d := (List.range n).map fun i => if off.toNat + i < 4096 then (b.mbx 5).rsp.read (off.toNat + i) else 0
    let b := if 4096 < off.toNat + n then b.modSmbus fun s => { s with range := true } else b
    smbusAnswer b ([0x13, 3] ++ leBytes 2 off.toNat ++ [count]) ([count] ++ d)

/-- MBX_ACK (R541). -/
def smbusMbxAck (b : Block) (v pec : Byte) : Block :=
  smbusWrite b [0x14, v] pec fun b =>
    let w := v.toNat
    let b := b.modMbx 5 fun x => { x with done := x.done && !bit w 1 }
    b.modSmbus fun s =>
      { s with pec := s.pec && !bit w 3, reqBusy := s.reqBusy && !bit w 4, overrun := s.overrun && !bit w 5, range := s.range && !bit w 6 }

/-- HOSTBEAT over the sideband (R490, R541). -/
def smbusHostbeat (b : Block) (v pec : Byte) : Block := smbusWrite b [0x20, v] pec fun b => if v = 1 then hostBeat b else b

/-- SMBUS_TIMEOUT: the target releases the bus (R563); its registers keep their values. -/
def smbusTimeout (b : Block) : Block := if smbusOn b then b.emit (.smbus none) else b

/-! ### GPIO (R548 to R550) -/

/-- The pins are served (R546, R549). -/
def gpioOn (b : Block) : Bool := b.pmc.powerGood && !scanControl b

/-- The input level of a pin. -/
def gpioIn (b : Block) (n : Nat) : Bool := b.io.inputs.getLsbD n

/-- The filtered level of a pin after a transition. -/
def gpioSet (b : Block) (n : Nat) (v : Bool) : Block :=
  { b with io := { b.io with inputs := if v then b.io.inputs ||| ((1 : BitVec 8) <<< n) else b.io.inputs &&& ~~~ ((1 : BitVec 8) <<< n) } }

/-- A pin caused a wake or beat less than 10 us ago (R550). -/
def gpioRecent (b : Block) (n : Nat) : Bool := match Tab.get? b.io.lastWake n with
  | some t => decide (b.now < t + 10)
  | none => false

/-- A pin causes a wake or beat now. -/
def gpioMark (b : Block) (n : Nat) : Block := { b with io := { b.io with lastWake := Tab.set b.io.lastWake n b.now } }

/-- GPIO_WAKE: pin `n` holds level `v` for so many samples, and four make a filtered transition (R549, R550). On a wake input one to the active level wakes
the device, or is suppressed within 10 us of the pin's last. -/
def gpioWake (b : Block) (n : Nat) (v : Bool) (samples : Nat) : Block :=
  if !gpioOn b ∨ gpioIn b n = v ∨ !pinPasses samples then b
  else
    let cfg := Tab.get b.io.gpio 0 n
    let b := gpioSet b n v
    if cfg % 16 ≠ 2 ∨ v = bit cfg 4 then b
    else if gpioRecent b n then { b with io := { b.io with suppressed := b.io.suppressed ||| ((1 : BitVec 8) <<< n) } }
    else
      let b := gpioMark b n
      if b.running then ladderExit b else b

/-- REFEREE_HEARTBEAT_INPUT: a filtered transition of either polarity on the heartbeat input is one beat, at most one per 10 us (R490, R550). -/
def gpioBeat (b : Block) (n : Nat) (v : Bool) (samples : Nat) : Block :=
  if !gpioOn b ∨ gpioIn b n = v ∨ !pinPasses samples then b
  else
    let b := gpioSet b n v
    if Tab.get b.io.gpio 0 n % 16 ≠ 3 ∨ gpioRecent b n then b else hostBeat (gpioMark b n)

end Sys2Proof.Machine
end

