-- ==== Sys2Proof/Machine/State.lean ====
section
/-! DEFINITION. The state of the machine: the device and the queue of the commands that wait for it, and how a step can end without a next
state. -/
namespace Sys2Proof.Machine

/-- The device with its queue of commands, first in, first out. -/
structure State where
  blk : Block
  pending : List Instr
  deriving DecidableEq, Repr

/-- Why the machine stops at a command. -/
inductive Fault where
  /-- The operands do not spell a command of the hardware (`wfInstr`): raised by the rows whose operands have a structure of their own. Safe:
  nothing is claimed of such a command. -/
  | malformed
  deriving DecidableEq, Repr

/-- Why a command has no meaning. -/
inductive Refusal where
  /-- The row's meaning is not modelled: raised by an arm of `exec`. Safe: nothing is claimed of it. -/
  | notModelled (mnemonic : String)
  deriving DecidableEq, Repr

/-- The machine right after a cold reset, as Halsyn ships it, with no command waiting. -/
def State.reset : State := { blk := Block.reset, pending := [] }

end Sys2Proof.Machine
end

