-- ==== Sys2Proof/WellFormed.lean ====
section
/-! DEFINITION. Which terms of `Instr` spell a command of the hardware: the operands that have a structure of their own are checked for it. -/
namespace Sys2Proof

/-- A line of Sump's external memory holds 64 bytes, but a tag, which holds 8 (R213, R215, R217). -/
def wfLine (l : DdrLine × Bytes) : Bool :=
  match l.1 with
  | .record _ => l.2.length == 64
  | .tag _ => l.2.length == 8
  | .node _ _ => l.2.length == 64

/-- What memory returns is made of whole lines. -/
def wfDdr : DdrReturn → Bool
  | .altered lines => lines.all wfLine
  | _ => true

/-- An image of SUMP_RESTORE is a header, whole lines, and journal entries of 128 bytes (R226, R229). -/
def wfImage (header : Bytes) (lines : List (DdrLine × Bytes)) (journal : List Bytes) : Bool :=
  header.length == 64 && lines.all wfLine && journal.all fun e => e.length == 128

/-- A rule set of a Ferrule has as many regions as the Ferrule (R410). -/
def wfRules (m : Nat) (rules : List Machine.Region) : Bool := decide (rules.length ≤ if m < 64 then 16 else if m < 66 then 64 else 32)

/-- A slot of Strata whose programming failed holds 32 bytes (R449, R455). -/
def wfTorn (torn : List Bytes) : Bool := torn.all fun s => s.length == 32

/-- A block write carries 3 to 255 bytes (R541, R542). -/
def wfBlockWrite (d : Bytes) : Bool := decide (3 ≤ d.length ∧ d.length ≤ 255)

/-- A write of the host lies in the window it names and names a function and a vector that may exist (R320, R535, R537). -/
def wfHostWrite : HostWrite → Bool
  | .pf _ off _ _ => decide (off < 2 ^ 25)
  | .vf c off _ _ => decide (c < 64 ∧ off < 2 ^ 16)
  | .readPf _ off _ => decide (off < 2 ^ 25)
  | .readVf c off _ => decide (c < 64 ∧ off < 2 ^ 16)
  | .vector fn vec addr data => decide (fn ≤ 64 ∧ vec < 64 ∧ addr < 2 ^ 64 ∧ data < 2 ^ 32)
  | .mask fn vec => decide (fn ≤ 64 ∧ vec < 64)
  | .msixEnable fn _ => decide (fn ≤ 64)
  | .busMaster fn _ => decide (fn ≤ 64)
  | .vfEnable => true
  | .d3hot _ => true
  | .poisoned fn => decide (fn ≤ 64)

/-- A flash slot holds a header of 256 bytes and a body of at most 2 MiB (R384). -/
def wfFlash : Option (Bytes × Bytes × Bytes × Bytes) → Bool
  | none => true
  | some (ha, ba, hb, bb) =>
    ha.length == 256 && hb.length == 256 && decide (ba.length ≤ 2 ^ 21) && decide (bb.length ≤ 2 ^ 21)

/-- A chain's number. -/
def wfChain : ChainId → Bool
  | .chamber c => decide (c < 64)
  | .system => true

/-- What a mirror frame sets up names chambers, groups and queues that exist (R319, R53). -/
def wfSetup : Setup → Bool
  | .chamber c _ _ _ _ _ _ _ _ => decide (c < 64)
  | .table c _ _ => decide (c < 64)
  | .noChamber c => decide (c < 64)
  | .sq c g _ _ _ _ => decide (c < 64 ∧ g < 8)
  | .cq c q _ _ _ _ _ _ _ => decide (c < 64 ∧ q < 8)
  | .noSq c g => decide (c < 64 ∧ g < 8)
  | .noCq c q => decide (c < 64 ∧ q < 8)
  | .ring i _ _ _ _ _ _ => wfChain i
  | .noRing i => wfChain i
  | .chain i _ _ _ _ _ _ _ _ _ _ _ => wfChain i
  | _ => true

/-- Setups. -/
def wfSetups (l : List Setup) : Bool := l.all wfSetup

/-- The operands of a command spell a command of the hardware. -/
def wfInstr : Instr → Bool
  | .keyCacheFill _ ret => wfDdr ret
  | .ferruleCommit m rules => wfRules m rules
  | .evidenceWrite torn => wfTorn torn
  | .sumpCommit ret => wfDdr ret
  | .sumpStart _ ret => wfDdr ret
  | .keyDelete _ ret => wfDdr ret
  | .keyInfo _ ret => wfDdr ret
  | .keyList _ ret => wfDdr ret
  | .sumpRestore _ header lines _ journal => wfImage header lines journal
  | .mbxReq d _ => wfBlockWrite d
  | .registerWrite w => wfHostWrite w
  | .doeDiscovery index => decide (index < 256)
  | .warmingEnd _ ret => wfDdr ret
  | .boot flash _ _ _ _ => wfFlash flash
  | .mirror _ _ _ setups _ => wfSetups setups
  | .resyncCopy ret => wfDdr ret
  | _ => true

end Sys2Proof
end

