-- ==== Sys2Proof/Machine/Rows.lean ====
section
/-! DEFINITION. The shared forms of the commands' meanings: which part of the device must run for a command to do anything, and the few effects
that put operations of several chapters together. -/
namespace Sys2Proof.Machine

/-- A command's effect on the device carried out. -/
def run (s : State) (f : Block → Block) : Host.Outcome State Fault Refusal := .next { s with blk := f s.blk }

/-- As `run`, for a command whose operands must be well-formed. -/
def act (ok : Bool) (s : State) (f : Block → Block) : Host.Outcome State Fault Refusal := if ok then run s f else .fault .malformed

/-- What happens while the device runs (R514). -/
def live (f : Block → Block) (b : Block) : Block := if b.running then f b else b

/-- As `live`, and whatever waited for it goes on. -/
def liveSettle (f : Block → Block) (b : Block) : Block := if b.running then settle (f b) else b

/-- What happens while a domain is on and not warming (R502, R509). -/
def awake (d : Nat) (f : Block → Block) (b : Block) : Block := if b.running && b.domainOn d then f b else b

/-- As `awake`, and whatever waited for it goes on. -/
def awakeSettle (d : Nat) (f : Block → Block) (b : Block) : Block := if b.running && b.domainOn d then settle (f b) else b

/-- What happens while main power is good, through warm resets too. -/
def powered (f : Block → Block) (b : Block) : Block := if b.pmc.powerGood then f b else b

/-- As `powered`, and whatever waited for it goes on. -/
def poweredSettle (f : Block → Block) (b : Block) : Block := if b.pmc.powerGood then settle (f b) else b

/-- The domain of a Kerard port (R502). -/
def kDomain : KPort → Nat
  | .ka => 21
  | .kb => 22

/-- What happens at a Kerard port while its domain is on. -/
def kerardLive (p : KPort) (f : Block → Block) : Block → Block := awake (kDomain p) f

/-- An instruction of the Chisel set issued by a core, while its cluster is on. -/
def chiselRow (k : Nat) (cond : BitVec 4) (f : Block → Course) : Block → Block := awake (ccDomain (k / 8)) fun b => runInstr b k cond f

/-- RECIPE_RUN: Chuck selects item `n`, which names a recipe, and delivers it to a core (R244, R268). -/
def recipeDispatch (b : Block) (n : Nat) : Block :=
  match chooseItem (refreshHolds b) with
  | some (.chs, m, _) =>
    match b.item? n with
    | some i => if m = n ∧ isRecipeRun i.job.opcode then chuckSelect b else b
    | none => b
  | _ => b

/-- BUSY_WINDOW_END: the busy fraction of every core of the window that ends, in 65,536ths (R253, R254). -/
def busyWindowEnd (b : Block) : Block :=
  b.modChuck fun x =>
    { x with busy := (List.range 88).map fun j => (j, min 0xFFFF (Tab.get x.busyCycles 0 j * 65536 / 2 ^ (16 + x.busyWin)))
             busyCycles := [] }

/-- STREAM_RING_WRITE: a held entry is written; a write that fails quiesces the chamber (R71, R332), or stops the system ring (R578). -/
def streamWrite (b : Block) (i : ChainId) (header : Bool) (e : Egress) : Block :=
  match ringWrite b i header e with
  | (b, .done) => b
  | (b, .nothing) => b
  | (b, .noBme) => match i with
    | .chamber c => quiesceChamber b c qBme none
    | .system => systemRingStops b false
  | (b, .bufferError) => match i with
    | .chamber c => quiesceChamber (b.aer (c + 1) "Uncorrectable Internal Error" false) c qAuditDma none
    | .system => systemRingStops b true

/-- SMP_JHEAD: the write is also taken while a warm reset waits for the host's release (R222). -/
def journalHead (b : Block) (pasid : Option Nat) (a : Access) (v : BitVec 32) : Block :=
  if !b.jheadOn then b else if admits (askerOf b pasid) .smp then settle (smpJhead b a v.toNat) else pfReject b false

/-- CLASS_Z_RESPONSE: queued wakes are cancelled with it (R510), and a reset that waited for it begins (R517). -/
def zeroiseResponse (b : Block) : Block :=
  if (zeroDue b).isSome then afterResponse (cancelWakes (classZ b) fun _ => true) else b

/-- CLASS_L_RESPONSE, in the same way. -/
def lockResponse (b : Block) : Block :=
  if (zeroDue b).isNone && !b.belay.responses.isEmpty then afterResponse (cancelWakes (classL b) fun _ => true) else b

/-- SUPPLY_SWITCHOVER: to VBAT only while VMAIN_AON is below its range, which ends main power-good (R500, R556). -/
def supplySwitchover (b : Block) (battery : Bool) : Block := if battery && b.pmc.powerGood then b else supplySwitch b battery

/-- TMP_POWER_ON: it comes before main power is good (R446, R518). -/
def powerOnTmp (b : Block) : Block := if b.pmc.powerGood then b else tmpPowerOn b

end Sys2Proof.Machine
end

