-- ==== Sys2Proof/Machine/Attestation.lean ====
section
/-! DEFINITION. SPDM over DOE (R395). -/
namespace Sys2Proof.Machine

/-- GET_VERSION (R395). -/
def execGetVersion (msg : Bytes) (s : State) : Host.Outcome State Fault Refusal := run s (spdmGetVersion · msg)

/-- GET_CAPABILITIES (R395). -/
def execGetCapabilities (msg : Bytes) (s : State) : Host.Outcome State Fault Refusal := run s (spdmGetCapabilities · msg)

/-- NEGOTIATE_ALGORITHMS (R395). -/
def execNegotiateAlgorithms (msg : Bytes) (s : State) : Host.Outcome State Fault Refusal := run s (spdmNegotiate · msg)

/-- GET_DIGESTS (R395). -/
def execGetDigests (msg : Bytes) (s : State) : Host.Outcome State Fault Refusal := run s (spdmGetDigests · msg)

/-- GET_CERTIFICATE (R395). -/
def execGetCertificate (msg : Bytes) (s : State) : Host.Outcome State Fault Refusal := run s (spdmGetCertificate · msg)

/-- CHALLENGE (R395). -/
def execChallenge (msg : Bytes) (s : State) : Host.Outcome State Fault Refusal := run s (spdmChallenge · msg)

/-- GET_MEASUREMENTS (R395). -/
def execGetMeasurements (msg : Bytes) (s : State) : Host.Outcome State Fault Refusal := run s (spdmGetMeasurements · msg)

/-- SPDM_UNSUPPORTED (R395). -/
def execSpdmUnsupported (msg : Bytes) (s : State) : Host.Outcome State Fault Refusal := run s (spdmUnsupported · msg)

/-- DOE_DISCOVERY (R395). -/
def execDoeDiscovery (index : Nat) (s : State) : Host.Outcome State Fault Refusal := act (decide (index < 256)) s (doeDiscovery · index)

/-- DOE_ABORT (R395). -/
def execDoeAbort (s : State) : Host.Outcome State Fault Refusal := run s doeAbort

end Sys2Proof.Machine
end

