-- ==== Sys2Proof/Machine/Audit.lean ====
section
/-! DEFINITION. Flowstone's chains and stream rings (chapter 7). -/
namespace Sys2Proof.Machine

/-- LEAF_ACCEPT (R199). -/
def execLeafAccept (chain : Fin 65) (s : State) : Host.Outcome State Fault Refusal := run s (awakeSettle 17 (acceptLeaf · (chainOf chain)))

/-- BATCH_INTERVAL_EXPIRY (R201). -/
def execBatchIntervalExpiry (chain : Fin 65) (s : State) : Host.Outcome State Fault Refusal :=
  run s (awakeSettle 17 (batchIntervalExpiry · (chainOf chain)))

/-- SEQ_RESERVE (R197). -/
def execSeqReserve (chain : Fin 65) (s : State) : Host.Outcome State Fault Refusal := run s (awake 17 (reserveSeqs · (chainOf chain)))

/-- CHAIN_RETIRE (R193). -/
def execChainRetire (chain : Fin 65) (s : State) : Host.Outcome State Fault Refusal :=
  run s (awakeSettle 17 (chainRetire · (chainOf chain)))

/-- HEADER_SIGNED (R205). -/
def execHeaderSigned (chain : Fin 65) (batch : Nat) (pq : Bool) (s : State) : Host.Outcome State Fault Refusal :=
  run s (awakeSettle 17 (headerSigned · (chainOf chain) batch pq))

/-- HEADER_RELEASE (R206). -/
def execHeaderRelease (chain : Fin 65) (s : State) : Host.Outcome State Fault Refusal :=
  run s (awakeSettle 17 (headerRelease · (chainOf chain)))

/-- STREAM_RING_WRITE (R207). -/
def execStreamRingWrite (chain : Fin 65) (header : Bool) (e : Egress) (s : State) : Host.Outcome State Fault Refusal :=
  run s (awakeSettle 17 (streamWrite · (chainOf chain) header e))

/-- CHAIN_COMMIT_RETRY (R577). -/
def execChainCommitRetry (chain : Fin 65) (s : State) : Host.Outcome State Fault Refusal :=
  run s (awakeSettle 17 (chainCommitRetry · (chainOf chain)))

/-- VFA_LHEAD (R207). -/
def execVfaLhead (c : Fin 64) (a : Access) (v : BitVec 32) (s : State) : Host.Outcome State Fault Refusal :=
  run s (fun b => vfRequest b c fun b => ringHead b (.chamber c) false a v.toNat)

/-- VFA_HHEAD (R207). -/
def execVfaHhead (c : Fin 64) (a : Access) (v : BitVec 32) (s : State) : Host.Outcome State Fault Refusal :=
  run s (fun b => vfRequest b c fun b => ringHead b (.chamber c) true a v.toNat)

end Sys2Proof.Machine
end

