-- ==== Sys2Proof/Machine/Bimor.lean ====
section
/-! DEFINITION. The Bimor commands and their responses (chapter 14). -/
namespace Sys2Proof.Machine

/-- HELLO (R343). -/
def execHello (m : Mbx) (s : State) : Host.Outcome State Fault Refusal := run s (liveSettle fun b => startCommand b m 0x0001 (cmdHello m))

/-- AUTH_CHALLENGE (R349). -/
def execAuthChallenge (m : Mbx) (s : State) : Host.Outcome State Fault Refusal :=
  run s (liveSettle fun b => startCommand b m 0x0002 (cmdAuthChallenge m))

/-- AUTH_SUBMIT (R351). -/
def execAuthSubmit (m : Mbx) (s : State) : Host.Outcome State Fault Refusal :=
  run s (liveSettle fun b => startCommand b m 0x0003 (cmdAuthSubmit m))

/-- AUTH_CANCEL (R355). -/
def execAuthCancel (m : Mbx) (s : State) : Host.Outcome State Fault Refusal :=
  run s (liveSettle fun b => startCommand b m 0x0004 (cmdAuthCancel m))

/-- AUTHREF_EXPIRY (R349). -/
def execAuthrefExpiry (ref : Nat) (s : State) : Host.Outcome State Fault Refusal := run s (live (authExpiry · ref))

/-- CHAMBER_CREATE (R357). -/
def execChamberCreate (m : Mbx) (s : State) : Host.Outcome State Fault Refusal :=
  run s (liveSettle fun b => startCommand b m 0x0100 (cmdChamberCreate m))

/-- CHAMBER_DELETE (R326). -/
def execChamberDelete (m : Mbx) (s : State) : Host.Outcome State Fault Refusal :=
  run s (liveSettle fun b => startCommand b m 0x0101 (cmdChamberDelete m))

/-- CHAMBER_QUIESCE (R357). -/
def execChamberQuiesce (m : Mbx) (s : State) : Host.Outcome State Fault Refusal :=
  run s (liveSettle fun b => startCommand b m 0x0102 (cmdChamberQuiesce m))

/-- CHAMBER_RESET (R333). -/
def execChamberReset (m : Mbx) (s : State) : Host.Outcome State Fault Refusal :=
  run s (liveSettle fun b => startCommand b m 0x0103 (cmdChamberReset m))

/-- CHAMBER_CONFIG (R357). -/
def execChamberConfig (m : Mbx) (s : State) : Host.Outcome State Fault Refusal :=
  run s (liveSettle fun b => startCommand b m 0x0104 (cmdChamberConfig m))

/-- CHAMBER_PINPOL (R91). -/
def execChamberPinpol (m : Mbx) (s : State) : Host.Outcome State Fault Refusal :=
  run s (liveSettle fun b => startCommand b m 0x0105 (cmdChamberPinpol m))

/-- DECTAB_LOAD (R92). -/
def execDectabLoad (m : Mbx) (s : State) : Host.Outcome State Fault Refusal :=
  run s (liveSettle fun b => startCommand b m 0x0106 (cmdDectabLoad m))

/-- CHAMBER_INFO (R356). -/
def execChamberInfo (m : Mbx) (s : State) : Host.Outcome State Fault Refusal :=
  run s (liveSettle fun b => startCommand b m 0x0107 (cmdChamberInfo m))

/-- CQ_CREATE (R53). -/
def execCqCreate (m : Mbx) (s : State) : Host.Outcome State Fault Refusal :=
  run s (liveSettle fun b => startCommand b m 0x0110 (cmdCqCreate m))

/-- SQ_CREATE (R53). -/
def execSqCreate (m : Mbx) (s : State) : Host.Outcome State Fault Refusal :=
  run s (liveSettle fun b => startCommand b m 0x0111 (cmdSqCreate m))

/-- QUEUE_DELETE (R357). -/
def execQueueDelete (m : Mbx) (s : State) : Host.Outcome State Fault Refusal :=
  run s (liveSettle fun b => startCommand b m 0x0112 (cmdQueueDelete m))

/-- SLICE_BIND (R327). -/
def execSliceBind (m : Mbx) (s : State) : Host.Outcome State Fault Refusal :=
  run s (liveSettle fun b => startCommand b m 0x0120 (cmdSliceBind m))

/-- CEREMONY_OPEN (R359). -/
def execCeremonyOpen (m : Mbx) (s : State) : Host.Outcome State Fault Refusal :=
  run s (liveSettle fun b => startCommand b m 0x0200 (cmdCeremonyOpen m))

/-- KEY_COMPONENT (R359). -/
def execKeyComponent (m : Mbx) (s : State) : Host.Outcome State Fault Refusal :=
  run s (liveSettle fun b => startCommand b m 0x0201 (cmdKeyComponent m))

/-- KEY_GENERATE (R358). -/
def execKeyGenerate (m : Mbx) (s : State) : Host.Outcome State Fault Refusal :=
  run s (liveSettle fun b => startCommand b m 0x0202 (cmdKeyGenerate m))

/-- CEREMONY_CLOSE (R359). -/
def execCeremonyClose (m : Mbx) (s : State) : Host.Outcome State Fault Refusal :=
  run s (liveSettle fun b => startCommand b m 0x0203 (cmdCeremonyClose m))

/-- SESSION_EXPIRY (R359). -/
def execSessionExpiry (id : Nat) (s : State) : Host.Outcome State Fault Refusal := run s (live (sessionExpiry · id))

/-- KEY_DELETE (R358). -/
def execKeyDelete (m : Mbx) (ret : DdrReturn) (s : State) : Host.Outcome State Fault Refusal :=
  act (wfDdr ret) s (liveSettle fun b => startCommand b m 0x0204 (cmdKeyDelete ret m))

/-- KEY_INFO (R358). -/
def execKeyInfo (m : Mbx) (ret : DdrReturn) (s : State) : Host.Outcome State Fault Refusal :=
  act (wfDdr ret) s (liveSettle fun b => startCommand b m 0x0205 (cmdKeyInfo ret m))

/-- KEY_LIST (R358). -/
def execKeyList (m : Mbx) (ret : DdrReturn) (s : State) : Host.Outcome State Fault Refusal :=
  act (wfDdr ret) s (liveSettle fun b => startCommand b m 0x0206 (cmdKeyList ret m))

/-- KEY_PIN (R48). -/
def execKeyPin (m : Mbx) (s : State) : Host.Outcome State Fault Refusal := run s (liveSettle fun b => startCommand b m 0x0207 (cmdKeyPin m))

/-- CUSTODIAN_SET (R358). -/
def execCustodianSet (m : Mbx) (s : State) : Host.Outcome State Fault Refusal :=
  run s (liveSettle fun b => startCommand b m 0x0208 (cmdCustodianSet m))

/-- AUDIT_RING_CREATE (R360). -/
def execAuditRingCreate (m : Mbx) (s : State) : Host.Outcome State Fault Refusal :=
  run s (liveSettle fun b => startCommand b m 0x0300 (cmdAuditRingCreate m))

/-- AUDIT_RING_DELETE (R360). -/
def execAuditRingDelete (m : Mbx) (s : State) : Host.Outcome State Fault Refusal :=
  run s (liveSettle fun b => startCommand b m 0x0301 (cmdAuditRingDelete m))

/-- AUDIT_KEYS (R360). -/
def execAuditKeys (m : Mbx) (s : State) : Host.Outcome State Fault Refusal :=
  run s (liveSettle fun b => startCommand b m 0x0302 (cmdAuditKeys m))

/-- AUDIT_FLUSH_SYSTEM (R360). -/
def execAuditFlushSystem (m : Mbx) (s : State) : Host.Outcome State Fault Refusal :=
  run s (liveSettle fun b => startCommand b m 0x0303 (cmdAuditFlushSystem m))

/-- RECIPE_STAGE (R361). -/
def execRecipeStage (m : Mbx) (s : State) : Host.Outcome State Fault Refusal :=
  run s (liveSettle fun b => startCommand b m 0x0400 (cmdRecipeStage m))

/-- RECIPE_LOAD (R361). -/
def execRecipeLoad (m : Mbx) (s : State) : Host.Outcome State Fault Refusal :=
  run s (liveSettle fun b => startCommand b m 0x0401 (cmdRecipeLoad m))

/-- RECIPE_MASK (R361). -/
def execRecipeMask (m : Mbx) (s : State) : Host.Outcome State Fault Refusal :=
  run s (liveSettle fun b => startCommand b m 0x0402 (cmdRecipeMask m))

/-- RECIPE_DELETE (R361). -/
def execRecipeDelete (m : Mbx) (s : State) : Host.Outcome State Fault Refusal :=
  run s (liveSettle fun b => startCommand b m 0x0403 (cmdRecipeDelete m))

/-- RECIPE_LIST (R361). -/
def execRecipeList (m : Mbx) (s : State) : Host.Outcome State Fault Refusal :=
  run s (liveSettle fun b => startCommand b m 0x0404 (cmdRecipeList m))

/-- DECODE_LOAD (R316). -/
def execDecodeLoad (m : Mbx) (s : State) : Host.Outcome State Fault Refusal :=
  run s (liveSettle fun b => startCommand b m 0x0410 (cmdDecodeLoad m))

/-- DECODE_MASK (R317). -/
def execDecodeMask (m : Mbx) (s : State) : Host.Outcome State Fault Refusal :=
  run s (liveSettle fun b => startCommand b m 0x0411 (cmdDecodeMask m))

/-- DECODE_READ (R315). -/
def execDecodeRead (m : Mbx) (s : State) : Host.Outcome State Fault Refusal :=
  run s (liveSettle fun b => startCommand b m 0x0412 (cmdDecodeRead m))

/-- CONFIG_READ (R362). -/
def execConfigRead (m : Mbx) (s : State) : Host.Outcome State Fault Refusal :=
  run s (liveSettle fun b => startCommand b m 0x0500 (cmdConfigRead m))

/-- CONFIG_COMMIT (R363). -/
def execConfigCommit (m : Mbx) (s : State) : Host.Outcome State Fault Refusal :=
  run s (liveSettle fun b => startCommand b m 0x0501 (cmdConfigCommit m))

/-- SUMP_JOURNAL (R362). -/
def execSumpJournal (m : Mbx) (s : State) : Host.Outcome State Fault Refusal :=
  run s (liveSettle fun b => startCommand b m 0x0510 (cmdSumpJournal m))

/-- SUMP_SAVE (R229). -/
def execSumpSave (m : Mbx) (s : State) : Host.Outcome State Fault Refusal :=
  run s (liveSettle fun b => startCommand b m 0x0511 (cmdSumpSave m))

/-- SUMP_RESTORE (R229). -/
def execSumpRestore (m : Mbx) (header : Bytes) (lines : List (DdrLine × Bytes)) (hint : List Nat) (journal : List Bytes) (s : State) : Host.Outcome State Fault Refusal :=
  act (wfImage header lines journal) s (liveSettle fun b => startCommand b m 0x0512 (cmdSumpRestore header lines hint journal m))

/-- SUMP_INIT (R230). -/
def execSumpInit (m : Mbx) (s : State) : Host.Outcome State Fault Refusal :=
  run s (liveSettle fun b => startCommand b m 0x0513 (cmdSumpInit m))

/-- TALLY_READ (R364). -/
def execTallyRead (m : Mbx) (s : State) : Host.Outcome State Fault Refusal :=
  run s (liveSettle fun b => startCommand b m 0x0600 (cmdTallyRead m))

/-- COUNTER_CONFIG (R523). -/
def execCounterConfig (m : Mbx) (s : State) : Host.Outcome State Fault Refusal :=
  run s (liveSettle fun b => startCommand b m 0x0601 (cmdCounterConfig m))

/-- STRATA_READ (R461). -/
def execStrataRead (m : Mbx) (s : State) : Host.Outcome State Fault Refusal :=
  run s (liveSettle fun b => startCommand b m 0x0610 (cmdStrataRead m))

/-- PAIR_STATUS (R365). -/
def execPairStatus (m : Mbx) (s : State) : Host.Outcome State Fault Refusal :=
  run s (liveSettle fun b => startCommand b m 0x0700 (cmdPairStatus m))

/-- PAIR_CREATE (R477). -/
def execPairCreate (m : Mbx) (s : State) : Host.Outcome State Fault Refusal :=
  run s (liveSettle fun b => startCommand b m 0x0701 (cmdPairCreate m))

/-- PAIR_DISSOLVE (R498). -/
def execPairDissolve (m : Mbx) (s : State) : Host.Outcome State Fault Refusal :=
  run s (liveSettle fun b => startCommand b m 0x0702 (cmdPairDissolve m))

/-- CLAIM_GRANT (R365). -/
def execClaimGrant (m : Mbx) (s : State) : Host.Outcome State Fault Refusal :=
  run s (liveSettle fun b => startCommand b m 0x0703 (cmdClaimGrant m))

/-- ATTEST (R393). -/
def execAttest (m : Mbx) (s : State) : Host.Outcome State Fault Refusal := run s (liveSettle fun b => startCommand b m 0x0800 (cmdAttest m))

/-- LIFECYCLE_SET (R371). -/
def execLifecycleSet (m : Mbx) (s : State) : Host.Outcome State Fault Refusal :=
  run s (liveSettle fun b => startCommand b m 0x0801 (cmdLifecycleSet m))

/-- UNLOCK (R445). -/
def execUnlock (m : Mbx) (s : State) : Host.Outcome State Fault Refusal := run s (liveSettle fun b => startCommand b m 0x0802 (cmdUnlock m))

/-- ZEROISE (R366). -/
def execZeroise (m : Mbx) (s : State) : Host.Outcome State Fault Refusal :=
  run s (liveSettle fun b => startCommand b m 0x0803 (cmdZeroise m))

/-- FW_STAGE (R366). -/
def execFwStage (m : Mbx) (s : State) : Host.Outcome State Fault Refusal :=
  run s (liveSettle fun b => startCommand b m 0x0810 (cmdFwStage m))

/-- FW_COMMIT (R544). -/
def execFwCommit (m : Mbx) (s : State) : Host.Outcome State Fault Refusal :=
  run s (liveSettle fun b => startCommand b m 0x0811 (cmdFwCommit m))

/-- TAMPER_SET (R431). -/
def execTamperSet (m : Mbx) (s : State) : Host.Outcome State Fault Refusal :=
  run s (liveSettle fun b => startCommand b m 0x0804 (cmdTamperSet m))

/-- DEVICE_RESET (R516). -/
def execDeviceReset (m : Mbx) (s : State) : Host.Outcome State Fault Refusal :=
  run s (liveSettle fun b => startCommand b m 0x0805 (cmdDeviceReset m))

/-- IO_CONFIG (R548). -/
def execIoConfig (m : Mbx) (s : State) : Host.Outcome State Fault Refusal :=
  run s (liveSettle fun b => startCommand b m 0x0900 (cmdIoConfig m))

/-- IO_STATUS (R548). -/
def execIoStatus (m : Mbx) (s : State) : Host.Outcome State Fault Refusal :=
  run s (liveSettle fun b => startCommand b m 0x0901 (cmdIoStatus m))

/-- BIMOR_RESPONSE (R338). -/
def execBimorResponse (m : Mbx) (s : State) : Host.Outcome State Fault Refusal :=
  run s (liveSettle fun b => mbxRespond (undefinedCommand b m) m)

end Sys2Proof.Machine
end

