-- ==== Sys2Proof/Machine/ChiselBytes.lean ====
section
/-! DEFINITION. The byte instructions of the Chisel set (R291). -/
namespace Sys2Proof.Machine

/-- MOV (R291). -/
def execMov (k : Fin 64) (cond : BitVec 4) (d w : BitVec 4) (s : State) : Host.Outcome State Fault Refusal :=
  run s (chiselRow k cond (byteOp k d (·.reg w) bytePut))

/-- MOVI (R291). -/
def execMovi (k : Fin 64) (cond : BitVec 4) (d : BitVec 4) (imm : BitVec 8) (s : State) : Host.Outcome State Fault Refusal :=
  run s (chiselRow k cond (byteOp k d (fun _ => imm) bytePut))

/-- ADD (R291). -/
def execAdd (k : Fin 64) (cond : BitVec 4) (d w : BitVec 4) (s : State) : Host.Outcome State Fault Refusal :=
  run s (chiselRow k cond (byteOp k d (·.reg w) byteAdd))

/-- ADDI (R291). -/
def execAddi (k : Fin 64) (cond : BitVec 4) (d : BitVec 4) (imm : BitVec 8) (s : State) : Host.Outcome State Fault Refusal :=
  run s (chiselRow k cond (byteOp k d (fun _ => imm) byteAdd))

/-- ADC (R291). -/
def execAdc (k : Fin 64) (cond : BitVec 4) (d w : BitVec 4) (s : State) : Host.Outcome State Fault Refusal :=
  run s (chiselRow k cond (byteOp k d (·.reg w) byteAdc))

/-- SUB (R291). -/
def execSub (k : Fin 64) (cond : BitVec 4) (d w : BitVec 4) (s : State) : Host.Outcome State Fault Refusal :=
  run s (chiselRow k cond (byteOp k d (·.reg w) byteSub))

/-- SUBI (R291). -/
def execSubi (k : Fin 64) (cond : BitVec 4) (d : BitVec 4) (imm : BitVec 8) (s : State) : Host.Outcome State Fault Refusal :=
  run s (chiselRow k cond (byteOp k d (fun _ => imm) byteSub))

/-- SBC (R291). -/
def execSbc (k : Fin 64) (cond : BitVec 4) (d w : BitVec 4) (s : State) : Host.Outcome State Fault Refusal :=
  run s (chiselRow k cond (byteOp k d (·.reg w) byteSbc))

/-- CMP (R291). -/
def execCmp (k : Fin 64) (cond : BitVec 4) (d w : BitVec 4) (s : State) : Host.Outcome State Fault Refusal :=
  run s (chiselRow k cond (byteTest k d (·.reg w) byteSub))

/-- CMPI (R291). -/
def execCmpi (k : Fin 64) (cond : BitVec 4) (d : BitVec 4) (imm : BitVec 8) (s : State) : Host.Outcome State Fault Refusal :=
  run s (chiselRow k cond (byteTest k d (fun _ => imm) byteSub))

/-- AND (R291). -/
def execAnd (k : Fin 64) (cond : BitVec 4) (d w : BitVec 4) (s : State) : Host.Outcome State Fault Refusal :=
  run s (chiselRow k cond (byteOp k d (·.reg w) byteAnd))

/-- ANDI (R291). -/
def execAndi (k : Fin 64) (cond : BitVec 4) (d : BitVec 4) (imm : BitVec 8) (s : State) : Host.Outcome State Fault Refusal :=
  run s (chiselRow k cond (byteOp k d (fun _ => imm) byteAnd))

/-- OR (R291). -/
def execOr (k : Fin 64) (cond : BitVec 4) (d w : BitVec 4) (s : State) : Host.Outcome State Fault Refusal :=
  run s (chiselRow k cond (byteOp k d (·.reg w) byteOr))

/-- ORI (R291). -/
def execOri (k : Fin 64) (cond : BitVec 4) (d : BitVec 4) (imm : BitVec 8) (s : State) : Host.Outcome State Fault Refusal :=
  run s (chiselRow k cond (byteOp k d (fun _ => imm) byteOr))

/-- XOR (R291). -/
def execXor (k : Fin 64) (cond : BitVec 4) (d w : BitVec 4) (s : State) : Host.Outcome State Fault Refusal :=
  run s (chiselRow k cond (byteOp k d (·.reg w) byteXor))

/-- XORI (R291). -/
def execXori (k : Fin 64) (cond : BitVec 4) (d : BitVec 4) (imm : BitVec 8) (s : State) : Host.Outcome State Fault Refusal :=
  run s (chiselRow k cond (byteOp k d (fun _ => imm) byteXor))

/-- TSTI (R291). -/
def execTsti (k : Fin 64) (cond : BitVec 4) (d : BitVec 4) (imm : BitVec 8) (s : State) : Host.Outcome State Fault Refusal :=
  run s (chiselRow k cond (byteTest k d (fun _ => imm) byteAnd))

/-- SHL (R291). -/
def execShl (k : Fin 64) (cond : BitVec 4) (r : BitVec 4) (s : State) : Host.Outcome State Fault Refusal :=
  run s (chiselRow k cond (byteUnary k r unaryShl))

/-- SHR (R291). -/
def execShr (k : Fin 64) (cond : BitVec 4) (r : BitVec 4) (s : State) : Host.Outcome State Fault Refusal :=
  run s (chiselRow k cond (byteUnary k r unaryShr))

/-- ASR (R291). -/
def execAsr (k : Fin 64) (cond : BitVec 4) (r : BitVec 4) (s : State) : Host.Outcome State Fault Refusal :=
  run s (chiselRow k cond (byteUnary k r unaryAsr))

/-- ROL (R291). -/
def execRol (k : Fin 64) (cond : BitVec 4) (r : BitVec 4) (s : State) : Host.Outcome State Fault Refusal :=
  run s (chiselRow k cond (byteUnary k r unaryRol))

/-- ROR (R291). -/
def execRor (k : Fin 64) (cond : BitVec 4) (r : BitVec 4) (s : State) : Host.Outcome State Fault Refusal :=
  run s (chiselRow k cond (byteUnary k r unaryRor))

/-- SWAP (R291). -/
def execSwap (k : Fin 64) (cond : BitVec 4) (r : BitVec 4) (s : State) : Host.Outcome State Fault Refusal :=
  run s (chiselRow k cond (byteUnary k r unarySwap))

/-- INC (R291). -/
def execInc (k : Fin 64) (cond : BitVec 4) (r : BitVec 4) (s : State) : Host.Outcome State Fault Refusal :=
  run s (chiselRow k cond (byteUnary k r unaryInc))

/-- DEC (R291). -/
def execDec (k : Fin 64) (cond : BitVec 4) (r : BitVec 4) (s : State) : Host.Outcome State Fault Refusal :=
  run s (chiselRow k cond (byteUnary k r unaryDec))

/-- NOT (R291). -/
def execNot (k : Fin 64) (cond : BitVec 4) (r : BitVec 4) (s : State) : Host.Outcome State Fault Refusal :=
  run s (chiselRow k cond (byteUnary k r unaryNot))

/-- NEG (R291). -/
def execNeg (k : Fin 64) (cond : BitVec 4) (r : BitVec 4) (s : State) : Host.Outcome State Fault Refusal :=
  run s (chiselRow k cond (byteUnary k r unaryNeg))

/-- MUL (R294). -/
def execMul (k : Fin 64) (cond : BitVec 4) (d : BitVec 3) (x y : BitVec 4) (s : State) : Host.Outcome State Fault Refusal :=
  run s (chiselRow k cond (courseMul k d x y))

/-- DIVU (R294). -/
def execDivu (k : Fin 64) (cond : BitVec 4) (d : BitVec 3) (w : BitVec 4) (s : State) : Host.Outcome State Fault Refusal :=
  run s (chiselRow k cond (courseDivu k d w))

/-- GETF (R291). -/
def execGetf (k : Fin 64) (cond : BitVec 4) (d : BitVec 4) (s : State) : Host.Outcome State Fault Refusal :=
  run s (chiselRow k cond (courseGetf k d))

/-- SETF (R291). -/
def execSetf (k : Fin 64) (cond : BitVec 4) (w : BitVec 4) (s : State) : Host.Outcome State Fault Refusal :=
  run s (chiselRow k cond (courseSetf k w))

end Sys2Proof.Machine
end

