-- ==== Sys2Proof/Machine/ChiselControl.lean ====
section
/-! DEFINITION. The control instructions of the Chisel set, and the end of a work item (R270 to R279, R290). -/
namespace Sys2Proof.Machine

/-- NOP_INSTR (R290). -/
def execNopInstr (k : Fin 64) (cond : BitVec 4) (s : State) : Host.Outcome State Fault Refusal := run s (chiselRow k cond (courseNop))

/-- BR (R290). -/
def execBr (k : Fin 64) (cond : BitVec 4) (off : BitVec 14) (s : State) : Host.Outcome State Fault Refusal :=
  run s (chiselRow k cond (courseBr k off))

/-- CALL (R302). -/
def execCall (k : Fin 64) (cond : BitVec 4) (off : BitVec 14) (s : State) : Host.Outcome State Fault Refusal :=
  run s (chiselRow k cond (courseCall k off))

/-- RET (R302). -/
def execRet (k : Fin 64) (cond : BitVec 4) (s : State) : Host.Outcome State Fault Refusal := run s (chiselRow k cond (coreRet k))

/-- JR (R290). -/
def execJr (k : Fin 64) (cond : BitVec 4) (p : BitVec 3) (s : State) : Host.Outcome State Fault Refusal :=
  run s (chiselRow k cond (courseJr k p))

/-- CALLR (R290). -/
def execCallr (k : Fin 64) (cond : BitVec 4) (p : BitVec 3) (s : State) : Host.Outcome State Fault Refusal :=
  run s (chiselRow k cond (courseCallr k p))

/-- LOOP (R298). -/
def execLoop (k : Fin 64) (cond : BitVec 4) (p : BitVec 3) (off : BitVec 11) (s : State) : Host.Outcome State Fault Refusal :=
  run s (chiselRow k cond (courseLoop k p off))

/-- LOOPI (R298). -/
def execLoopi (k : Fin 64) (cond : BitVec 4) (count : BitVec 6) (off : BitVec 8) (s : State) : Host.Outcome State Fault Refusal :=
  run s (chiselRow k cond (courseLoopi k count off))

/-- ECALL (R275). -/
def execEcall (k : Fin 64) (cond : BitVec 4) (d : BitVec 4) (s : State) : Host.Outcome State Fault Refusal :=
  run s (chiselRow k cond (ecall k d))

/-- EWAIT (R275). -/
def execEwait (k : Fin 64) (cond : BitVec 4) (w : BitVec 4) (s : State) : Host.Outcome State Fault Refusal :=
  run s (chiselRow k cond (courseEwait k w))

/-- TAKE (R248). -/
def execTake (k : Fin 64) (cond : BitVec 4) (s : State) : Host.Outcome State Fault Refusal :=
  run s (awake (ccDomain (k.val / 8)) (coreTake · k cond))

/-- DONE (R271). -/
def execDone (k : Fin 64) (cond : BitVec 4) (e : Egress) (s : State) : Host.Outcome State Fault Refusal :=
  run s (chiselRow k cond (coreDone k e))

/-- CORE_CLEAR (R272). -/
def execCoreClear (k : Fin 64) (s : State) : Host.Outcome State Fault Refusal := run s (liveSettle (coreClear · k))

/-- WATCHDOG (R279). -/
def execWatchdog (k : Fin 64) (s : State) : Host.Outcome State Fault Refusal :=
  run s (awakeSettle (ccDomain (k.val / 8)) (coreWatchdog · k))

end Sys2Proof.Machine
end

