-- ==== Sys2Proof/Machine/ChiselWords.lean ====
section
/-! DEFINITION. The 16-bit, memory and stack instructions of the Chisel set (R292), and the decode-table instructions (R310). -/
namespace Sys2Proof.Machine

/-- MOVW (R292). -/
def execMovw (k : Fin 64) (cond : BitVec 4) (d w : Reg16) (s : State) : Host.Outcome State Fault Refusal :=
  run s (chiselRow k cond (courseMovw k d w))

/-- LPI (R292). -/
def execLpi (k : Fin 64) (cond : BitVec 4) (d : Reg16) (high : Bool) (imm : BitVec 8) (s : State) : Host.Outcome State Fault Refusal :=
  run s (chiselRow k cond (courseLpi k d high imm))

/-- ADDW (R292). -/
def execAddw (k : Fin 64) (cond : BitVec 4) (d w : Reg16) (s : State) : Host.Outcome State Fault Refusal :=
  run s (chiselRow k cond (courseAddw k d w))

/-- ADDWI (R292). -/
def execAddwi (k : Fin 64) (cond : BitVec 4) (d : Reg16) (imm : BitVec 10) (s : State) : Host.Outcome State Fault Refusal :=
  run s (chiselRow k cond (courseAddwi k d imm))

/-- LD (R288). -/
def execLd (k : Fin 64) (cond : BitVec 4) (d : BitVec 4) (p : Ptr) (inc : Bool) (disp : BitVec 8) (s : State) : Host.Outcome State Fault Refusal :=
  run s (chiselRow k cond (courseLd k d p inc disp))

/-- ST (R288). -/
def execSt (k : Fin 64) (cond : BitVec 4) (w : BitVec 4) (p : Ptr) (inc : Bool) (disp : BitVec 8) (s : State) : Host.Outcome State Fault Refusal :=
  run s (chiselRow k cond (courseSt k w p inc disp))

/-- LDW (R288). -/
def execLdw (k : Fin 64) (cond : BitVec 4) (d : BitVec 3) (p : Ptr) (inc : Bool) (disp : BitVec 8) (s : State) : Host.Outcome State Fault Refusal :=
  run s (chiselRow k cond (courseLdw k d p inc disp))

/-- STW (R288). -/
def execStw (k : Fin 64) (cond : BitVec 4) (w : BitVec 3) (p : Ptr) (inc : Bool) (disp : BitVec 8) (s : State) : Host.Outcome State Fault Refusal :=
  run s (chiselRow k cond (courseStw k w p inc disp))

/-- MOVB (R292). -/
def execMovb (k : Fin 64) (cond : BitVec 4) (s : State) : Host.Outcome State Fault Refusal := run s (chiselRow k cond (courseMovb k))

/-- CMPB (R292). -/
def execCmpb (k : Fin 64) (cond : BitVec 4) (w : BitVec 4) (s : State) : Host.Outcome State Fault Refusal :=
  run s (chiselRow k cond (courseCmpb k w))

/-- PUSH (R293). -/
def execPush (k : Fin 64) (cond : BitVec 4) (w : BitVec 4) (s : State) : Host.Outcome State Fault Refusal :=
  run s (chiselRow k cond (coursePush k w))

/-- POP (R293). -/
def execPop (k : Fin 64) (cond : BitVec 4) (d : BitVec 4) (s : State) : Host.Outcome State Fault Refusal :=
  run s (chiselRow k cond (coursePop k d))

/-- PUSHW (R293). -/
def execPushw (k : Fin 64) (cond : BitVec 4) (w : BitVec 3) (s : State) : Host.Outcome State Fault Refusal :=
  run s (chiselRow k cond (coursePushw k w))

/-- POPW (R293). -/
def execPopw (k : Fin 64) (cond : BitVec 4) (d : BitVec 3) (s : State) : Host.Outcome State Fault Refusal :=
  run s (chiselRow k cond (coursePopw k d))

/-- CX (R310). -/
def execCx (k : Fin 64) (cond : BitVec 4) (n : BitVec 3) (opnd : BitVec 14) (s : State) : Host.Outcome State Fault Refusal :=
  run s (awake (ccDomain (k.val / 8)) (coreCx · k cond n opnd))

/-- MICRO (R313). -/
def execMicro (k : Fin 64) (cond : BitVec 4) (n : BitVec 3) (opnd : BitVec 14) (s : State) : Host.Outcome State Fault Refusal :=
  run s (awakeSettle (ccDomain (k.val / 8)) (coreMicro · k cond n opnd))

end Sys2Proof.Machine
end

