-- ==== Sys2Proof/Machine/Engines.lean ====
section
/-! DEFINITION. What the engines and the Chisel ports do by themselves (chapters 5, 6, 9, 10). -/
namespace Sys2Proof.Machine

/-- SPINDLE_ISSUE (R126). -/
def execSpindleIssue (s : State) : Host.Outcome State Fault Refusal := run s (live spindleIssue)

/-- PASS_COMPLETE (R118). -/
def execPassComplete (pipe : Fin 4) (e : Egress) (s : State) : Host.Outcome State Fault Refusal :=
  run s (awakeSettle (spDomain (pipe.val / 2)) (passComplete · pipe e))

/-- AUGER_ISSUE (R150). -/
def execAugerIssue (u : AugerUnit) (s : State) : Host.Outcome State Fault Refusal := run s (live (augerIssue · u))

/-- AUGER_RESULT (R150). -/
def execAugerResult (id : Nat) (e : Egress) (s : State) : Host.Outcome State Fault Refusal := run s (awakeSettle 17 (augerResult · id e))

/-- GALLERY_DISPATCH (R159). -/
def execGalleryDispatch (s : State) : Host.Outcome State Fault Refusal := run s (liveSettle galleryDispatch)

/-- VALIDATION_WINDOW_END (R179). -/
def execValidationWindowEnd (k : Fin 20) (s : State) : Host.Outcome State Fault Refusal :=
  run s (awakeSettle (gaDomain k) (validationWindowEnd · k))

/-- GALLERY_OP_COMPLETE (R190). -/
def execGalleryOpComplete (k : Fin 20) (bad : Option (BitVec 21)) (e : Egress) (s : State) : Host.Outcome State Fault Refusal :=
  run s (awakeSettle (gaDomain k) (galleryOpComplete · k (bad.map (·.toNat)) e))

/-- GALLERY_ABORT (R189). -/
def execGalleryAbort (k : Fin 20) (s : State) : Host.Outcome State Fault Refusal := run s (awakeSettle (gaDomain k) (galleryAbort · k))

/-- ABORTED_SIGNALLED (R189). -/
def execAbortedSignalled (k : Fin 20) (s : State) : Host.Outcome State Fault Refusal :=
  run s (awakeSettle (gaDomain k) (abortedSignalled · k))

/-- ENGINE_LOCAL_ABORT (R514). -/
def execEngineLocalAbort (core : Option (Fin 20)) (s : State) : Host.Outcome State Fault Refusal :=
  run s (liveSettle (engineLocalAbort · (core.map (·.val))))

/-- TICKET_COMPLETE (R276). -/
def execTicketComplete (k : Fin 64) (t : Fin 16) (s : State) : Host.Outcome State Fault Refusal :=
  run s (awakeSettle (ccDomain (k.val / 8)) (ticketComplete · k t))

/-- ECALL_QUEUE_ACCEPT (R18). -/
def execEcallQueueAccept (k : Fin 64) (s : State) : Host.Outcome State Fault Refusal :=
  run s (awakeSettle (ccDomain (k.val / 8)) (ecallQueueAccept · k))

/-- WINDOW_PAGE_LOAD (R264). -/
def execWindowPageLoad (k : Fin 64) (x : DmaRead) (s : State) : Host.Outcome State Fault Refusal :=
  run s (awakeSettle (ccDomain (k.val / 8)) (windowPageLoad · k x))

/-- CC_WINPOS (R264). -/
def execCcWinpos (k : Fin 64) (v : BitVec 8) (s : State) : Host.Outcome State Fault Refusal :=
  run s (awake (ccDomain (k.val / 8)) (ccWinpos · k v))

/-- CC_RNGDATA (R263). -/
def execCcRngdata (k : Fin 64) (s : State) : Host.Outcome State Fault Refusal := run s (awake (ccDomain (k.val / 8)) (ccRead · k 0xF201))

/-- COUNTER_LOW_BYTE_READ (R527). -/
def execCounterLowByteRead (k : Fin 64) (n : Option (Fin 8)) (s : State) : Host.Outcome State Fault Refusal :=
  run s (awake (ccDomain (k.val / 8)) (ccRead · k (counterAddr (n.map (·.val)))))

/-- BUSY_WINDOW_END (R253). -/
def execBusyWindowEnd (s : State) : Host.Outcome State Fault Refusal := run s (awake 1 busyWindowEnd)

end Sys2Proof.Machine
end

