-- ==== Sys2Proof/Machine/Jtag.lean ====
section
/-! DEFINITION. The TAP and the debug access port (R545 to R547). -/
namespace Sys2Proof.Machine

/-- EXTEST (R545). -/
def execExtest (s : State) : Host.Outcome State Fault Refusal := run s (jtagLoad · .extest)

/-- IDCODE (R545). -/
def execIdcode (s : State) : Host.Outcome State Fault Refusal := run s jtagIdcode

/-- SAMPLE_PRELOAD (R545). -/
def execSamplePreload (s : State) : Host.Outcome State Fault Refusal := run s (jtagLoad · .sample)

/-- HIGHZ (R545). -/
def execHighz (s : State) : Host.Outcome State Fault Refusal := run s (jtagLoad · .highz)

/-- CLAMP (R545). -/
def execClamp (s : State) : Host.Outcome State Fault Refusal := run s (jtagLoad · .clamp)

/-- DAP (R547). -/
def execDap (s : State) : Host.Outcome State Fault Refusal := run s (jtagLoad · .dap)

/-- BYPASS (R545). -/
def execBypass (s : State) : Host.Outcome State Fault Refusal := run s (jtagLoad · .bypass)

/-- DAP_ACCESS (R547). -/
def execDapAccess (write : Bool) (addr : BitVec 40) (s : State) : Host.Outcome State Fault Refusal := run s (dapAccess · write addr)

/-- TAP_RESET (R545). -/
def execTapReset (s : State) : Host.Outcome State Fault Refusal := run s tapReset

end Sys2Proof.Machine
end

