-- ==== Sys2Proof/Machine/Opcodes.lean ====
section
/-! DEFINITION. The opcodes of descriptors and engine calls: queue control, payment, cipher, hash, public key, recipes and OUTPUT (chapters 3 to 6, 10). -/
namespace Sys2Proof.Machine

/-- NOP (R69). -/
def execNop (r : Requester) (s : State) : Host.Outcome State Fault Refusal := run s (liveSettle (opNop · r))

/-- FENCE (R76). -/
def execFence (r : Requester) (s : State) : Host.Outcome State Fault Refusal := run s (liveSettle (opFence · r))

/-- AUDIT_FLUSH (R69). -/
def execAuditFlush (r : Requester) (s : State) : Host.Outcome State Fault Refusal := run s (liveSettle (opAuditFlush · r))

/-- PIN_TRANSLATE (R95). -/
def execPinTranslate (r : Requester) (s : State) : Host.Outcome State Fault Refusal := run s (liveSettle (opRun · 0x0100 r))

/-- PIN_TRANSLATE_DUKPT (R98). -/
def execPinTranslateDukpt (r : Requester) (s : State) : Host.Outcome State Fault Refusal := run s (liveSettle (opRun · 0x0101 r))

/-- PIN_VERIFY_OFFSET (R101). -/
def execPinVerifyOffset (r : Requester) (s : State) : Host.Outcome State Fault Refusal := run s (liveSettle (opRun · 0x0110 r))

/-- PIN_VERIFY_PVV (R102). -/
def execPinVerifyPvv (r : Requester) (s : State) : Host.Outcome State Fault Refusal := run s (liveSettle (opRun · 0x0111 r))

/-- PIN_VERIFY_COMPARE (R103). -/
def execPinVerifyCompare (r : Requester) (s : State) : Host.Outcome State Fault Refusal := run s (liveSettle (opRun · 0x0112 r))

/-- MAC_GENERATE (R106). -/
def execMacGenerate (r : Requester) (s : State) : Host.Outcome State Fault Refusal := run s (liveSettle (opRun · 0x0200 r))

/-- MAC_VERIFY (R106). -/
def execMacVerify (r : Requester) (s : State) : Host.Outcome State Fault Refusal := run s (liveSettle (opRun · 0x0201 r))

/-- MAC_GENERATE_DUKPT (R107). -/
def execMacGenerateDukpt (r : Requester) (s : State) : Host.Outcome State Fault Refusal := run s (liveSettle (opRun · 0x0202 r))

/-- MAC_VERIFY_DUKPT (R107). -/
def execMacVerifyDukpt (r : Requester) (s : State) : Host.Outcome State Fault Refusal := run s (liveSettle (opRun · 0x0203 r))

/-- EMV_ARQC_VERIFY (R109). -/
def execEmvArqcVerify (r : Requester) (s : State) : Host.Outcome State Fault Refusal := run s (liveSettle (opRun · 0x0300 r))

/-- CVC_GENERATE (R111). -/
def execCvcGenerate (r : Requester) (s : State) : Host.Outcome State Fault Refusal := run s (liveSettle (opRun · 0x0310 r))

/-- CVC_VERIFY (R111). -/
def execCvcVerify (r : Requester) (s : State) : Host.Outcome State Fault Refusal := run s (liveSettle (opRun · 0x0311 r))

/-- TR31_IMPORT (R113). -/
def execTr31Import (r : Requester) (s : State) : Host.Outcome State Fault Refusal := run s (liveSettle (opRun · 0x0700 r))

/-- TR31_EXPORT (R116). -/
def execTr31Export (r : Requester) (s : State) : Host.Outcome State Fault Refusal := run s (liveSettle (opRun · 0x0701 r))

/-- DUKPT_IK_EXPORT (R117). -/
def execDukptIkExport (r : Requester) (s : State) : Host.Outcome State Fault Refusal := run s (liveSettle (opRun · 0x0702 r))

/-- CIPHER_ENCRYPT (R143). -/
def execCipherEncrypt (r : Requester) (s : State) : Host.Outcome State Fault Refusal := run s (liveSettle (opRun · 0x0500 r))

/-- CIPHER_DECRYPT (R143). -/
def execCipherDecrypt (r : Requester) (s : State) : Host.Outcome State Fault Refusal := run s (liveSettle (opRun · 0x0501 r))

/-- HASH (R152). -/
def execHash (r : Requester) (s : State) : Host.Outcome State Fault Refusal := run s (liveSettle (opRun · 0x0600 r))

/-- PK_SIGN (R167). -/
def execPkSign (r : Requester) (s : State) : Host.Outcome State Fault Refusal := run s (liveSettle (opRun · 0x0400 r))

/-- PK_VERIFY (R172). -/
def execPkVerify (r : Requester) (s : State) : Host.Outcome State Fault Refusal := run s (liveSettle (opRun · 0x0401 r))

/-- PK_BATCH_VERIFY (R185). -/
def execPkBatchVerify (r : Requester) (s : State) : Host.Outcome State Fault Refusal := run s (liveSettle (opRun · 0x0402 r))

/-- PK_KEYGEN (R174). -/
def execPkKeygen (r : Requester) (s : State) : Host.Outcome State Fault Refusal := run s (liveSettle (opRun · 0x0403 r))

/-- PK_DERIVE (R175). -/
def execPkDerive (r : Requester) (s : State) : Host.Outcome State Fault Refusal := run s (liveSettle (opRun · 0x0404 r))

/-- PK_ENCAPSULATE (R175). -/
def execPkEncapsulate (r : Requester) (s : State) : Host.Outcome State Fault Refusal := run s (liveSettle (opRun · 0x0405 r))

/-- PK_DECAPSULATE (R176). -/
def execPkDecapsulate (r : Requester) (s : State) : Host.Outcome State Fault Refusal := run s (liveSettle (opRun · 0x0406 r))

/-- PK_ENCRYPT (R177). -/
def execPkEncrypt (r : Requester) (s : State) : Host.Outcome State Fault Refusal := run s (liveSettle (opRun · 0x0407 r))

/-- PK_DECRYPT (R177). -/
def execPkDecrypt (r : Requester) (s : State) : Host.Outcome State Fault Refusal := run s (liveSettle (opRun · 0x0408 r))

/-- RECIPE_RUN (R268). -/
def execRecipeRun (n : Nat) (s : State) : Host.Outcome State Fault Refusal := run s (awakeSettle 1 (recipeDispatch · n))

/-- OUTPUT (R278). -/
def execOutput (k : Fin 64) (t : Fin 16) (e : Egress) (s : State) : Host.Outcome State Fault Refusal :=
  run s (liveSettle (outputCall · k t e))

end Sys2Proof.Machine
end

