-- ==== Sys2Proof/Machine/Pair.lean ====
section
/-! DEFINITION. Kerard: ports, frames, pairs and mirroring (chapter 20). -/
namespace Sys2Proof.Machine

/-- VERSION (R468). -/
def execVersion (p : KPort) (node gen : Nat) (lo hi : Nat × Nat) (s : State) : Host.Outcome State Fault Refusal :=
  run s (live (versionReceive · p node gen lo hi))

/-- KERARD_TRAIN (R467). -/
def execKerardTrain (p : KPort) (good lanes2 : Bool) (s : State) : Host.Outcome State Fault Refusal :=
  run s (kerardLive p (kerardTrain · p good lanes2))

/-- RETRAIN_TIMER (R467). -/
def execRetrainTimer (p : KPort) (s : State) : Host.Outcome State Fault Refusal := run s (kerardLive p (retrainTimer · p))

/-- BYPASS_OPEN (R470). -/
def execBypassOpen (s : State) : Host.Outcome State Fault Refusal := run s (live bypassOpen)

/-- BYPASS_UP_TIMEOUT (R470). -/
def execBypassUpTimeout (s : State) : Host.Outcome State Fault Refusal := run s (live bypassTimeout)

/-- BYPASS_RETRY (R470). -/
def execBypassRetry (s : State) : Host.Outcome State Fault Refusal :=
  run s (live fun b => if b.kerard.bypassTrying then bypassOpen b else b)

/-- FRAME_FORWARD (R466). -/
def execFrameForward (p : KPort) (f : Bytes) (s : State) : Host.Outcome State Fault Refusal := run s (kerardLive p (frameForward · p f))

/-- DISCOVER_SEND (R474). -/
def execDiscoverSend (s : State) : Host.Outcome State Fault Refusal := run s (live discoverSend)

/-- DISCOVER (R465). -/
def execDiscover (p : KPort) (f : Bytes) (s : State) : Host.Outcome State Fault Refusal :=
  run s (kerardLive p fun b => settle (discoverReceive b p f))

/-- PAIR_JOIN (R478). -/
def execPairJoin (p : KPort) (f : Bytes) (pk : Bytes) (s : State) : Host.Outcome State Fault Refusal :=
  run s (kerardLive p fun b => settle (joinReceive b p f pk))

/-- PAIR_JOIN_TIMEOUT (R477). -/
def execPairJoinTimeout (s : State) : Host.Outcome State Fault Refusal := run s (liveSettle joinTimeout)

/-- HEARTBEAT_SEND (R487). -/
def execHeartbeatSend (s : State) : Host.Outcome State Fault Refusal := run s (live heartbeatSend)

/-- HEARTBEAT (R487). -/
def execHeartbeat (p : KPort) (f : Bytes) (s : State) : Host.Outcome State Fault Refusal :=
  run s (kerardLive p fun b => settle (heartbeatReceive b p f))

/-- HEARTBEAT_MISSED (R488). -/
def execHeartbeatMissed (who : Party) (s : State) : Host.Outcome State Fault Refusal := run s (liveSettle (heartbeatMissed · who))

/-- CLAIM (R492). -/
def execClaim (p : KPort) (f : Bytes) (s : State) : Host.Outcome State Fault Refusal :=
  run s (kerardLive p fun b => settle (claimReceive b p f))

/-- DISSOLVE (R498). -/
def execDissolve (p : KPort) (f : Bytes) (s : State) : Host.Outcome State Fault Refusal :=
  run s (kerardLive p fun b => settle (dissolveReceive b p f))

/-- MIRROR (R483). -/
def execMirror (p : KPort) (f : Bytes) (iv : Bytes) (setups : List Setup) (last : Bool) (s : State) : Host.Outcome State Fault Refusal :=
  act (wfSetups setups) s (kerardLive p fun b => settle (mirrorReceive b p f iv setups last))

/-- MIRROR_HDR (R484). -/
def execMirrorHdr (p : KPort) (f : Bytes) (iv : Bytes) (s : State) : Host.Outcome State Fault Refusal :=
  run s (kerardLive p fun b => settle (mirrorHdrReceive b p f iv))

/-- MIRROR_ACK (R474). -/
def execMirrorAck (p : KPort) (f : Bytes) (s : State) : Host.Outcome State Fault Refusal :=
  run s (kerardLive p fun b => settle (mirrorAckReceive b p f))

/-- MIRROR_RESEND (R476). -/
def execMirrorResend (hdr : Option Nat) (no : Nat) (s : State) : Host.Outcome State Fault Refusal := run s (live (mirrorResend · hdr no))

/-- RESYNC_COPY (R480). -/
def execResyncCopy (ret : DdrReturn) (s : State) : Host.Outcome State Fault Refusal := act (wfDdr ret) s (awakeSettle 19 (resyncCopy · ret))

/-- REJOIN (R481). -/
def execRejoin (s : State) : Host.Outcome State Fault Refusal := run s (liveSettle rejoinBegin)

/-- LEAF (R484). -/
def execLeaf (p : KPort) (f : Bytes) (s : State) : Host.Outcome State Fault Refusal :=
  run s (kerardLive p fun b => settle (leafReceive b p f))

/-- LEAF_ACK (R484). -/
def execLeafAck (p : KPort) (f : Bytes) (s : State) : Host.Outcome State Fault Refusal :=
  run s (kerardLive p fun b => settle (leafAckReceive b p f))

/-- LEAF_ACK_TIMEOUT (R484). -/
def execLeafAckTimeout (s : State) : Host.Outcome State Fault Refusal := run s (liveSettle (leafOutDone · false))

/-- KERARD_LINK_LOSS (R470). -/
def execKerardLinkLoss (p : KPort) (s : State) : Host.Outcome State Fault Refusal := run s (live (linkLoss · p))

/-- DISCOVER_SEEN_EXPIRY (R499). -/
def execDiscoverSeenExpiry (n : Nat) (s : State) : Host.Outcome State Fault Refusal := run s (live (seenExpiry · n))

end Sys2Proof.Machine
end

