-- ==== Sys2Proof/Machine/Power.lean ====
section
/-! DEFINITION. The power ladder, domains and wakes (chapter 21). -/
namespace Sys2Proof.Machine

/-- LADDER_ENTRY (R503). -/
def execLadderEntry (s : State) : Host.Outcome State Fault Refusal := run s (live ladderEntry)

/-- LADDER_EXIT (R504). -/
def execLadderExit (s : State) : Host.Outcome State Fault Refusal := run s (live ladderExit)

/-- DOMAIN_OFF (R505). -/
def execDomainOff (d : Fin 24) (s : State) : Host.Outcome State Fault Refusal := run s (liveSettle (domainOff · d))

/-- WAKE_REQUEST (R250, R508). -/
def execWakeRequest (d : Fin 24) (s : State) : Host.Outcome State Fault Refusal :=
  run s (live fun b => if wakeCause b d then wakeRequest b d else b)

/-- WAKE_GRANT (R508). -/
def execWakeGrant (s : State) : Host.Outcome State Fault Refusal := run s (live wakeGrant)

/-- WARMING_END (R509). -/
def execWarmingEnd (d : Fin 24) (ret : DdrReturn) (s : State) : Host.Outcome State Fault Refusal :=
  act (wfDdr ret) s (liveSettle (warmingEnd · d ret))

/-- DORMANT_RESTORE_COMPLETE (R504). -/
def execDormantRestoreComplete (badTable : Option (BitVec 32)) (s : State) : Host.Outcome State Fault Refusal :=
  run s (live (dormantRestored · (badTable.map (·.toNat))))

end Sys2Proof.Machine
end

