-- ==== Sys2Proof/Machine/Protection.lean ====
section
/-! DEFINITION. Ferrules, Belay, the monitors, Strata's records and the always-on supply (chapters 17 to 19). -/
namespace Sys2Proof.Machine

/-- FERRULE_COMMIT (R413). -/
def execFerruleCommit (m : Fin 80) (rules : List Machine.Region) (s : State) : Host.Outcome State Fault Refusal :=
  act (wfRules m rules) s (live (ferruleCommit · m rules))

/-- FERRULE_COMMIT_POINT (R414). -/
def execFerruleCommitPoint (m : Fin 80) (outstanding : Bool) (s : State) : Host.Outcome State Fault Refusal :=
  run s (live (ferruleCommitPoint · m outstanding))

/-- FERRULE_DRAIN_END (R414). -/
def execFerruleDrainEnd (m : Fin 80) (s : State) : Host.Outcome State Fault Refusal := run s (live (ferruleDrainEnd · m))

/-- FERRULE_REPORT_TIMER (R420). -/
def execFerruleReportTimer (m : Fin 80) (s : State) : Host.Outcome State Fault Refusal := run s (live (ferruleReportTimer · m))

/-- BELAY_INTAKE (R418). -/
def execBelayIntake (s : State) : Host.Outcome State Fault Refusal := run s (poweredSettle belayIntake)

/-- LOCKSTEP_MISMATCH (R418). -/
def execLockstepMismatch (pc : BitVec 32) (verdicts : Bool) (s : State) : Host.Outcome State Fault Refusal :=
  run s (live (lockstepMismatch · pc verdicts))

/-- DETECTOR_EVENT (R425). -/
def execDetectorEvent (k : Fin 19) (detB : Bool) (e : DetEvent) (s : State) : Host.Outcome State Fault Refusal :=
  run s (detectorEvent · k detB e)

/-- SUSTAINED_EVENT (R425). -/
def execSustainedEvent (k : Fin 19) (detB : Bool) (s : State) : Host.Outcome State Fault Refusal := run s (sustainedEvent · k detB)

/-- EVENT_WINDOW_EXPIRY (R425). -/
def execEventWindowExpiry (k : Fin 19) (detB : Bool) (s : State) : Host.Outcome State Fault Refusal := run s (windowExpiry · k detB)

/-- REARM_HOLD_EXPIRY (R426). -/
def execRearmHoldExpiry (k : Fin 19) (s : State) : Host.Outcome State Fault Refusal := run s (rearmExpiry · k)

/-- DETECTOR_FAULT (R427). -/
def execDetectorFault (k : Fin 19) (s : State) : Host.Outcome State Fault Refusal := run s (detectorFault · k)

/-- BUILTIN_STIMULUS (R427). -/
def execBuiltinStimulus (k : Fin 19) (detB answers : Bool) (s : State) : Host.Outcome State Fault Refusal :=
  run s (builtinStimulus · k detB answers)

/-- DFAULT_CLEAR (R427). -/
def execDfaultClear (k : Fin 19) (s : State) : Host.Outcome State Fault Refusal := run s (dfaultClear · k)

/-- CLASS_Z_RESPONSE (R434). -/
def execClassZResponse (s : State) : Host.Outcome State Fault Refusal := run s (poweredSettle zeroiseResponse)

/-- CLASS_L_RESPONSE (R436). -/
def execClassLResponse (s : State) : Host.Outcome State Fault Refusal := run s (poweredSettle lockResponse)

/-- BATTERY_RESPONSE (R442). -/
def execBatteryResponse (s : State) : Host.Outcome State Fault Refusal := run s batteryResponse

/-- EVIDENCE_WRITE (R455). -/
def execEvidenceWrite (torn : List Bytes) (s : State) : Host.Outcome State Fault Refusal :=
  act (wfTorn torn) s (powered (evidenceWrite · torn))

/-- RECORDER_WRITE (R457). -/
def execRecorderWrite (s : State) : Host.Outcome State Fault Refusal := run s (powered recorderWrite)

/-- RECORDER_FULL_UPDATE (R458). -/
def execRecorderFullUpdate (s : State) : Host.Outcome State Fault Refusal := run s (powered fun b => recorderFull b b.recorderC)

/-- OPT_BASE_WRITE (R451). -/
def execOptBaseWrite (s : State) : Host.Outcome State Fault Refusal := run s optBaseWrite

/-- BATTERY_SECOND (R452). -/
def execBatterySecond (s : State) : Host.Outcome State Fault Refusal := run s batterySecond

/-- SUPPLY_SWITCHOVER (R556). -/
def execSupplySwitchover (battery : Bool) (s : State) : Host.Outcome State Fault Refusal := run s (supplySwitchover · battery)

/-- MAIN_POWER_LOSS (R555). -/
def execMainPowerLoss (s : State) : Host.Outcome State Fault Refusal := run s powerLoss

/-- TMP_POWER_ON (R446). -/
def execTmpPowerOn (s : State) : Host.Outcome State Fault Refusal := run s powerOnTmp

/-- BATTERY_LOSS (R444). -/
def execBatteryLoss (s : State) : Host.Outcome State Fault Refusal := run s batteryLoss

end Sys2Proof.Machine
end

