-- ==== Sys2Proof/Machine/Queues.lean ====
section
/-! DEFINITION. Queues and keys: doorbells, descriptor fetch, dispatch, the key cache, operand buffers and completions (chapters 2, 3, 9). -/
namespace Sys2Proof.Machine

/-- SQ_DOORBELL (R58). -/
def execSqDoorbell (c : Fin 64) (g : Fin 8) (a : Access) (v : BitVec 32) (s : State) : Host.Outcome State Fault Refusal :=
  run s (fun b => vfRequest b c fun b => sqDoorbell b c g a v.toNat)

/-- CQ_DOORBELL (R65). -/
def execCqDoorbell (c : Fin 64) (q : Fin 8) (a : Access) (v : BitVec 32) (s : State) : Host.Outcome State Fault Refusal :=
  run s (fun b => vfRequest b c fun b => settle (cqDoorbell b c q a v.toNat))

/-- FETCH_ISSUE (R240). -/
def execFetchIssue (e : Fin 8) (s : State) : Host.Outcome State Fault Refusal :=
  run s (fun b => if b.hostOn then live (fetchIssue · e) b else b)

/-- DESCRIPTOR_FETCH (R576). -/
def execDescriptorFetch (c : Fin 64) (g : Fin 8) (first : Nat) (x : DmaRead) (s : State) : Host.Outcome State Fault Refusal :=
  run s (liveSettle (descriptorFetch · c g first x))

/-- CHUCK_SELECT (R244). -/
def execChuckSelect (s : State) : Host.Outcome State Fault Refusal := run s (awake 1 chuckSelect)

/-- KEY_LOOKUP (R46). -/
def execKeyLookup (r : Requester) (s : State) : Host.Outcome State Fault Refusal := run s (liveSettle (keyLookup · r))

/-- KEY_CACHE_FILL (R219). -/
def execKeyCacheFill (gidx : Nat) (ret : DdrReturn) (s : State) : Host.Outcome State Fault Refusal :=
  act (wfDdr ret) s (awakeSettle 19 (keyCacheFill · gidx ret))

/-- KEY_PORT_RELEASE (R49). -/
def execKeyPortRelease (gidx : Nat) (s : State) : Host.Outcome State Fault Refusal := run s (liveSettle (keyPortRelease · gidx))

/-- PIN_REFETCH (R51). -/
def execPinRefetch (s : State) : Host.Outcome State Fault Refusal := run s (live pinRefetch)

/-- COUNTER_RESERVE (R39). -/
def execCounterReserve (gidx : Nat) (s : State) : Host.Outcome State Fault Refusal := run s (live (counterReserve · gidx))

/-- OPERAND_BUFFER_READ (R62). -/
def execOperandBufferRead (n : Nat) (x : DmaRead) (s : State) : Host.Outcome State Fault Refusal :=
  run s (liveSettle (operandBufferRead · n x))

/-- COMPLETION_WRITE (R64). -/
def execCompletionWrite (n : Nat) (e : Egress) (s : State) : Host.Outcome State Fault Refusal := run s (liveSettle (completionWrite · n e))

/-- COALESCE_TIMER (R82). -/
def execCoalesceTimer (c : Fin 64) (q : Fin 8) (s : State) : Host.Outcome State Fault Refusal := run s (live (coalesceTimer · c q))

/-- MSIX_UNMASK (R537). -/
def execMsixUnmask (fn : Fin 65) (vec : Fin 64) (s : State) : Host.Outcome State Fault Refusal :=
  run s (fun b => if functionOn b fn && decide (vec.val < vectorsOf fn) then msixUnmask b fn vec else b)

end Sys2Proof.Machine
end

