-- ==== Sys2Proof/Machine/Random.lean ====
section
/-! DEFINITION. Lantern (chapter 16). -/
namespace Sys2Proof.Machine

/-- LANTERN_SAMPLE (R397). -/
def execLanternSample (raw : BitVec 5) (s : State) : Host.Outcome State Fault Refusal := run s (awake 18 (lanSample · raw))

/-- CONDITIONER_BLOCK (R398). -/
def execConditionerBlock (s : State) : Host.Outcome State Fault Refusal := run s (awake 18 lanCondition)

/-- EXPANDER_GENERATE (R399). -/
def execExpanderGenerate (s : State) : Host.Outcome State Fault Refusal := run s (awake 18 lanGenerate)

/-- EXPANDER_RESEED (R399). -/
def execExpanderReseed (s : State) : Host.Outcome State Fault Refusal := run s (awake 18 lanReseed)

/-- LANTERN_KAT (R400). -/
def execLanternKat (bad : Option Bool) (s : State) : Host.Outcome State Fault Refusal := run s (awake 18 (lanKat · bad))

/-- LANTERN_STARTUP (R401). -/
def execLanternStartup (s : State) : Host.Outcome State Fault Refusal :=
  run s (awake 18 fun b => if b.lantern.st = .off then lanStart b else b)

/-- LANTERN_RUNNING (R401). -/
def execLanternRunning (s : State) : Host.Outcome State Fault Refusal := run s (awake 18 lanRun)

/-- PORT_REFILL (R404). -/
def execPortRefill (p : Fin 129) (s : State) : Host.Outcome State Fault Refusal := run s (awake 18 (lanPortRefill · p))

/-- LAN_DATA (R405). -/
def execLanData (pasid : Option Nat) (a : Access) (s : State) : Host.Outcome State Fault Refusal :=
  run s (fun b => pfRequest b pasid .lan true (lanPfData · a))

/-- VFL_DATA (R405). -/
def execVflData (c : Fin 64) (a : Access) (s : State) : Host.Outcome State Fault Refusal := run s (fun b => vfRequest b c (lanVfData · c a))

end Sys2Proof.Machine
end

