-- ==== Sys2Proof/Machine/Registers.lean ====
section
/-! DEFINITION. Accesses to registers with an effect of their own, and every other write (R4). -/
namespace Sys2Proof.Machine

/-- CHK_CLRMAX (R254). -/
def execChkClrmax (pasid : Option Nat) (a : Access) (v : BitVec 32) (s : State) : Host.Outcome State Fault Refusal :=
  run s (fun b => pfRequest b pasid .chk false (chkClrmax · a v.toNat))

/-- VFC_CLRMAX (R255). -/
def execVfcClrmax (c : Fin 64) (a : Access) (v : BitVec 32) (s : State) : Host.Outcome State Fault Refusal :=
  run s (fun b => vfRequest b c (vfcClrmax · c a v.toNat))

/-- VFE_CFG (R528). -/
def execVfeCfg (c : Fin 64) (slot : Fin 16) (a : Access) (v : BitVec 32) (s : State) : Host.Outcome State Fault Refusal :=
  run s (fun b => vfRequest b c (vfeCfg · c slot a v.toNat))

/-- PMC_RAIL (R510). -/
def execPmcRail (pasid : Option Nat) (r : Fin 4) (a : Access) (v : BitVec 32) (s : State) : Host.Outcome State Fault Refusal :=
  run s (fun b => pfRequest b pasid .pmc false (pmcRail · r a v))

/-- SMP_ROOTV_L (R234). -/
def execSmpRootvL (pasid : Option Nat) (a : Access) (s : State) : Host.Outcome State Fault Refusal :=
  run s (fun b => pfRequest b pasid .smp true (smpRootvL · a))

/-- BLY_FLAST0 (R421). -/
def execBlyFlast0 (pasid : Option Nat) (a : Access) (s : State) : Host.Outcome State Fault Refusal :=
  run s (fun b => pfRequest b pasid .bly true (blyFlast0 · a))

/-- TLY_UCNT (R529). -/
def execTlyUcnt (pasid : Option Nat) (u : Fin 73) (n : Fin 8) (a : Access) (s : State) : Host.Outcome State Fault Refusal :=
  run s (fun b => pfRequest b pasid .tly true (tlyUcnt · u n a))

/-- TLY_T_L (R529). -/
def execTlyTL (pasid : Option Nat) (k : Fin 256) (a : Access) (s : State) : Host.Outcome State Fault Refusal :=
  run s (fun b => pfRequest b pasid .tly true (tlyTL · k a))

/-- TLY_CYC_L (R529). -/
def execTlyCycL (pasid : Option Nat) (k : Fin 64) (a : Access) (s : State) : Host.Outcome State Fault Refusal :=
  run s (fun b => pfRequest b pasid .tly true (tlyCycL · k a))

/-- REGISTER_WRITE (R4). -/
def execRegisterWrite (w : HostWrite) (s : State) : Host.Outcome State Fault Refusal :=
  act (wfHostWrite w) s (fun b => settle (hostWrite b w))

end Sys2Proof.Machine
end

