-- ==== Sys2Proof/Machine/Resets.lean ====
section
/-! DEFINITION. Resets, power-up and boot (chapters 13, 15, 21). -/
namespace Sys2Proof.Machine

/-- VF_FLR (R333). -/
def execVfFlr (c : Fin 64) (s : State) : Host.Outcome State Fault Refusal := run s (vfFlr · c)

/-- PF_FLR (R514). -/
def execPfFlr (s : State) : Host.Outcome State Fault Refusal := run s pfFlr

/-- VF_ENABLE_CLEAR (R333). -/
def execVfEnableClear (s : State) : Host.Outcome State Fault Refusal := run s vfEnableClear

/-- CHAMBER_RESET_COMPLETE (R333). -/
def execChamberResetComplete (c : Fin 64) (s : State) : Host.Outcome State Fault Refusal := run s (liveSettle (chamberResetComplete · c))

/-- DL_DOWN (R532). -/
def execDlDown (s : State) : Host.Outcome State Fault Refusal := run s dlDown

/-- PME_TURN_OFF (R503). -/
def execPmeTurnOff (s : State) : Host.Outcome State Fault Refusal := run s (fun b => if b.hostOn then pmeTurnOff b else b)

/-- COLD_RESET (R518). -/
def execColdReset (s : State) : Host.Outcome State Fault Refusal := run s coldReset

/-- SYS_RST_N_ASSERT (R514, R515). -/
def execSysRstNAssert (samples : Nat) (s : State) : Host.Outcome State Fault Refusal := run s (resetPin · samples sysRstAssert)

/-- WARM_RESET_RELEASE (R515). -/
def execWarmResetRelease (s : State) : Host.Outcome State Fault Refusal := run s warmRelease

/-- PERST_N_ASSERT (R514, R515). -/
def execPerstNAssert (samples : Nat) (s : State) : Host.Outcome State Fault Refusal := run s (resetPin · samples perstAssert)

/-- PERST_N_RELEASE (R515, R518). -/
def execPerstNRelease (samples : Nat) (s : State) : Host.Outcome State Fault Refusal := run s (resetPin · samples perstRelease)

/-- DEVICE_RESET_TIMER (R516). -/
def execDeviceResetTimer (s : State) : Host.Outcome State Fault Refusal := run s deviceResetTimer

/-- BOOT (R390). -/
def execBoot (flash : Option (Bytes × Bytes × Bytes × Bytes)) (errA errB lost : Bool) (badTable : Option (BitVec 32)) (s : State) : Host.Outcome State Fault Refusal :=
  act (wfFlash flash) s (boot · flash errA errB lost (badTable.map (·.toNat)))

/-- READY (R390). -/
def execReady (s : State) : Host.Outcome State Fault Refusal := run s deviceReady

/-- RAIL_OUT_OF_RANGE (R555). -/
def execRailOutOfRange (ring : Bool) (link : Option KPort) (s : State) : Host.Outcome State Fault Refusal :=
  run s (railOutOfRange · ring link)

end Sys2Proof.Machine
end

