-- ==== Sys2Proof/Machine/Sideband.lean ====
section
/-! DEFINITION. SMBus, the host referee's beats and the GPIO inputs (chapters 20, 23). -/
namespace Sys2Proof.Machine

/-- STATUS (R541). -/
def execStatus (temp : BitVec 8) (s : State) : Host.Outcome State Fault Refusal := run s (smbusStatus · temp)

/-- MBX_REQ (R542). -/
def execMbxReq (d : Bytes) (pec : BitVec 8) (s : State) : Host.Outcome State Fault Refusal := act (wfBlockWrite d) s (smbusMbxReq · d pec)

/-- MBX_GO (R542). -/
def execMbxGo (v pec : BitVec 8) (s : State) : Host.Outcome State Fault Refusal := run s (smbusMbxGo · v pec)

/-- MBX_STAT (R541). -/
def execMbxStat (s : State) : Host.Outcome State Fault Refusal := run s smbusMbxStat

/-- MBX_RSP (R542). -/
def execMbxRsp (off : BitVec 16) (count : BitVec 8) (s : State) : Host.Outcome State Fault Refusal := run s (smbusMbxRsp · off count)

/-- MBX_ACK (R541). -/
def execMbxAck (v pec : BitVec 8) (s : State) : Host.Outcome State Fault Refusal := run s (smbusMbxAck · v pec)

/-- HOSTBEAT (R541). -/
def execHostbeat (v pec : BitVec 8) (s : State) : Host.Outcome State Fault Refusal := run s (smbusHostbeat · v pec)

/-- SMBUS_TIMEOUT (R563). -/
def execSmbusTimeout (s : State) : Host.Outcome State Fault Refusal := run s smbusTimeout

/-- KRD_HOSTBEAT (R490). -/
def execKrdHostbeat (pasid : Option Nat) (a : Access) (v : BitVec 32) (s : State) : Host.Outcome State Fault Refusal :=
  run s (fun b => pfRequest b pasid .krd false (krdHostbeat · a v.toNat))

/-- REFEREE_HEARTBEAT_INPUT (R550). -/
def execRefereeHeartbeatInput (n : Fin 8) (v : Bool) (samples : Nat) (s : State) : Host.Outcome State Fault Refusal := run s (gpioBeat · n v samples)

/-- GPIO_WAKE (R550). -/
def execGpioWake (n : Fin 8) (v : Bool) (samples : Nat) (s : State) : Host.Outcome State Fault Refusal := run s (gpioWake · n v samples)

/-- HOST_TIMEOUT (R489). -/
def execHostTimeout (s : State) : Host.Outcome State Fault Refusal := run s (liveSettle hostTimeout)

end Sys2Proof.Machine
end

