-- ==== Sys2Proof/Machine/SumpRows.lean ====
section
/-! DEFINITION. The Sump controller (chapter 8). -/
namespace Sys2Proof.Machine

/-- SUMP_COMMIT (R220). -/
def execSumpCommit (ret : DdrReturn) (s : State) : Host.Outcome State Fault Refusal :=
  act (wfDdr ret) s (fun b => if b.domainOn 19 then startCommit b ret else b)

/-- SUMP_HEAD_WRITE (R221). -/
def execSumpHeadWrite (s : State) : Host.Outcome State Fault Refusal := run s endCommit

/-- SMP_JHEAD (R221). -/
def execSmpJhead (pasid : Option Nat) (a : Access) (v : BitVec 32) (s : State) : Host.Outcome State Fault Refusal :=
  run s (journalHead · pasid a v)

/-- SYNC_RELEASE_TIMEOUT (R222). -/
def execSyncReleaseTimeout (s : State) : Host.Outcome State Fault Refusal := run s (fun b => afterCommit (releaseTimeout b))

/-- PATROL_SCRUB (R211). -/
def execPatrolScrub (r : Machine.ScrubResult) (s : State) : Host.Outcome State Fault Refusal := run s (awakeSettle 19 (patrolScrub · r))

/-- SAVE_COPY_END (R229). -/
def execSaveCopyEnd (s : State) : Host.Outcome State Fault Refusal := run s (awakeSettle 19 saveCopyEnd)

/-- ERASE_RANGE (R231). -/
def execEraseRange (c : Fin 64) (s : State) : Host.Outcome State Fault Refusal := run s (awake 19 (eraseRange · c))

/-- SUMP_START (R225). -/
def execSumpStart (trained : Bool) (ret : DdrReturn) (s : State) : Host.Outcome State Fault Refusal :=
  act (wfDdr ret) s (awakeSettle 19 (startSump · trained ret))

end Sys2Proof.Machine
end

