-- ==== Sys2Proof/Machine/Dispatch.lean ====
section
/-! DEFINITION. Every command given its meaning. -/
namespace Sys2Proof.Machine

/-- The effect of a command on everything but the queue. -/
def exec (i : Instr) (s : State) : Host.Outcome State Fault Refusal :=
  match i with
  | .sqDoorbell c g a v => Sys2Proof.Machine.execSqDoorbell c g a v s
  | .cqDoorbell c q a v => Sys2Proof.Machine.execCqDoorbell c q a v s
  | .fetchIssue e => Sys2Proof.Machine.execFetchIssue e s
  | .descriptorFetch c g first x => Sys2Proof.Machine.execDescriptorFetch c g first x s
  | .chuckSelect => Sys2Proof.Machine.execChuckSelect s
  | .keyLookup r => Sys2Proof.Machine.execKeyLookup r s
  | .keyCacheFill gidx ret => Sys2Proof.Machine.execKeyCacheFill gidx ret s
  | .keyPortRelease gidx => Sys2Proof.Machine.execKeyPortRelease gidx s
  | .pinRefetch => Sys2Proof.Machine.execPinRefetch s
  | .counterReserve gidx => Sys2Proof.Machine.execCounterReserve gidx s
  | .operandBufferRead n x => Sys2Proof.Machine.execOperandBufferRead n x s
  | .completionWrite n e => Sys2Proof.Machine.execCompletionWrite n e s
  | .coalesceTimer c q => Sys2Proof.Machine.execCoalesceTimer c q s
  | .msixUnmask fn vec => Sys2Proof.Machine.execMsixUnmask fn vec s
  | .nop r => Sys2Proof.Machine.execNop r s
  | .fence r => Sys2Proof.Machine.execFence r s
  | .auditFlush r => Sys2Proof.Machine.execAuditFlush r s
  | .pinTranslate r => Sys2Proof.Machine.execPinTranslate r s
  | .pinTranslateDukpt r => Sys2Proof.Machine.execPinTranslateDukpt r s
  | .pinVerifyOffset r => Sys2Proof.Machine.execPinVerifyOffset r s
  | .pinVerifyPvv r => Sys2Proof.Machine.execPinVerifyPvv r s
  | .pinVerifyCompare r => Sys2Proof.Machine.execPinVerifyCompare r s
  | .macGenerate r => Sys2Proof.Machine.execMacGenerate r s
  | .macVerify r => Sys2Proof.Machine.execMacVerify r s
  | .macGenerateDukpt r => Sys2Proof.Machine.execMacGenerateDukpt r s
  | .macVerifyDukpt r => Sys2Proof.Machine.execMacVerifyDukpt r s
  | .emvArqcVerify r => Sys2Proof.Machine.execEmvArqcVerify r s
  | .cvcGenerate r => Sys2Proof.Machine.execCvcGenerate r s
  | .cvcVerify r => Sys2Proof.Machine.execCvcVerify r s
  | .tr31Import r => Sys2Proof.Machine.execTr31Import r s
  | .tr31Export r => Sys2Proof.Machine.execTr31Export r s
  | .dukptIkExport r => Sys2Proof.Machine.execDukptIkExport r s
  | .cipherEncrypt r => Sys2Proof.Machine.execCipherEncrypt r s
  | .cipherDecrypt r => Sys2Proof.Machine.execCipherDecrypt r s
  | .hash r => Sys2Proof.Machine.execHash r s
  | .pkSign r => Sys2Proof.Machine.execPkSign r s
  | .pkVerify r => Sys2Proof.Machine.execPkVerify r s
  | .pkBatchVerify r => Sys2Proof.Machine.execPkBatchVerify r s
  | .pkKeygen r => Sys2Proof.Machine.execPkKeygen r s
  | .pkDerive r => Sys2Proof.Machine.execPkDerive r s
  | .pkEncapsulate r => Sys2Proof.Machine.execPkEncapsulate r s
  | .pkDecapsulate r => Sys2Proof.Machine.execPkDecapsulate r s
  | .pkEncrypt r => Sys2Proof.Machine.execPkEncrypt r s
  | .pkDecrypt r => Sys2Proof.Machine.execPkDecrypt r s
  | .recipeRun n => Sys2Proof.Machine.execRecipeRun n s
  | .output k t e => Sys2Proof.Machine.execOutput k t e s
  | .spindleIssue => Sys2Proof.Machine.execSpindleIssue s
  | .passComplete pipe e => Sys2Proof.Machine.execPassComplete pipe e s
  | .augerIssue u => Sys2Proof.Machine.execAugerIssue u s
  | .augerResult id e => Sys2Proof.Machine.execAugerResult id e s
  | .galleryDispatch => Sys2Proof.Machine.execGalleryDispatch s
  | .validationWindowEnd k => Sys2Proof.Machine.execValidationWindowEnd k s
  | .galleryOpComplete k bad e => Sys2Proof.Machine.execGalleryOpComplete k bad e s
  | .galleryAbort k => Sys2Proof.Machine.execGalleryAbort k s
  | .abortedSignalled k => Sys2Proof.Machine.execAbortedSignalled k s
  | .engineLocalAbort core => Sys2Proof.Machine.execEngineLocalAbort core s
  | .ticketComplete k t => Sys2Proof.Machine.execTicketComplete k t s
  | .ecallQueueAccept k => Sys2Proof.Machine.execEcallQueueAccept k s
  | .windowPageLoad k x => Sys2Proof.Machine.execWindowPageLoad k x s
  | .ccWinpos k v => Sys2Proof.Machine.execCcWinpos k v s
  | .ccRngdata k => Sys2Proof.Machine.execCcRngdata k s
  | .counterLowByteRead k n => Sys2Proof.Machine.execCounterLowByteRead k n s
  | .nopInstr k cond => Sys2Proof.Machine.execNopInstr k cond s
  | .br k cond off => Sys2Proof.Machine.execBr k cond off s
  | .call k cond off => Sys2Proof.Machine.execCall k cond off s
  | .ret k cond => Sys2Proof.Machine.execRet k cond s
  | .jr k cond p => Sys2Proof.Machine.execJr k cond p s
  | .callr k cond p => Sys2Proof.Machine.execCallr k cond p s
  | .loop k cond p off => Sys2Proof.Machine.execLoop k cond p off s
  | .loopi k cond count off => Sys2Proof.Machine.execLoopi k cond count off s
  | .ecall k cond d => Sys2Proof.Machine.execEcall k cond d s
  | .ewait k cond w => Sys2Proof.Machine.execEwait k cond w s
  | .take k cond => Sys2Proof.Machine.execTake k cond s
  | .done k cond e => Sys2Proof.Machine.execDone k cond e s
  | .coreClear k => Sys2Proof.Machine.execCoreClear k s
  | .watchdog k => Sys2Proof.Machine.execWatchdog k s
  | .mov k cond d w => Sys2Proof.Machine.execMov k cond d w s
  | .movi k cond d imm => Sys2Proof.Machine.execMovi k cond d imm s
  | .add k cond d w => Sys2Proof.Machine.execAdd k cond d w s
  | .addi k cond d imm => Sys2Proof.Machine.execAddi k cond d imm s
  | .adc k cond d w => Sys2Proof.Machine.execAdc k cond d w s
  | .sub k cond d w => Sys2Proof.Machine.execSub k cond d w s
  | .subi k cond d imm => Sys2Proof.Machine.execSubi k cond d imm s
  | .sbc k cond d w => Sys2Proof.Machine.execSbc k cond d w s
  | .cmp k cond d w => Sys2Proof.Machine.execCmp k cond d w s
  | .cmpi k cond d imm => Sys2Proof.Machine.execCmpi k cond d imm s
  | .and k cond d w => Sys2Proof.Machine.execAnd k cond d w s
  | .andi k cond d imm => Sys2Proof.Machine.execAndi k cond d imm s
  | .or k cond d w => Sys2Proof.Machine.execOr k cond d w s
  | .ori k cond d imm => Sys2Proof.Machine.execOri k cond d imm s
  | .xor k cond d w => Sys2Proof.Machine.execXor k cond d w s
  | .xori k cond d imm => Sys2Proof.Machine.execXori k cond d imm s
  | .tsti k cond d imm => Sys2Proof.Machine.execTsti k cond d imm s
  | .shl k cond r => Sys2Proof.Machine.execShl k cond r s
  | .shr k cond r => Sys2Proof.Machine.execShr k cond r s
  | .asr k cond r => Sys2Proof.Machine.execAsr k cond r s
  | .rol k cond r => Sys2Proof.Machine.execRol k cond r s
  | .ror k cond r => Sys2Proof.Machine.execRor k cond r s
  | .swap k cond r => Sys2Proof.Machine.execSwap k cond r s
  | .inc k cond r => Sys2Proof.Machine.execInc k cond r s
  | .dec k cond r => Sys2Proof.Machine.execDec k cond r s
  | .not k cond r => Sys2Proof.Machine.execNot k cond r s
  | .neg k cond r => Sys2Proof.Machine.execNeg k cond r s
  | .mul k cond d x y => Sys2Proof.Machine.execMul k cond d x y s
  | .divu k cond d w => Sys2Proof.Machine.execDivu k cond d w s
  | .getf k cond d => Sys2Proof.Machine.execGetf k cond d s
  | .setf k cond w => Sys2Proof.Machine.execSetf k cond w s
  | .movw k cond d w => Sys2Proof.Machine.execMovw k cond d w s
  | .lpi k cond d high imm => Sys2Proof.Machine.execLpi k cond d high imm s
  | .addw k cond d w => Sys2Proof.Machine.execAddw k cond d w s
  | .addwi k cond d imm => Sys2Proof.Machine.execAddwi k cond d imm s
  | .ld k cond d p inc disp => Sys2Proof.Machine.execLd k cond d p inc disp s
  | .st k cond w p inc disp => Sys2Proof.Machine.execSt k cond w p inc disp s
  | .ldw k cond d p inc disp => Sys2Proof.Machine.execLdw k cond d p inc disp s
  | .stw k cond w p inc disp => Sys2Proof.Machine.execStw k cond w p inc disp s
  | .movb k cond => Sys2Proof.Machine.execMovb k cond s
  | .cmpb k cond w => Sys2Proof.Machine.execCmpb k cond w s
  | .push k cond w => Sys2Proof.Machine.execPush k cond w s
  | .pop k cond d => Sys2Proof.Machine.execPop k cond d s
  | .pushw k cond w => Sys2Proof.Machine.execPushw k cond w s
  | .popw k cond d => Sys2Proof.Machine.execPopw k cond d s
  | .cx k cond n opnd => Sys2Proof.Machine.execCx k cond n opnd s
  | .micro k cond n opnd => Sys2Proof.Machine.execMicro k cond n opnd s
  | .ferruleCommit m rules => Sys2Proof.Machine.execFerruleCommit m rules s
  | .ferruleCommitPoint m outstanding => Sys2Proof.Machine.execFerruleCommitPoint m outstanding s
  | .ferruleDrainEnd m => Sys2Proof.Machine.execFerruleDrainEnd m s
  | .ferruleReportTimer m => Sys2Proof.Machine.execFerruleReportTimer m s
  | .belayIntake => Sys2Proof.Machine.execBelayIntake s
  | .lockstepMismatch pc verdicts => Sys2Proof.Machine.execLockstepMismatch pc verdicts s
  | .detectorEvent k detB e => Sys2Proof.Machine.execDetectorEvent k detB e s
  | .sustainedEvent k detB => Sys2Proof.Machine.execSustainedEvent k detB s
  | .eventWindowExpiry k detB => Sys2Proof.Machine.execEventWindowExpiry k detB s
  | .rearmHoldExpiry k => Sys2Proof.Machine.execRearmHoldExpiry k s
  | .detectorFault k => Sys2Proof.Machine.execDetectorFault k s
  | .builtinStimulus k detB answers => Sys2Proof.Machine.execBuiltinStimulus k detB answers s
  | .dfaultClear k => Sys2Proof.Machine.execDfaultClear k s
  | .classZResponse => Sys2Proof.Machine.execClassZResponse s
  | .classLResponse => Sys2Proof.Machine.execClassLResponse s
  | .batteryResponse => Sys2Proof.Machine.execBatteryResponse s
  | .evidenceWrite torn => Sys2Proof.Machine.execEvidenceWrite torn s
  | .recorderWrite => Sys2Proof.Machine.execRecorderWrite s
  | .recorderFullUpdate => Sys2Proof.Machine.execRecorderFullUpdate s
  | .optBaseWrite => Sys2Proof.Machine.execOptBaseWrite s
  | .batterySecond => Sys2Proof.Machine.execBatterySecond s
  | .supplySwitchover battery => Sys2Proof.Machine.execSupplySwitchover battery s
  | .mainPowerLoss => Sys2Proof.Machine.execMainPowerLoss s
  | .leafAccept chain => Sys2Proof.Machine.execLeafAccept chain s
  | .batchIntervalExpiry chain => Sys2Proof.Machine.execBatchIntervalExpiry chain s
  | .seqReserve chain => Sys2Proof.Machine.execSeqReserve chain s
  | .chainRetire chain => Sys2Proof.Machine.execChainRetire chain s
  | .headerSigned chain batch pq => Sys2Proof.Machine.execHeaderSigned chain batch pq s
  | .headerRelease chain => Sys2Proof.Machine.execHeaderRelease chain s
  | .streamRingWrite chain header e => Sys2Proof.Machine.execStreamRingWrite chain header e s
  | .chainCommitRetry chain => Sys2Proof.Machine.execChainCommitRetry chain s
  | .vfaLhead c a v => Sys2Proof.Machine.execVfaLhead c a v s
  | .vfaHhead c a v => Sys2Proof.Machine.execVfaHhead c a v s
  | .sumpCommit ret => Sys2Proof.Machine.execSumpCommit ret s
  | .sumpHeadWrite => Sys2Proof.Machine.execSumpHeadWrite s
  | .smpJhead pasid a v => Sys2Proof.Machine.execSmpJhead pasid a v s
  | .syncReleaseTimeout => Sys2Proof.Machine.execSyncReleaseTimeout s
  | .patrolScrub r => Sys2Proof.Machine.execPatrolScrub r s
  | .saveCopyEnd => Sys2Proof.Machine.execSaveCopyEnd s
  | .eraseRange c => Sys2Proof.Machine.execEraseRange c s
  | .sumpStart trained ret => Sys2Proof.Machine.execSumpStart trained ret s
  | .lanternSample raw => Sys2Proof.Machine.execLanternSample raw s
  | .conditionerBlock => Sys2Proof.Machine.execConditionerBlock s
  | .expanderGenerate => Sys2Proof.Machine.execExpanderGenerate s
  | .expanderReseed => Sys2Proof.Machine.execExpanderReseed s
  | .lanternKat bad => Sys2Proof.Machine.execLanternKat bad s
  | .lanternStartup => Sys2Proof.Machine.execLanternStartup s
  | .lanternRunning => Sys2Proof.Machine.execLanternRunning s
  | .portRefill p => Sys2Proof.Machine.execPortRefill p s
  | .lanData pasid a => Sys2Proof.Machine.execLanData pasid a s
  | .vflData c a => Sys2Proof.Machine.execVflData c a s
  | .hello m => Sys2Proof.Machine.execHello m s
  | .authChallenge m => Sys2Proof.Machine.execAuthChallenge m s
  | .authSubmit m => Sys2Proof.Machine.execAuthSubmit m s
  | .authCancel m => Sys2Proof.Machine.execAuthCancel m s
  | .authrefExpiry ref => Sys2Proof.Machine.execAuthrefExpiry ref s
  | .chamberCreate m => Sys2Proof.Machine.execChamberCreate m s
  | .chamberDelete m => Sys2Proof.Machine.execChamberDelete m s
  | .chamberQuiesce m => Sys2Proof.Machine.execChamberQuiesce m s
  | .chamberReset m => Sys2Proof.Machine.execChamberReset m s
  | .chamberConfig m => Sys2Proof.Machine.execChamberConfig m s
  | .chamberPinpol m => Sys2Proof.Machine.execChamberPinpol m s
  | .dectabLoad m => Sys2Proof.Machine.execDectabLoad m s
  | .chamberInfo m => Sys2Proof.Machine.execChamberInfo m s
  | .cqCreate m => Sys2Proof.Machine.execCqCreate m s
  | .sqCreate m => Sys2Proof.Machine.execSqCreate m s
  | .queueDelete m => Sys2Proof.Machine.execQueueDelete m s
  | .sliceBind m => Sys2Proof.Machine.execSliceBind m s
  | .ceremonyOpen m => Sys2Proof.Machine.execCeremonyOpen m s
  | .keyComponent m => Sys2Proof.Machine.execKeyComponent m s
  | .keyGenerate m => Sys2Proof.Machine.execKeyGenerate m s
  | .ceremonyClose m => Sys2Proof.Machine.execCeremonyClose m s
  | .sessionExpiry id => Sys2Proof.Machine.execSessionExpiry id s
  | .keyDelete m ret => Sys2Proof.Machine.execKeyDelete m ret s
  | .keyInfo m ret => Sys2Proof.Machine.execKeyInfo m ret s
  | .keyList m ret => Sys2Proof.Machine.execKeyList m ret s
  | .keyPin m => Sys2Proof.Machine.execKeyPin m s
  | .custodianSet m => Sys2Proof.Machine.execCustodianSet m s
  | .auditRingCreate m => Sys2Proof.Machine.execAuditRingCreate m s
  | .auditRingDelete m => Sys2Proof.Machine.execAuditRingDelete m s
  | .auditKeys m => Sys2Proof.Machine.execAuditKeys m s
  | .auditFlushSystem m => Sys2Proof.Machine.execAuditFlushSystem m s
  | .recipeStage m => Sys2Proof.Machine.execRecipeStage m s
  | .recipeLoad m => Sys2Proof.Machine.execRecipeLoad m s
  | .recipeMask m => Sys2Proof.Machine.execRecipeMask m s
  | .recipeDelete m => Sys2Proof.Machine.execRecipeDelete m s
  | .recipeList m => Sys2Proof.Machine.execRecipeList m s
  | .decodeLoad m => Sys2Proof.Machine.execDecodeLoad m s
  | .decodeMask m => Sys2Proof.Machine.execDecodeMask m s
  | .decodeRead m => Sys2Proof.Machine.execDecodeRead m s
  | .configRead m => Sys2Proof.Machine.execConfigRead m s
  | .configCommit m => Sys2Proof.Machine.execConfigCommit m s
  | .sumpJournal m => Sys2Proof.Machine.execSumpJournal m s
  | .sumpSave m => Sys2Proof.Machine.execSumpSave m s
  | .sumpRestore m header lines hint journal => Sys2Proof.Machine.execSumpRestore m header lines hint journal s
  | .sumpInit m => Sys2Proof.Machine.execSumpInit m s
  | .tallyRead m => Sys2Proof.Machine.execTallyRead m s
  | .counterConfig m => Sys2Proof.Machine.execCounterConfig m s
  | .strataRead m => Sys2Proof.Machine.execStrataRead m s
  | .pairStatus m => Sys2Proof.Machine.execPairStatus m s
  | .pairCreate m => Sys2Proof.Machine.execPairCreate m s
  | .pairDissolve m => Sys2Proof.Machine.execPairDissolve m s
  | .claimGrant m => Sys2Proof.Machine.execClaimGrant m s
  | .attest m => Sys2Proof.Machine.execAttest m s
  | .lifecycleSet m => Sys2Proof.Machine.execLifecycleSet m s
  | .unlock m => Sys2Proof.Machine.execUnlock m s
  | .zeroise m => Sys2Proof.Machine.execZeroise m s
  | .fwStage m => Sys2Proof.Machine.execFwStage m s
  | .fwCommit m => Sys2Proof.Machine.execFwCommit m s
  | .tamperSet m => Sys2Proof.Machine.execTamperSet m s
  | .deviceReset m => Sys2Proof.Machine.execDeviceReset m s
  | .ioConfig m => Sys2Proof.Machine.execIoConfig m s
  | .ioStatus m => Sys2Proof.Machine.execIoStatus m s
  | .bimorResponse m => Sys2Proof.Machine.execBimorResponse m s
  | .status temp => Sys2Proof.Machine.execStatus temp s
  | .mbxReq d pec => Sys2Proof.Machine.execMbxReq d pec s
  | .mbxGo v pec => Sys2Proof.Machine.execMbxGo v pec s
  | .mbxStat => Sys2Proof.Machine.execMbxStat s
  | .mbxRsp off count => Sys2Proof.Machine.execMbxRsp off count s
  | .mbxAck v pec => Sys2Proof.Machine.execMbxAck v pec s
  | .hostbeat v pec => Sys2Proof.Machine.execHostbeat v pec s
  | .smbusTimeout => Sys2Proof.Machine.execSmbusTimeout s
  | .krdHostbeat pasid a v => Sys2Proof.Machine.execKrdHostbeat pasid a v s
  | .refereeHeartbeatInput n v k => Sys2Proof.Machine.execRefereeHeartbeatInput n v k s
  | .gpioWake n v k => Sys2Proof.Machine.execGpioWake n v k s
  | .hostTimeout => Sys2Proof.Machine.execHostTimeout s
  | .chkClrmax pasid a v => Sys2Proof.Machine.execChkClrmax pasid a v s
  | .vfcClrmax c a v => Sys2Proof.Machine.execVfcClrmax c a v s
  | .vfeCfg c slot a v => Sys2Proof.Machine.execVfeCfg c slot a v s
  | .pmcRail pasid r a v => Sys2Proof.Machine.execPmcRail pasid r a v s
  | .smpRootvL pasid a => Sys2Proof.Machine.execSmpRootvL pasid a s
  | .blyFlast0 pasid a => Sys2Proof.Machine.execBlyFlast0 pasid a s
  | .tlyUcnt pasid u n a => Sys2Proof.Machine.execTlyUcnt pasid u n a s
  | .tlyTL pasid k a => Sys2Proof.Machine.execTlyTL pasid k a s
  | .tlyCycL pasid k a => Sys2Proof.Machine.execTlyCycL pasid k a s
  | .registerWrite w => Sys2Proof.Machine.execRegisterWrite w s
  | .getVersion msg => Sys2Proof.Machine.execGetVersion msg s
  | .getCapabilities msg => Sys2Proof.Machine.execGetCapabilities msg s
  | .negotiateAlgorithms msg => Sys2Proof.Machine.execNegotiateAlgorithms msg s
  | .getDigests msg => Sys2Proof.Machine.execGetDigests msg s
  | .getCertificate msg => Sys2Proof.Machine.execGetCertificate msg s
  | .challenge msg => Sys2Proof.Machine.execChallenge msg s
  | .getMeasurements msg => Sys2Proof.Machine.execGetMeasurements msg s
  | .spdmUnsupported msg => Sys2Proof.Machine.execSpdmUnsupported msg s
  | .doeDiscovery index => Sys2Proof.Machine.execDoeDiscovery index s
  | .doeAbort => Sys2Proof.Machine.execDoeAbort s
  | .extest => Sys2Proof.Machine.execExtest s
  | .idcode => Sys2Proof.Machine.execIdcode s
  | .samplePreload => Sys2Proof.Machine.execSamplePreload s
  | .highz => Sys2Proof.Machine.execHighz s
  | .clamp => Sys2Proof.Machine.execClamp s
  | .dap => Sys2Proof.Machine.execDap s
  | .bypass => Sys2Proof.Machine.execBypass s
  | .dapAccess write addr => Sys2Proof.Machine.execDapAccess write addr s
  | .vfFlr c => Sys2Proof.Machine.execVfFlr c s
  | .pfFlr => Sys2Proof.Machine.execPfFlr s
  | .vfEnableClear => Sys2Proof.Machine.execVfEnableClear s
  | .chamberResetComplete c => Sys2Proof.Machine.execChamberResetComplete c s
  | .dlDown => Sys2Proof.Machine.execDlDown s
  | .pmeTurnOff => Sys2Proof.Machine.execPmeTurnOff s
  | .ladderEntry => Sys2Proof.Machine.execLadderEntry s
  | .ladderExit => Sys2Proof.Machine.execLadderExit s
  | .domainOff d => Sys2Proof.Machine.execDomainOff d s
  | .wakeRequest d => Sys2Proof.Machine.execWakeRequest d s
  | .wakeGrant => Sys2Proof.Machine.execWakeGrant s
  | .warmingEnd d ret => Sys2Proof.Machine.execWarmingEnd d ret s
  | .coldReset => Sys2Proof.Machine.execColdReset s
  | .sysRstNAssert n => Sys2Proof.Machine.execSysRstNAssert n s
  | .warmResetRelease => Sys2Proof.Machine.execWarmResetRelease s
  | .perstNAssert n => Sys2Proof.Machine.execPerstNAssert n s
  | .perstNRelease n => Sys2Proof.Machine.execPerstNRelease n s
  | .deviceResetTimer => Sys2Proof.Machine.execDeviceResetTimer s
  | .boot flash errA errB lost badTable => Sys2Proof.Machine.execBoot flash errA errB lost badTable s
  | .ready => Sys2Proof.Machine.execReady s
  | .version p node gen lo hi => Sys2Proof.Machine.execVersion p node gen lo hi s
  | .kerardTrain p good lanes2 => Sys2Proof.Machine.execKerardTrain p good lanes2 s
  | .retrainTimer p => Sys2Proof.Machine.execRetrainTimer p s
  | .bypassOpen => Sys2Proof.Machine.execBypassOpen s
  | .bypassUpTimeout => Sys2Proof.Machine.execBypassUpTimeout s
  | .bypassRetry => Sys2Proof.Machine.execBypassRetry s
  | .frameForward p f => Sys2Proof.Machine.execFrameForward p f s
  | .discoverSend => Sys2Proof.Machine.execDiscoverSend s
  | .discover p f => Sys2Proof.Machine.execDiscover p f s
  | .pairJoin p f pk => Sys2Proof.Machine.execPairJoin p f pk s
  | .pairJoinTimeout => Sys2Proof.Machine.execPairJoinTimeout s
  | .heartbeatSend => Sys2Proof.Machine.execHeartbeatSend s
  | .heartbeat p f => Sys2Proof.Machine.execHeartbeat p f s
  | .heartbeatMissed who => Sys2Proof.Machine.execHeartbeatMissed who s
  | .claim p f => Sys2Proof.Machine.execClaim p f s
  | .dissolve p f => Sys2Proof.Machine.execDissolve p f s
  | .mirror p f iv setups last => Sys2Proof.Machine.execMirror p f iv setups last s
  | .mirrorHdr p f iv => Sys2Proof.Machine.execMirrorHdr p f iv s
  | .mirrorAck p f => Sys2Proof.Machine.execMirrorAck p f s
  | .mirrorResend hdr no => Sys2Proof.Machine.execMirrorResend hdr no s
  | .resyncCopy ret => Sys2Proof.Machine.execResyncCopy ret s
  | .rejoin => Sys2Proof.Machine.execRejoin s
  | .leaf p f => Sys2Proof.Machine.execLeaf p f s
  | .leafAck p f => Sys2Proof.Machine.execLeafAck p f s
  | .leafAckTimeout => Sys2Proof.Machine.execLeafAckTimeout s
  | .kerardLinkLoss p => Sys2Proof.Machine.execKerardLinkLoss p s
  | .railOutOfRange ring link => Sys2Proof.Machine.execRailOutOfRange ring link s
  | .tapReset => Sys2Proof.Machine.execTapReset s
  | .tmpPowerOn => Sys2Proof.Machine.execTmpPowerOn s
  | .batteryLoss => Sys2Proof.Machine.execBatteryLoss s
  | .dormantRestoreComplete badTable => Sys2Proof.Machine.execDormantRestoreComplete badTable s
  | .discoverSeenExpiry n => Sys2Proof.Machine.execDiscoverSeenExpiry n s
  | .busyWindowEnd => Sys2Proof.Machine.execBusyWindowEnd s

end Sys2Proof.Machine
end

