-- ==== Sys2Proof/Machine/Tick.lean ====
section
/-! DEFINITION. A cycle of CLK_DP, which passes when no command waits: the Chisel cores fetch, decode and execute (R282, R285, R296), counters of
lasting events count (R521), and credits and the clock of the device go on (R158, R238, R451, R510). -/
namespace Sys2Proof.Machine

/-- The word a core fetches at its PC: outside the running recipe's range the fetch is denied and returns the word that does nothing (R260, R282). -/
def fetchWord (b : Block) (k : Nat) : BitVec 24 × Block :=
  let a := (b.core k).pc.toNat
  let ok := match (b.ferrule k).fetch with
    | some (lo, hi) => decide (lo ≤ a ∧ a ≤ hi)
    | none => false
  if ok then (Tab.get b.chisel.store 0 a, b) else (0xF00000, ferruleViolation b k .fetch a (coreChamber b k))

/-- A command carried out on the device without its queue. -/
def execOn (i : Instr) (b : Block) : Block :=
  match exec i { blk := b, pending := [] } with
  | .next s => s.blk
  | _ => b

/-- A running core whose last instruction is over issues the next one. -/
def issue (b : Block) (k : Fin 64) : Block :=
  let (w, b) := fetchWord b k
  let b := match decodeChisel k w with
    | some i => execOn i b
    | none => illegal b k
  coreWatchdog b k

/-- A cycle of a core. -/
def coreCycle (b : Block) (k : Fin 64) : Block :=
  let c := b.core k
  if c.st = .running then (if c.busy = 0 then issue b k else b.modCore k fun c => { c with busy := c.busy - 1 }) else b

/-- The chamber that pays for the operation on a Gallery core, 64 for the system. -/
def gaPayer (b : Block) (k : Nat) : Option Nat :=
  match b.gaCore k with
  | .idle => none
  | .validating q => some q.payer
  | .working q => some q.payer
  | .aborting q => some q.payer

/-- A Gallery core's operation waits for Auger (R526). -/
def gaWaits (b : Block) (k : Nat) : Bool :=
  match b.gaCore k with
  | .validating q => gaStreams b q
  | .working q => gaStreams b q
  | _ => false

/-- The events of a curve quad that last (R526). -/
def quadEvents (b : Block) (q : Nat) : List (Nat × Nat × List Nat) :=
  let cores := (List.range 4).map fun j => 4 * q + j
  let busy := cores.filter fun k => b.gaCore k != .idle
  let waits := cores.filter (gaWaits b)
  (68 + q, 0x001, []) :: (if busy = [] then [] else [(68 + q, 0x007, busy.filterMap (gaPayer b))])
    ++ (if busy.length = 4 then [(68 + q, 0x008, [])] else []) ++ (if waits = [] then [] else [(68 + q, 0x009, waits.filterMap (gaPayer b))])

/-- The events of a core that last (R526). -/
def coreEvents (b : Block) (k : Nat) : List (Nat × Nat × List Nat) :=
  let who := (coreChamber b k).toList
  (k, 0x001, []) :: match (b.core k).st with
    | .stalled (.window _) => [(k, 0x008, who)]
    | .stalled (.engine _) => [(k, 0x00A, who)]
    | .stalled (.leaf _) => [(k, 0x00A, who)]
    | .waiting _ => [(k, 0x00B, who)]
    | _ => []

/-- The events that last, asserted in this cycle, with the chambers they are for (R526). -/
def lastingEvents (b : Block) : List (Nat × Nat × List Nat) :=
  ((List.range 64).filter fun k => b.domainOn (ccDomain (k / 8))).flatMap (coreEvents b)
    ++ ((List.range 4).filter (pipeAwake b)).map (fun p => (spUnit p, 0x001, []))
    ++ ((List.range 4).filter fun q => b.domainOn (gqDomain q)).flatMap (quadEvents b)
    ++ (if b.domainOn 1 then [(72, 0x001, [])] else [])

/-- The lasting events counted. -/
def countLasting (b : Block) : Block :=
  let l := lastingEvents b
  let b := l.foldl (fun b e => b.lasting e.1 e.2.1 e.2.2) b
  { b with counters := { b.counters with asserted := l.flatMap fun e => (64 :: e.2.2).map fun c => (e.1, e.2.1, c) } }

/-- A Chisel core is busy from delivery to DONE, a Gallery core from an operation's start to its idle report (R253). -/
def coreBusy (b : Block) (j : Nat) : Bool :=
  if j < 64 then
    match (b.core j).st with
    | .running => true
    | .standard => true
    | .stalled _ => true
    | .waiting _ => true
    | _ => false
  else b.gaCore (j - 64) != .idle

/-- The cycles of the cores (R253, R525) and of fetch credit (R238). -/
def countCycles (b : Block) : Block :=
  let on := (List.range 64).filter fun k => b.domainOn (ccDomain (k / 8))
  let cycles := on.foldl (fun t k => Tab.modify t 0 k fun n => (n + 1) % 2 ^ 64) b.counters.cycles
  let busy := (List.range 84).filter (coreBusy b)
  let b := { b with counters := { b.counters with cycles := cycles } }
  let b := b.modChuck fun x => { x with busyCycles := busy.foldl (fun t j => Tab.modify t 0 j (· + 1)) x.busyCycles }
  { b with ch := Tab.mapVals b.ch fun _ h => if h.st = .none then h else { h with credit := min (4096 * b.n) (h.credit + 1) } }

/-- Gallery's metering of a chamber over a microsecond, in units of 1 / N ns (R158): what it gains, less the time of the cores it occupies,
between floor and ceiling. -/
def meterGallery (b : Block) (c : Nat) (h : Chamber) : Chamber :=
  let used (ks : List Nat) : Int := (ks.filter fun k => gaPayer b k == some c).length
  let go (v gain n : Int) : Int := max (-(100000000 * b.n)) (min (1000000 * b.n) (v + gain - 1000 * b.n * n))
  if h.st = .none then h
  else { h with curve := go h.curve 16000 (used (List.range 16)), lattice := go h.lattice 4000 (used [16, 17, 18, 19]) }

/-- A microsecond is over. -/
def microsecond (b : Block) : Block :=
  pmcMicro { b with now := b.now + 1, ch := Tab.mapVals b.ch (meterGallery b) }

/-- The device's time goes on by a cycle of 0.8 ns. -/
def clock (b : Block) : Block :=
  let b := { b with cyc := b.cyc + 1 }
  if b.cyc % 1250 = 0 then microsecond b else b

/-- A cycle without a command. -/
def tick (b : Block) : Block :=
  if !b.pmc.powerGood then b
  else if b.running then clock (countCycles (countLasting ((List.finRange 64).foldl coreCycle b)))
  else clock b

end Sys2Proof.Machine
end

