-- ==== Sys2Proof/Safety.lean ====
section
/-! DEFINITION. What the statements about commands and runs are written in: a command completed, the conditions under which the commands of
each family have their effect, and what they then leave. -/
namespace Sys2Proof.Machine

/-- Every command that waits is well-formed. -/
def QueueOk (s : State) : Prop := ∀ c ∈ s.pending, wfInstr c = true

/-- The command completes: the device becomes `b`, and the queue stands as it was. -/
def Completes (i : Instr) (s : State) (b : Block) : Prop := exec i s = .next { s with blk := b }

/-- The active rules of DMA engine `m` admit its transfers of a kind (R411, R416). -/
def DmaOpen (b : Block) (m : Nat) (k : AccessKind) : Prop := rulesAdmit (b.ferrule m).active (dmaAddress m / granuleBytes m) k = true

/-! ### Instructions of the Chisel set -/

/-- Core `k` runs a recipe, its cluster is on, and the instruction's condition holds: the instruction executes (R283, R284). -/
structure Issues (s : State) (k : Fin 64) (cond : BitVec 4) : Prop where
  live : s.blk.running = true
  cluster : s.blk.domainOn (ccDomain (k / 8)) = true
  core : (s.blk.core k).st = .running
  holds : condHolds cond (s.blk.core k).flags = true

/-- The device once the core's event INSTR has been counted (R524). -/
def decoded (b : Block) (k : Fin 64) : Block := coreEvent b k 0x002

/-- The device after an instruction that changed core `k` alone by `g`, in so many cycles: the loop ends at its address are processed and the PC
goes on (R299). -/
def issued (b : Block) (k : Fin 64) (cost : Nat) (g : Core → Core) : Block := goOn ((decoded b k).modCore k g) k cost

/-- The device after a taken branch, jump or return to `t` (R301): loop levels that do not hold the target close. -/
def branched (b : Block) (k : Fin 64) (t : BitVec 16) (cost : Nat) : Block :=
  (coreEvent b k 0x004).modCore k fun c => (charge { Core.closeFor t 5 c with pc := t } cost).setLast

/-- V of a sum: the addends agree in sign and the result does not (R289). -/
def addOverflow {w : Nat} (a v r : BitVec w) : Bool := a.msb == v.msb && r.msb != a.msb

/-- V of a difference: the operands differ in sign, and the result's sign is the subtrahend's (R289). -/
def subOverflow {w : Nat} (a v r : BitVec w) : Bool := a.msb != v.msb && r.msb == v.msb

/-- The flags of a sum with a carry, Z from the result alone. -/
def sumFlags {w : Nat} (f : Flags) (a v r : BitVec w) (cin : Nat) : Flags :=
  { f with z := decide (r = 0), n := r.msb, c := decide (2 ^ w ≤ a.toNat + v.toNat + cin), v := addOverflow a v r }

/-- The flags of a difference with a borrow, Z from the result alone: C says that no borrow occurred. -/
def diffFlags {w : Nat} (f : Flags) (a v r : BitVec w) (borrow : Nat) : Flags :=
  { f with z := decide (r = 0), n := r.msb, c := decide (v.toNat + borrow ≤ a.toNat), v := subOverflow a v r }

/-- Z chained: it stays set only where it was set (R289). -/
def zChained (old f : Flags) : Flags := { f with z := f.z && old.z }

/-- The flags of a logical result: Z and N alone. -/
def logicFlags {w : Nat} (f : Flags) (r : BitVec w) : Flags := { f with z := decide (r = 0), n := r.msb }

/-- The address of a format-M access (R288): the pointer and the signed displacement. -/
def mAddr (b : Block) (k : Fin 64) (p : Ptr) (disp : BitVec 8) : Nat := ((b.core k).ptr p + disp.signExtend 16).toNat

/-! ### Operations -/

/-- A requester's operation of an opcode is at step 4 of R70: its keys and its input are there. -/
structure Ready (s : State) (r : Requester) (j : Job) (opcode : Nat) : Prop where
  live : s.blk.running = true
  job : s.blk.job? r = some j
  phase : j.phase = .ready
  opcode : j.opcode = opcode
  filled : waitsForFill s.blk r = false
  /-- A direct item or an engine call, not an item of a standard recipe. -/
  own : ∀ n, r = .item n → (directItem? s.blk r).isSome = true

/-- The device as step 4 begins, the job's pipeline noted with it. -/
def begun (s : State) (r : Requester) (j : Job) : Block := s.blk.modJob r fun x => { x with pipe := j.pipe }

/-- The device `b` with work for an engine queued, its outcome kept until the engine delivers it. -/
def works (b : Block) (r : Requester) (j : Job) (w : Work) (o : Outcome) : Block := settle (submit b r j w (some o) [])

/-- As `works`, with the slots of the records it creates reserved until their commit (R166). -/
def worksCreating (b : Block) (r : Requester) (j : Job) (w : Work) (o : Outcome) (l : List NewRecord) : Block :=
  settle (submit (reserveSlots b j.chamber l) r j w (some o) l)

/-- The device `b` with the operation ended by a status and nothing else. -/
def refuses (b : Block) (r : Requester) (status : Nat) : Block :=
  settle (endJob b r { status := status, result := zeros 16, output := none })

/-- OK, with a RESULT and no output. -/
def okWith (r : Bytes) : Outcome := { status := 0, result := fit 16 r, output := none }

/-- OK, with a RESULT and output. -/
def okOut (r out : Bytes) : Outcome := { status := 0, result := fit 16 r, output := some out }

/-- A status alone. -/
def onlyStatus (n : Nat) : Outcome := { status := n, result := zeros 16, output := none }

/-! ### Commands of the mailboxes -/

/-- The device as a mailbox's command is examined: with an entry for its leaf where it makes one (R345 step 2). -/
def entered (b : Block) (m : Mbx) (r : CmdRow) : Block :=
  if makesLeaf b r then (takeEntry b .system).modMbx (mbxNo m) fun x => { x with leaf := .entry } else b

/-- Mailbox `m` has a request of command `code` with payload `p` that passes the checks of R345: it waits to be taken up and nothing else works on
its object, its header is right, its leaf has an entry, and it is admitted and authorised, which leaves the device as `b`. -/
structure Called (s : State) (m : Mbx) (code : Nat) (p : Bytes) (b : Block) : Prop where
  live : s.blk.running = true
  starts : mayStart s.blk (mbxNo m) code = true
  header : headerCheck (mbxNo m) (s.blk.mbx (mbxNo m)) = none
  restored : s.blk.pmc.restoring = false ∨ code = 1
  admitted : ∃ r, cmdRow code = some r ∧ (makesLeaf s.blk r = true → claimless s.blk = false ∧ entryCheck s.blk .system = .granted) ∧
    admissionCheck (entered s.blk m r) (mbxNo m) r = none ∧
    authorise (entered s.blk m r) ((entered s.blk m r).mbx (mbxNo m)) r = (none, b) ∧ reqPayload ((entered s.blk m r).mbx (mbxNo m)) = p

/-- The device `b` with a mailbox's command over: its status and payload stand, and its leaf, where it has an entry, waits for its number. -/
def answered (b : Block) (m : Mbx) (status : Nat) (payload : Bytes) : Block := settle (finishCommand b m status 0 payload 0xFE)

/-- The device `b` with a mailbox's command waiting for its next stage, which needs `hold`. -/
def staged (b : Block) (m : Mbx) (hold : List Bytes) : Block :=
  settle (b.modMbx (mbxNo m) fun x => { x with phase := .waiting, cont := x.cont + 1, hold := hold })

/-- A waiting command goes on with stage `k` of its code: its commits are complete and what it awaited has come about. -/
structure GoesOn (b : Block) (m : Mbx) (code k : Nat) (p : Bytes) (hold : List Bytes) : Prop where
  phase : (b.mbx (mbxNo m)).phase = .waiting
  commits : (b.mbx (mbxNo m)).waits = 0
  failed : (b.mbx (mbxNo m)).failed = none
  arrived : awaitOver b (b.mbx (mbxNo m)).await = true
  stage : (b.mbx (mbxNo m)).cont = k
  code : mbxCode (b.mbx (mbxNo m)) = code
  payload : reqPayload (b.mbx (mbxNo m)) = p
  held : (b.mbx (mbxNo m)).hold = hold

/-- The device `b` with what a mailbox awaits forgotten, as its next stage begins. -/
def resumed (b : Block) (m : Mbx) : Block := b.modMbx (mbxNo m) fun x => { x with await := .nothing }

/-! ### Frames of Kerard -/

/-- A frame of a kind arrives at a trained port of an open node, whole and addressed to it (R466, R473). -/
structure Arrives (s : State) (p : KPort) (f : Bytes) (kind : Nat) : Prop where
  live : s.blk.running = true
  domain : s.blk.domainOn (kDomain p) = true
  up : s.blk.linkUp p = true
  node : s.blk.kerard.bypassOpen = true
  whole : fWhole f = true
  kind : fKind f = kind
  dst : fDst f = s.blk.kerard.node
  /-- The port's DMA engine may write the frame to its buffer (R416). -/
  admits : DmaOpen s.blk (kerardMaster p) .write

/-- A frame is authentic, not below the claim table and newer than the last accepted from endpoint `e` (R475, R492): the device accepts it and
becomes `t`, which has learnt of the claim in the header (R493). -/
structure Accepts (b : Block) (f : Bytes) (authentic : KEnd → Bool) (e : KEnd) (t : Block) : Prop where
  claim : claimDrops b f = false
  sender : kSender b f = some e
  opens : authentic e = true
  newer : (kSeqOf b e).accepted < fSeq f
  left : t = headerClaim (modKSeq b e fun q => { q with accepted := fSeq f }) e f

end Sys2Proof.Machine
end

