-- ==== Sys2Proof/Certificates/Slice0/Obligations.lean ====
section
/-! DEFINITION. The statements for the provers. -/
set_option maxRecDepth 4000
open Sys2Proof Sys2Proof.Machine

/-! ### Steps -/

/-- A step carries out the command at the front of the queue on the state with the queue's rest. -/
def Obligations.StepRunsFrontCommand : Prop :=
  ∀ (c : Instr) (rest : List Instr) (s : State), s.pending = c :: rest → step s = exec c { s with pending := rest }

/-- What a step without a waiting command is, a choice of the model (DESIGN CHOICE, log entry 30): a cycle of CLK_DP, in which nothing happens
without main power; every 1,250 cycles are a microsecond; and a running core whose last instruction is over executes the word at its PC, or the word
that does nothing where its Ferrule does not admit the fetch (R260, R282, R296). -/
def Obligations.IdleCycle : Prop :=
  ∀ (s : State) (k : Fin 64) (i : Instr) (lo hi : Nat), s.pending = [] →
    let b := s.blk
    let pc := (b.core k).pc.toNat
    step s = .next { s with blk := tick b } ∧
    (b.pmc.powerGood = false → tick b = b) ∧
    (b.pmc.powerGood = true → b.pmc.warm ≠ none → tick b = clock b) ∧
    (clock b).cyc = b.cyc + 1 ∧ ((b.cyc + 1) % 1250 = 0 → (clock b).now = b.now + 1) ∧ ((b.cyc + 1) % 1250 ≠ 0 → (clock b).now = b.now) ∧
    ((b.core k).st = .running → (b.core k).busy ≠ 0 → coreCycle b k = b.modCore k fun c => { c with busy := c.busy - 1 }) ∧
    ((b.core k).st ≠ .running → coreCycle b k = b) ∧
    ((b.core k).st = .running → (b.core k).busy = 0 → (b.ferrule k).fetch = some (lo, hi) → lo ≤ pc → pc ≤ hi →
      decodeChisel k (Tab.get b.chisel.store 0 pc) = some i → coreCycle b k = coreWatchdog (execOn i b) k) ∧
    ((b.core k).st = .running → (b.core k).busy = 0 → (b.ferrule k).fetch = none →
      coreCycle b k = coreWatchdog (execOn (.nopInstr k 15) (ferruleViolation b k .fetch pc (coreChamber b k))) k)

/-- Every command has its effect in every state: one that is well-formed answers a next state and leaves the queue as it is, and one whose operands
name nothing stops as malformed. So a queue of well-formed commands runs to its end: each step answers a next state with such a queue. -/
def Obligations.EveryCommandRuns : Prop :=
  (∀ (i : Instr) (s : State), wfInstr i = true → ∃ t, exec i s = .next t ∧ t.pending = s.pending) ∧
  (∀ (i : Instr) (s : State), wfInstr i = false → exec i s = .fault .malformed) ∧
  (∀ s : State, QueueOk s → ∃ t, step s = .next t ∧ QueueOk t ∧ t.pending = s.pending.tail)

/-- The machine after a cold reset (R254, R337, R390, R499, R519, R530): the values the manual gives for the power manager, the mailboxes, Chuck, the
pair and the counters; and no command waits. -/
def Obligations.ResetState : Prop :=
  let s := State.reset
  let b := s.blk
  s.pending = [] ∧ QueueOk s ∧
  (b.pmc.st, b.pmc.cause, b.pmc.floor, b.pmc.darkIdle, b.pmc.deepIdle, b.pmc.offDelay) = (0, 0, 3, 4, 0xA, 0x64) ∧
  (b.pmc.on, b.pmc.warming, b.pmc.retain, b.pmc.keep, b.pmc.err) = (0x940003, 0, 0, 0, 0) ∧
  ((List.range 4).map fun r => (Tab.get b.pmc.cap 0 r, Tab.get b.pmc.refill 0 r, Tab.get b.pmc.tokens 0 r)) =
    [(0xC8, 0x14, 0xC8), (0x64, 0xA, 0x64), (0x78, 0xC, 0x78), (0x3C, 6, 0x3C)] ∧
  b.pmc.ready = false ∧
  (∀ i < 6, (b.mbx i).busy = true ∧ (b.mbx i).done = false ∧ (b.mbx i).vmaj = 0 ∧ (b.mbx i).err = 0 ∧ (b.mbx i).irqEn = false) ∧
  b.kerard.st = .none ∧ b.kerard.role = .none ∧ b.kerard.held = 0 ∧ b.kerard.bypassOpen = false ∧ b.kerard.hostTimeout = 10 ∧
  b.kerard.dropsClaim = 0 ∧ b.kerard.dropsAuth = 0 ∧ b.kerard.err = 0 ∧
  b.counters.tally = [] ∧ b.strata.pcc = 0 ∧ b.strata.evidence = [] ∧ b.ch = [] ∧ b.chuck.items = []

/-! ### The Chisel instruction set -/

/-- An instruction of the Chisel set, put into its word, is read out of it again, with every operand at every value (R282 to R289). -/
def Obligations.ChiselRoundTrip : Prop :=
  ∀ (i : Instr) (w : BitVec 24), encodeChisel i = some w → decodeChisel (chiselCore i) w = some i

/-- Words of the Chisel set (R282, R285 to R291), written out bit by bit, and words that are faults: a reserved operation code, a reserved operand bit, a
reserved register code and a reserved unary operation. -/
def Obligations.ChiselWords : Prop :=
  ∀ k : Fin 64,
    decodeChisel k 0b0000_000000_00000000000000#24 = some (.nopInstr k 0) ∧
    decodeChisel k 0b0001_000001_11111111111110#24 = some (.br k 1 0x3FFE) ∧
    decodeChisel k 0b0000_000100_00000000000101#24 = some (.jr k 0 5) ∧
    decodeChisel k 0b0000_000100_10000000000101#24 = some (.callr k 0 5) ∧
    decodeChisel k 0b0000_000101_01000000010000#24 = some (.loop k 0 2 16) ∧
    decodeChisel k 0b0000_000110_00001100000100#24 = some (.loopi k 0 3 4) ∧
    decodeChisel k 0b0000_001000_00010010000000#24 = some (.mov k 0 1 2) ∧
    decodeChisel k 0b1101_001011_11110010000000#24 = some (.addi k 13 15 0x80) ∧
    decodeChisel k 0b0000_011001_00111001000000#24 = some (.neg k 0 3) ∧
    decodeChisel k 0b0000_011100_10001001000000#24 = some (.movw k 0 .x .y) ∧
    decodeChisel k 0b0000_101111_00000000000000#24 = some (.done k 0 .issued) ∧
    decodeChisel k 0b0000_111010_00000000000111#24 = some (.cx k 0 2 7) ∧
    decodeChisel k 0x080100#24 = some (.ld k 0 0 .x true 0) ∧ decodeChisel k 0xF00000#24 = some (.nopInstr k 15) ∧
    decodeChisel k 0b0000_000111_00000000000000#24 = none ∧ decodeChisel k 0b0000_110000_00000000000000#24 = none ∧
    decodeChisel k 0b0000_110111_00000000000000#24 = none ∧ decodeChisel k 0b0000_000000_00000000000001#24 = none ∧
    decodeChisel k 0b0000_001000_00010010000001#24 = none ∧ decodeChisel k 0b0000_011100_10111001000000#24 = none ∧
    decodeChisel k 0b0000_011001_00111010000000#24 = none

/-- MOV, ADD, SUB, CMP and their immediate forms, ADC and SBC (R289, R291). -/
def Obligations.ByteArithmetic : Prop :=
  ∀ (s : State) (k : Fin 64) (cond d w : BitVec 4) (imm : BitVec 8), Issues s k cond →
    Completes (.mov k cond d w) s (issued s.blk k 1 fun c => c.setReg d (c.reg w)) ∧
    Completes (.movi k cond d imm) s (issued s.blk k 1 fun c => c.setReg d imm) ∧
    Completes (.add k cond d w) s (issued s.blk k 1 fun c =>
      { c.setReg d (c.reg d + c.reg w) with flags := sumFlags c.flags (c.reg d) (c.reg w) (c.reg d + c.reg w) 0 }) ∧
    Completes (.addi k cond d imm) s (issued s.blk k 1 fun c =>
      { c.setReg d (c.reg d + imm) with flags := sumFlags c.flags (c.reg d) imm (c.reg d + imm) 0 }) ∧
    Completes (.adc k cond d w) s (issued s.blk k 1 fun c =>
      let r := c.reg d + c.reg w + BitVec.ofNat 8 c.flags.c.toNat
      { c.setReg d r with flags := zChained c.flags (sumFlags c.flags (c.reg d) (c.reg w) r c.flags.c.toNat) }) ∧
    Completes (.sub k cond d w) s (issued s.blk k 1 fun c =>
      { c.setReg d (c.reg d - c.reg w) with flags := diffFlags c.flags (c.reg d) (c.reg w) (c.reg d - c.reg w) 0 }) ∧
    Completes (.subi k cond d imm) s (issued s.blk k 1 fun c =>
      { c.setReg d (c.reg d - imm) with flags := diffFlags c.flags (c.reg d) imm (c.reg d - imm) 0 }) ∧
    Completes (.sbc k cond d w) s (issued s.blk k 1 fun c =>
      let borrow := 1 - c.flags.c.toNat
      let r := c.reg d - c.reg w - BitVec.ofNat 8 borrow
      { c.setReg d r with flags := zChained c.flags (diffFlags c.flags (c.reg d) (c.reg w) r borrow) }) ∧
    Completes (.cmp k cond d w) s (issued s.blk k 1 fun c =>
      { c with flags := diffFlags c.flags (c.reg d) (c.reg w) (c.reg d - c.reg w) 0 }) ∧
    Completes (.cmpi k cond d imm) s (issued s.blk k 1 fun c =>
      { c with flags := diffFlags c.flags (c.reg d) imm (c.reg d - imm) 0 })

/-- The logical instructions, TSTI, the unary ones, GETF and SETF (R289, R291). -/
def Obligations.ByteLogic : Prop :=
  ∀ (s : State) (k : Fin 64) (cond d w : BitVec 4) (imm : BitVec 8), Issues s k cond →
    let put (r : Core → Byte) (f : Core → Flags) : Block := issued s.blk k 1 fun c => { c.setReg d (r c) with flags := f c }
    let logic (r : Core → Byte) : Block := put r fun c => logicFlags c.flags (r c)
    Completes (.and k cond d w) s (logic fun c => c.reg d &&& c.reg w) ∧
    Completes (.andi k cond d imm) s (logic fun c => c.reg d &&& imm) ∧
    Completes (.or k cond d w) s (logic fun c => c.reg d ||| c.reg w) ∧
    Completes (.ori k cond d imm) s (logic fun c => c.reg d ||| imm) ∧
    Completes (.xor k cond d w) s (logic fun c => c.reg d ^^^ c.reg w) ∧
    Completes (.xori k cond d imm) s (logic fun c => c.reg d ^^^ imm) ∧
    Completes (.tsti k cond d imm) s (issued s.blk k 1 fun c => { c with flags := logicFlags c.flags (c.reg d &&& imm) }) ∧
    Completes (.shl k cond d) s (put (fun c => (c.reg d).extractLsb' 0 7 ++ 0#1) fun c =>
      { logicFlags c.flags ((c.reg d).extractLsb' 0 7 ++ 0#1 : BitVec 8) with c := (c.reg d).getLsbD 7 }) ∧
    Completes (.shr k cond d) s (put (fun c => 0#1 ++ (c.reg d).extractLsb' 1 7) fun c =>
      { logicFlags c.flags (0#1 ++ (c.reg d).extractLsb' 1 7 : BitVec 8) with c := (c.reg d).getLsbD 0 }) ∧
    Completes (.asr k cond d) s (put (fun c => BitVec.ofBool (c.reg d).msb ++ (c.reg d).extractLsb' 1 7) fun c =>
      { logicFlags c.flags (BitVec.ofBool (c.reg d).msb ++ (c.reg d).extractLsb' 1 7 : BitVec 8) with c := (c.reg d).getLsbD 0 }) ∧
    Completes (.rol k cond d) s (put (fun c => (c.reg d).extractLsb' 0 7 ++ BitVec.ofBool c.flags.c) fun c =>
      { logicFlags c.flags ((c.reg d).extractLsb' 0 7 ++ BitVec.ofBool c.flags.c : BitVec 8) with c := (c.reg d).getLsbD 7 }) ∧
    Completes (.ror k cond d) s (put (fun c => BitVec.ofBool c.flags.c ++ (c.reg d).extractLsb' 1 7) fun c =>
      { logicFlags c.flags (BitVec.ofBool c.flags.c ++ (c.reg d).extractLsb' 1 7 : BitVec 8) with c := (c.reg d).getLsbD 0 }) ∧
    Completes (.swap k cond d) s (logic fun c => (c.reg d).extractLsb' 0 4 ++ (c.reg d).extractLsb' 4 4) ∧
    Completes (.inc k cond d) s (put (fun c => c.reg d + 1) fun c =>
      { logicFlags c.flags (c.reg d + 1) with v := decide (c.reg d = 0x7F) }) ∧
    Completes (.dec k cond d) s (put (fun c => c.reg d - 1) fun c =>
      { logicFlags c.flags (c.reg d - 1) with v := decide (c.reg d = 0x80) }) ∧
    Completes (.not k cond d) s (logic fun c => ~~~(c.reg d)) ∧
    Completes (.neg k cond d) s (put (fun c => 0 - c.reg d) fun c => diffFlags c.flags 0 (c.reg d) (0 - c.reg d) 0) ∧
    Completes (.getf k cond d) s (issued s.blk k 1 fun c => c.setReg d
      (0#3 ++ BitVec.ofBool c.flags.last ++ BitVec.ofBool c.flags.v ++ BitVec.ofBool c.flags.n ++ BitVec.ofBool c.flags.c
        ++ BitVec.ofBool c.flags.z)) ∧
    Completes (.setf k cond w) s (issued s.blk k 1 fun c =>
      { c with flags := { z := (c.reg w).getLsbD 0, c := (c.reg w).getLsbD 1, n := (c.reg w).getLsbD 2, v := (c.reg w).getLsbD 3
                          last := c.flags.last } })

/-- MUL, DIVU and the 16-bit operations (R287, R292, R294). -/
def Obligations.WideOperations : Prop :=
  ∀ (s : State) (k : Fin 64) (cond x y w : BitVec 4) (d : BitVec 3) (e g : Reg16) (high : Bool) (imm : BitVec 8) (imm10 : BitVec 10),
    Issues s k cond →
    Completes (.mul k cond d x y) s (issued s.blk k 2 fun c =>
      let p : BitVec 16 := (c.reg x).zeroExtend 16 * (c.reg y).zeroExtend 16
      { c.setPair d p with flags := logicFlags c.flags p }) ∧
    Completes (.divu k cond d w) s (issued s.blk k 10 fun c =>
      let m : BitVec 16 := (c.reg w).zeroExtend 16
      if c.reg w = 0 then { c.setPair d 0xFFFF with flags := { logicFlags c.flags (0xFFFF : BitVec 16) with v := true } }
      else { (c.setPair d (c.pair d / m)).setReg w ((c.pair d % m).setWidth 8) with
             flags := { logicFlags c.flags (c.pair d / m) with v := false } }) ∧
    Completes (.movw k cond e g) s (issued s.blk k 1 fun c => c.setReg16 e (c.reg16 g)) ∧
    Completes (.lpi k cond e high imm) s (issued s.blk k 1 fun c =>
      c.setReg16 e (if high then imm ++ (c.reg16 e).extractLsb' 0 8 else (c.reg16 e).extractLsb' 8 8 ++ imm)) ∧
    Completes (.addw k cond e g) s (issued s.blk k 1 fun c =>
      let r := c.reg16 e + c.reg16 g
      { c.setReg16 e r with flags := sumFlags c.flags (c.reg16 e) (c.reg16 g) r 0 }) ∧
    Completes (.addwi k cond e imm10) s (issued s.blk k 1 fun c =>
      let r := c.reg16 e + imm10.signExtend 16
      { c.setReg16 e r with flags := sumFlags c.flags (c.reg16 e) (imm10.signExtend 16) r 0 })

/-- LD, ST, LDW, STW, MOVB and CMPB (R260, R261, R288, R292, R293): a load delivers what the data map answers, a page of the window that is not
there stalls the core, and a store puts its bytes at the address computed.
What the data map answers (R259 to R264): a byte of scratch, of the window, of a collected ticket's area, of the context; zero for a denied
access, which the Ferrule counts, and for the byte beyond the top.
The control region (R259, R260, R263, R264, R405, R525, R527): CC_WINPOS moves the window, CC_RNGDATA answers the next byte of the core's
Lantern port or zero with ERR set, and the lowest byte of a counter latches the whole of it. -/
def Obligations.MemoryInstructions : Prop :=
  (∀ (s : State) (k : Fin 64) (cond r : BitVec 4) (q : BitVec 3) (p : Ptr) (inc : Bool) (disp : BitVec 8), Issues s k cond →
    let b := decoded s.blk k
    let a := mAddr b k p disp
    let x := (b.core k).x.toNat
    let y := (b.core k).y.toNat
    let load (b : Block) (a : Nat) : Block := goOn (coreEvent b k 0x006) k (if 0xF000 ≤ a then 2 else 1)
    let stall (page : Nat) : Block := b.modCore k fun c => { c with st := .stalled (.window page) }
    (∀ d b1, coreLoad b k a 1 = .ok (d, b1) →
      Completes (.ld k cond r p inc disp) s (load (b1.modCore k fun c => (c.setReg r (byteAt d 0)).postInc p inc 1) a)) ∧
    (∀ page, coreLoad b k a 1 = .error page → Completes (.ld k cond r p inc disp) s (stall page)) ∧
    (∀ d b1, coreLoad b k a 2 = .ok (d, b1) →
      Completes (.ldw k cond q p inc disp) s
        (load (b1.modCore k fun c => (c.setPair q (byteAt d 1 ++ byteAt d 0)).postInc p inc 2) a)) ∧
    (∀ page, coreLoad b k a 2 = .error page → Completes (.ldw k cond q p inc disp) s (stall page)) ∧
    Completes (.st k cond r p inc disp) s
      (goOn (coreEvent ((coreStore b k a [(b.core k).reg r]).modCore k fun c => c.postInc p inc 1) k 0x007) k 1) ∧
    Completes (.stw k cond q p inc disp) s
      (goOn (coreEvent ((coreStore b k a [(b.core k).reg (pairLo q), (b.core k).reg (pairHi q)]).modCore k
        fun c => c.postInc p inc 2) k 0x007) k 1) ∧
    (∀ d b1, coreLoad b k x 1 = .ok (d, b1) →
      Completes (.movb k cond) s (goOn ((coreEvent (coreStore (coreEvent b1 k 0x006) k y [byteAt d 0]) k 0x007).modCore k
        fun c => { c with x := c.x + 1, y := c.y + 1 }) k (if 0xF000 ≤ x then 2 else 1)) ∧
      Completes (.cmpb k cond r) s (load (b1.modCore k fun c =>
        { c with flags := diffFlags c.flags (byteAt d 0) (c.reg r) (byteAt d 0 - c.reg r) 0, x := c.x + 1 }) x)) ∧
    (∀ page, coreLoad b k x 1 = .error page →
      Completes (.movb k cond) s (stall page) ∧ Completes (.cmpb k cond r) s (stall page))) ∧
  (∀ (b : Block) (k : Fin 64) (a : Nat) (v : Byte), a < 0x10000 →
    let c := b.core k
    let ok (kind : AccessKind) : Prop := rulesAdmit (b.ferrule k).active (a / 256) kind = true ∧ fieldAdmits a kind = true
    (ok .read → a < 0x8000 → coreLoad b k a 1 = .ok ([Memory.read c.scratch a], b)) ∧
    (ok .read → 0x8000 ≤ a → a < 0xC000 → (windowLoads b k = false ∨ c.loaded.testBit ((a - 0x8000) / 4096) = true) →
      coreLoad b k a 1 = .ok ([Memory.read c.window (a - 0x8000)], b)) ∧
    (0x8000 ≤ a → a < 0xC000 → windowLoads b k = true → c.loaded.testBit ((a - 0x8000) / 4096) = false →
      coreLoad b k a 1 = .error ((a - 0x8000) / 4096)) ∧
    (ok .read → 0xC000 ≤ a → a < 0xC200 → (b.ticket k ((a - 0xC000) / 32)).st ≠ .outstanding →
      coreLoad b k a 1 = .ok ([byteAt (b.ticket k ((a - 0xC000) / 32)).area ((a - 0xC000) % 32)], b)) ∧
    (ok .read → 0xC000 ≤ a → a < 0xC200 → (b.ticket k ((a - 0xC000) / 32)).st = .outstanding → coreLoad b k a 1 = .ok ([0], b)) ∧
    (ok .read → 0xE000 ≤ a → a < 0xF000 → coreLoad b k a 1 = .ok ([Memory.read c.context a], b)) ∧
    (¬ ok .read → pageMissing b k a = none → coreLoad b k a 1 = .ok ([0], ferruleViolation b k .read a (coreChamber b k))) ∧
    (ok .write → a < 0x8000 → coreStore b k a [v] = b.modCore k fun c => { c with scratch := Memory.write c.scratch a v }) ∧
    (ok .write → 0x8000 ≤ a → a < 0xC000 →
      coreStore b k a [v] = b.modCore k fun c => { c with window := Memory.write c.window (a - 0x8000) v }) ∧
    (ok .write → 0xE000 ≤ a → a < 0xF000 →
      coreStore b k a [v] = b.modCore k fun c => { c with context := Memory.write c.context a v }) ∧
    (¬ ok .write → coreStore b k a [v] = ferruleViolation b k .write a (coreChamber b k))) ∧
  (∀ (s : State) (k : Fin 64) (v : BitVec 8) (n : Fin 8) (ch : Nat), s.blk.running = true → s.blk.domainOn (ccDomain (k / 8)) = true →
    (s.blk.core k).st = .running →
    let b := s.blk
    let admits (page : Nat) (kind : AccessKind) : Prop := rulesAdmit (b.ferrule k).active page kind = true
    let latched (ix value : Nat) : Block :=
      { b with counters := { b.counters with byteLatch := Tab.set b.counters.byteLatch (16 * k + ix) value } }
    (admits 0xF3 .write → Completes (.ccWinpos k v) s (b.modCore k fun c => { c with winpos := v.toNat, window := [], loaded := 0 })) ∧
    (¬ admits 0xF3 .write → Completes (.ccWinpos k v) s (ferruleViolation b k .write 0xF300 (coreChamber b k))) ∧
    (∀ d r, admits 0xF2 .read → (b.lanPort k).buf = d :: r → b.lantern.st = .running →
      Completes (.ccRngdata k) s ((b.modLanPort k fun q => { q with buf := r }).answer d.toNat)) ∧
    (admits 0xF2 .read → ((b.lanPort k).buf = [] ∨ b.lantern.st ≠ .running) →
      Completes (.ccRngdata k) s ((b.modCore k fun c => { c with rngErr := true }).answer 0)) ∧
    (admits 0xF1 .read → coreChamber b k = some ch → (b.chamber ch).uread = true →
      Completes (.counterLowByteRead k none) s ((latched 0 (b.cycleCount k)).answer (b.cycleCount k % 256)) ∧
      ((b.ctr k n).owner = .chamber ch → Completes (.counterLowByteRead k (some n)) s
        ((latched (n + 1) (b.ctr k n).count.toNat).answer ((b.ctr k n).count.toNat % 256))) ∧
      ((b.ctr k n).owner ≠ .chamber ch → Completes (.counterLowByteRead k (some n)) s (b.answer 0))) ∧
    (admits 0xF1 .read → coreChamber b k = some ch → (b.chamber ch).uread = false →
      Completes (.counterLowByteRead k none) s (b.answer 0)))

/-- PUSH, POP, PUSHW, POPW, CALL, CALLR and RET (R293, R300, R302): what goes to the stack in scratch, and the faults where it has no room or a
loop forbids the call or the return. -/
def Obligations.StackInstructions : Prop :=
  ∀ (s : State) (k : Fin 64) (cond r : BitVec 4) (q : BitVec 3) (off : BitVec 14), Issues s k cond →
    let b := decoded s.blk k
    let c := b.core k
    let sp := c.sp.toNat
    let pushed (n : Nat) (d : Bytes) : Block :=
      let a := (c.sp - BitVec.ofNat 16 n).toNat
      (coreAdmit b k .write a).2.modCore k fun c =>
        { c with sp := c.sp - BitVec.ofNat 16 n
                 scratch := if (coreAdmit b k .write a).1 then Memory.writeBytes c.scratch a d else c.scratch }
    let popped (n : Nat) : Block := (coreAdmit b k .read sp).2.modCore k fun c => { c with sp := c.sp + BitVec.ofNat 16 n }
    let byte (i : Nat) : Byte := if (coreAdmit b k .read sp).1 then Memory.read c.scratch (sp + i) else 0
    let rooms (n : Nat) : Prop := (c.sp - BitVec.ofNat 16 n).toNat + n ≤ 0x8000
    let calls (i : Instr) (t : BitVec 16) : Prop :=
      (c.atLoopEnd = false → rooms 3 → Completes i s
        ((coreEvent ((pushed 3 [(c.pc + 1).extractLsb' 0 8, (c.pc + 1).extractLsb' 8 8, BitVec.ofNat 8 c.base]).modCore k
          fun c => { c with base := c.depth }) k 0x004).modCore k fun c => (charge { c with pc := t } 3).setLast)) ∧
      (c.atLoopEnd = true → Completes i s (recipeFault b k .loop)) ∧
      (c.atLoopEnd = false → ¬ rooms 3 → Completes i s (recipeFault b k .stack))
    (rooms 1 → Completes (.push k cond r) s (goOn (coreEvent (pushed 1 [c.reg r]) k 0x007) k 1)) ∧
    (¬ rooms 1 → Completes (.push k cond r) s (recipeFault b k .stack)) ∧
    (rooms 2 → Completes (.pushw k cond q) s (goOn (coreEvent (pushed 2 [c.reg (pairLo q), c.reg (pairHi q)]) k 0x007) k 1)) ∧
    (¬ rooms 2 → Completes (.pushw k cond q) s (recipeFault b k .stack)) ∧
    (sp + 1 ≤ 0x8000 → Completes (.pop k cond r) s
      (goOn ((coreEvent (popped 1) k 0x006).modCore k fun x => x.setReg r (byte 0)) k 1)) ∧
    (0x8000 < sp + 1 → Completes (.pop k cond r) s (recipeFault b k .stack)) ∧
    (sp + 2 ≤ 0x8000 → Completes (.popw k cond q) s
      (goOn ((coreEvent (popped 2) k 0x006).modCore k fun x =>
        x.setPair q (byte 1 ++ byte 0)) k 1)) ∧
    (0x8000 < sp + 2 → Completes (.popw k cond q) s (recipeFault b k .stack)) ∧
    calls (.call k cond off) (c.pc + 1 + off.signExtend 16) ∧
    calls (.callr k cond q) (c.pair q) ∧
    (c.depth ≤ c.base → sp + 3 ≤ 0x8000 → (byte 2).toNat ≤ c.depth → Completes (.ret k cond) s
      (branched ((popped 3).modCore k fun x => { x with base := (byte 2).toNat }) k
        (byte 1 ++ byte 0) 3)) ∧
    (c.depth ≤ c.base → sp + 3 ≤ 0x8000 → c.depth < (byte 2).toNat →
      Completes (.ret k cond) s (recipeFault b k .loop)) ∧
    (c.base < c.depth → Completes (.ret k cond) s (recipeFault b k .loop)) ∧
    (c.depth ≤ c.base → 0x8000 < sp + 3 → Completes (.ret k cond) s (recipeFault b k .stack))

/-- NOP, BR, JR, LOOP and LOOPI (R290, R297, R298, R300, R303): where control goes, the loop level opened, the loop of no pass, and the faults.
What an instruction that transfers no control leaves of the loops (R289, R299), told of NOP: away from a loop's end the PC goes on; at the end
of the innermost level with passes left LC counts down and the PC goes back; with the last pass done the level closes. LAST follows.
A taken branch (R301): the innermost level stays open where its body holds the target or its loop instruction stands there, and every other level then
stays as it is; else it closes. -/
def Obligations.ControlInstructions : Prop :=
  (∀ (s : State) (k : Fin 64) (cond : BitVec 4) (p : BitVec 3) (off : BitVec 14) (off11 : BitVec 11) (off8 : BitVec 8)
    (count : BitVec 6), Issues s k cond →
    let b := decoded s.blk k
    let c := b.core k
    let loops (i : Instr) (o : Nat) (n : BitVec 16) : Prop :=
      let e := c.pc.toNat + o
      let inside := c.entry ≤ e ∧ e < c.entry + c.len
      let nests := c.base < c.depth → e ≤ (c.loopE (c.depth - 1)).toNat
      (0 < o → inside → n ≠ 0 → c.depth < 4 → nests → Completes i s (issued s.blk k 1 fun c =>
        { c with ls := Tab.set c.ls c.depth (c.pc + 1), le := Tab.set c.le c.depth (BitVec.ofNat 16 e), lc := Tab.set c.lc c.depth n
                 depth := c.depth + 1 })) ∧
      (0 < o → inside → n = 0 → c.atLoopEnd = false → Completes i s (b.modCore k fun c => charge { c with pc := BitVec.ofNat 16 (e + 1) } 2)) ∧
      (0 < o → inside → n = 0 → c.atLoopEnd = true → Completes i s (goOn b k 2)) ∧
      ((o = 0 ∨ ¬ inside ∨ (n ≠ 0 ∧ (4 ≤ c.depth ∨ ¬ nests))) → Completes i s (recipeFault b k .loop))
    Completes (.nopInstr k cond) s (goOn b k 1) ∧
    Completes (.br k cond off) s (branched b k (c.pc + 1 + off.signExtend 16) 2) ∧
    Completes (.jr k cond p) s (branched b k (c.pair p) 2) ∧
    loops (.loop k cond p off11) off11.toNat (c.pair p) ∧
    loops (.loopi k cond count off8) off8.toNat (count.zeroExtend 16)) ∧
  (∀ (s : State) (k : Fin 64) (cond : BitVec 4), Issues s k cond →
    let c := s.blk.core k
    let top := c.depth - 1
    let closed : Core := { c with ls := Tab.set c.ls top 0, le := Tab.set c.le top 0, lc := Tab.set c.lc top 0, depth := top }
    let lasts (c : Core) : Core :=
      { c with cycles := c.cycles + 1, busy := 0
               flags := { c.flags with last := decide (0 < c.depth ∧ Tab.get c.lc 0 (c.depth - 1) = 1) } }
    ∃ t, exec (.nopInstr k cond) s = .next t ∧ t.pending = s.pending ∧
      ((¬ (c.base < c.depth ∧ Tab.get c.le 0 top = c.pc)) → t.blk.core k = lasts { c with pc := c.pc + 1 }) ∧
      (c.base < c.depth → Tab.get c.le 0 top = c.pc → Tab.get c.lc 0 top ≠ 1 → t.blk.core k =
        lasts { c with lc := Tab.set c.lc top (Tab.get c.lc 0 top - 1), pc := Tab.get c.ls 0 top }) ∧
      (c.base < c.depth → Tab.get c.le 0 top = c.pc → Tab.get c.lc 0 top = 1 →
        ¬ (c.base < top ∧ Tab.get closed.le 0 (top - 1) = c.pc) → t.blk.core k = lasts { closed with pc := c.pc + 1 })) ∧
  (∀ (s : State) (k : Fin 64) (cond : BitVec 4) (off : BitVec 14), Issues s k cond →
    let c := s.blk.core k
    let top := c.depth - 1
    let t := c.pc + 1 + off.signExtend 16
    let first := Tab.get c.ls 0 top
    let keeps : Prop := (first ≤ t ∧ t ≤ Tab.get c.le 0 top) ∨ first = t + 1
    ∃ u, exec (.br k cond off) s = .next u ∧ (u.blk.core k).pc = t ∧
      ((c.depth ≤ c.base ∨ keeps) → ((u.blk.core k).depth, (u.blk.core k).ls, (u.blk.core k).le, (u.blk.core k).lc) = (c.depth, c.ls, c.le, c.lc)) ∧
      (c.depth = c.base + 1 → ¬ keeps → ((u.blk.core k).depth, (u.blk.core k).ls, (u.blk.core k).le, (u.blk.core k).lc) =
        (top, Tab.set c.ls top 0, Tab.set c.le top 0, Tab.set c.lc top 0)))

/-- The sixteen conditions (R283).
An instruction whose condition does not hold is skipped in one cycle (R283, R284), each of the set; the loop end at its address is processed (R299). -/
def Obligations.Conditions : Prop :=
  (∀ f : Flags, (List.range 16).map (fun n => condHolds (BitVec.ofNat 4 n) f) =
    [true, f.z, !f.z, f.c, !f.c, f.n, !f.n, f.v, !f.v, f.c && !f.z, !f.c || f.z, decide (f.n = f.v), decide (f.n ≠ f.v), f.last, !f.last,
      false]) ∧
  (∀ (s : State) (k : Fin 64) (cond d w : BitVec 4) (p : BitVec 3) (imm : BitVec 8) (off : BitVec 14) (off11 : BitVec 11) (count : BitVec 6)
      (imm10 : BitVec 10) (x y : Reg16) (q : Ptr) (inc : Bool) (e : Egress) (i : Instr),
    s.blk.running = true → s.blk.domainOn (ccDomain (k / 8)) = true → (s.blk.core k).st = .running →
    condHolds cond (s.blk.core k).flags = false →
    i ∈ [.nopInstr k cond, .br k cond off, .call k cond off, .ret k cond, .jr k cond p, .callr k cond p, .loop k cond p off11,
      .loopi k cond count imm, .take k cond, .done k cond e, .movb k cond, .mul k cond p d w, .divu k cond p w, .movw k cond x y,
      .lpi k cond x inc imm, .addw k cond x y, .addwi k cond x imm10, .ld k cond d q inc imm, .st k cond w q inc imm,
      .ldw k cond p q inc imm, .stw k cond p q inc imm, .pushw k cond p, .popw k cond p, .mov k cond d w, .add k cond d w,
      .adc k cond d w, .sub k cond d w, .sbc k cond d w, .cmp k cond d w, .and k cond d w, .or k cond d w, .xor k cond d w,
      .movi k cond d imm, .addi k cond d imm, .subi k cond d imm, .cmpi k cond d imm, .andi k cond d imm, .ori k cond d imm,
      .xori k cond d imm, .tsti k cond d imm, .shl k cond d, .shr k cond d, .asr k cond d, .rol k cond d, .ror k cond d, .swap k cond d,
      .inc k cond d, .dec k cond d, .not k cond d, .neg k cond d, .getf k cond d, .setf k cond d, .cmpb k cond d, .push k cond d,
      .pop k cond d, .ecall k cond d, .ewait k cond d] →
    Completes i s (goOn (coreEvent (decoded s.blk k) k 0x003) k 1))

/-- Whatever a control instruction does, the loop levels of a core that runs on stay within four and above its frame base (R297 to R302). -/
def Obligations.LoopLevelsStayLegal : Prop :=
  ∀ (s t : State) (k : Fin 64) (cond : BitVec 4) (p : BitVec 3) (off : BitVec 14) (off11 : BitVec 11) (off8 : BitVec 8)
    (count : BitVec 6) (i : Instr),
    i ∈ [.nopInstr k cond, .br k cond off, .call k cond off, .ret k cond, .jr k cond p, .callr k cond p, .loop k cond p off11,
      .loopi k cond count off8] →
    (s.blk.core k).base ≤ (s.blk.core k).depth → (s.blk.core k).depth ≤ 4 → exec i s = .next t →
    (t.blk.core k).base ≤ (t.blk.core k).depth ∧ (t.blk.core k).depth ≤ 4

/-- ECALL (R273 to R277): the lowest free ticket takes the call block at X, which the engine port reads through the core's Ferrule with the input it
names, and its number goes to the register; the faults of a block that leaves scratch and of sixteen tickets in use; the waits for a page of the input,
for room and for a leaf-buffer entry; FORMAT for a malformed call, and the status of a chain that cannot take the step's leaf.
EWAIT, TAKE and DONE (R248, R270, R271, R275, R278): a ticket collected or waited for; an idle core in TAKE, and TAKE in a recipe a fault; the
work item over with DSTATUS and DRESULT, OUT_LEN written where OUTPUT was called, BUFFER_ACCESS and a quiesced chamber where that write fails, or the
fault of a ticket outstanding or a status not allowed.
OUTPUT (R71, R278): the bytes go to the host buffer's output area, within OUT_CAP; beyond it the ticket ends with FORMAT and nothing is written; and
a write that fails, for want of Bus Master Enable or in the egress buffer, ends the item with BUFFER_ACCESS and quiesces the chamber. -/
def Obligations.EngineCalls : Prop :=
  (∀ (s : State) (k : Fin 64) (cond wd : BitVec 4) (t ch : Nat), Issues s k cond →
    let b := decoded s.blk k
    let c := b.core k
    let a := c.x.toNat
    let b0 := (portRead b k a 80).2
    let x := callBlock (portRead b k a 80).1
    let j : Job :=
      { Job.none with opcode := x.opcode, flags := if x.inline_ then 4 else 0, keyIn := slotHandle c x.hin, keyOut := slotHandle c x.hout
                      operands := if x.inline_ then x.operands else x.operands.take 32
                      ext := if x.inLen ≠ 0 ∨ x.outCap ≠ 0 then 1 else 0, chamber := ch, inLen := x.inLen, outCap := x.outCap
                      headerOk := true }
    let leaf : Bool := x.audit && x.opcode != opOutput
    let bad := callMalformed x j
    let grant := entryCheck b0 (.chamber ch)
    let stall (why : CoreState) : Block := b0.modCore k fun c => { c with st := why }
    let placed (entry : Bool) : Block :=
      let b1 := if entry then takeEntry b0 (.chamber ch) else b0
      let rd := if bad || x.inline_ then ([], b1) else portRead b1 k x.inAddr x.inLen
      let p := callPipe rd.2 ch x.opcode
      let job := { j.underPolicyOf ((c.item.bind fun n => b1.item? n).map (·.job)) with
                   input := rd.1, pipe := p.1, phase := if x.opcode = opOutput then .ready else .keys }
      let b2 := p.2.modTicket k t fun _ =>
        { st := .outstanding, job := job, stepAudit := x.audit, rdata := x.rdata, stepIndex := (p.2.core k).steps
          leaf := if entry then .entry else .none, outAddr := x.outAddr, outCap := x.outCap, area := zeros 32, aborted := false }
      coreEvent (b2.modCore k fun c => { c.setReg wd (BitVec.ofNat 8 t) with steps := if leaf then c.steps + 1 else c.steps }) k 0x009
    (0x8000 < a + 80 → Completes (.ecall k cond wd) s (recipeFault b k .callblock)) ∧
    (a + 80 ≤ 0x8000 → freeTicket b k = none → Completes (.ecall k cond wd) s (recipeFault b k .tickets)) ∧
    (a + 80 ≤ 0x8000 → freeTicket b k = some t → coreChamber b k = some ch →
      (∀ p, bad = false → x.inline_ = false → inputPage b0 k x.inAddr x.inLen = some p →
        Completes (.ecall k cond wd) s (stall (.stalled (.window p)))) ∧
      ((bad = true ∨ x.inline_ = true ∨ inputPage b0 k x.inAddr x.inLen = none) →
        (bad = false → callRoom b0 ch x.opcode = false → Completes (.ecall k cond wd) s (stall (.stalled (.engine wd)))) ∧
        ((bad = true ∨ callRoom b0 ch x.opcode = true) →
          (leaf = true → grant = .wait → Completes (.ecall k cond wd) s (stall (.stalled (.leaf wd)))) ∧
          ((leaf = true → grant = .granted) → Completes (.ecall k cond wd) s
            (goOn (if bad then closeTicket (placed leaf) k t (onlyStatus 0x0020) 0 else placed leaf) k 4)) ∧
          (∀ st, leaf = true → grant = .refused st → Completes (.ecall k cond wd) s
            (goOn (closeTicket (auditKeyReads (placed false) (.chamber ch)) k t (onlyStatus st) 0) k 4)))))) ∧
  (∀ (s : State) (k : Fin 64) (cond w : BitVec 4) (e : Egress), Issues s k cond →
    let b := decoded s.blk k
    let c := b.core k
    let v := (c.reg w).toNat
    let st := ofLe (Memory.readBytes c.context 0xE080 2)
    let idle : Prop := ∀ t < 16, (b.ticket k t).st ≠ .outstanding
    (v < 16 → (b.ticket k v).st = .outstanding → Completes (.ewait k cond w) s (b.modCore k fun c => { c with st := .waiting v })) ∧
    (v < 16 → (b.ticket k v).st = .complete →
      Completes (.ewait k cond w) s (goOn (b.modTicket k v fun x => { x with st := .free }) k 1)) ∧
    ((16 ≤ v ∨ (b.ticket k v).st = .free) → Completes (.ewait k cond w) s (goOn b k 1)) ∧
    Completes (.take k cond) s (recipeFault b k .illegal) ∧
    (¬ idle → Completes (.done k cond e) s (recipeFault b k .outstanding)) ∧
    (idle → st ∉ doneStatuses → Completes (.done k cond e) s (recipeFault b k .badstatus)) ∧
    (∀ n i, idle → st ∈ doneStatuses → c.item = some n → b.item? n = some i →
      let b1 := ((coreEvent b k 0x00E).modCore k fun c => charge c 1).modItem n fun i => { i with done := true }
      let code := if c.outOver then 0x0020 else st
      let good : Prop := code = 0 ∨ code = 2
      let o : Outcome :=
        { status := code, result := if good then Memory.readBytes c.context 0xE090 16 else zeros 16
          output := if c.outDone ≠ 0 ∧ good then some (Memory.readBytes c.output 0 c.outDone) else none }
      ((c.outReq = 0 ∨ b1.suppressed n = true) → Completes (.done k cond e) s (closeItem b1 n o)) ∧
      (c.outReq ≠ 0 → b1.suppressed n = false → b1.bme (i.chamber + 1) = false →
        Completes (.done k cond e) s (quiesceChamber (closeItem b1 n (onlyStatus 0x0022)) i.chamber 4 (some n))) ∧
      (c.outReq ≠ 0 → b1.suppressed n = false → b1.bme (i.chamber + 1) = true → e = .bufferError →
        Completes (.done k cond e) s (quiesceChamber (closeItem (b1.aer (i.chamber + 1) "Uncorrectable Internal Error" false) n
          (onlyStatus 0x0022)) i.chamber 1 (some n))) ∧
      (c.outReq ≠ 0 → b1.suppressed n = false → b1.bme (i.chamber + 1) = true → e = .issued →
        Completes (.done k cond e) s (closeItem (b1.dmaWrite (hostMaster i.chamber) (some i.chamber) (i.chamber + 1) (i.job.ext + 8)
          (leBytes 4 (if c.outOver then c.outReq else c.outDone))) n o)))) ∧
  (∀ (s : State) (k : Fin 64) (t : Fin 16) (e : Egress) (n : Nat) (i : Item), s.blk.running = true →
    let b := s.blk
    let x := b.ticket k t
    let off := leField x.job.operands 0 4
    let fin := off + x.job.input.length
    let asked := b.modCore k fun c => { c with outReq := max c.outReq fin }
    let ends (b : Block) (status : Nat) : Prop := Completes (.output k t e) s (settle (closeTicket b k t (onlyStatus status) 0))
    (b.core k).item = some n → b.item? n = some i → x.st = .outstanding → x.job.opcode = 0x0E00 → x.job.phase = .ready →
    (i.job.outCap < fin → ends (asked.modCore k fun c => { c with outOver := true }) 0x0020) ∧
    (fin ≤ i.job.outCap → (x.job.input = [] ∨ asked.suppressed n = true) → ends asked 0) ∧
    (fin ≤ i.job.outCap → x.job.input ≠ [] → asked.suppressed n = false →
      (b.bme (i.chamber + 1) = false →
        Completes (.output k t e) s (settle (quiesceChamber (endItemOnCore asked k 0x0022) i.chamber 4 (some n)))) ∧
      (b.bme (i.chamber + 1) = true → e = .bufferError → Completes (.output k t e) s
        (settle (quiesceChamber (endItemOnCore (asked.aer (i.chamber + 1) "Uncorrectable Internal Error" false) k 0x0022) i.chamber 1 (some n)))) ∧
      (b.bme (i.chamber + 1) = true → e = .issued →
        let sent := (asked.dmaWrite (hostMaster i.chamber) (some i.chamber) (i.chamber + 1) (i.job.ext + 16 + roundUp i.job.inLen 64 + off)
          x.job.input).modCore k fun c =>
            { c with outDone := max c.outDone fin, output := Memory.writeBytes c.output off x.job.input }
        ends (sent.modItem n fun i => { i with written := some (Memory.readBytes (sent.core k).output 0 (sent.core k).outDone) }) 0)))

/-- TAKE by a core that has no work item, CORE_CLEAR and WATCHDOG (R248, R270, R272, R279).
A recipe fault (R271, R280): the chamber's last-fault register and count, every ticket aborted, the item's end with RECIPE_FAULT.
The CX instructions, the wait of a sequence at a page of the window, the 257th microword, and instructions of codes that no chamber may run (R285,
R305, R310, R312, R313); while a committed decode image is not in force they stall (R317). -/
def Obligations.CoreLife : Prop :=
  (∀ (s : State) (k : Fin 64) (cond : BitVec 4), s.blk.running = true → s.blk.domainOn (ccDomain (k / 8)) = true →
    let c := s.blk.core k
    (c.st = .idle → Completes (.take k cond) s ((s.blk.modCore k fun c => { c with st := .take }).modChuck fun x =>
      { x with take := x.take.filter (· != k.val) ++ [k.val] })) ∧
    (c.st = .clearing → abortPending s.blk k = false → (∀ t < 16, (s.blk.ticket k t).st ≠ .outstanding) →
      let b1 := (s.blk.modCore k fun _ => Core.reset).modFerrule k fun f => { f with fetch := none }
      let runs (p : Nat × Nat) : Bool := b1.chisel.cores.any fun q => q.2.item.isSome && q.2.entry == p.1 && q.2.len == p.2
      let b2 : Block := { b1 with chisel := { b1.chisel with deleted := b1.chisel.deleted.filter runs } }
      let b3 := b2.modBelay fun y => { y with deniedItems := y.deniedItems.filter fun n => c.item != some n }
      Completes (.coreClear k) s (settle (joinTake b3 k))) ∧
    (c.st = .running → c.maxcyc * 1024 < c.cycles → Completes (.watchdog k) s (settle (recipeFault s.blk k .watchdog))) ∧
    (c.st = .running → c.cycles ≤ c.maxcyc * 1024 → Completes (.watchdog k) s (settle s.blk))) ∧
  (∀ (b : Block) (k : Fin 64) (f : FaultKind) (n : Nat) (i : Item), (b.core k).item = some n → b.item? n = some i →
    recipeFault b k f =
      (((closeItem (stopCore (b.modCh i.chamber fun h =>
        { h with lastFault := BitVec.ofNat 32 (f.code + 16 * (k % 8) + 128 * (k / 8) + 65536 * (b.core k).recipe)
                 faultCnt := min 65535 (h.faultCnt + 1) }) k) n { status := 0x00A0, result := zeros 16, output := none }).event k 0x00F
          (some i.chamber)).tally 145)) ∧
  (∀ (s : State) (k : Fin 64) (cond : BitVec 4) (n : BitVec 3) (opnd : BitVec 14), Issues s k cond →
    let b := decoded s.blk k
    let run (b : Block) (e : DecodeEntry) : SeqEnd := microRun k opnd (cxCode b e) 256 0 { t := [0, 0, 0, 0], ix := 0 } b
    (decodePending s.blk = true → Completes (.cx k cond n opnd) s (s.blk.modCore k fun c => { c with st := .stalled .decode })) ∧
    (decodePending s.blk = false →
      (∀ e b1 cost, cxEntry s.blk k n.toNat = some e → run b e = .done b1 cost → Completes (.cx k cond n opnd) s (goOn b1 k cost)) ∧
      (∀ e b1 cost left m page, cxEntry s.blk k n.toNat = some e → run b e = .wait b1 cost left m page →
        Completes (.cx k cond n opnd) s ((b1.modCore k fun c =>
          { c with cycles := c.cycles + cost, micro := some { code := cxCode b e, opnd := opnd, t := m.t, ix := m.ix, left := left } }).modCore k
            fun c => { c with st := .stalled (.window page) })) ∧
      (∀ e b1 b2, cxEntry s.blk k n.toNat = some e → run b e = .tooLong b1 → run s.blk e = .tooLong b2 →
        Completes (.cx k cond n opnd) s (recipeFault b1 k .micro) ∧
        Completes (.micro k cond n opnd) s (settle (recipeFault b1 k .micro))) ∧
      (cxEntry s.blk k n.toNat = none → Completes (.cx k cond n opnd) s (recipeFault s.blk k .illegal))))

/-! ### Queues, dispatch, completion and the key cache -/

/-- The doorbells (R57, R58, R65): a new tail or head, or an error bit and nothing else.
FETCH_ISSUE (R71, R79, R237 to R240): the engine's choice gets a read of as many descriptors as 64, the entries waiting, the wrap, the page, the
group's room, the completion queue's room and the credit admit; the credit is charged where the chamber holds it; without Bus Master Enable the read
fails. With no choice and queues that want, the event NO CREDIT counts for their chambers. An engine with 256 reads outstanding issues none.
DESCRIPTOR_FETCH (R71, R235, R416, R539, R576): the entries of a read that returned data have arrived, as the engine's Ferrule lets them in, and those
at the queue's head become work items; a read that failed quiesces the chamber for the reason DMA_READ. -/
def Obligations.DoorbellsAndFetch : Prop :=
  (∀ (s : State) (c : Fin 64) (g : Fin 8) (v : BitVec 32), s.blk.vfOn c = true →
    let b := s.blk
    let x := v.toNat % 65536
    let sq := b.sq c g
    let cq := b.cq c g
    let gone := (cq.tail + 2 ^ cq.depthLog2 - cq.head) % 2 ^ cq.depthLog2
    let asked := (x + 2 ^ cq.depthLog2 - cq.head) % 2 ^ cq.depthLog2
    let err (n : Nat) : Block := b.modCh c fun h => { h with qerr := h.qerr ||| BitVec.ofNat 32 n }
    Completes (.sqDoorbell c g .other v) s (err 4) ∧
    (sq.en = false → Completes (.sqDoorbell c g .word v) s (err 2)) ∧
    (sq.en = true → 2 ^ sq.depthLog2 ≤ x → Completes (.sqDoorbell c g .word v) s (err 1)) ∧
    (sq.en = true → x < 2 ^ sq.depthLog2 → Completes (.sqDoorbell c g .word v) s (b.modSq c g fun q => { q with tail := x })) ∧
    Completes (.cqDoorbell c g .other v) s (settle (err 4)) ∧
    (cq.en = false → Completes (.cqDoorbell c g .word v) s (settle (err 2))) ∧
    (cq.en = true → 2 ^ cq.depthLog2 ≤ x → Completes (.cqDoorbell c g .word v) s (settle (err 1))) ∧
    (cq.en = true → x < 2 ^ cq.depthLog2 → gone < asked → Completes (.cqDoorbell c g .word v) s (settle (err 8))) ∧
    (cq.en = true → x < 2 ^ cq.depthLog2 → asked ≤ gone →
      Completes (.cqDoorbell c g .word v) s (settle (b.modCq c g fun q => { q with head := x })))) ∧
  (∀ (s : State) (e : Fin 8) (i : Nat) (pays : Bool), s.blk.hostOn = true → s.blk.running = true →
    let b := s.blk
    let c := i / 8
    let g := i % 8
    let q := b.sq c g
    let n := min (min (min (min (min (min (if pays then fetchCredit b c else 64) 64) ((q.tail + q.depth - q.issued) % q.depth))
      (q.depth - q.issued)) (64 - q.issued % 64)) (groupRoom b c g)) (b.cq c q.cq).free
    let read := b.emit (.readRequest (c + 1) (q.base + 64 * q.issued) (64 * n))
    let b1 := (read.modSq c g fun q => { q with issued := (q.issued + n) % q.depth, reads := q.reads ++ [(q.issued, n)] }).modCq c q.cq
      fun x => { x with reserved := x.reserved + n }
    let b2 := if pays then b1.modCh c fun h => { h with credit := h.credit - n * b1.n } else b1
    let wanting := (engineQueues b e).filter fun i => queueWants b (i / 8) (i % 8)
    (256 ≤ engineReads b e → Completes (.fetchIssue e) s b) ∧
    (engineReads b e < 256 →
      (engineChoice b e = some (i, pays) → b.bme (c + 1) = true →
        Completes (.fetchIssue e) s (b2.modChuck fun x => { x with lastQueue := Tab.set x.lastQueue e i })) ∧
      (engineChoice b e = some (i, pays) → b.bme (c + 1) = false → Completes (.fetchIssue e) s (quiesceChamber b c 4 none)) ∧
      (engineChoice b e = none → wanting = [] → Completes (.fetchIssue e) s b) ∧
      (engineChoice b e = none → wanting ≠ [] → Completes (.fetchIssue e) s (b.events 72 0x00B (wanting.map (· / 8)))))) ∧
  (∀ (s : State) (c : Fin 64) (g : Fin 8) (first : Nat) (r : Nat × Nat) (d : Bytes) (x : DmaRead), s.blk.running = true →
    let b := s.blk
    let q := b.sq c g
    q.reads.find? (fun r => r.1 == first) = some r →
    let into := dmaIn b (hostMaster c) (some c) d
    let arrived := (List.range r.2).foldl (fun t k => Tab.set t ((first + k) % q.depth) (fit 64 ((into.1.drop (64 * k)).take 64)))
    Completes (.descriptorFetch c g first (.data d)) s (settle (issueBuffers (advanceQueue c g q.depth
      (into.2.modSq c g fun q => { q with reads := q.reads.filter (· != r), arrived := arrived q.arrived })) (c % 8))) ∧
    (DmaOpen b (hostMaster c) .write → into = (d, b)) ∧
    (x = .unsupportedRequest ∨ x = .timeout ∨ x = .poisoned ∨ x = .completerAbort →
      Completes (.descriptorFetch c g first x) s (settle (quiesceChamber (queueReadFault b (c + 1) x) c 0 none))) ∧
    (∀ e, q.reads.find? (fun r => r.1 == e) = none → Completes (.descriptorFetch c g e x) s (settle b)))

/-- Step 1 of a descriptor's checks (R69, R70, R236): one that fails completes with FORMAT before anything else is looked at; one that passes with
its handles is READY or HELD as the conditions of R241 stand, and assigned (R243), unless its opcode is of queue control.
OPERAND_BUFFER_READ (R62, R70, R71, R136, R240): a direct item whose buffer's header is well-formed goes on with IN_LEN, OUT_CAP and its input; a bad
header ends it with FORMAT and a failed read with BUFFER_ACCESS; and the second read of a GCM decryption gives its input again. -/
def Obligations.DescriptorChecks : Prop :=
  (∀ (b : Block) (c g idx : Nat) (d : Bytes),
    let j := jobOf c d
    let n := b.chuck.nextItem
    let wants := (dFlags d).testBit 0 && stepOneOk g d j
    let i : Item :=
      { chamber := c, group := g, index := idx, cq := (b.sq c g).cq, desc := d, residence := b.cyc, st := .closing, cls := itemClass d
        pipe := 0, ahead := false, needCount := false, needMiss := [], waited := none, done := false, written := none, mute := false, core := none
        job := j, leaf := if wants then .wanted else .none, step := 0, flushTo := none }
    let b1 := ((b.setItem n i).modChuck fun x => { x with nextItem := n + 1 }).event 72 0x002 (some c)
    ((dGroup d ≠ g ∨ 32 ≤ dFlags d ∨ opDefined j.opcode = false ∨ j.ext % 64 ≠ 0) → enterItem b c g idx d = closeItem b1 n (justStatus 0x0020)) ∧
    (stepOneOk g d j = true → isQueueControl j.opcode = false → entryChecks b1 j = none →
      enterItem b c g idx d = settleItem b1 n i) ∧
    (∀ st, stepOneOk g d j = true → entryChecks b1 j = some st → st ≠ 0x0020 → enterItem b c g idx d = closeItem b1 n (justStatus st)) ∧
    (stepOneOk g d j = true → entryChecks b1 j = some 0x0020 → enterItem b c g idx d = refuseRecipe b1 n i) ∧
    (holdReason b1 n (assignItem b1 i) = none → settleItem b1 n i = b1.setItem n { assignItem b1 i with st := .ready })) ∧
  (∀ (s : State) (n : Nat) (i : Item) (d : Bytes) (x : DmaRead), s.blk.running = true → s.blk.item? n = some i → i.st = .dispatched →
    i.core = none → i.job.asked = true → 16 ≤ d.length → DmaOpen s.blk (hostMaster i.chamber) .write →
    let b := s.blk.modItem n fun i => { i with job := { i.job with asked := false } }
    let len := leField d 0 4
    let held := (d.take 16).drop 12
    let goes (b : Block) : Block := settle (issueBuffers b (i.chamber % 8))
    (i.job.phase = .buffer → len ≤ 1048560 → allZero held = true → Completes (.operandBufferRead n (.data d)) s (goes (b.modItem n fun i =>
      { i with job := { i.job with phase := .ready, headerOk := true, inLen := len, outCap := leField d 4 4
                                   input := fit len (d.drop 16) } }))) ∧
    (i.job.phase = .buffer → (1048560 < len ∨ allZero held = false) →
      Completes (.operandBufferRead n (.data d)) s (goes (closeItem b n { status := 0x0020, result := zeros 16, output := none }))) ∧
    (i.job.phase = .reread → Completes (.operandBufferRead n (.data d)) s (goes (b.modItem n fun i =>
      { i with job := { i.job with phase := .ready, again := some (fit i.job.inLen (d.drop 16)) } }))) ∧
    ((i.job.phase = .buffer ∨ i.job.phase = .reread) → (x = .unsupportedRequest ∨ x = .completerAbort ∨ x = .timeout ∨ x = .poisoned) →
      Completes (.operandBufferRead n x) s (goes (closeItem ((bufferReadFault b (i.job.chamber + 1) x).modItem n fun i =>
        { i with job := { i.job with input := [] } }) n { status := 0x0022, result := zeros 16, output := none }))))

/-- CHUCK_SELECT and RECIPE_RUN (R244 to R249, R268): the item chosen goes to its consumer, or to the core chosen, under the PIN policy of
that moment (R93); with none, the event IDLE counts.
COMPLETION_WRITE (R64, R66, R71, R72, R76, R82): the 32 bytes of the completion go to the queue's tail, the item leaves, the chamber's Tally counters
count and a chamber FENCE ends; without Bus Master Enable, or on a failing write, the item has no completion and the chamber is quiesced; an item that
is to have none leaves so. COALESCE_TIMER sends the message due, and MSIX_UNMASK a pending one. -/
def Obligations.DispatchAndCompletion : Prop :=
  (∀ (s : State) (cls : Cls) (n core : Nat) (i : Item) (b1 : Block), s.blk.running = true → s.blk.domainOn 1 = true →
    let b := refreshHolds s.blk
    b.kerard.egressClosed = false →
    let b2 := b1.event 72 0x003 (some i.chamber)
    let sent : Block := b2.modItem n fun i =>
      { i with st := .dispatched, ahead := false, needMiss := [], waited := some (waitOf b2 i)
               job := { i.job with phase := .keys, pipe := i.pipe, pinpol := (b2.chamber i.chamber).pinpol, decTabs := (b2.chamber i.chamber).decTabs } }
    (chooseItem b = none → Completes .chuckSelect s (b.event 72 0x005 none)) ∧
    (chooseItem b = some (cls, n, b1) → b1.item? n = some i → cls ≠ .chs → i.audit = false →
      Completes .chuckSelect s (zeroAllDeficits sent)) ∧
    (chooseItem b = some (.chs, n, b1) → b1.item? n = some i → chooseCore b2 = some core →
      Completes .chuckSelect s (zeroAllDeficits (deliverItem b2 n core)) ∧
      (∀ i0, s.blk.item? n = some i0 → isRecipeRun i0.job.opcode = true →
        Completes (.recipeRun n) s (settle (zeroAllDeficits (deliverItem b2 n core)))))) ∧
  (∀ (s : State) (n : Nat) (i : Item) (o : Outcome) (c : Fin 64) (q : Fin 8) (fn : Fin 65) (vec : Fin 64), s.blk.running = true →
    let b := s.blk
    let cq := b.cq i.chamber i.cq
    let cmd := { cq with
      tail := if cq.tail + 1 = 2 ^ cq.depthLog2 then 0 else cq.tail + 1
      phase := if cq.tail + 1 = 2 ^ cq.depthLog2 then !cq.phase else cq.phase
      reserved := cq.reserved - 1
      unsignalled := if i.irq && cq.vecEn then cq.unsignalled + 1 else cq.unsignalled }
    let written := ((b.dmaWrite (hostMaster i.chamber) (some i.chamber) (i.chamber + 1) (cq.base + 32 * cq.tail)
      (completionBytes b i o cq.phase)).modCq i.chamber i.cq fun _ => cmd).modChuck fun x => { x with items := Tab.erase x.items n }
    let counted := if o.status ≠ 0 ∧ o.status ≠ 2 then (written.tally i.chamber).tally (64 + i.chamber) else written.tally i.chamber
    let told := signalCq (counted.event 72 0x004 (some i.chamber)) i.chamber i.cq
    let gone (b : Block) : Block :=
      let b := (b.modCq i.chamber i.cq fun q => { q with reserved := q.reserved - 1 }).modChuck fun x => { x with items := Tab.erase x.items n }
      b.modCh i.chamber fun h => if h.fence = some n then { h with fence := none } else h
    (b.item? n = some i → i.job.outcome = some o → i.mute = false → mayComplete b n i = true →
      (b.bme (i.chamber + 1) = true →
        ((told.chamber i.chamber).fence ≠ some n → Completes (.completionWrite n .issued) s (settle told)) ∧
        ((told.chamber i.chamber).fence = some n → Completes (.completionWrite n .issued) s
          (settle (advanceQueues (told.modCh i.chamber fun h => { h with fence := none }) i.chamber))) ∧
        Completes (.completionWrite n .bufferError) s
          (settle (gone (quiesceChamber (b.aer (i.chamber + 1) "Uncorrectable Internal Error" false) i.chamber 1 (some n))))) ∧
      (b.bme (i.chamber + 1) = false → ∀ e, Completes (.completionWrite n e) s (settle (gone (quiesceChamber b i.chamber 4 (some n)))))) ∧
    (b.item? n = some i → i.job.outcome = some o → i.mute = true → i.st = .closing → leafSettled i = true →
      ∀ e, Completes (.completionWrite n e) s (settle (gone b))) ∧
    (b.item? n = some i → i.job.outcome = some o → i.mute = false → mayComplete b n i = false →
      ∀ e, Completes (.completionWrite n e) s (settle b)) ∧
    ((b.cq c q).vecEn = true → 0 < (b.cq c q).unsignalled → Completes (.coalesceTimer c q) s
      ((b.modCq c q fun x => { x with unsignalled := 0 }).msix (c + 1) (b.cq c q).vector)) ∧
    (functionOn b fn = true → vec < vectorsOf fn →
      let k := 64 * fn.val + vec.val
      let open_ : Block := { b with pcie := { b.pcie with
        unmasked := b.pcie.unmasked.filter (· != k) ++ [k], pendingMsix := b.pcie.pendingMsix.filter (· != k) } }
      (k ∈ b.pcie.pendingMsix → Tab.get b.pcie.msixEn false fn = true →
        let e := Tab.get b.pcie.table (0, 0) k
        Completes (.msixUnmask fn vec) s (open_.emit (.msix fn vec e.1 e.2))) ∧
      (k ∉ b.pcie.pendingMsix → Completes (.msixUnmask fn vec) s open_)))

/-- The key cache (R39, R41, R46, R47, R49, R51, R219, R223): a lookup of no handle goes on, of a resident one counts a hit and holds it; a refused
handle ends the operation; a fill serves those who wait or fails them, and waits itself for
a way or for a commit that writes the record (R222); a released slot that is stale goes; a count block is reserved in time;
a pinned record is fetched again. -/
def Obligations.KeyCache : Prop :=
  ∀ (s : State) (n gidx : Nat) (i : Item) (row : OpRow) (k : Resolved) (m : Miss) (ret ret' : DdrReturn) (x y : Nat) (lines : List (Bytes × Nat))
    (b0 b1 b2 : Block) (e : Nat × Nat), s.blk.running = true →
    let b := s.blk
    let j := i.job
    let rel (s : Slot) : Slot :=
      if s.gidx = gidx ∧ 0 < s.toRelease then { s with refs := s.refs - 1, toRelease := s.toRelease - 1 } else s
    let missesLeft (b : Block) : Block := startWaitingMisses (b.modKeys fun k => { k with misses := k.misses.filter fun x => x.gidx != gidx })
    let fails (b : Block) (status : Nat) : Block :=
      m.pinFor.foldl (fun b x => failMailbox b x status) (m.waiters.foldl (fun b r => fillFails b gidx status r) (missesLeft b))
    (b.item? n = some i → j.phase = .keys → opRow j.opcode = some row → waitsForFill b (.item n) = false →
      lookupField b j.chamber j.keyOut (row.keyOut j) = .skip →
      (lookupField b j.chamber j.keyIn (row.keyIn j) = .key k →
        Completes (.keyLookup (.item n)) s (settle (keysFound (b.tally 128) (.item n) j (some k) none))) ∧
      (lookupField b j.chamber j.keyIn (row.keyIn j) = .skip →
        Completes (.keyLookup (.item n)) s (settle (keysFound b (.item n) j none none))) ∧
      (lookupField b j.chamber j.keyIn (row.keyIn j) = .refused x →
        Completes (.keyLookup (.item n)) s (settle (closeItem (b.tally 128) n { status := x, result := zeros 16, output := none }))) ∧
      (lookupField b j.chamber j.keyIn (row.keyIn j) = .missed x → b.sump.st = .ready →
        Completes (.keyLookup (.item n)) s (settle (holdRequester (startMisses (b.tally 129) j.chamber (.item n) [x]) (.item n) .miss))) ∧
      (lookupField b j.chamber j.keyIn (row.keyIn j) = .missed x → b.sump.st ≠ .ready →
        Completes (.keyLookup (.item n)) s (settle (closeItem (b.tally 129) n { status := 0x0061, result := zeros 16, output := none })))) ∧
    (b.domainOn 19 = true → wfDdr ret = true → b.keys.misses.find? (fun m => m.gidx == gidx) = some m →
      (b.sump.st ≠ .ready → Completes (.keyCacheFill gidx ret) s (settle (fails b 0x0061))) ∧
      (b.sump.st = .ready → beingWritten b gidx = true → Completes (.keyCacheFill gidx ret) s (settle b)) ∧
      (b.sump.st = .ready → beingWritten b gidx = false → ddrRead b ret = (ret', b0) →
        (readWhole b0 ret' gidx = (.ok lines, b1) → fillRecord b1 gidx lines = some b2 →
          Completes (.keyCacheFill gidx ret) s
            (settle (m.waiters.foldl (fun b r => fillServes b gidx (lines.headD ([], 0)).1 r) ((missesLeft b2).tally 131)))) ∧
        (readWhole b0 ret' gidx = (.ok lines, b1) → fillRecord b1 gidx lines = none → Completes (.keyCacheFill gidx ret) s (settle b)) ∧
        (readWhole b0 ret' gidx = (.error e, b1) → Completes (.keyCacheFill gidx ret) s (settle (fails b1 0x0060))))) ∧
    Completes (.keyPortRelease gidx) s (settle (b.modKeys fun k =>
      { k with cache := (k.cache.map fun p => (p.1, rel p.2)).filter fun p => !(p.2.stale && p.2.refs == 0)
               sysCache := (k.sysCache.map rel).filter fun s => !(s.stale && s.refs == 0) })) ∧
    (∀ w sl, findSlot b gidx = some (w, sl) → recCounted sl.line = true → recRetired sl.line = false → gidx ∉ b.keys.reserving →
      let mark := recMark sl.line
      (mark.2 ≤ sl.nextCount + 1024 → mark.2 + 4096 ≤ 2 ^ 48 → Completes (.counterReserve gidx) s
        ((b.modKeys fun k => { k with reserving := k.reserving ++ [gidx] }).sumpQueue
          { writes := [{ gidx := gidx, lines := [withMark sl.line b.claim (mark.2 + 4096)], newClass := none }], range := none
            waiter := .counter gidx b.claim (mark.2 + 4096) })) ∧
      (sl.nextCount + 1024 < mark.2 → Completes (.counterReserve gidx) s b)) ∧
    (b.keys.refetching = true → b.sump.st = .ready →
      b.keys.pins.find? (fun p => !b.keys.holds p.1 p.2 && !underBad b p.1 && !b.keys.misses.any (fun m => m.gidx == p.1)) = some (gidx, y) →
      Completes .pinRefetch s (b.modKeys fun k =>
        { k with misses := k.misses ++ [{ gidx := gidx, payer := 64, waiters := [], pinFor := [], refetch := true }] }))

/-! ### Operations -/

/-- NOP, FENCE and AUDIT_FLUSH (R69, R76): each ends OK, a fence once no item fetched before it is left, a flush once what it waits for is recorded.
The MAC operations (R105 to R107, R132, R133, R151): the MAC's first MACLEN bytes as RESULT, or compared with the MAC given; the algorithm of
each USAGE; and the wait of a MAC under an M7 key at a full intake of Auger (R242).
EMV_ARQC_VERIFY and the card verification codes (R108 to R111). The count of their passes is the model's choice (log entry 100). -/
def Obligations.QueueControlAndMacs : Prop :=
  (∀ (s : State) (n : Nat) (i : Item), s.blk.running = true → s.blk.item? n = some i → i.st = .closing → i.job.outcome = none →
    let b := s.blk
    (i.job.opcode = 0x0F00 → Completes (.nop (.item n)) s (settle (closeItem b n (okWith [])))) ∧
    (i.job.opcode = 0x0F01 → (∀ p ∈ b.itemsOf i.chamber, n ≤ p.1) → Completes (.fence (.item n)) s (settle (closeItem b n (okWith [])))) ∧
    (i.job.opcode = 0x0F01 → (∃ p ∈ b.itemsOf i.chamber, p.1 < n) → Completes (.fence (.item n)) s (settle b)) ∧
    (∀ batch o, i.job.opcode = 0x0F02 → i.flushTo = some batch → i.job.held = some o →
      (flushedTo b (.chamber i.chamber) batch = true → Completes (.auditFlush (.item n)) s (settle (closeItem b n o))) ∧
      (flushedTo b (.chamber i.chamber) batch = false → Completes (.auditFlush (.item n)) s (settle b)))) ∧
  (∀ (s : State) (r : Requester) (j : Job),
    let b := begun s r j
    let k := j.kIn
    let maclen := j.opN 0
    let pad := j.opN 1 % 4
    let hash := j.opN 1 / 4 % 4
    let msg := if j.inline_ then slice j.operands 20 (j.opN 2) else j.input
    let mac := macOf k.alg k.usage k.material pad hash msg
    let work := if k.usage = ascii "M7" then Work.auger (if hash = 0 then 16 else 20) (hmacSlots hash msg.length)
      else Work.spindle .none (macPace k.alg k.usage pad msg.length) 0
    let full : Prop := intakeFull b r j work = true
    let given := slice j.operands 4 maclen
    let compare (mac : Bytes) : Outcome := onlyStatus (if mac.take maclen = given then 0 else 2)
    let dflags := j.opN 3
    let tdes : Bool := dflags % 4 == 0
    let t (variant use : Nat) := dukptKey k dflags (j.op 20 12) variant use
    let dMac (t : Nat × Bytes × Nat) : Bytes := macOf t.1 (if tdes then ascii "M3" else ascii "M6") t.2.1 pad 0 j.input
    let dWork (t : Nat × Bytes × Nat) : Work :=
      .spindle .none ((t.2.2, true) :: macPace t.1 (if tdes then ascii "M3" else ascii "M6") pad j.input.length) 0
    let plain : Prop := formD r j = true ∧ j.opN 3 = 0 ∧ macParams k.alg k.usage maclen (j.opN 1) = true ∧
      (if j.inline_ then j.opN 2 ≤ 20 ∧ allZero (slice j.operands (20 + j.opN 2) (20 - j.opN 2)) = true
       else j.opN 2 = 0 ∧ j.zero 20 31 = true)
    let dukpt : Prop := formC r j = true ∧ dukptSyntax dflags (j.op 20 12) = true ∧ (dflags % 4 = 1 → dflags / 4 % 8 ≤ 2) ∧ 4 ≤ maclen ∧
      maclen ≤ (if tdes then 8 else 16) ∧ (if tdes then pad = 1 ∨ pad = 2 else pad = 0) ∧ j.opN 1 / 4 = 0 ∧ j.opN 2 = 0 ∧
      kindSuits (dflags % 4) k.alg = true
    (k.usage = ascii "M6" → mac = aesCmac k.material msg) ∧
    (k.usage = ascii "M3" → mac = macAlg3 k.material (isoPad pad 8 msg)) ∧
    (k.usage = ascii "M7" → hash = 0 → mac = hmacSha256 k.material msg) ∧
    (Ready s r j 0x0200 → plain → macOperandOk j maclen false = true →
      (¬ full → Completes (.macGenerate r) s (works b r j work (okWith (mac.take maclen)))) ∧
      (full → Completes (.macGenerate r) s (settle s.blk))) ∧
    (Ready s r j 0x0201 → plain → macOperandOk j maclen true = true →
      (¬ full → Completes (.macVerify r) s (works b r j work (compare mac))) ∧ (full → Completes (.macVerify r) s (settle s.blk))) ∧
    (full → k.usage = ascii "M7") ∧
    (Ready s r j 0x0202 → dukpt → macOperandOk j maclen false = true →
      Completes (.macGenerateDukpt r) s (works b r j (dWork (t 0xFF000000 0x2000)) (okWith ((dMac (t 0xFF000000 0x2000)).take maclen)))) ∧
    (Ready s r j 0x0203 → dukpt → macOperandOk j maclen true = true →
      Completes (.macVerifyDukpt r) s (works b r j (dWork (t 0xFF00 0x2001)) (compare (dMac (t 0xFF00 0x2001)))))) ∧
  (∀ (s : State) (r : Requester) (j : Job) (pan : List Nat), panDigits (j.op 0 10) = some pan →
    let b := begun s r j
    let k := j.kIn
    let eflags := j.opN 11
    let padlen := j.opN 26
    let data := j.input.take (j.inLen - padlen)
    let sk := emvSession k.alg (emvMaster k.alg k.material pan (byteAt j.operands 10)) (j.op 12 2)
    let arqc := (emvMac k.alg sk data).take 8
    let usage := if isAes k.alg then ascii "M6" else ascii "M3"
    let passes : Pace := (emvKeyPasses k.alg, true) :: macPace k.alg usage 2 data.length
    let work (arpc : Pace) := Work.spindle .none (passes ++ arpc) 0
    let code := nibbles (j.op 14 2)
    let digits := cvcOf k.material pan (j.op 10 2) (j.op 12 2)
    let emv : Prop := formC r j = true ∧ allDigits (nibbles (j.op 10 1)) = true ∧ j.zero 27 31 = true ∧ 1 + padlen ≤ j.inLen ∧
      j.inLen ≤ 1024 + padlen ∧ ((eflags = 0 ∧ j.zero 22 25 = true) ∨ (eflags = 1 ∧ j.zero 24 25 = true) ∨ eflags = 2) ∧
      (if eflags = 2 then padlen ≤ 8 else padlen = 0)
    let card : Prop := formA j = true ∧ allDigits (nibbles (j.op 10 2)) = true ∧ (nibbles (j.op 12 2)).getD 0 0 = 15 ∧
      allDigits ((nibbles (j.op 12 2)).drop 1) = true ∧ j.zero 16 31 = true
    (Ready s r j 0x0300 → emv →
      (arqc ≠ j.op 14 8 → Completes (.emvArqcVerify r) s (works b r j (work []) (onlyStatus 2))) ∧
      (arqc = j.op 14 8 → eflags = 0 → Completes (.emvArqcVerify r) s (works b r j (work []) (onlyStatus 0))) ∧
      (arqc = j.op 14 8 → eflags ≠ 0 → Completes (.emvArqcVerify r) s (works b r j
        (work (if eflags = 1 then [(1, true)] else macPace k.alg usage 2 (12 + padlen)))
        (okWith (emvArpc k.alg sk arqc (j.op 22 4) (j.input.drop (j.inLen - padlen)) eflags))))) ∧
    (Ready s r j 0x0310 → card → j.zero 14 15 = true →
      Completes (.cvcGenerate r) s (works b r j (.spindle .none [(2, true)] 0) (okWith (packNibbles (15 :: digits))))) ∧
    (Ready s r j 0x0311 → card → code.getD 0 0 = 15 → allDigits (code.drop 1) = true →
      Completes (.cvcVerify r) s (works b r j (.spindle .none [(2, true)] 0) (onlyStatus (if code.drop 1 = digits then 0 else 2)))))

/-- PIN_TRANSLATE, with a clear key or a DUKPT transaction key, under the policy of the descriptor's dispatch (R85 to R90, R93, R94, R95, R98 to R100): a policy that does not admit it, no random
bytes, a block that is not valid, and the new block.
The PIN verifications (R101 to R103): OK where the PIN agrees, VERIFY_MISMATCH where it does not, PIN_BLOCK where a block is not valid. -/
def Obligations.PinOperations : Prop :=
  (∀ (s : State) (r : Requester) (j : Job) (pan pin : List Nat) (drawn : Bytes) (b1 : Block),
    let b := begun s r j
    let inF := j.opN 26 % 16
    let outF := j.opN 26 / 16
    let policy := j.pinpol
    let dflags := j.opN 27
    let t := dukptKey j.kIn dflags (j.op 28 12) 0xFF 0x1000
    let permitted : Prop := translationPermitted policy inF outF = true ∧ (j.kIn.gidx = j.kOut.gidx → policy.getLsbD 3 = true)
    let passes (f : Nat) : Nat := if f = 4 then 2 else 1
    let all (i : Instr) (alg : Nat) (key : Bytes) (extra : Nat) : Prop :=
      (¬ permitted → Completes i s (refuses b r 0x0021)) ∧
      (permitted → b.draw (pinDraw outF) = none → Completes i s (refuses b r 0x0040)) ∧
      (permitted → b.draw (pinDraw outF) = some (drawn, b1) →
        let work := Work.spindle .after32 [(extra + passes inF, true)] (passes outF)
        (pinOf policy inF alg key (j.op 0 16) pan = none → Completes i s (works b1 r j work (onlyStatus 0x0023))) ∧
        (pinOf policy inF alg key (j.op 0 16) pan = some pin → Completes i s (works b1 r j work
          (okWith (sealBlock outF j.kOut.alg j.kOut.material (buildPin outF pin drawn) pan)))))
    panOperand j 16 (formatBinds inF || formatBinds outF) = some pan → inF ≤ 4 → outF ≤ 4 → pinFieldOk j inF = true →
    formatSuits outF j.kOut.alg = true →
    (Ready s r j 0x0100 → formA j = true → j.zero 27 31 = true → formatSuits inF j.kIn.alg = true →
      all (.pinTranslate r) j.kIn.alg j.kIn.material 0) ∧
    (Ready s r j 0x0101 → formB j = true → dukptSyntax dflags (j.op 28 12) = true → kindSuits (dflags % 4) j.kIn.alg = true →
      (if isAes t.1 then inF = 4 else inF = 0 ∨ inF = 1 ∨ inF = 3) → all (.pinTranslateDukpt r) t.1 t.2.1 t.2.2)) ∧
  (∀ (s : State) (r : Requester) (j : Job) (pan : List Nat) (table : Bytes),
    let b := begun s r j
    let f := j.opN 26 % 16
    let ref := j.opN 26 / 16
    let l := j.opN 27 / 16
    let policy := j.pinpol
    let got := pinOf policy f j.kIn.alg j.kIn.material (j.op 0 16) pan
    let stored := pinOf policy ref j.kOut.alg j.kOut.material j.input pan
    let passes (f : Nat) : Nat := if f = 4 then 2 else 1
    let answer (good : List Nat → Bool) : Outcome := match got with
      | some pin => onlyStatus (if good pin then 0 else 2)
      | none => onlyStatus 0x0023
    verifyFormat f = true → pinFieldOk j f = true → formatSuits f j.kIn.alg = true →
    (Ready s r j 0x0110 → panOperand j 16 (formatBinds f) = some pan → Tab.get? j.decTabs (j.opN 27 % 8) = some table →
      formB j = true → ref = 0 → (j.opN 27).testBit 3 = false → 4 ≤ l → l ≤ 8 → allDigits ((nibbles (j.op 36 4)).take l) = true →
      (∀ x ∈ (nibbles (j.op 36 4)).drop l, x = 15) →
      Completes (.pinVerifyOffset r) s (works b r j (.spindle .sameCycle [(passes f, true)] 1)
        (answer fun pin => pin == offsetPin j.kOut.alg j.kOut.material (j.op 28 8) table (j.op 36 4) l))) ∧
    (Ready s r j 0x0111 → panDigits (j.op 16 10) = some pan → formA j = true → ref = 0 → j.opN 27 ≤ 6 →
      allDigits (nibbles (j.op 28 2)) = true → j.zero 30 31 = true →
      Completes (.pinVerifyPvv r) s (works b r j (.spindle .after32 [(passes f, true)] 1)
        (answer fun pin => nibbles (j.op 28 2) == pvvOf j.kOut.material pan (j.opN 27) pin))) ∧
    (Ready s r j 0x0112 → panOperand j 16 (formatBinds f || formatBinds ref) = some pan → formC r j = true → verifyFormat ref = true →
      j.zero 27 31 = true → j.inLen = (if ref = 4 then 16 else 8) → formatSuits ref j.kOut.alg = true →
      Completes (.pinVerifyCompare r) s (works b r j (.spindle .sameCycle [(passes f, true)] (passes ref))
        (match got, stored with
          | some x, some y => onlyStatus (if x = y then 0 else 2)
          | _, _ => onlyStatus 0x0023))))

/-- A PIN put into a field of any format comes out of it again (R88, R89). -/
def Obligations.PinFieldRoundTrip : Prop :=
  ∀ (fmt : Nat) (pin : List Nat) (drawn : Bytes), fmt ≤ 4 → 4 ≤ pin.length → pin.length ≤ 12 → (∀ d ∈ pin, d < 10) →
    drawn.length = pinDraw fmt → parsePin fmt (buildPin fmt pin drawn) = some pin

/-- The key blocks (R112 to R117): an import's new record with its handle and KCV, an export's block, and the initial key of a DUKPT base key.
The characters that the manual leaves open are free values (log entries 2 and 10); the order of the KC and KP blocks, the count of passes and the IN_LEN
of DUKPT_IK_EXPORT are the model's choices (log entries 101, 100, 10).
PK_KEYGEN (R164, R173, R174, R182): the lowest free runs of slots take the private and the public record, and the handles are the RESULT; an RSA key's
primes are found as its operation runs, and its slots are reserved meanwhile. -/
def Obligations.KeyBlocks : Prop :=
  (∀ (s : State) (r : Requester) (j : Job) (t : KeyBlock) (field : Bytes) (alg g : Nat) (pad pb free : Bytes) (b1 b2 b3 : Block),
    let b := begun s r j
    let k := j.kIn
    let x := j.kOut
    let slot := ofLe (j.op 0 4)
    let n := ofBe (field.take 2) / 8
    let key := slice field 2 n
    let version := byteAt j.operands 0
    let flags := j.opN 1
    let blk := if version = 0x44 then 16 else 8
    let printable (l : Bytes) : Bytes := l.map fun x => BitVec.ofNat 8 (0x20 + x.toNat % 95)
    let exports (i : Instr) (usage : Bytes) (alg : Nat) (mode : Byte) (kvn : Bytes) (exp : Byte) (o : List OptBlock) (key result : Bytes)
        (extra : Nat) : Prop :=
      let header := tr31Header version usage (tr31AlgChar alg) mode kvn exp o key.length (printable pb)
      let pace := (extra, true) :: tr31Pace k.alg k.material.length header.length (key.length + 2 + pad.length)
      Completes i s (works b3 r j (.spindle .none pace 0) (okOut result (tr31Wrap k.alg k.material header (tr31Field key pad))))
    (Ready s r j 0x0700 → formC r j = true → j.opN 8 ≤ 1 → j.zero 9 31 = true → (slot = 0xFFFFFFFF ∨ slot < b.sumpSpace) →
      tr31Parse j.input = some t → (if t.version = 0x42 then isTdes k.alg = true else isAes k.alg = true) →
      tr31Unwrap k.alg k.material t.header t.enc t.mac = some field → ofBe (field.take 2) % 8 = 0 → n + 2 ≤ field.length →
      tr31AlgOf t.alg n = some alg → t.options = [] → symmetricUse alg t.usage t.mode = true →
      keyStrength alg n ≤ keyStrength k.alg k.material.length → (t.version = 0x42 → isTdes alg = true) →
      importSlot b j.chamber slot ((j.opN 8).testBit 0) = .ok g →
      let rec_ := newSymmetric b j.chamber g alg t.usage t.mode t.exp t.kvn (ofLe (j.op 4 4)) (hSlot k.handle) key
      Completes (.tr31Import r) s (worksCreating b r j (.spindle .none (tr31Pace k.alg k.material.length t.header.length field.length) 0)
        (okWith (leBytes 8 rec_.2.1 ++ symmetricKcv alg key)) [rec_.1])) ∧
    (Ready s r j 0x0700 → formC r j = true → j.opN 8 ≤ 1 → j.zero 9 31 = true → (slot = 0xFFFFFFFF ∨ slot < b.sumpSpace) →
      tr31Parse j.input = some t → (if t.version = 0x42 then isTdes k.alg = true else isAes k.alg = true) →
      tr31Unwrap k.alg k.material t.header t.enc t.mac = none → Completes (.tr31Import r) s (refuses b r 0x0024)) ∧
    (Ready s r j 0x0701 → formC r j = true → (version = 0x42 ∨ version = 0x44) → flags ≤ 3 → j.zero 2 31 = true → j.inLen = 0 →
      recExport x.head ≠ 0x4E → wrapRefused k version x.alg x.material.length = false → x.usage ≠ ascii "9A" →
      (hClass x.handle = 0 ∨ (hClass x.handle = 3 ∧ (x.usage = ascii "B0" ∨ x.usage = ascii "B1" ∨ x.usage = ascii "E0"))) →
      (if isAes x.alg || isTdes x.alg then free = [] ∧ b1 = b else b.fresh 1 = (free, b1)) →
      b1.draw (tr31PadLen blk x.material.length) = some (pad, b2) → b2.fresh 32 = (pb, b3) →
      exports (.tr31Export r) x.usage x.alg (recMode x.head) (recKvn x.head) (recExport x.head)
        ((if flags.testBit 0 then [kcvBlock "KC" x.alg (recKcv x.head) free] else []) ++
          (if flags.testBit 1 then [kcvBlock "KP" k.alg (recKcv k.head) []] else [])) x.material (recKcv x.head) 0) ∧
    (Ready s r j 0x0701 → formC r j = true → (version = 0x42 ∨ version = 0x44) → flags ≤ 3 → j.zero 2 31 = true → j.inLen = 0 →
      recExport x.head = 0x4E → Completes (.tr31Export r) s (refuses b r 0x0011)) ∧
    (Ready s r j 0x0702 → formC r j = true → (version = 0x42 ∨ version = 0x44) → flags ≤ 1 → j.zero 2 3 = true → j.zero 16 31 = true →
      j.inLen = 0 → (if flags = 0 then tdesCounter (j.op 4 10) = 0 ∧ j.zero 14 15 = true else j.zero 12 15 = true) →
      kindSuits flags x.alg = true →
      let ik := if flags = 0 then tdesIk x.material (j.op 4 10) else aesIk x.alg x.material (j.op 4 8)
      let ikAlg := if flags = 0 then 1 else x.alg
      wrapRefused k version ikAlg ik.length = false → b.fresh 18 = (free, b1) → b1.draw (tr31PadLen blk ik.length) = some (pad, b2) →
      b2.fresh 32 = (pb, b3) →
      exports (.dukptIkExport r) (ascii "B1") ikAlg 0x58 (printable (free.take 2)) 0x4E
        [if flags = 0 then (ascii "KS", toHex (j.op 4 10)) else (ascii "IK", toHex (j.op 4 8))] ik (free.drop 2) 1)) ∧
  (∀ (s : State) (r : Requester) (j : Job) (g1 g2 : Nat) (drawn : Bytes) (b1 : Block),
    let b := begun s r j
    let c := j.chamber
    let alg := schemeAlg j.scheme
    let bits := j.keyBits
    let n := slotsFor (privateLen alg bits)
    let fp := decide (872 < publicLen alg bits)
    let w := publicSlots (if fp then 64 else publicLen alg bits)
    let held := b.modCh c fun h => { h with reservedSlots := h.reservedSlots ++ (List.range n).map (g1 + ·) }
    let sk := keygenStored j drawn
    let length := if alg = 0x16 then bits else 8 * sk.length
    let pk := publicOf alg length sk
    let mode := byteAt j.operands 11
    let priv : Attr :=
      { alg := alg, length := length, usage := j.op 9 2, mode := mode, exp := 0x4E, counted := false, fingerprint := false
        notAfter := ofLe (j.op 16 4), owner := newOwner c, kvn := j.op 13 2, kcv := publicKcv pk, chain := 0xFFFFFFFF }
    let pub : Attr := { priv with mode := if mode = 0x53 then 0x56 else mode, exp := 0x45, fingerprint := fp }
    let l : List NewRecord :=
      [{ gidx := g1, lines := recordLines priv sk (slotIndex b1 c g1), newClass := some 1 }
      , { gidx := g2, lines := publicLines pub (if fp then shake256 pk 64 else pk) (slotIndex b1 c g2), newClass := some 2 }]
    let h1 := issueHandle b1 c g1 1 (verVersion (slotVersion b1 g1) + 1)
    let h2 := issueHandle b1 c g2 2 (verVersion (slotVersion b1 g2) + 1)
    let blank (g n : Nat) : NewRecord := { gidx := g, lines := List.replicate n (zeros 64), newClass := some 1 }
    Ready s r j 0x0403 →
    ((pkSyntax r j 3 = false ∨ newRecordOk j true = false ∨ j.input.length < j.ctxLen + j.labelLen) →
      Completes (.pkKeygen r) s (refuses b r 0x0020)) ∧
    (pkSyntax r j 3 = true → newRecordOk j true = true → j.ctxLen + j.labelLen ≤ j.input.length →
      (keygenUse j = false → Completes (.pkKeygen r) s (refuses b r 0x0011)) ∧
      (keygenUse j = true → lowestRun b c n = none → Completes (.pkKeygen r) s (refuses b r 0x0015)) ∧
      (keygenUse j = true → lowestRun b c n = some g1 → lowestRun held c w = none → Completes (.pkKeygen r) s (refuses b r 0x0015)) ∧
      (keygenUse j = true → lowestRun b c n = some g1 → lowestRun held c w = some g2 →
        (schemeRsa j.scheme = true →
          Completes (.pkKeygen r) s (worksCreating b r j (.gallery false false false []) (onlyStatus 0) [blank g1 n, blank g2 w])) ∧
        (schemeRsa j.scheme = false → b.draw (keygenDraw j.scheme) = none → Completes (.pkKeygen r) s (refuses b r 0x0040)) ∧
        (schemeRsa j.scheme = false → b.draw (keygenDraw j.scheme) = some (drawn, b1) →
          Completes (.pkKeygen r) s (worksCreating b1 r j (.gallery (j.scheme == 8 || j.scheme == 9 || j.scheme == 0x14) false false drawn)
            (okOut (leBytes 8 h1 ++ leBytes 8 h2) pk) l)))))

/-- The data ciphers and HASH (R130 to R147, R149, R152): the output of each mode, with the IV given, and with the one drawn from Lantern or from the
key's count, the two reads of a GCM decryption (R136), and the digests.
HASH (R149, R152): the digest of the function named, its first 16 bytes as RESULT. -/
def Obligations.CipherAndHash : Prop :=
  (∀ (s : State) (r : Requester) (j : Job) (drawn : Bytes) (b1 : Block) (epoch count : Nat) (encrypt : Bool),
    let b := begun s r j
    let k := j.kIn
    let mode := j.opN 0
    let src := j.opN 1
    let taglen := j.opN 2
    let aadlen := ofLe (j.op 4 4)
    let bs := blockLen k.alg
    let n := (j.input.length + bs - 1) / bs
    let i : Instr := if encrypt then .cipherEncrypt r else .cipherDecrypt r
    let code := if encrypt then 0x0500 else 0x0501
    let crypt (x : Bytes) : Bytes := if encrypt then blockEnc k.alg k.material x else blockDec k.alg k.material x
    let civ := beBytes 2 epoch ++ [BitVec.ofNat 8 j.chamber, BitVec.ofNat 8 j.pipe] ++ beBytes 8 count
    let iv := j.op 8 16
    let open_ (iv : Bytes) : Option Bytes := gcmOpen k.material iv (j.input.take aadlen)
      ((j.input.drop aadlen).take ((j.input.drop aadlen).length - taglen))
      ((j.input.drop aadlen).drop ((j.input.drop aadlen).length - taglen))
    Ready s r j code → formC r j = true → ivsrcOk encrypt mode src = true → j.opN 3 = 0 → j.zero 24 31 = true →
    ivFieldOk j mode src k.alg = true → (if mode = 4 then j.keyOut ≠ 0 else j.keyOut = 0) →
    cipherLenOk encrypt mode k.alg j.inLen taglen aadlen = true → cipherKeysOk j mode src = true →
    (if mode = 3 then 12 ≤ taglen ∧ taglen ≤ 16 else taglen = 0 ∧ aadlen = 0) →
    (mode = 0 → Completes i s (works b r j (.spindle .none [(n, false)] 0) (okOut [] (ecbMode crypt bs j.input)))) ∧
    (mode = 1 → src = 0 → encrypt = true → Completes i s (works b r j (.spindle .none [(n, true)] 0)
      (okOut (iv.take bs) (cbcEncrypt (blockEnc k.alg k.material) bs (iv.take bs) j.input)))) ∧
    (mode = 1 → src = 1 → encrypt = true → drawCount b k = (.drawn epoch count, b1) →
      let iv := aesEncrypt k.material (civ ++ zeros 4)
      Completes i s (works b1 r j (.spindle .none [(n + 1, true)] 0)
        (okOut (iv.take bs) (cbcEncrypt (blockEnc k.alg k.material) bs (iv.take bs) j.input)))) ∧
    (mode = 1 → encrypt = false → Completes i s (works b r j (.spindle .none [(n, false)] 0)
      (okOut [] (cbcDecrypt (blockDec k.alg k.material) bs (iv.take bs) j.input)))) ∧
    (mode = 2 → encrypt = true → drawCount b k = (.drawn epoch count, b1) → ctrOverflows (civ ++ zeros 4) j.input.length = false →
      Completes i s (works b1 r j (.spindle .none [(n, false)] 0) (okOut (civ ++ zeros 4) (ctrCrypt k.material (civ ++ zeros 4) j.input)))) ∧
    (mode = 2 → encrypt = false → ctrOverflows iv j.input.length = false →
      Completes i s (works b r j (.spindle .none [(n, false)] 0) (okOut [] (ctrCrypt k.material iv j.input)))) ∧
    (mode = 3 → src = 2 → encrypt = true → b.draw 12 = some (drawn, b1) →
      Completes i s (works b1 r j (.spindle .none [(2 + ((j.input.drop aadlen).length + 15) / 16, false)] 0)
        (okOut (drawn.take 12) (gcmSeal k.material (drawn.take 12) (j.input.take aadlen) (j.input.drop aadlen) taglen)))) ∧
    (mode = 3 → src = 2 → encrypt = true → b.draw 12 = none → Completes i s (refuses b r 0x0040)) ∧
    (mode = 3 → encrypt = false → j.again = none →
      (open_ (iv.take 12) = none → Completes i s (works b r j (.spindle .none [(2, false)] 0) (onlyStatus 2))) ∧
      (open_ (iv.take 12) = some [] → Completes i s (works b r j (.spindle .none [(2, false)] 0) (okOut [] []))) ∧
      (∀ x l, open_ (iv.take 12) = some (x :: l) → Completes i s (settle (submit b r j (.spindle .none [(2, false)] 0) none [])))) ∧
    (∀ again, mode = 3 → encrypt = false → j.again = some again →
      let ct := (again.drop aadlen).take ((j.input.drop aadlen).length - taglen)
      Completes i s (works b r j (.spindle .none [((ct.length + 15) / 16, false)] 0) (okOut [] (gcmText k.material (iv.take 12) ct)))) ∧
    (mode = 4 → Completes i s (works b r j (.spindle .none [(1 + j.input.length / 16, false), (if j.input.length % 16 = 0 then 0 else 2, true)] 0)
      (okOut [] (xtsCrypt (!encrypt) k.material j.kOut.material (ofLe iv) j.input))))) ∧
  (∀ (s : State) (r : Requester) (j : Job),
    let b := begun s r j
    let halg := j.opN 0
    let outlen := ofLe (j.op 2 2)
    let len := j.input.length
    let hashes (w : Work) (d : Bytes) : Prop := Completes (.hash r) s (works b r j w (okOut (d.take 16) d))
    Ready s r j 0x0600 → formC r j = true → j.opN 1 = 0 → j.zero 4 31 = true →
    (halg = 0x01 → outlen = 0 → hashes (.auger 16 ((len + 72) / 64)) (sha256 j.input)) ∧
    (halg = 0x02 → outlen = 0 → hashes (.auger 20 ((len + 144) / 128)) (sha384 j.input)) ∧
    (halg = 0x03 → outlen = 0 → hashes (.auger 20 ((len + 144) / 128)) (sha512 j.input)) ∧
    (halg = 0x11 → outlen = 0 → (sha3_256 j.input).length = 32 → hashes (.auger 12 (len / 136 + 1)) (sha3_256 j.input)) ∧
    (halg = 0x12 → outlen = 0 → (sha3_512 j.input).length = 64 → hashes (.auger 12 (len / 72 + 1)) (sha3_512 j.input)) ∧
    (halg = 0x21 → outlen ≠ 0 → (shake128 j.input outlen).length = outlen →
      hashes (.auger 12 (len / 168 + (outlen + 167) / 168)) (shake128 j.input outlen)) ∧
    (halg = 0x22 → outlen ≠ 0 → (shake256 j.input outlen).length = outlen →
      hashes (.auger 12 (len / 136 + (outlen + 135) / 136)) (shake256 j.input outlen)) ∧
    (halg ∉ [0x01, 0x02, 0x03, 0x11, 0x12, 0x21, 0x22] → Completes (.hash r) s (refuses b r 0x0020)))

/-- The signatures (R162 to R172, R179): a signature from the scheme's own function and the bytes it draws, and a verification's OK,
VERIFY_MISMATCH, or PK_REJECT of a key or signature that does not pass validation.
PK_BATCH_VERIFY (R184 to R187): the items whose keys are there go to a core with the bytes drawn for their coefficients (those of items that will
not be in the batch are the model's choice, log entry 114); keys that are not resident are fetched, or are their items' failures where Sump does not
answer; and what the core answers: the status of every item, OK for all where the weighted check holds, and the map of the good ones. -/
def Obligations.Signatures : Prop :=
  (∀ (s : State) (r : Requester) (j : Job) (p : PkInput) (drawn sig : Bytes) (b1 : Block),
    let b := begun s r j
    let lattice : Bool := j.scheme == 8 || j.scheme == 9 || j.scheme == 0x14
    let v := pkVerdict j (usedKey j p) p.ctx p.rest p.part
    j.zero 8 31 = true → prehashOk j p.rest = true →
    (Ready s r j 0x0400 → pkParts j false .absent = some p → pkSyntax r j 0 = true →
      (keyMatches j p = false → Completes (.pkSign r) s (refuses b r 0x0011)) ∧
      (keyMatches j p = true → b.draw (signDraw j) = none → Completes (.pkSign r) s (refuses b r 0x0040)) ∧
      (keyMatches j p = true → b.draw (signDraw j) = some (drawn, b1) →
        (pkSignature j p.ctx p.rest drawn = some sig →
          Completes (.pkSign r) s (works b1 r j (.gallery lattice false false drawn) (okOut (sig.take 16) sig))) ∧
        (pkSignature j p.ctx p.rest drawn = none →
          Completes (.pkSign r) s (works b1 r j (.gallery lattice false false drawn) (onlyStatus 0x00F0))))) ∧
    (j.scheme = 1 → pkSignature j p.ctx p.rest drawn = some (edSign true false p.ctx j.kIn.material p.rest)) ∧
    (j.scheme = 3 → pkSignature j p.ctx p.rest drawn = some (edSign false false [] j.kIn.material p.rest)) ∧
    (Ready s r j 0x0401 → pkParts j (needsKey j) .signature = some p → pkSyntax r j 1 = true → keyMatches j p = true →
      (v.1 = false → Completes (.pkVerify r) s (works b r j (.gallery lattice true true []) (onlyStatus 0x0030))) ∧
      (v.1 = true → Completes (.pkVerify r) s (works b r j (.gallery lattice true false []) (onlyStatus (if v.2 then 0 else 2)))))) ∧
  ((∀ (s : State) (r : Requester) (j : Job) (drawn : Bytes) (b1 : Block),
    let b := begun s r j
    let count := j.opN 8
    let items := batchItems j
    let keys := items.map (batchKey b j)
    let missing := keys.filterMap fun k => match k with
      | .miss g => some g
      | _ => none
    Ready s r j 0x0402 → pkSyntax r j 2 = true → j.opN 1 = 0 → j.zero 9 31 = true → 1 ≤ count → count ≤ 64 →
    j.ctxLen + 24 * count ≤ j.input.length → (∀ e ∈ items, batchItemOk j e = true) →
    (missing ≠ [] → b.sump.st = .ready →
      Completes (.pkBatchVerify r) s (settle (holdRequester (startMisses b j.chamber r missing) r .miss))) ∧
    (missing ≠ [] → b.sump.st ≠ .ready → Completes (.pkBatchVerify r) s (settle (b.modJob r fun j =>
      { j with keyErrors := j.keyErrors ++ missing.map fun g => (g, 0x0061) }))) ∧
    (missing = [] → b.draw (if count = 1 then 0 else 16 * count) = none → Completes (.pkBatchVerify r) s (refuses b r 0x0040)) ∧
    (missing = [] → b.draw (if count = 1 then 0 else 16 * count) = some (drawn, b1) →
      Completes (.pkBatchVerify r) s (works (b1.modJob r fun j => { j with batch := List.zipWith (batchEntry j) items keys }) r j
        (.gallery false true false drawn) (onlyStatus 0)))) ∧
  (∀ (j : Job) (b : Block) (drawn : Bytes),
    let n := j.batch.length
    let entry (x : Nat) : BatchEntry := j.batch.getD x { failed := none, key := [], msg := [], sig := [] }
    let left := (List.range n).filter fun x => (entry x).failed.isNone && batchValid j (entry x)
    let z := left.flatMap fun x => fit 16 ((drawn.drop (16 * x)).take 16)
    let status (x : Nat) : Nat := match (entry x).failed with
      | some s => s
      | none => if batchValid j (entry x) then 0 else 0x0030
    let st := (List.range n).map status
    let map := (List.range n).foldl (fun a i => if st.getD i 1 = 0 then a + 2 ^ i else a) 0
    let good := (st.filter (· == 0)).length
    (2 ≤ left.length → batchCheck j (left.map entry) z = true → batchOutcome j b drawn =
      ({ status := if good = n then 0 else 2, result := fit 16 (leBytes 8 map ++ leBytes 1 good), output := some (st.flatMap (leBytes 2)) }, b)) ∧
    (batchStatuses j b drawn = none → batchOutcome j b drawn = (onlyStatus 0x0040, b))))

/-- PK_DERIVE, PK_ENCAPSULATE and PK_DECAPSULATE (R175, R176, R179): a key derived from the shared secret goes to the lowest free slot; PK_REJECT where
the peer's key does not pass validation, its slot reserved meanwhile (R166).
PK_ENCRYPT and PK_DECRYPT (R177, R179, R181): OAEP and PKCS #1 under a public key that passes validation, and the message of a ciphertext that
decodes; PK_REJECT otherwise. -/
def Obligations.KeyAgreement : Prop :=
  (∀ (s : State) (r : Requester) (j : Job) (p : PkInput) (g : Nat) (drawn : Bytes) (b1 : Block),
    let b := begun s r j
    let chain := if j.inlineKey then 0xFFFFFFFF else hSlot j.kIn.handle
    let new (b : Block) (z : Bytes) : NewRecord × Nat × Bytes :=
      newSymmetric b j.chamber g (j.opN 8) (j.op 9 2) (byteAt j.operands 11) (byteAt j.operands 12) (j.op 13 2) (ofLe (j.op 16 4)) chain
        (derivedKey (j.opN 8) (j.opN 15) z p.rest)
    let makes (i : Instr) (b : Block) (lattice windowed : Bool) (drawn z : Bytes) (out : Option Bytes) : Prop :=
      let rec_ := new b z
      Completes i s (worksCreating b r j (.gallery lattice windowed false drawn)
        { status := 0, result := fit 16 (leBytes 8 rec_.2.1 ++ rec_.2.2), output := out } [rec_.1])
    let rejects (i : Instr) (b : Block) (lattice windowed : Bool) (drawn : Bytes) : Prop :=
      Completes i s (worksCreating b r j (.gallery lattice windowed true drawn) (onlyStatus 0x0030)
        [{ gidx := g, lines := [zeros 64], newClass := some 1 }])
    newRecordOk j false = true → p.rest.length ≤ 1024 → keyMatches j p = true → derivedUse j = true →
    lowestRun b j.chamber 1 = some g → lowestRun b1 j.chamber 1 = some g →
    (Ready s r j 0x0404 → pkParts j false .peer = some p → pkSyntax r j 4 = true →
      (∀ z, agreedSecret j p.part = some z → makes (.pkDerive r) b false true [] z none) ∧
      (agreedSecret j p.part = none → rejects (.pkDerive r) b false true [])) ∧
    (Ready s r j 0x0405 → pkParts j (needsKey j) .absent = some p → pkSyntax r j 5 = true → b.draw 32 = some (drawn, b1) →
      let e := kemEncaps (usedKey j p) drawn
      (kemValid (usedKey j p) = true → makes (.pkEncapsulate r) b1 true true drawn e.1 (some e.2)) ∧
      (kemValid (usedKey j p) = false → rejects (.pkEncapsulate r) b1 true true drawn)) ∧
    (Ready s r j 0x0406 → pkParts j false .signature = some p → pkSyntax r j 6 = true →
      makes (.pkDecapsulate r) b true false [] (kemDecaps j.kIn.material p.part) none)) ∧
  (∀ (s : State) (r : Requester) (j : Job) (p : PkInput) (drawn ps : Bytes) (b1 b2 : Block) (m : Nat),
    let b := begun s r j
    let bytes := rsaBits j / 8
    let pk := usedKey j p
    let n := ofBe (pk.take bytes)
    let e := ofBe (pk.drop bytes)
    let key := rsaStored bytes j.kIn.material
    let em := oaepEncode j.halg p.label p.rest drawn bytes
    let c := ofBe p.part
    let ends (o : Outcome) : Prop := Completes (.pkDecrypt r) s (works b1 r j (.gallery false true false drawn) o)
    j.zero 8 31 = true → keyMatches j p = true →
    (Ready s r j 0x0407 → pkParts j (needsKey j) .absent = some p → pkSyntax r j 7 = true → j.scheme = 0x18 →
      p.rest.length ≤ bytes - 2 * hashLen j.halg - 2 → b.draw (hashLen j.halg) = some (drawn, b1) →
      (rsaKeyValid j n e = true → 1 ≤ ofBe em → ofBe em < n →
        Completes (.pkEncrypt r) s (works b1 r j (.gallery false true false drawn) (okOut [] (beBytes bytes (rsaPublicOp n e (ofBe em)))))) ∧
      (rsaKeyValid j n e = false → Completes (.pkEncrypt r) s (works b1 r j (.gallery false true true drawn) (onlyStatus 0x0030)))) ∧
    (Ready s r j 0x0407 → pkParts j (needsKey j) .absent = some p → pkSyntax r j 7 = true → j.scheme = 0x19 → p.rest.length ≤ bytes - 11 →
      b.draw (bytes - 3 - p.rest.length) = some (drawn, b1) → drawNonZero 64 b1 drawn = some (ps, b2) →
      let x := ofBe ([0, 2] ++ ps ++ [0] ++ p.rest)
      (rsaKeyValid j n e = true → 1 ≤ x → x < n →
        Completes (.pkEncrypt r) s (works b2 r j (.gallery false true false ps) (okOut [] (beBytes bytes (rsaPublicOp n e x))))) ∧
      (rsaKeyValid j n e = false → Completes (.pkEncrypt r) s (works b2 r j (.gallery false true true ps) (onlyStatus 0x0030)))) ∧
    (Ready s r j 0x0408 → pkParts j false .signature = some p → pkSyntax r j 8 = true → p.rest = [] →
      b.draw (bytes + 16) = some (drawn, b1) →
      ((c = 0 ∨ key.p * key.q ≤ c) →
        Completes (.pkDecrypt r) s (works b1 r j (.gallery false true true drawn) (onlyStatus 0x0030))) ∧
      (c ≠ 0 → c < key.p * key.q → rsaChecked j drawn c = some m →
        (∀ msg, oaepDecode j.halg p.label (beBytes bytes m) = some msg → ends (okOut [] msg)) ∧
        (oaepDecode j.halg p.label (beBytes bytes m) = none → ends (onlyStatus 0x0030))) ∧
      (c ≠ 0 → c < key.p * key.q → rsaChecked j drawn c = none → ends (onlyStatus 0x00F0))))

/-! ### Engines -/

/-- SPINDLE_ISSUE, PASS_COMPLETE and the delivery of a result (R62, R63, R71, R118, R125 to R129, R160): a cycle does not pass over a block that is due; a
cycle without requests; the one request of a pipeline, whose pass enters and pays a credit; a block that leaves after 28 cycles, the last of its request
delivering; and the output written to the buffer with its length, or lost.
AUGER_ISSUE and AUGER_RESULT (R148, R150): a cycle of a unit grants a slot to the message chosen, which the unit is then busy with; a message whose
last slot is done delivers. -/
def Obligations.SpindleAndAuger : Prop :=
  (∀ (s : State), s.blk.running = true →
    let b := s.blk
    let gained : Block := { b with ch := b.ch.map fun p =>
      (p.1, if p.2.st = .none then p.2 else { p.2 with spCredit := min (256 * b.n : Int) (p.2.spCredit + 4) }) }
    let idle (b : Block) (p : Nat) : Block := if b.domainOn (15 + p / 2) then b.event (64 + p) 0x005 none else b
    let waited := [0, 1, 2, 3].foldl idle gained
    ((∃ p < 4, spDue b p = true) → Completes .spindleIssue s b) ∧
    ((∀ p < 4, spDue b p = false) → b.spindle.queue = [] → b.spindle.waiting = [] → b.spindle.reserved = [] → b.spindle.converter = [] →
      Completes .spindleIssue s { waited with spindle :=
        { waited.spindle with cycle := waited.spindle.cycle + 1, outReg := [], converter := [], inReg := [] } }) ∧
    (∀ (q : SpReq) (c : Bool), (∀ p < 4, spDue b p = false) → b.spindle.waiting = [] → b.spindle.queue = [q] → b.spindle.reserved = [] →
      q.pipe = 0 → q.fuse = .none → q.pace = [(1, c)] → q.payer < 64 → q.notBefore ≤ b.spindle.cycle → b.domainOn 15 = true →
      b.domainOn 16 = false → (b.n : Int) ≤ (gained.chamber q.payer).spCredit →
      ∃ t p, exec .spindleIssue s = .next t ∧ t.pending = s.pending ∧ t.blk.spindle.queue = [] ∧
        t.blk.spindle.cycle = b.spindle.cycle + 1 ∧
        Tab.get t.blk.spindle.flight [] 0 = Tab.get b.spindle.flight [] 0 ++ [p] ∧
        (p.issued, p.id, p.owner, p.payer) = (b.spindle.cycle, q.id, q.owner, q.payer) ∧
        (t.blk.chamber q.payer).spCredit = max (-(1024 * b.n : Int)) ((gained.chamber q.payer).spCredit - b.n)) ∧
    (∀ (pipe : Fin 4) (e : Egress) (p : SpPass) (rest : List SpPass), b.domainOn (15 + pipe / 2) = true →
      Tab.get b.spindle.flight [] pipe = p :: rest →
      let out : Block := { b with spindle := { b.spindle with flight := Tab.set b.spindle.flight pipe rest } }
      let left := spConvert out pipe p
      (b.spindle.cycle < p.issued + 28 → Completes (.passComplete pipe e) s (settle b)) ∧
      (p.issued + 28 ≤ b.spindle.cycle → p.discard = true → Completes (.passComplete pipe e) s (settle out)) ∧
      (p.issued + 28 ≤ b.spindle.cycle → p.discard = false → spUnderWay left.spindle p.id = true →
        Completes (.passComplete pipe e) s (settle left)) ∧
      (p.issued + 28 ≤ b.spindle.cycle → p.discard = false → spUnderWay left.spindle p.id = false →
        (p.owner = none → Completes (.passComplete pipe e) s (settle left)) ∧
        (∀ r j, p.owner = some r → left.job? r = some j → j.phase = .engine → j.engId = some p.id →
          Completes (.passComplete pipe e) s (settle (deliver left r e))))) ∧
    (∀ (n : Nat) (j : Job) (o : Outcome) (d : Bytes), b.job? (.item n) = some j → j.held = some o → o.output = some d →
      j.creates = [] → (o.status = 0 ∨ o.status = 2) → b.suppressed n = false →
      let write (b : Block) (a : Nat) (d : Bytes) : Block := b.dmaWrite (hostMaster j.chamber) (some j.chamber) (j.chamber + 1) a d
      let len (b : Block) : Block := write b (j.ext + 8) (leBytes 4 d.length)
      let lost := { status := 0x0022, result := zeros 16, output := none : Outcome }
      (b.bme (j.chamber + 1) = true →
        (d ≠ [] → d.length ≤ j.outCap → deliver b (.item n) .issued =
          closeItem (releaseSlots (len (write b (j.ext + 16 + roundUp j.inLen 64) d)) j.chamber []) n o) ∧
        (d = [] → deliver b (.item n) .issued = closeItem (releaseSlots (len b) j.chamber []) n o) ∧
        (j.outCap < d.length → deliver b (.item n) .issued = closeItem (releaseSlots (len b) j.chamber []) n (onlyStatus 0x0020)) ∧
        deliver b (.item n) .bufferError = closeItem (releaseSlots
          (quiesceChamber (b.aer (j.chamber + 1) "Uncorrectable Internal Error" false) j.chamber 1 (some n)) j.chamber []) n lost) ∧
      (b.bme (j.chamber + 1) = false → ∀ e, deliver b (.item n) e =
        closeItem (releaseSlots (quiesceChamber b j.chamber 4 (some n)) j.chamber []) n lost))) ∧
  (∀ (s : State) (u : AugerUnit) (m : AuMsg) (id : Nat) (r : Requester) (e : Egress) (j : Job), s.blk.running = true → s.blk.domainOn 17 = true →
    let b := s.blk
    let t := Tab.get b.auger.cycles 0 (auUnit u)
    let cycles := Tab.set b.auger.cycles (auUnit u) (t + 1)
    let past (m : AuMsg) : Bool := m.id == id && m.left == 0 && decide (m.doneAt ≤ Tab.get b.auger.cycles 0 (auMsgUnit m))
    let out : Block := { b with auger := { b.auger with msgs := b.auger.msgs.filter fun x => x.id != id } }
    (auChoose b.auger u = some m →
      let granted := b.auger.msgs.map fun x =>
        if x.id = m.id then { x with left := x.left - 1, place := auPlace b.auger u m, doneAt := t + m.latency } else x
      Completes (.augerIssue u) s { b with auger := { b.auger with
        cycles := cycles
        msgs := granted
        last := if m.port = .flowstone then b.auger.last else m.port
        flowLast := match u with
          | .keccak k => Tab.set b.auger.flowLast k (m.port == .flowstone)
          | .sha2 => b.auger.flowLast } }) ∧
    (auChoose b.auger u = none → Completes (.augerIssue u) s { b with auger := { b.auger with cycles := cycles } }) ∧
    (b.auger.msgs.find? past = some m → m.owner = some r → out.job? r = some j → j.phase = .engine → j.engId = some id →
      Completes (.augerResult id e) s (settle (deliver out r e))) ∧
    (b.auger.msgs.find? past = some m → m.owner = none → Completes (.augerResult id e) s (settle out)) ∧
    (b.auger.msgs.find? past = none → Completes (.augerResult id e) s (settle b)))

/-- The Gallery events (R153 to R160, R170, R179, R182 to R190, R205): the lowest idle core takes the request chosen, its operand memory and its message at
Auger; a window that ends rejects or goes on; a result is delivered and the core's secrets zeroised; a bad word of the shared tables ends the operation
with INTERNAL; an abort stops the core, and ends the operation with ABORTED.
The ends of engine calls and of a core's waits, and the busy fractions (R18, R198, R253, R254, R264, R275 to R277): a ticket completes its area
and frees an EWAIT; a stalled call is taken; a page of the window arrives, or its read fails; each core's busy fraction of the window. -/
def Obligations.GalleryAndCalls : Prop :=
  (∀ (s : State) (k : Fin 20) (q : GaReq) (r : Requester) (j : Job) (e : Egress), s.blk.running = true →
    let b := s.blk
    let who := if q.payer = 64 then none else some q.payer
    let count (b : Block) (ev : Nat) : Block := if k.val < 16 then b.event (68 + k / 4) ev who else b
    let domain := if k.val < 16 then 10 + k.val / 4 else 14
    let freed (b : Block) : Block := { b with gallery := { b.gallery with
      cores := Tab.set b.gallery.cores k .idle
      secret := Tab.erase b.gallery.secret k
      abortReq := b.gallery.abortReq.filter (· != k.val) } }
    let erased (b : Block) : Block :=
      { b with gallery := { b.gallery with secret := Tab.erase b.gallery.secret k, operands := Tab.erase b.gallery.operands k } }
    let mine : Prop := q.owner = .job r ∧ j.phase = .engine ∧ j.engId = some q.id
    let runs (k : Nat) : Bool := match b.gaCore k with
      | .validating _ => true
      | .working _ => true
      | _ => false
    let admitted : Block := { b with gallery := gaAdmit b.gallery }
    (b.gallery.tablesOk = true → gaPick admitted = some (k.val, q) → ∀ d b1,
      ((∀ i n, q.owner ≠ .header i n true) → d = q.drawn ∧ b1 = admitted) →
      (∀ i n, q.owner = .header i n true → admitted.draw 32 = some (d, b1) ∨
        (admitted.draw 32 = none ∧ d = zeros 32 ∧ b1 = count admitted 0x00A)) →
      let st := gaStream b1 { q with drawn := d }
      let x := st.1
      let g := st.2.gallery
      Completes .galleryDispatch s (settle (count { st.2 with gallery := { g with
        cores := Tab.set g.cores k (if x.windowed then .validating x else .working x)
        queue := g.queue.filter fun y => y.id != x.id
        last := if x.source = .flowstone then g.last else x.source
        secret := Tab.set g.secret k (gaPrivate st.2 x ++ x.drawn)
        operands := Tab.set g.operands k (gaPublic st.2 x)
        curveCount := if x.lattice then g.curveCount else g.curveCount + 1
        latticeCount := if x.lattice then g.latticeCount + 1 else g.latticeCount } } 0x002))) ∧
    (b.gallery.tablesOk = false → Completes .galleryDispatch s (settle admitted)) ∧
    (b.domainOn domain = true → b.gaCore k = .validating q →
      (q.rejects = false → Completes (.validationWindowEnd k) s (settle { b with gallery := { b.gallery with
        cores := Tab.set b.gallery.cores k (.working q) } })) ∧
      (q.rejects = true → mine →
        let past := (count (gaUnstream (freed b) q) 0x004).tally 139
        past.job? r = some j → Completes (.validationWindowEnd k) s
          (settle (endJob (releaseSlots past j.chamber j.creates) r (onlyStatus 0x0030))))) ∧
    (b.domainOn domain = true → b.gaCore k = .working q → ∀ bad : Option (BitVec 21),
      (gaStreams b q = true → Completes (.galleryOpComplete k bad e) s (settle b)) ∧
      (gaStreams b q = false → (gaReadsTables b q = false ∨ bad = none) → ∀ b1, gaLate b k q = some b1 → mine →
        let past := (count (freed (rsaReport b1 k r)) 0x003).tally 138
        past.job? r = some j → Completes (.galleryOpComplete k bad e) s (settle (deliver past r e))) ∧
      (∀ a, gaStreams b q = false → gaReadsTables b q = true → bad = some a → mine →
        let past := erased (freed ((count (b.report 0x0240 0 .w a.toNat 0 0) 0x003).tally 138))
        past.job? r = some j → Completes (.galleryOpComplete k bad e) s
          (settle (deliver (past.modJob r fun j => { j with held := some (onlyStatus 0x00F0) }) r e))) ∧
      (j.opcode ≠ 0x0402 → (j.opcode ≠ 0x0403 ∨ schemeRsa j.scheme = false) → q.owner = .job r → b.job? r = some j → gaLate b k q = some b)) ∧
    (b.domainOn domain = true → k.val ∈ b.gallery.abortReq → (b.gaCore k = .working q ∨ b.gaCore k = .validating q) →
      let b1 := { b with gallery := { b.gallery with abortReq := b.gallery.abortReq.filter (· != k.val) } }
      let b2 := gaUnstream (gaDropRefs b1 q) q
      Completes (.galleryAbort k) s (settle { b2 with gallery := { b2.gallery with
        cores := Tab.set b2.gallery.cores k (.aborting { q with drawn := [], message := none }) } })) ∧
    (b.domainOn domain = true → k.val ∉ b.gallery.abortReq → Completes (.galleryAbort k) s (settle b)) ∧
    (b.domainOn domain = true → b.gaCore k = .aborting q → mine →
      let ended := erased (count ((freed b).tally 140) 0x005)
      ended.job? r = some j →
      Completes (.abortedSignalled k) s (settle (endJob (releaseSlots ended j.chamber j.creates) r (onlyStatus 0x0070)))) ∧
    ((b.gaCore k = .working q ∨ b.gaCore k = .validating q) → Completes (.engineLocalAbort (some k)) s (settle { b with gallery :=
      { b.gallery with abortReq := b.gallery.abortReq.filter (· != k.val) ++ [k.val] } })) ∧
    Completes (.engineLocalAbort none) s (settle ((b.gallery.queue ++ b.gallery.held).foldl (fun b q => gaAborted (b.tally 140) q)
      { b with gallery := { b.gallery with queue := [], held := [], abortReq := (List.range 20).filter runs } }))) ∧
  (∀ (s : State) (k : Fin 64) (t : Fin 16) (wd : BitVec 4) (o : Outcome) (n p : Nat) (i : Item) (d : Bytes), s.blk.running = true →
    let b := s.blk
    let x := b.ticket k t
    let b1 (area : Bytes) : Block := b.modTicket k t fun x => { x with st := .complete, area := area }
    let freed (b : Block) : Block := (b.modTicket k t fun x => { x with st := .free }).modCore k fun c => { c with st := .running }
    let audited (n : Nat) : Bytes := patch (patch (fit 32 x.area) 2 [byteAt x.area 2 ||| 2]) 8 (leBytes 6 n)
    (b.domainOn (2 + k / 8) = true → x.st = .outstanding → x.job.outcome = some o →
      (x.leaf = .none → (b.core k).st ≠ .waiting t → Completes (.ticketComplete k t) s (settle (b1 (fit 32 x.area)))) ∧
      (x.leaf = .none → ((b1 (fit 32 x.area)).core k).st = .waiting t →
        Completes (.ticketComplete k t) s (settle (goOn (freed (b1 (fit 32 x.area))) k 1))) ∧
      (x.leaf = .accepted n → ((b1 (audited n)).core k).st ≠ .waiting t →
        Completes (.ticketComplete k t) s (settle (b1 (audited n)))) ∧
      ((x.leaf = .waiting ∨ x.leaf = .wanted ∨ x.leaf = .entry) → Completes (.ticketComplete k t) s (settle b))) ∧
    (b.domainOn (2 + k / 8) = true → ((b.core k).st = .stalled (.engine wd) ∨ (b.core k).st = .stalled (.leaf wd)) →
      Completes (.ecallQueueAccept k) s
        (settle (takeCourse k (ecall k wd (b.modCore k fun c => { c with st := .running }))))) ∧
    (b.domainOn (2 + k / 8) = true → (b.core k).item = some n → b.item? n = some i → i.job.headerOk = true →
      nextPage (b.core k) = some p → ((b.core k).st = .running ∨ (b.core k).st = .stalled (.window p)) →
      DmaOpen b (hostMaster i.chamber) .write →
      Completes (.windowPageLoad k (.data d)) s (settle (issueBuffers (resumeSequence (b.modCore k fun c =>
        { c with window := Memory.writeBytes c.window (4096 * p) (fit 4096 (d.take (i.job.inLen - 4096 * ((b.core k).winpos + p))))
                 loaded := c.loaded + 2 ^ p, st := .running }) k) (i.chamber % 8))) ∧
      (∀ x, x = .unsupportedRequest ∨ x = .completerAbort ∨ x = .timeout ∨ x = .poisoned → Completes (.windowPageLoad k x) s
        (settle (endItemOnCore (bufferReadFault (b.modItem n fun i => { i with job := { i.job with input := [] } }) (i.chamber + 1) x) k
          0x0022)))) ∧
    (b.domainOn 1 = true → Completes .busyWindowEnd s (b.modChuck fun x =>
      { x with busy := (List.range 88).map fun j => (j, min 0xFFFF (Tab.get x.busyCycles 0 j * 65536 / 2 ^ (16 + x.busyWin)))
               busyCycles := [] })))

/-! ### Protection -/

/-- The Ferrule commands (R413 to R415, R420): a shadow set waits for the commit point, which falls at once where the master's domain is off or its core
stalls in EWAIT or TAKE, or is refused for an overlap of owners; at the point it is active and the epoch counts; drains end; and the report timer
files the count since, or stops.
The lowest-numbered enabled region that covers a granule decides, and without one the access is denied (R411 to R413). -/
def Obligations.Ferrule : Prop :=
  (∀ (s : State) (m : Fin 80) (rules : List Machine.Region) (outstanding : Bool), s.blk.running = true →
    let b := s.blk
    let f := b.ferrule m
    let set_ := rules.take (ferruleRegions m)
    let point (f : Machine.Ferrule) (outstanding : Bool) : Machine.Ferrule :=
      { f with active := f.shadow, shadow := f.heldShadow.getD f.shadow, heldShadow := none, pendingCommit := false
               epoch := (f.epoch + 1) % 65536, draining := f.draining || outstanding, commitFault := false }
    let still : Prop := b.domainOn (masterDomain m) = false ∨ ((m : Nat) < 64 ∧ ((b.core m).st = .take ∨ ∃ t, (b.core m).st = .waiting t))
    (wfRules m rules = true → f.pendingCommit = true →
      Completes (.ferruleCommit m rules) s (b.modFerrule m fun f => { f with heldShadow := some set_ })) ∧
    (wfRules m rules = true → f.pendingCommit = false → shadowClash set_ = false → ¬ still → Completes (.ferruleCommit m rules) s
      ((b.modFerrule m fun f => { f with shadow := set_ }).modFerrule m fun f => { f with pendingCommit := true })) ∧
    (wfRules m rules = true → f.pendingCommit = false → shadowClash set_ = false → still → Completes (.ferruleCommit m rules) s
      ((b.modFerrule m fun f => { f with shadow := set_ }).modFerrule m (point · false))) ∧
    (wfRules m rules = true → f.pendingCommit = false → shadowClash set_ = true → Completes (.ferruleCommit m rules) s
      (((b.modFerrule m fun f => { f with shadow := set_ }).modFerrule m fun f => { f with commitFault := true }).report 0x0211 m .w
        (f.epoch % 65536) 0 0)) ∧
    (f.pendingCommit = true → Completes (.ferruleCommitPoint m outstanding) s (b.modFerrule m (point · outstanding))) ∧
    (f.pendingCommit = false → Completes (.ferruleCommitPoint m outstanding) s b) ∧
    Completes (.ferruleDrainEnd m) s (b.modFerrule m fun f => { f with draining := false }) ∧
    (f.timer = true → f.since = 0 → Completes (.ferruleReportTimer m) s (b.modFerrule m fun f => { f with timer := false })) ∧
    (f.timer = true → f.since ≠ 0 → 64 ≤ b.belay.intake.length →
      Completes (.ferruleReportTimer m) s (b.modFerrule m fun f => { f with overrun := true })) ∧
    (f.timer = true → f.since ≠ 0 → b.belay.intake.length < 64 → Completes (.ferruleReportTimer m) s
      ((b.modBelay fun y => { y with intake := y.intake ++
        [{ code := 0x0210, src := m, cls := .w, p0 := f.firstFlast, p1 := f.firstAddr % 2 ^ 32
           p2 := f.firstAddr / 2 ^ 32 % 256 + 256 * min f.since (2 ^ 24 - 1), rom := false, overrun := f.overrun, quiesce := 64
           detected := b.now }] }).modFerrule m fun f => { f with since := 0, overrun := false })) ∧
    (f.timer = false → Completes (.ferruleReportTimer m) s b)) ∧
  (∀ (rules : List Machine.Region) (g : Nat) (kind : AccessKind),
    let covers (r : Machine.Region) : Prop := r.en = true ∧ r.base ≤ g ∧ g ≤ r.limit
    let grants (r : Machine.Region) : Bool := match kind with
      | .read => r.r
      | .write => r.w
      | .fetch => r.x
    ((∀ r ∈ rules, ¬ covers r) → rulesAdmit rules g kind = false) ∧
    (∀ before r after, rules = before ++ r :: after → (∀ x ∈ before, ¬ covers x) → covers r → rulesAdmit rules g kind = grants r))

/-- The filter of a detector (R424): four equal samples set its output, a third change in a row makes it active, and anything less leaves it.
The commands of a monitor (R424 to R427, R446): samples pass the filter, whose rise is an event; events count and raise the alarm at M, in
REARMING they return to ALARM; outputs that are both inactive rearm; the detectors' tests and faults; and what TMP_POWER_ON leaves.
Strata's and the supplies' commands (R440, R442, R444, R446, R451, R452, R455 to R458, R500, R555, R556). -/
def Obligations.MonitorsAndStrata : Prop :=
  (∀ (f : Filter) (v out : Bool),
    ([v, v, v, v].foldl Filter.step f).output out = v ∧
    (f.last = !v → ([v, !v, v].foldl Filter.step f).output out = true) ∧
    ((f.step v).changes < 3 → (f.step v).same < 4 → (f.step v).output out = out) ∧
    (f.last = v → (f.step v).changes = 0 ∧ (f.step v).same = min 4 (f.same + 1)) ∧
    (f.last ≠ v → (f.step v).changes = min 3 (f.changes + 1) ∧ (f.step v).same = 1)) ∧
  (∀ (s : State) (k : Fin 19) (detB answers : Bool) (raw : List Bool),
    let b := s.blk
    let m := b.monitor k
    let act (m : Monitor) : Bool := if detB then m.actB else m.actA
    let turned (v : Bool) (m : Monitor) : Monitor := if detB then { m with actB := v } else { m with actA := v }
    let filter (m : Monitor) : Filter := if detB then m.filterB else m.filterA
    let event (b : Block) : Block :=
      let b := b.modMonitor k fun m =>
        if detB then { m with countB := min 255 (m.countB + 1) } else { m with countA := min 255 (m.countA + 1) }
      let m := b.monitor k
      if m.st = .idle ∧ (m.m ≤ m.countA ∨ m.m ≤ m.countB) then
        monitorReport (b.modMonitor k fun m => { m with st := .alarm }) k 0x0100 (monitorClass b k)
      else if m.st = .rearming then b.modMonitor k fun m => { m with st := .alarm }
      else b
    let rest (b : Block) : Block := b.modMonitor k fun m =>
      if m.st = .alarm ∧ m.actA = false ∧ m.actB = false then { m with st := .rearming } else m
    let sample (b : Block) (v : Bool) : Block :=
      let f := (filter (b.monitor k)).step v
      let out := act (b.monitor k)
      let b := b.modMonitor k fun m => if detB then { m with filterB := f } else { m with filterA := f }
      if f.output out = out then b
      else if f.output out = true then event (b.modMonitor k (turned true))
      else rest (b.modMonitor k (turned false))
    (monitorRuns b k = true → Completes (.detectorEvent k detB (.samples raw)) s (raw.foldl sample b)) ∧
    (monitorRuns b k = true → act m = true → Completes (.sustainedEvent k detB) s (event b)) ∧
    (monitorRuns b k = true → countsPulses k detB = true → Completes (.detectorEvent k detB .pulse) s (rest (event b))) ∧
    (monitorRuns b k = true → countsPulses k detB = false → Completes (.detectorEvent k detB .pulse) s b) ∧
    (∀ e, monitorRuns b k = false → Completes (.detectorEvent k detB e) s b) ∧
    (monitorRuns b k = false ∨ act m = false → Completes (.sustainedEvent k detB) s b) ∧
    Completes (.eventWindowExpiry k detB) s (b.modMonitor k fun m =>
      if detB then { m with countB := m.countB - 1 } else { m with countA := m.countA - 1 }) ∧
    Completes (.rearmHoldExpiry k) s (b.modMonitor k fun m =>
      if m.st = .rearming ∧ m.actA = false ∧ m.actB = false then { m with st := .idle } else m) ∧
    (let due := monitorRuns b k = true ∧ m.dfault = false ∧
        (m.actA ≠ m.actB ∨ (hasStimulus k = true ∧ b.pmc.powerGood = true ∧ (m.stimA = true ∨ m.stimB = true)))
     (due → Completes (.detectorFault k) s
        (monitorReport (b.modMonitor k fun m => { m with dfault := true, answered := false }) k 0x0101 .l)) ∧
     (¬ due → Completes (.detectorFault k) s b)) ∧
    (hasStimulus k = true → b.pmc.powerGood = true → Completes (.builtinStimulus k detB answers) s (b.modMonitor k fun m =>
      { m with stimA := if detB then m.stimA else !answers, stimB := if detB then !answers else m.stimB
               answered := m.answered || answers })) ∧
    (hasStimulus k = false ∨ b.pmc.powerGood = false → Completes (.builtinStimulus k detB answers) s b) ∧
    Completes (.dfaultClear k) s (b.modMonitor k fun m =>
      if m.dfault = true ∧ m.actA = m.actB ∧ (hasStimulus k = false ∨ (m.answered = true ∧ m.stimA = false ∧ m.stimB = false)) then
        { m with dfault := false }
      else m) ∧
    (b.pmc.powerGood = false → Completes .tmpPowerOn s { b with belay := { Belay.reset with armed := false } })) ∧
  (∀ (s : State) (r : Bytes) (rest torn : List Bytes) (battery : Bool),
    let b := s.blk
    let left : Block := b.modBelay fun y => { y with evidence := rest }
    let failed := torn.take 3
    let put (x : Strata) : Strata :=
      { x with evidence := (x.evidence ++ failed.map (fit 32) ++ (if failed.length < 3 then [r] else [])).take 8192 }
    let serial := b.strata.serial
    (b.pmc.powerGood = true → wfTorn torn = true → b.belay.evidence = r :: rest → b.strata.evidence.length < 8176 →
      Completes (.evidenceWrite torn) s (left.modStrata put)) ∧
    (b.pmc.powerGood = true → wfTorn torn = true → b.belay.evidence = r :: rest → 8176 ≤ b.strata.evidence.length → b.strata.evidenceFull = true →
      Completes (.evidenceWrite torn) s (if recordCode r ∈ lastSlotCodes then left.modStrata put else left)) ∧
    (b.pmc.powerGood = true → wfTorn torn = true → b.belay.evidence = r :: rest → 8176 ≤ b.strata.evidence.length → b.strata.evidenceFull = false →
      let full := left.modStrata fun x => { x with evidence := x.evidence ++ [evidenceFullRecord left], evidenceFull := true }
      let both := if recordCode r ∈ lastSlotCodes then full.modStrata put else full
      Completes (.evidenceWrite torn) s (if both.life = 1 then zeroise both 2 else lock both 2)) ∧
    (b.pmc.powerGood = true → wfTorn torn = true → b.belay.evidence = [] → Completes (.evidenceWrite torn) s b) ∧
    (b.pmc.powerGood = true → b.belay.evidence ≠ [] → Completes .recorderWrite s b) ∧
    (b.pmc.powerGood = true → b.belay.evidence = [] → b.belay.recorder = r :: rest → (b.recorderC ≠ 32768 ∨ serial < 32767) →
      Completes .recorderWrite s ((b.modBelay fun y => { y with recorder := rest }).modStrata fun x =>
        { x with recorder := Tab.set x.recorder (recorderSlot b.recorderC serial) r, serial := serial + 1 })) ∧
    (b.pmc.powerGood = true → b.belay.evidence = [] → b.belay.recorder = r :: rest → b.recorderC = 32768 → 32767 ≤ serial →
      Completes .recorderWrite s ((b.modBelay fun y => { y with recorder := rest }).modStrata fun x =>
        { x with fullCount := min (2 ^ 32 - 1) (x.fullCount + 1), fullLast := leField r 0 2 })) ∧
    (b.pmc.powerGood = true → b.recorderC = 32768 → 32767 ≤ serial → b.strata.fullCount ≠ 0 →
      let full := recordBytes b { code := 0x0250, src := 0, cls := .none, p0 := b.strata.fullCount, p1 := b.strata.fullLast, p2 := 0
                                  rom := false, overrun := false, quiesce := 64, detected := b.now } false
      Completes .recorderFullUpdate s (b.modStrata fun x => { x with recorder := Tab.set x.recorder 32767 full, serial := 32768 })) ∧
    (b.pmc.powerGood = true → Completes .optBaseWrite s (b.modStrata fun x => { x with optBase := b.now / 62500 })) ∧
    (b.pmc.onBattery = true → Completes .batterySecond s
      { b with bbram := { b.bbram with batSeconds := min (2 ^ 24 - 1) (b.bbram.batSeconds + 1) } }) ∧
    (b.pmc.onBattery = false → Completes .batterySecond s b) ∧
    ((battery = false ∨ b.pmc.powerGood = false) →
      Completes (.supplySwitchover battery) s (b.modPmc fun p => { p with onBattery := battery })) ∧
    (b.pmc.powerGood = false → Completes .batteryLoss s
      { b with bbram := { drk := none, markerOk := false, crcOk := false, lifecycle := 0, zDone := false, lDone := false, overflow := 0
                          batSeconds := 0, pending := [] }
               belay := { Belay.reset with evidence := b.belay.evidence, recorder := b.belay.recorder } }) ∧
    (b.pmc.powerGood = true → ∃ t, exec .mainPowerLoss s = .next t ∧ t.pending = s.pending ∧ t.blk.pmc.powerGood = false ∧
      t.blk.pmc.onBattery = true ∧ t.blk.ch = [] ∧ t.blk.belay.evidence = [] ∧ t.blk.belay.recorder = [] ∧ t.blk.chuck = Chuck.reset ∧ t.blk.keys = Keys.reset ∧ t.blk.lantern.st = .off ∧
      t.blk.sump.ddr = Sump.reset.ddr ∧ t.blk.bbram.batSeconds = 0 ∧ t.blk.belay.responses = []))

/-- Belay's reports and responses (R378, R379, R418, R433 to R442): the oldest report is recorded or its response is due, by the lifecycle; the
zeroisation, the lock, and what an alarm does on battery; and a lockstep mismatch's report. A reset that waited for a response begins after it (R517). -/
def Obligations.Responses : Prop :=
  ∀ (s : State) (r : Report) (rest : List Report) (x : Machine.Response) (pc : BitVec 32) (verdicts : Bool),
    let b := s.blk
    let taken : Block := b.modBelay fun y => { y with intake := rest }
    let after (b : Block) : Block := b.modBelay fun y => { y with alarmOut := true }
    let next (b : Block) : Block :=
      if b.pmc.warm = none ∧ b.belay.responses = [] ∧ b.pmc.sysRst = true then warmBegin b 1
      else if b.pmc.warm = none ∧ b.belay.responses = [] ∧ b.pmc.resetDue = true then warmBegin b 2
      else b
    (b.running = true → Completes (.lockstepMismatch pc verdicts) s (b.modBelay fun y => { y with intake := y.intake ++
      [{ code := 0x0111, src := 64, cls := .l, p0 := pc.toNat, p1 := if verdicts then 1 else 0, p2 := 0, rom := false, overrun := false
         quiesce := 64, detected := b.now }] })) ∧
    (b.pmc.powerGood = true → b.belay.intake = r :: rest → 64 ≤ r.quiesce →
      (r.cls = .z → b.life ≠ 0 → Completes .belayIntake s (settle (taken.modBelay fun y =>
        { y with responses := y.responses ++ [{ cls := .z, report := some r, cause := 1 }] }))) ∧
      (r.cls = .l → (b.life = 2 ∨ b.life = 3) → Completes .belayIntake s (settle (taken.modBelay fun y =>
        { y with responses := y.responses ++ [{ cls := .l, report := some r, cause := 1 }] }))) ∧
      (r.cls = .l → b.life = 1 → Completes .belayIntake s (settle (taken.modBelay fun y =>
        { y with responses := y.responses ++ [{ cls := .z, report := some r, cause := 3 }] }))) ∧
      ((r.cls = .w ∨ r.cls = .none ∨ (r.cls = .z ∧ b.life = 0) ∨ (r.cls = .l ∧ (b.life = 0 ∨ 4 ≤ b.life))) →
        Completes .belayIntake s (settle (fileReport taken (finishReport taken r .w))))) ∧
    (b.pmc.powerGood = true → b.belay.intake = [] → Completes .belayIntake s (settle b)) ∧
    (b.pmc.powerGood = true → zeroDue b = some x → 1 ≤ b.life → b.life ≤ 4 →
      Completes .classZResponse s (settle (next (cancelWakes (after (closeResponses (setLifecycle (zeroiseWork b) 5 x.cause) .z)) fun _ => true)))) ∧
    (b.pmc.powerGood = true → zeroDue b = none → b.belay.responses.head? = some x → (b.life = 2 ∨ b.life = 3) →
      Completes .classLResponse s (settle (next (cancelWakes (after (closeResponses (setLifecycle (lockWork b) 4 x.cause) .l)) fun _ => true)))) ∧
    (b.pmc.powerGood = true → zeroDue b = none → Completes .classZResponse s (settle b)) ∧
    (b.pmc.powerGood = true → b.belay.responses = [] → Completes .classLResponse s (settle b)) ∧
    (b.pmc.powerGood = true → (zeroDue b).isSome → Completes .classLResponse s (settle b)) ∧
    (b.pmc.powerGood = false → b.belay.intake = r :: rest → b.bbram.pending.length < 16 → r.cls = .z → b.bbram.zDone = false →
      b.bbram.lifecycle ≠ 0 →
      let wiped : Block := { taken with bbram := { taken.bbram with drk := none, markerOk := false, zDone := true } }
      Completes .batteryResponse s { wiped with bbram := { wiped.bbram with
        pending := wiped.bbram.pending ++ [recordBytes wiped (finishReport wiped r .z) true] } }) ∧
    (b.pmc.powerGood = false → b.belay.intake = [] → Completes .batteryResponse s b)

/-- What a zeroisation leaves (R434, R435): the DRK, every key, the random bytes held, the recipes and the chambers are gone, whatever the state was,
and the lifecycle is ZEROISED where the log has an entry for it. -/
def Obligations.ZeroisedStateHoldsNoSecret : Prop :=
  ∀ (b : Block) (cause : Nat),
    let t := zeroise b cause
    t.bbram.drk = none ∧ t.bbram.markerOk = false ∧ t.keys = Keys.reset ∧ t.ch = [] ∧ t.chains = [] ∧ t.chisel = Chisel.reset ∧
    t.chuck.items = [] ∧ t.sump.st = .erased ∧ t.lantern.central = [] ∧ (∀ p ∈ t.lantern.ports, p.2.buf = []) ∧
    t.bimor.auths = [] ∧ t.bimor.sessions = [] ∧ t.bimor.fwStage = [] ∧ t.spdm = Spdm.reset ∧ t.gallery.operands = [] ∧
    ((1 ≤ b.life ∧ b.life ≤ 4) → t.life = 5 ∧ t.bbram.lifecycle = 5)

/-! ### Audit -/

/-- LEAF_ACCEPT, BATCH_INTERVAL_EXPIRY, SEQ_RESERVE and CHAIN_COMMIT_RETRY (R194, R197, R199, R201, R577): the oldest leaf takes the next number of
a reserved block and joins the open batch; a batch whose interval has passed, or that has 4,096 leaves, closes into the next header, and on a stalled
chain is due to; the next block is reserved with 3,072 of the current one assigned; a stalled chain's failed commits are repeated.
Every leaf is 64 bytes with its number in bytes 0 to 5, its claim in 6 and 7, its time in 24 to 31 and the body's bytes elsewhere (R194). -/
def Obligations.AuditLeaves : Prop :=
  (∀ (s : State) (k : Fin 65) (r : LeafReq) (rest : List LeafReq) (t : Batch), s.blk.running = true → s.blk.domainOn 17 = true →
    let b := s.blk
    let i := chainOf k
    let c := b.chain i
    let leaf := stampLeaf r.body c.nextSeq b.claim b.now
    let opened : Batch := { firstSeq := c.nextSeq, openTime := b.now, interval := c.interval, claim := b.claim, hashes := [] }
    let batch := c.batch.getD opened
    let ended (b : Block) (t : Batch) (close : Nat) : Block :=
      let c := b.chain i
      let n := t.hashes.length
      let signed := headerBytes b i { kind := 0, close := close, firstSeq := t.firstSeq, claim := t.claim, count := n
                                      openTime := t.openTime, closeTime := b.now, gapFirst := 0, gapCount := 0
                                      root := merkleRoot t.hashes, nextKids := [] }
      let header : Header :=
        { chainNo := c.chainNo, batch := c.nextBatch, signed := signed, nextSeq := t.firstSeq + n, upTo := c.accepted
          edGidx := c.edGidx, pqGidx := c.pqGidx, sigEd := none, sigPq := none, backEd := none
          backPq := none, recorded := false, asked := false, askedEd := false, askedPq := false, mirrored := false }
      ((pumpHeaders ((b.modChain i fun c =>
        { c with nextBatch := c.nextBatch + 1, prev := shake256 (2 :: signed) 64, headers := c.headers ++ [header] }).flowHash 2) i).flowHash
          (n - 1 - n / 2)).modChain i fun c => { c with batch := none, closeDue := none }
    let taken : Block :=
      ((b.modChain i fun c =>
        { c with waiting := rest, nextSeq := c.nextSeq + 1, accepted := c.accepted + 1, lastLeaf := some c.nextSeq
                 heldLeaves := c.heldLeaves ++ [leaf]
                 batch := some { batch with hashes := batch.hashes ++ [shake256 (0 :: leaf) 64] } }).tally 135).flowHash
        (if batch.hashes.length % 2 = 1 then 2 else 1)
    let may : Prop := c.waiting = r :: rest ∧ c.nextSeq < c.mark ∧ b.kerard.egressClosed = false
    (may → batch.hashes.length < 4095 → Completes (.leafAccept k) s (settle (leafTaken taken r.src c.nextSeq))) ∧
    (may → batch.hashes.length = 4095 → (taken.chain i).stalled = none → (taken.chain i).batch = some t →
      Completes (.leafAccept k) s (settle (leafTaken (ended taken t 0) r.src c.nextSeq))) ∧
    ((c.waiting = [] ∨ c.mark ≤ c.nextSeq ∨ b.kerard.egressClosed = true ∨ (c.batch = some t ∧ 4096 ≤ t.hashes.length)) →
      Completes (.leafAccept k) s (settle b)) ∧
    (c.batch = some t → c.stalled = none → t.openTime + 1000 * t.interval ≤ b.now →
      Completes (.batchIntervalExpiry k) s (settle (ended b t 1))) ∧
    (c.batch = some t → c.stalled.isSome = true → t.openTime + 1000 * t.interval ≤ b.now → Completes (.batchIntervalExpiry k) s
      (settle (b.modChain i fun c => { c with closeDue := if c.batch.isSome = true then c.closeDue <|> some 1 else none }))) ∧
    ((c.batch = none ∨ (c.batch = some t ∧ b.now < t.openTime + 1000 * t.interval)) →
      Completes (.batchIntervalExpiry k) s (settle b)) ∧
    (c.present = true → c.reserving = false → c.mark ≤ c.nextSeq + 1024 → c.mark < 2 ^ 48 → Completes (.seqReserve k) s
      (settle (chainWrite (b.modChain i fun c => { c with reserving := true }) i (.seqMark i b.claim (c.mark / 4096 * 4096 + 4096))))) ∧
    ((c.present = false ∨ c.reserving = true ∨ c.nextSeq + 1024 < c.mark ∨ 2 ^ 48 ≤ c.mark) → Completes (.seqReserve k) s (settle b)) ∧
    (c.failed = [] → Completes (.chainCommitRetry k) s (settle b)) ∧
    (∀ q, c.failed = [q] → (∀ x ∈ b.sump.queue, x.waiter ≠ q.waiter) → b.sump.commit = none →
      Completes (.chainCommitRetry k) s (settle (b.sumpQueue q)))) ∧
  (∀ (body : Bytes) (seq claim time : Nat), body.length = 64 → seq < 2 ^ 48 → claim < 2 ^ 16 → time < 2 ^ 64 →
    let l := stampLeaf body seq claim time
    l.length = 64 ∧ leField l 0 6 = seq ∧ leField l 6 2 = claim ∧ leField l 24 8 = time ∧ slice l 8 16 = slice body 8 16 ∧
    slice l 32 32 = slice body 32 32)

/-- CHAIN_RETIRE (R193, R200): without random bytes the chain stays unsigned; with new keys the successor has the next CHAIN_NO and numbers from 0,
opens with its genesis batch, and keeps the old public keys and the places of the old records, with which the final header is still signed; and the
new records are written.
HEADER_SIGNED, HEADER_RELEASE and STREAM_RING_WRITE (R71, R205 to R207, R332, R380, R578): a header with its signatures has its record's commit
asked for; the oldest, recorded, with its leaves written and mirrored where there is a mirror, is released; held leaves and headers are written as
the ring has room, and a failed write quiesces the chamber or stops the system ring.
VFA_LHEAD and VFA_HHEAD (R56, R207): a head that names an entry already written frees those before it; another sets HEAD_RANGE; a write of
another size sets SIZE. -/
def Obligations.AuditBatches : Prop :=
  (∀ (s : State) (k : Fin 65) (ed q : Bytes) (g g2 : Nat) (writes : List NewRecord) (b1 : Block) (e : Nat),
    s.blk.running = true → s.blk.domainOn 17 = true →
    let b := s.blk
    let i := chainOf k
    let c := b.chain i
    ((c.present = false ∨ c.nextSeq ≠ 2 ^ 48 ∨ c.stalled.isSome = true) → Completes (.chainRetire k) s (settle b)) ∧
    (c.present = true → c.nextSeq = 2 ^ 48 → c.stalled = none →
      (newAuditKeys b k c.pq = .error e →
        Completes (.chainRetire k) s (settle (b.modChain i fun c => { c with retiring := true, unsignedStop := true }))) ∧
      (newAuditKeys b k c.pq = .ok ((ed, q, g, g2, writes), b1) → ∃ t, Completes (.chainRetire k) s (settle t) ∧
        (t.chain i).chainNo = c.chainNo + 1 ∧ (t.chain i).nextSeq = 0 ∧ (t.chain i).mark = 0 ∧ (t.chain i).nextBatch = 1 ∧
        (t.chain i).batch = none ∧ (t.chain i).edPub = edPublic true ed ∧ (t.chain i).edGidx = g ∧
        (c.pq = true → (t.chain i).pqPub = dsaPublic mldsa87 q ∧ (t.chain i).pqGidx = g2) ∧
        (t.chain i).before = some { edPub := c.edPub, pqPub := c.pqPub, edGidx := c.edGidx, pqGidx := c.pqGidx } ∧
        (t.chain i).retiring = false ∧
        (∀ h ∈ (t.chain i).headers.drop c.headers.length, h.edGidx = (if h.chainNo = c.chainNo then c.edGidx else g)) ∧
        (t.chain i).headers.length = c.headers.length + 2 ∧
        ({ writes := writes, range := none, waiter := .auditKeys i } : SumpReq) ∈ t.sump.queue))) ∧
  (∀ (s : State) (k : Fin 65) (n : Nat) (pq : Bool) (h : Header) (rest : List Header) (x : Bytes) (more : List Bytes),
    s.blk.running = true → s.blk.domainOn 17 = true →
    let b := s.blk
    let i := chainOf k
    let c := b.chain i
    let fn := if k.val = 64 then 0 else k.val + 1
    let back (h : Header) : Block := modHeader b i h.pos fun h =>
      if pq then { h with sigPq := h.sigPq <|> h.backPq, backPq := none } else { h with sigEd := h.sigEd <|> h.backEd, backEd := none }
    let mine (h : Header) : Bool := h.batch == n && (if pq then h.backPq else h.backEd).isSome
    let entry := h.signed ++ fit 114 (h.sigEd.getD []) ++ (if c.pq then fit 4627 (h.sigPq.getD []) ++ zeros 59 else zeros 14)
    let signed : Prop := h.sigEd.isSome = true ∧ (h.sigPq.isSome = true ∨ c.pq = false)
    let written : Prop := h.upTo + c.heldLeaves.length ≤ c.accepted
    let writable : Prop := c.ring.en = true ∧ c.ring.stopped = false ∧ b.kerard.egressClosed = false
    let free (log head tail : Nat) : Prop := (tail + 2 ^ log - head) % 2 ^ log < 2 ^ log - 1
    (c.headers.find? mine = some h →
      let c' := (back h).chain i
      (∀ o, c'.headers.find? (fun h => !h.recorded) = some o → o.asked = false → o.sigEd.isSome = true →
        (o.sigPq.isSome = true ∨ c'.pq = false) → Completes (.headerSigned k n pq) s
          (settle (chainWrite (modHeader (back h) i o.pos fun h => { h with asked := true }) i (.header i o.pos)))) ∧
      ((∀ o, c'.headers.find? (fun h => !h.recorded) = some o →
          o.asked = true ∨ o.sigEd = none ∨ (o.sigPq = none ∧ c'.pq = true)) → Completes (.headerSigned k n pq) s (settle (back h)))) ∧
    (c.headers.find? mine = none → Completes (.headerSigned k n pq) s (settle b)) ∧
    (c.headers = h :: rest → signed → h.recorded = true → written → (h.mirrored = true ∨ b.mirrored = false) → b.life ≠ 4 →
      b.kerard.egressClosed = false → Completes (.headerRelease k) s
        (settle (((dropFormerKeys (b.modKerard fun x => { x with headers := Tab.set x.headers (chainIx i) (h.pos, entry) }) i rest).modChain i
          fun c => { c with headers := rest, heldHeaders := c.heldHeaders ++ [entry] }).tally 136))) ∧
    ((c.headers = [] ∨ (c.headers = h :: rest ∧ (¬ signed ∨ h.recorded = false ∨ ¬ written ∨ (h.mirrored = false ∧ b.mirrored = true) ∨
        b.life = 4))) → Completes (.headerRelease k) s (settle b)) ∧
    (writable → b.bme fn = true → c.heldLeaves = x :: more → free c.ring.llog2 c.ring.lhead c.ring.ltail →
      Completes (.streamRingWrite k false .issued) s (settle
        (((b.dmaWrite 78 (chainWho i) fn (c.ring.leafBase + 64 * c.ring.ltail) x).modChain i fun c =>
          { c with heldLeaves := c.heldLeaves.drop 1, entries := c.entries - 1 }).modChain i fun c =>
            { c with ring := { c.ring with ltail := (c.ring.ltail + 1) % 2 ^ c.ring.llog2 } }))) ∧
    (writable → b.bme fn = true → c.heldHeaders = x :: more → free c.ring.hlog2 c.ring.hhead c.ring.htail → c.ring.vecEn = false →
      Completes (.streamRingWrite k true .issued) s (settle
        (((b.dmaWrite 78 (chainWho i) fn (c.ring.hdrBase + x.length * c.ring.htail) x).modChain i fun c =>
          { c with heldHeaders := c.heldHeaders.drop 1 }).modChain i fun c =>
            { c with ring := { c.ring with htail := (c.ring.htail + 1) % 2 ^ c.ring.hlog2 } }))) ∧
    (c.heldLeaves = [] → ∀ e, Completes (.streamRingWrite k false e) s (settle b)) ∧
    (writable → c.heldLeaves = x :: more → free c.ring.llog2 c.ring.lhead c.ring.ltail → b.bme fn = false →
      (k.val ≠ 64 → Completes (.streamRingWrite k false .issued) s (settle (quiesceChamber b k 4 none))) ∧
      (k.val = 64 → Completes (.streamRingWrite k false .issued) s (settle (b.modChain .system fun c =>
        { c with ring := { c.ring with stopped := true, err := c.ring.err ||| 4 } }))))) ∧
  (∀ (s : State) (c : Fin 64) (v : BitVec 32), s.blk.vfOn c = true →
    let b := s.blk
    let r := (b.chain (.chamber c)).ring
    let put (f : Ring → Ring) : Block := b.modChain (.chamber c) fun x => { x with ring := f x.ring }
    let leaf := v.toNat % 2 ^ 22
    let head := v.toNat % 2 ^ 16
    let ok (h log old tail : Nat) : Prop := h < 2 ^ log ∧ (h + 2 ^ log - old) % 2 ^ log ≤ (tail + 2 ^ log - old) % 2 ^ log
    (ok leaf r.llog2 r.lhead r.ltail → Completes (.vfaLhead c .word v) s (put fun r => { r with lhead := leaf })) ∧
    (ok head r.hlog2 r.hhead r.htail → Completes (.vfaHhead c .word v) s (put fun r => { r with hhead := head })) ∧
    (¬ ok leaf r.llog2 r.lhead r.ltail → Completes (.vfaLhead c .word v) s (put fun r => { r with err := r.err ||| 1 })) ∧
    (¬ ok head r.hlog2 r.hhead r.htail → Completes (.vfaHhead c .word v) s (put fun r => { r with err := r.err ||| 1 })) ∧
    Completes (.vfaLhead c .other v) s (put fun r => { r with err := r.err ||| 2 }) ∧
    Completes (.vfaHhead c .other v) s (put fun r => { r with err := r.err ||| 2 }))

/-! ### Sump -/

/-- SUMP_COMMIT (R211, R220, R223, R224, R227, R577): without READY every request fails; a full ring holds the commit back; the read passes the
engine's Ferrule and corrected errors are counted; a request whose path fails completes with SUMP_INTEGRITY and nothing is written, a chain's stalling
its chain; one that writes no slot is over; a request that verifies is written and sealed through Spindle, in SYNC mode with its entries before its
head; and one commit runs at a time.
SUMP_HEAD_WRITE, SMP_JHEAD and SYNC_RELEASE_TIMEOUT (R221, R222, R234): the head is written and the commit is over, in SYNC mode only once
released; the journal's head moves over entries that were written, and else sets JHEAD_RANGE; a warm reset stops waiting for the release. -/
def Obligations.SumpCommits : Prop :=
  (∀ (s : State) (ret : DdrReturn) (r : SumpReq) (b1 : Block), wfDdr ret = true → s.blk.running = true → s.blk.pmc.perstDue = false →
    s.blk.domainOn 19 = true →
    let b := s.blk
    let u := b.sump
    let ring := 2 ^ u.jlog2
    let room := ring - 1 - (u.jtail + ring - u.jhead) % ring
    let need := if r.range.isSome then 1 else (r.slots b).length
    let read := ddrRead (b.modSump fun x => { x with queue := [], jfull := false }) ret
    let fails (b : Block) (status : Nat) : Block := settle (match r.waiter with
      | .seqMark i _ _ => chainStalled b i r status
      | .header i _ => chainStalled b i r status
      | .auditKeys i => chainStalled b i r status
      | _ => notify (requestSlotsFree b r) r.waiter status)
    let written : Block :=
      let t := commitWrite b1 [r]
      match r.slots t with
      | [] => t
      | p :: rest => t.sealPasses (t.chamberOfGidx p.1) (rest.length + 1)
    ((u.commit.isSome = true ∨ u.queue = []) → Completes (.sumpCommit ret) s (settle b)) ∧
    (u.commit = none → u.queue = [r] →
      (u.st ≠ .ready → Completes (.sumpCommit ret) s (fails (b.modSump fun x => { x with queue := [] }) 0x0061)) ∧
      (u.st = .ready → u.jmode ≠ .off → room < need →
        Completes (.sumpCommit ret) s (settle (b.modSump fun x => { x with jfull := true }))) ∧
      (u.st = .ready → (u.jmode = .off ∨ need ≤ room) → verifyRequests read.2 read.1 [r] = ([], [r], b1) →
        Completes (.sumpCommit ret) s (fails b1 0x0060)) ∧
      (u.st = .ready → (u.jmode = .off ∨ need ≤ room) → verifyRequests read.2 read.1 [r] = ([r], [], b1) → r.slots b1 = [] →
        Completes (.sumpCommit ret) s (fails b1 0)) ∧
      (u.st = .ready → (u.jmode = .off ∨ need ≤ room) → verifyRequests read.2 read.1 [r] = ([r], [], b1) → r.slots b1 ≠ [] →
        ∀ c, written.sump.commit = some c →
          (c.mode ≠ .sync → Completes (.sumpCommit ret) s (settle written)) ∧
          (c.mode = .sync → Completes (.sumpCommit ret) s (settle ((writeJournal written c.entries).modSump fun x =>
            { x with commit := some { c with entries := [], releaseAt := some x.jtail } })))))) ∧
  (∀ (s : State) (c : Commit) (pasid : Option Nat) (v : BitVec 32), s.blk.pmc.powerGood = true →
    let b := s.blk
    let u := b.sump
    let ended (b : Block) : Block := (b.modSump fun x => { x with commit := none }).tally 130
    let headed : Block := b.modStrata fun x => { x with sumpHead := some (c.rootv, c.jmac) }
    let size := 2 ^ u.jlog2
    let head := v.toNat % 2 ^ 20
    let moved := (head + size - u.jhead) % size
    let names : Prop := head < size ∧ moved ≤ (u.jtail + size - u.jhead) % size
    let reached (t : Nat) : Prop := (t + size - u.jhead) % size ≤ moved
    let admitted : Prop := b.jheadOn = true ∧ (pasid = none ∨ ∃ p, pasid = some p ∧ b.bimor.binds.find? (fun x => x.2 == p) = some (0, p))
    let put (f : Sump → Sump) : Block := settle (b.modSump f)
    (u.commit = none → Completes .sumpHeadWrite s (afterCommit (settle b))) ∧
    (u.commit = some c → c.releaseAt.isSome = true → Completes .sumpHeadWrite s (afterCommit (settle b))) ∧
    (u.commit = some c → c.releaseAt = none → c.mode ≠ .async →
      Completes .sumpHeadWrite s (afterCommit (settle (commitDone (ended headed) c.reqs)))) ∧
    (u.commit = some c → c.releaseAt = none → c.mode = .async →
      Completes .sumpHeadWrite s (afterCommit (settle (commitDone (ended (writeJournal headed c.entries)) c.reqs)))) ∧
    (admitted → Completes (.smpJhead pasid .other v) s (put fun x => { x with err := x.err ||| 1 })) ∧
    (admitted → ¬ names → Completes (.smpJhead pasid .word v) s (put fun x => { x with err := x.err ||| 2 })) ∧
    (admitted → names → u.commit = none → Completes (.smpJhead pasid .word v) s (put fun x =>
      { x with jhead := head, jfull := false, commit := none })) ∧
    (∀ t, admitted → names → u.commit = some c → c.releaseAt = some t → (reached t → Completes (.smpJhead pasid .word v) s (put fun x =>
        { x with jhead := head, jfull := false, commit := some { c with releaseAt := none } })) ∧
      (¬ reached t → Completes (.smpJhead pasid .word v) s (put fun x => { x with jhead := head, jfull := false, commit := some c }))) ∧
    (b.jheadOn = true → (∃ p, pasid = some p ∧ (b.bimor.binds.find? (fun x => x.2 == p) = none ∨
        ∃ k, b.bimor.binds.find? (fun x => x.2 == p) = some (k, p) ∧ k ≠ 0)) →
      Completes (.smpJhead pasid .word v) s ((b.emit (.aer 0 "Unsupported Request")).tally 153)) ∧
    (u.commit = some c → b.pmc.warm.isSome = true → Completes .syncReleaseTimeout s
      (afterCommit (drainReleased (b.modSump fun x => { x with commit := some { c with releaseAt := none } })))) ∧
    (b.jheadOn = false → ∀ a, Completes (.smpJhead pasid a v) s b) ∧
    (b.pmc.warm = none → u.commit = none → b.pmc.perstDue = false → Completes .syncReleaseTimeout s b))

/-- What a commit of one slot leaves (R214 to R216, R220, R226): the record sealed, its tag over the sealed record and the new version, ROOTV one
more, the last entry's JMAC kept, and the commit open in the ring's mode. -/
def Obligations.CommitSealsRecords : Prop :=
  ∀ (b : Block) (i : Nat) (line : Bytes) (cls : Option Nat) (w : Waiter), line.length = 64 →
    let r : SumpReq := { writes := [{ gidx := i, lines := [line], newClass := cls }], range := none, waiter := w }
    let v := slotVersion b i
    let writes := (v % 2 ^ 38 + 1) % 2 ^ 38
    let version := match cls with
      | some c => if c < 4 then (v / 2 ^ 40 % 65536 + 1) * 2 ^ 40 + c * 2 ^ 38 + writes
                  else (c - 4) / 4 % 65536 * 2 ^ 40 + c % 4 * 2 ^ 38 + writes
      | none => v / 2 ^ 40 % 65536 * 2 ^ 40 + (if allZero line then 0 else v / 2 ^ 38 % 4) * 2 ^ 38 + writes
    let ct := xtsCrypt false (b.keys.sealKey.take 32) (b.keys.sealKey.drop 32) i line
    let t := commitWrite b [r]
    Tab.get t.sump.ddr.records (zeros 64) i = ct ∧
    Tab.get t.sump.ddr.tags (zeros 8) i = (aesCmac b.keys.tagKey (leBytes 5 i ++ ct ++ leBytes 7 version)).take 8 ∧
    (∀ j, j ≠ i → Tab.get t.sump.ddr.records (zeros 64) j = Tab.get b.sump.ddr.records (zeros 64) j ∧
      Tab.get t.sump.ddr.tags (zeros 8) j = Tab.get b.sump.ddr.tags (zeros 8) j) ∧
    t.sump.rootv = (b.sump.rootv + 1) % 2 ^ 56 ∧ t.strata = b.strata ∧ t.out = b.out ∧
    ∃ c, t.sump.commit = some c ∧ c.reqs = [r] ∧ c.rootv = t.sump.rootv ∧ c.jmac = t.sump.jmac ∧ c.mode = b.sump.jmode ∧
      c.entries.length = 1 ∧ c.releaseAt = none

/-- PATROL_SCRUB and what an integrity failure does (R211, R223): it is counted by its kind up to 255, a block's subtree is marked, Belay hears of it
as class W, and the 64th tag or block failure of a second is class L.
SUMP_START, SAVE_COPY_END and ERASE_RANGE (R225, R229, R231). -/
def Obligations.SumpFailures : Prop :=
  (∀ (s : State) (i l kind : Nat) (dc1 : Bool), s.blk.running = true → s.blk.domainOn 19 = true →
    let b := s.blk
    let next : Block := b.modSump fun x => { x with scrub := x.scrub + 1 }
    let c := b.chamberOfGidx i
    let counted : Block := b.modSump fun x =>
      { x with faultsEcc := if kind = 3 then min 255 (x.faultsEcc + 1) else x.faultsEcc
               faultsTag := if kind ≠ 3 ∧ l = 0 then min 255 (x.faultsTag + 1) else x.faultsTag
               faultsNode := if kind ≠ 3 ∧ l ≠ 0 then min 255 (x.faultsNode + 1) else x.faultsNode
               bad := if l = 0 then x.bad else x.bad ++ [(l, i / 8 ^ l)] }
    let told := (counted.tally 134).report 0x0220 0 .w (i % 2 ^ 32) (i / 2 ^ 32 % 256 + 2 ^ 8 * l + 2 ^ 12 * kind) (if c = 64 then 63 else c)
    let recent := b.sump.failTimes.filter (fun t => b.now < t + 1000000) ++ [b.now]
    Completes (.patrolScrub .clean) s (settle next) ∧
    Completes (.patrolScrub (.corrected dc1)) s (settle (next.tally (if dc1 then 133 else 132))) ∧
    Completes (.patrolScrub (.uncorrectable (.record i))) s (settle (sumpFailure next i 0 3)) ∧
    Completes (.patrolScrub (.uncorrectable (.tag i))) s (settle (sumpFailure next i 0 3)) ∧
    Completes (.patrolScrub (.uncorrectable (.node l i))) s (settle (sumpFailure next (i * 8 ^ l) l 3)) ∧
    (kind = 2 ∨ kind = 3 → sumpFailure b i l kind = told) ∧
    (kind < 2 → recent.length < 64 → sumpFailure b i l kind = told.modSump fun x => { x with failTimes := recent }) ∧
    (kind < 2 → 64 ≤ recent.length → sumpFailure b i l kind =
      (told.modSump fun x => { x with failTimes := [] }).report 0x0112 0 .l recent.length 0 0)) ∧
  (∀ (s : State) (trained : Bool) (ret : DdrReturn) (c : Fin 64) (v : Save) (rootv : Nat) (jmac : Bytes) (from_ i : Nat),
    s.blk.running = true → s.blk.domainOn 19 = true →
    let b := s.blk
    let u := b.sump
    let set_ (st : SumpState) : Block := b.modSump fun x => { x with st := st, ddr := { x.ddr with trained := trained } }
    let limit := 65536 + c.val * b.sumpSpace + b.sumpSpace
    let inRange (x : Nat) : Prop := x ∈ u.ddr.hint ∧ from_ ≤ x ∧ x < limit
    let read := ddrRead ((set_ .empty).modSump fun x => { x with rootv := rootv, jmac := jmac }) ret
    let blk := ddrLine { u.ddr with trained := trained } ret (.node b.depth 0)
    (wfDdr ret = true → b.pmc.booted = true → u.st = .empty →
      (b.bbram.drk = none → Completes (.sumpStart trained ret) s (settle (set_ .erased))) ∧
      (b.bbram.drk.isSome = true → b.strata.sumpHead = none → Completes (.sumpStart trained ret) s (settle (set_ .empty))) ∧
      (b.bbram.drk.isSome = true → b.strata.sumpHead = some (rootv, jmac) →
        (rootv = 0 → u.ddr.init = false → Completes (.sumpStart trained ret) s (settle (read.2.modSump fun x => { x with st := .empty }))) ∧
        ((rootv ≠ 0 ∨ u.ddr.init = true) → trained = true → rootVerifies read.2 read.1 rootv = true →
          Completes (.sumpStart trained ret) s (settle (restoreFromSump
            ((read.2.modSump fun x => { x with st := .ready }).report 0x0221 0 .none (rootv % 2 ^ 32) 0 0)))) ∧
        ((rootv ≠ 0 ∨ u.ddr.init = true) → trained = true → rootVerifies read.2 read.1 rootv = false → allZero blk = false →
          Completes (.sumpStart trained ret) s
            (settle ((read.2.modSump fun x => { x with st := .empty }).report 0x0221 0 .w (rootv % 2 ^ 32) 0 0))) ∧
        ((rootv ≠ 0 ∨ u.ddr.init = true) → (trained = false ∨ (rootVerifies read.2 read.1 rootv = false ∧ allZero blk = true)) →
          Completes (.sumpStart trained ret) s (settle (read.2.modSump fun x => { x with st := .empty }))))) ∧
    (wfDdr ret = true → u.st ≠ .empty → Completes (.sumpStart trained ret) s (settle b)) ∧
    (u.save = some v → v.started = true → ∃ t, Completes .saveCopyEnd s (settle t) ∧ t.sump = { u with save := none } ∧
      (∃ l, t.out = b.out ++ .write 0 v.base (imageHeader b v.rootv v.jmac) :: l) ∧
      (∀ p ∈ v.snapshot.records, .write 0 (v.base + 64 + 8 * b.sumpT + 64 * blocksBelow b.sumpT (b.depth + 1) + 64 * p.1) p.2 ∈ t.out) ∧
      (∀ p ∈ v.snapshot.tags, .write 0 (v.base + 64 + 8 * p.1) p.2 ∈ t.out)) ∧
    (u.save = none → Completes .saveCopyEnd s (settle b)) ∧
    let pending : Prop := ∃ r ∈ u.queue ++ (u.commit.map fun k => k.reqs).getD [], ∃ n, r.waiter = .erase c n
    (u.erasing = [(c.val, from_)] → pending → Completes (.eraseRange c) s b) ∧
    (u.erasing = [(c.val, from_)] → ¬ pending →
      ((∀ x, ¬ inRange x) → Completes (.eraseRange c) s (b.modSump fun x => { x with erasing := [] })) ∧
      (inRange i → (∀ x, inRange x → i ≤ x) → Completes (.eraseRange c) s (b.modSump fun x =>
        { x with queue := x.queue ++
            [{ writes := [], range := some (i, min 4096 (limit - i)), waiter := .erase c (i + min 4096 (limit - i)) }] }))) ∧
    (u.erasing = [] → Completes (.eraseRange c) s b))

/-! ### Lantern -/

/-- One sample of a source (R397): the run of identical samples, the window of 1,024 that starts with its first sample, and the breach, the
repetition count before the adaptive proportion.
LANTERN_SAMPLE and LANTERN_KAT, and what a failure does (R397, R400, R401, R407): the first 128 samples are dropped, later ones are tested on
every source, the first breach or a mismatch fails the device's generator and zeroises it, and Belay hears of it as class W. -/
def Obligations.LanternHealth : Prop :=
  (∀ (x : Source) (n : Nat) (bit : Bool), n < 5 → x.seen ≤ 1024 →
    let r := Source.sample x n bit
    let run := if x.run ≠ 0 ∧ x.lastBit = bit then x.run + 1 else 1
    let same := if x.seen = 0 ∨ x.seen = 1024 then 1 else if x.first = bit then x.same + 1 else x.same
    r.1.lastBit = bit ∧ r.1.run = run ∧ r.1.same = same ∧ r.1.packed = x.packed ∧
    r.1.first = (if x.seen = 0 ∨ x.seen = 1024 then bit else x.first) ∧ 1 ≤ r.1.seen ∧ r.1.seen ≤ 1024 ∧
    (x.seen ≠ 0 → x.seen ≠ 1024 → r.1.seen = x.seen + 1) ∧
    (r.2 = 1 ↔ (if n = 4 then 26 else 41) ≤ run) ∧
    (r.2 = 2 ↔ run < (if n = 4 then 26 else 41) ∧ (if n = 4 then 667 else 797) ≤ same) ∧ r.2 ≤ 2) ∧
  (∀ (s : State) (raw : BitVec 5) (expander : Bool), s.blk.running = true → s.blk.domainOn 18 = true →
    let b := s.blk
    let l := b.lantern
    let src (n : Nat) : Source := Tab.get l.sources Source.reset n
    let one (n : Nat) : Source × Nat := Source.sample (src n) n (raw.getLsbD n)
    let runs : Prop := l.st = .starting ∨ l.st = .running
    let due : Prop := l.st = .starting ∨ (l.st = .running ∧ l.reseeds ≠ 0 ∧ l.reseeds % 65536 = 0)
    let failedBy (t : Block) (source test kat : Nat) : Prop :=
      t.lantern.st = .failed ∧ t.lantern.causeSource = source ∧ t.lantern.causeTest = test ∧ t.lantern.causeKat = kat ∧
      t.lantern.block = none ∧ t.lantern.key = [] ∧ t.lantern.v = [] ∧ t.lantern.central = [] ∧ t.lantern.instantiated = false ∧
      (∀ p ∈ t.lantern.ports, p.2.buf = []) ∧
      t.belay.intake = b.belay.intake ++ [{ code := 0x0120, src := 0, cls := .w, p0 := source + 8 * test + 32 * kat, p1 := 0, p2 := 0
                                            rom := false, overrun := false, quiesce := 64, detected := b.now }] ∧
      t.tallyOf 144 = min (2 ^ 48 - 1) (b.tallyOf 144 + 1)
    ((l.st = .off ∨ l.st = .failed) → Completes (.lanternSample raw) s b) ∧
    (runs → l.samples < 128 →
      Completes (.lanternSample raw) s (b.modLantern fun l => { l with samples := l.samples + 1 })) ∧
    (runs → 128 ≤ l.samples → (∀ n < 5, (one n).2 = 0) → ∃ t, Completes (.lanternSample raw) s t ∧
      t.lantern.samples = l.samples + 1 ∧ t.lantern.st = l.st ∧ t.belay = b.belay ∧
      ∀ n < 5, Tab.get t.lantern.sources Source.reset n = { (one n).1 with
        packed := if (src n).packed.length < 256 then (src n).packed ++ [raw.getLsbD n] else (src n).packed }) ∧
    (∀ n < 5, runs → 128 ≤ l.samples → (∀ m < n, (one m).2 = 0) → (one n).2 ≠ 0 →
      ∃ t, Completes (.lanternSample raw) s t ∧ failedBy t n (one n).2 0) ∧
    (due → Completes (.lanternKat none) s (b.modLantern fun l => { l with katOk := true })) ∧
    (due → ∃ t, Completes (.lanternKat (some expander)) s t ∧ failedBy t 0 3 (if expander then 1 else 0)) ∧
    (¬ due → ∀ bad, Completes (.lanternKat bad) s b))

/-- CONDITIONER_BLOCK, EXPANDER_GENERATE, EXPANDER_RESEED, LANTERN_STARTUP and LANTERN_RUNNING (R398, R399, R401), the last of which seeds
Belay's patterns (R428) with bytes that the manual leaves open (log entry 124).
PORT_REFILL, LAN_DATA and VFL_DATA (R404 to R406): in its turn a port with room is refilled by what its 16 bytes lack, a VF's or the PF's once in a
microsecond (the order of the turns is the model's choice, log entry 124); a read takes four bytes, or with fewer there returns
zero, takes nothing and sets ERR; a read of another size sets SIZE.
What a draw delivers (R405): whole, from the central buffer or what a call of the generator adds to it, counted in Tally 143; and nothing where
Lantern is not delivering. -/
def Obligations.LanternGeneration : Prop :=
  (∀ (s : State) (x key v out : Bytes), s.blk.running = true → s.blk.domainOn 18 = true →
    let b := s.blk
    let l := b.lantern
    let packed (n : Nat) : List Bool := (Tab.get l.sources Source.reset n).packed
    let block := shake256 (9 :: [0, 1, 2, 3, 4].flatMap fun n => packSamples (packed n)) 64
    let personal := b.device ++ leBytes 4 b.strata.pcc ++ zeros 36
    let seeded := b.fresh 48
    let full : Prop := ∀ n < 5, 256 ≤ (packed n).length
    ((l.st = .starting ∨ l.st = .running) → full → Completes .conditionerBlock s (b.modLantern fun l =>
      { l with block := some block, sources := Tab.mapVals l.sources fun _ x => { x with packed := [] } })) ∧
    (¬ full → Completes .conditionerBlock s b) ∧
    (l.st = .running → l.calls ≠ 4096 → l.instantiated = true → l.central.length < 1024 → drbgGenerate l.key l.v 1024 = (out, key, v) →
      Completes .expanderGenerate s (b.modLantern fun l =>
        { l with key := key, v := v, calls := l.calls + 1, central := l.central ++ out })) ∧
    ((l.calls = 4096 ∨ 1024 ≤ l.central.length) → Completes .expanderGenerate s b) ∧
    (l.instantiated = true → l.calls = 4096 → l.block = some x → drbgUpdate l.key l.v (x.take 48) = (key, v) →
      Completes .expanderReseed s (b.modLantern fun l => { l with key := key, v := v, calls := 0, reseeds := l.reseeds + 1 })) ∧
    (l.calls ≠ 4096 → Completes .expanderReseed s b) ∧
    (l.st = .off → Completes .lanternStartup s { b with lantern :=
      { Lantern.reset with sizeErr := l.sizeErr, ports := Tab.mapVals l.ports fun _ p => { p with buf := [] } } }) ∧
    (l.st ≠ .off → Completes .lanternStartup s b) ∧
    (l.st = .starting → l.katOk = true → 4224 ≤ l.samples → l.block = some x → l.central = [] →
      drbgUpdate (zeros 32) (zeros 16) (xorBytes (x.take 48) personal) = (key, v) →
      ∀ key2 v2, drbgGenerate key v 1024 = (out, key2, v2) → Completes .lanternRunning s ((seeded.2.modBelay fun y => { y with patterns := some seeded.1 }).modLantern fun l =>
        { l with st := .running, instantiated := true, key := key2, v := v2, calls := 1, reseeds := 0, central := out })) ∧
    ((l.katOk = false ∨ l.samples < 4224 ∨ l.block = none) → Completes .lanternRunning s b)) ∧
  (∀ (s : State) (p : Fin 129) (c : Fin 64) (x : Bytes) (b1 : Block),
    let b := s.blk
    let port (n : Nat) : LanPort := Tab.get b.lantern.ports LanPort.reset n
    let put (n : Nat) (f : LanPort → LanPort) : Block :=
      b.modLantern fun l => { l with ports := Tab.modify l.ports LanPort.reset n f }
    let reads (i : Instr) (n : Nat) : Prop :=
      (4 ≤ (port n).buf.length →
        Completes i s ((put n fun q => { q with buf := q.buf.drop 4 }).answer (ofLe ((port n).buf.take 4)))) ∧
      ((port n).buf.length < 4 → Completes i s ((put n fun q => { q with err := true }).answer 0))
    let room (n : Nat) : Prop := (port n).buf.length < 16 ∧ (n < 64 ∨ ((port n).filled ≠ some b.now ∧ (n = 128 ∨ n - 64 < b.n)))
    let start := (b.lantern.lastPort + 1) % 129
    let turn : Prop := room p ∧ ∀ k, k < (p.val + 129 - start) % 129 → ¬ room ((start + k) % 129)
    (b.running = true → b.domainOn 18 = true → b.lantern.st = .running → turn → b.draw (16 - (port p).buf.length) = some (x, b1) →
      Completes (.portRefill p) s ((b1.modLantern fun l =>
        { l with ports := Tab.modify l.ports LanPort.reset p fun q => { q with buf := q.buf ++ x, filled := some b1.now } }).modLantern fun l =>
          { l with lastPort := p })) ∧
    (b.lantern.st ≠ .running ∨ ¬ turn → Completes (.portRefill p) s b) ∧
    (b.hostOn = true → reads (.lanData none .word) 128) ∧
    (b.vfOn c = true → reads (.vflData c .word) (64 + c)) ∧
    (b.hostOn = true → Completes (.lanData none .other) s (b.modLantern fun l => { l with sizeErr := l.sizeErr ||| 1 })) ∧
    (b.vfOn c = true → Completes (.vflData c .other) s (b.modCh c fun h => { h with qerr := h.qerr ||| 4 })) ∧
    (b.hostOn = true → ∀ q a, Completes (.lanData (some q) a) s (((b.emit (.aer 0 "Unsupported Request")).tally 153).emit .unsupportedRead))) ∧
  (∀ (b : Block) (n : Nat),
    (n ≠ 0 → b.lantern.st ≠ .running → b.draw n = none) ∧
    (∀ x b1, b.draw n = some (x, b1) → n ≤ 65536 → x.length = n) ∧
    (1 ≤ n → n ≤ 1024 → b.lantern.st = .running → n ≤ b.lantern.central.length →
      b.draw n = some (b.lantern.central.take n,
        ({ b with lantern := { b.lantern with central := b.lantern.central.drop n } } : Block).tallyBy 143 n)))

/-! ### Bimor -/

/-- The checks of a request in their order (R343, R345, R348, R352, R504): version, header, leaf entry, mailbox, lifecycle, claim, authorisation; the
first that fails gives the status; and a member without the claim asks the active for the leaf of a command that makes one (R484). -/
def Obligations.CommandChecks : Prop :=
  ∀ (b : Block) (m : Mbx) (code : Nat) (r : CmdRow) (call : Block → Bytes → Res), mayStart b (mbxNo m) code = true → cmdRow code = some r →
    let i := mbxNo m
    let x := b.mbx i
    let v := reqVersion x
    let called := startCommand b m code call
    let refused (b : Block) (status : Nat) : Block := finishCommand b m status 0 [] 0xFE
    let since : Prop := r.since.1 < v.1 ∨ (r.since.1 = v.1 ∧ r.since.2 ≤ v.2)
    let versionOk : Prop := code = 1 ∨ (x.vmaj ≠ 0 ∧ v.1 = x.vmaj ∧ v.2 ≤ x.vmin ∧ since)
    let headerOk : Prop := reqSlice x = i ∧ reqLength x ≤ 4080 ∧ byteAt x.command 11 = 0 ∧ (r.cls = .q ∨ r.cls = .o → reqAuthref x = 0)
    let right : Prop := versionOk ∧ headerOk ∧ (b.pmc.restoring = false ∨ code = 1)
    let leafless : Prop := makesLeaf b r = false
    let b1 := (takeEntry b .system).modMbx i fun x => { x with leaf := .entry }
    let admits (b : Block) : Prop :=
      (∃ y ∈ r.boxes, mbxNo y = i) ∧ lifeAdmits b.life r = true ∧ (claimless b = true → r.cls = .q ∨ r.p = true)
    (¬ versionOk → called = refused b 0x0105) ∧
    (versionOk → ¬ headerOk → called = refused b 0x0020) ∧
    (versionOk → headerOk → b.pmc.restoring = true → code ≠ 1 → called = refused b 0x0104) ∧
    (right → makesLeaf b r = true → claimless b = false →
      (entryCheck b .system = .wait → called = refused b 0x0104) ∧
      (∀ status, entryCheck b .system = .refused status → status ≠ 0x0101 → called = refused b status) ∧
      (entryCheck b .system = .granted → (∀ y ∈ r.boxes, mbxNo y ≠ i) → called = refused b1 0x0100) ∧
      (entryCheck b .system = .granted → (∃ y ∈ r.boxes, mbxNo y = i) → lifeAdmits b.life r = false → called = refused b1 0x0103) ∧
      (entryCheck b .system = .granted → admits b → called = execCommand b1 m r call)) ∧
    (right → makesLeaf b r = true → claimless b = true →
      ((∀ y ∈ r.boxes, mbxNo y ≠ i) → called = refused b 0x0100) ∧
      ((∃ y ∈ r.boxes, mbxNo y = i) → lifeAdmits b.life r = false → called = refused b 0x0103) ∧
      ((∃ y ∈ r.boxes, mbxNo y = i) → lifeAdmits b.life r = true → r.cls ≠ .q → r.p = false → called = refused b 0x0080) ∧
      (admits b → grantsSelf b x = true → called = execCommand b m r call) ∧
      (admits b → grantsSelf b x = false → (authorise b x r).1 = none →
        called = standbyLeaf b m (call (authorise b x r).2 (reqPayload x)))) ∧
    (right → leafless → (∀ y ∈ r.boxes, mbxNo y ≠ i) → called = refused b 0x0100) ∧
    (right → leafless → (∃ y ∈ r.boxes, mbxNo y = i) → lifeAdmits b.life r = false → called = refused b 0x0103) ∧
    (right → leafless → (∃ y ∈ r.boxes, mbxNo y = i) → lifeAdmits b.life r = true → claimless b = true → r.cls ≠ .q → r.p = false →
      called = refused b 0x0080) ∧
    (right → leafless → admits b → called = execCommand b m r call)

/-- Authorisation (R351, R352, R372): class Q and O need none; where custodians are enrolled a class C command names an open AUTHREF of its own
code, mailbox, scope and request with at least K tokens, and the AUTHREF is consumed; where none are, an AUTHREF fails; a failure is recorded as class W. -/
def Obligations.Authorisation : Prop :=
  ∀ (b : Block) (m : Mbx) (r : CmdRow) (a : AuthRef) (call : Block → Bytes → Res),
    let x := b.mbx (mbxNo m)
    let ref := reqAuthref x
    let p := reqPayload x
    let scope := if r.cls = .cs then 0xFF else (byteAt p 0).toNat
    let k := max 1 (if scope = 0xFF then b.bimor.custodians.k else (b.chamber scope).custodians.k)
    let guarded : Prop := (r.cls = .cs ∨ r.cls = .cc ∨ r.cls = .cx) ∧ (2 ≤ b.life ∧ b.life ≤ 4)
    let consumed : Block := b.modBimor fun y => { y with auths := y.auths.filter fun a => a.ref != ref }
    let isOpen : Prop := b.bimor.auths.find? (fun a => a.ref == ref && decide (b.now < a.issued + 300000000)) = some a
    let suits : Prop := a.command = r.code ∧ a.slice = reqSlice x ∧ a.scope = scope ∧ k ≤ a.counted.length ∧
      a.rdigest = shake256 ([5] ++ leBytes 2 r.code ++ [BitVec.ofNat 8 (reqSlice x)] ++ p) 64
    let failedWith (b : Block) (scope : Nat) : Block := finishCommand b m 0x0101 0 [] scope
    (r.cls = .q ∨ r.cls = .o → execCommand b m r call = settleRes m (namedScope b x) (call b p)) ∧
    ((r.cls = .cs ∨ r.cls = .cc ∨ r.cls = .cx) → (b.life = 0 ∨ b.life = 1 ∨ b.life = 5) →
      (ref = 0 → execCommand b m r call = settleRes m (namedScope b x) (call b p)) ∧
      (ref ≠ 0 → execCommand b m r call = finishCommand b m 0x0101 0 [] (namedScope b x))) ∧
    (guarded → ref = 0 → execCommand b m r call = finishCommand b m 0x0100 0 [] 0xFE) ∧
    (guarded → ref ≠ 0 → (∀ c ∈ b.bimor.auths, c.ref = ref → c.issued + 300000000 ≤ b.now) → mbxCode x ≠ 3 →
      execCommand b m r call = failedWith consumed 0xFE) ∧
    (guarded → ref ≠ 0 → isOpen → ¬ suits → mbxCode x ≠ 3 → execCommand b m r call = failedWith consumed a.scope) ∧
    (guarded → ref ≠ 0 → isOpen → suits → execCommand b m r call = settleRes m (namedScope b x) (call consumed p)) ∧
    (∀ (c : Block) (y : Mailbox) (sc : Nat), mbxCode y ≠ 3 → authFailed c (mbxNo m) y sc =
      (c.tally 148).report 0x0230 (mbxNo m) .w (reqAuthref y) (mbxCode y + 2 ^ 16 * sc) 0)

/-- HELLO, AUTH_CHALLENGE, AUTH_SUBMIT, AUTH_CANCEL, AUTHREF_EXPIRY, CEREMONY_OPEN, CEREMONY_CLOSE and SESSION_EXPIRY (R343, R349 to R353, R355,
R359).
A command's end and BIMOR_RESPONSE (R338, R340, R342, R346, R516): a command with an entry queues its leaf, one without is ready to respond, and what a
completed one asked of the engines is charged (log entry 113); a
response is written with DONE and signalled, a discarded one sets nothing, and DEVICE_RESET's starts its 10 us. -/
def Obligations.SessionCommands : Prop :=
  (∀ (s : State) (m : Mbx) (p : Bytes) (b b1 : Block) (nonce scalar : Bytes) (a : AuthRef) (r : CmdRow) (ses : Session) (ref : Nat),
    let i := mbxNo m
    let scope := pb p 2
    let kept : Block := b.modBimor fun y => { y with auths := y.auths.filter fun a => !decide (a.issued + 300000000 ≤ b.now) }
    let granted : Nat × Nat := if pb p 0 = 1 then (1, min (pb p 1) 2) else if pb p 0 = 2 then (2, min (pb p 1) 3)
      else if pb p 0 = 3 then (3, min (pb p 1) 1) else (3, 1)
    let suits : Prop := (r.cls = .cs ∧ scope = 0xFF) ∨ (r.cls = .cc ∧ scope < b.n) ∨ (r.cls = .cx ∧ (scope = 0xFF ∨ scope < b.n))
    let set (scope : Nat) : Custodians := if scope = 0xFF then b.bimor.custodians else (b.chamber scope).custodians
    let exists_ : Prop := scope = 0xFF ∨ (b.chamber scope).st ≠ .none
    let asked : Prop := cmdRow (leField p 0 2) = some r ∧ shaped p 68 [(3, 1)] = true ∧ suits
    let isOpen (ref : Nat) : Prop := b.bimor.auths.find? (fun a => a.ref == ref && decide (b.now < a.issued + 300000000)) = some a
    let sessionOpen : Prop := b.bimor.sessions.find? (fun x => x.id == leField p 0 4 && decide (b.now < x.opened + 3600000000)) = some ses
    let entries := tokenEntries p 8 (pb p 4)
    let formed : Prop := 1 ≤ pb p 4 ∧ pb p 4 ≤ 16 ∧ shaped p (8 + 116 * pb p 4) [(5, 3)] = true ∧ ∀ e ∈ entries, e.2.1 = 0
    let good (e : Nat × Nat × Bytes) : Prop := e.1 < (set a.scope).keys.length ∧
      edCheck true false (ascii "VWAUTH") ((set a.scope).keys.getD e.1 []) (authToken b a) e.2.2 = true
    let counted := dedup (a.counted ++ entries.map (·.1))
    (Called s m 0x0001 p b → shaped p 4 [(2, 2)] = true →
      (pb p 0 = 0 → Completes (.hello m) s (answered b m 0x0105 [])) ∧
      (pb p 0 ≠ 0 → Completes (.hello m) s (answered (b.modMbx i fun x => { x with vmaj := granted.1, vmin := granted.2 }) m 0
        ([BitVec.ofNat 8 granted.1, BitVec.ofNat 8 granted.2, BitVec.ofNat 8 b.life, BitVec.ofNat 8 b.nlog2] ++ leBytes 2 b.claim ++
          [1, 0] ++ fit 8 b.device ++ leBytes 4 b.fwver ++ zeros 4)))) ∧
    (Called s m 0x0002 p b → asked →
      (¬ exists_ → Completes (.authChallenge m) s (answered kept m 0x0106 [])) ∧
      (exists_ → 16 ≤ kept.bimor.auths.length → Completes (.authChallenge m) s (answered kept m 0x0104 [])) ∧
      (exists_ → kept.bimor.auths.length < 16 → kept.draw 32 = none → Completes (.authChallenge m) s (answered kept m 0x0040 [])) ∧
      (exists_ → kept.bimor.auths.length < 16 → kept.draw 32 = some (nonce, b1) →
        let new : AuthRef := { ref := b1.bimor.nextRef, nonce := nonce, command := leField p 0 2, slice := i, scope := scope
                               rdigest := slice p 4 64, issued := b1.now, counted := [] }
        Completes (.authChallenge m) s (answered (b1.modBimor fun y =>
          { y with auths := y.auths ++ [new], nextRef := b1.bimor.nextRef + 1 }) m 0
          (leBytes 4 b1.bimor.nextRef ++ nonce ++ leBytes 4 ((b1.now + 300000000) / 1000000 % 2 ^ 32) ++
            [BitVec.ofNat 8 (scopeCustodians b1 scope).k, BitVec.ofNat 8 (scopeCustodians b1 scope).keys.length, 0, 0])))) ∧
    (Called s m 0x0003 p b → formed → isOpen (leField p 0 4) → (∀ e ∈ entries, good e) →
      Completes (.authSubmit m) s (answered (b.modBimor fun y =>
        { y with auths := y.auths.map fun x => if x.ref = a.ref then { x with counted := counted } else x }) m 0
        (leBytes 2 (counted.map fun k => 2 ^ k).sum ++ [BitVec.ofNat 8 (set a.scope).k, 0]))) ∧
    (Called s m 0x0003 p b → formed → isOpen (leField p 0 4) → (∃ e ∈ entries, ¬ good e) →
      Completes (.authSubmit m) s (settle (finishCommand b m 0x0101 0 [] (namedScope b (b.mbx i))))) ∧
    (Called s m 0x0004 p b → p.length = 4 → isOpen (leField p 0 4) → Completes (.authCancel m) s (answered
      (b.modBimor fun y => { y with auths := y.auths.filter fun x => !(x.ref == a.ref) }) m 0 [])) ∧
    (s.blk.running = true → Completes (.authrefExpiry ref) s (s.blk.modBimor fun y => { y with auths := y.auths.filter fun a =>
      !(a.ref == ref && decide (a.issued + 300000000 ≤ s.blk.now)) })) ∧
    (Called s m 0x0200 p b → p = [] → b.draw 56 = none → Completes (.ceremonyOpen m) s (answered b m 0x0040 [])) ∧
    (Called s m 0x0200 p b → p = [] → b.draw 56 = some (scalar, b1) → Completes (.ceremonyOpen m) s (answered (b1.modBimor fun y =>
      { y with sessions := [{ id := b1.bimor.nextSession, scope := 0, scalar := scalar, opened := b1.now, attributes := [], parts := [] }]
               nextSession := b1.bimor.nextSession + 1 }) m 0
      (leBytes 4 b1.bimor.nextSession ++ fit 56 (montPublic true scalar) ++ zeros 4))) ∧
    (Called s m 0x0203 p b → p.length = 4 → sessionOpen → Completes (.ceremonyClose m) s (answered
      (b.modBimor fun y => { y with sessions := y.sessions.filter fun x => x.id != ses.id }) m 0 [])) ∧
    (s.blk.running = true → Completes (.sessionExpiry ref) s (s.blk.modBimor fun y => { y with sessions := y.sessions.filter fun x =>
      !(x.id == ref && decide (x.opened + 3600000000 ≤ s.blk.now)) }))) ∧
  (∀ (s : State) (m : Mbx) (b : Block) (status detail : Nat) (payload : Bytes),
    let i := mbxNo m
    let put (b : Block) (f : Mailbox → Mailbox) : Block := b.modMbx i f
    let over_ (x : Mailbox) : Mailbox :=
      { x with status := status, detail := detail, payload := payload, hold := [], await := .nothing, failed := none, phase := .respond }
    let x := s.blk.mbx i
    let answer := [BitVec.ofNat 8 x.vmaj, BitVec.ofNat 8 x.vmin] ++ slice x.command 2 6 ++ leBytes 2 x.payload.length ++
      slice x.command 10 1 ++ [0] ++ leBytes 2 x.status ++ leBytes 2 (if x.vmaj < 3 then 0 else x.detail) ++ x.payload
    let done (y : Mailbox) : Mailbox :=
      { y with rsp := y.rsp.writeBytes 0 answer, busy := false, done := true, phase := .idle, leaf := .none }
    let ended (leaf : Bool) : Block :=
      if status = 0 then chargeCommand (put b over_) (mbxCode (b.mbx i)) (reqPayload (b.mbx i)) leaf else put b over_
    (status ≠ 0x0101 → (b.mbx i).leaf ≠ .entry → finishCommand b m status detail payload 0xFE = ended false) ∧
    (status ≠ 0x0101 → (b.mbx i).leaf = .entry → finishCommand b m status detail payload 0xFE =
      put (queueLeaf (ended true) .system { src := .mailbox m, body := commandLeaf i ((put b over_).mbx i) }) fun y =>
        { y with leaf := .waiting, phase := .leaf }) ∧
    (s.blk.running = true → x.phase = .respond → x.discard = true → Completes (.bimorResponse m) s (settle (put s.blk fun y =>
      { y with phase := .idle, busy := false, discard := false, leaf := .none }))) ∧
    (s.blk.running = true → x.phase = .respond → x.discard = false → (mbxCode x ≠ 0x0805 ∨ x.status ≠ 0) →
      (x.irqEn = false → Completes (.bimorResponse m) s (settle (put s.blk done))) ∧
      (x.irqEn = true → Completes (.bimorResponse m) s (settle ((put s.blk done).msix 0 x.vector)))) ∧
    (s.blk.running = true → x.phase = .respond → x.discard = false → mbxCode x = 0x0805 → x.status = 0 → x.irqEn = false →
      Completes (.bimorResponse m) s (settle ((put s.blk done).modPmc fun p => { p with resetScheduled := true }))) ∧
    (s.blk.running = true → (x.phase = .idle ∨ x.phase = .waiting ∨ x.phase = .leaf) →
      Completes (.bimorResponse m) s (settle s.blk)))

/-- The chamber commands (R91, R92, R231, R325, R326, R333, R334, R356, R357): creation draws its audit keys and asks for the commit; deletion needs a
drained ring; a quiesce and a reset wait for their ends; settings, PIN policy and tables are committed; and what CHAMBER_INFO returns.
What the commit of a chamber's creation, settings, PIN policy, table and deletion puts in force (R48, R91, R92, R245, R323, R325, R326, R353). -/
def Obligations.ChamberCommands : Prop :=
  (∀ (s : State) (m : Mbx) (p : Bytes) (b b1 : Block) (ed q : Bytes) (g g2 e : Nat) (writes : List NewRecord),
    let c := pb p 0
    let h := b.chamber c
    let x := b.chain (.chamber c)
    let pq := (pb p 1).testBit 0
    let made : Prop := c < b.n ∧ h.st ≠ .none
    let no_ := (Tab.get b1.strata.creation 0 c + 1) % 2 ^ 32
    let newOk : Prop := c < b.n ∧ pb p 1 < 2 ∧ (pq = true → 3 ≤ (reqVersion (b.mbx (mbxNo m))).1) ∧ kOfN (pb p 2) (pb p 3) = true ∧
      shaped p (8 + 57 * pb p 3) [(4, 4)] = true
    let drained : Prop := h.resetting = false ∧ x.headers = [] ∧ x.waiting = [] ∧ x.heldLeaves = [] ∧ x.heldHeaders = []
    let weights : Prop := ∀ k < 8, pb p (2 + k) ≠ 0
    let lo := leField p 4 4 / 16 % 16
    let hi := leField p 4 4 / 256 % 16
    (Called s m 0x0100 p b → newOk →
      (h.st ≠ .none → Completes (.chamberCreate m) s (answered b m 0x0106 [])) ∧
      (h.st = .none → (nPending b = true ∨ ∃ e ∈ b.sump.erasing, e.1 = c) → Completes (.chamberCreate m) s (answered b m 0x0104 [])) ∧
      (h.st = .none → nPending b = false → (∀ e ∈ b.sump.erasing, e.1 ≠ c) →
        (b.sump.st ≠ .ready → Completes (.chamberCreate m) s (answered b m 0x0061 [])) ∧
        (b.sump.st = .ready → newAuditKeys { b with ch := Tab.erase b.ch c } c pq = .error e → e ≠ 0x0101 →
          Completes (.chamberCreate m) s (answered b m e [])) ∧
        (b.sump.st = .ready → newAuditKeys { b with ch := Tab.erase b.ch c } c pq = .ok ((ed, q, g, g2, writes), b1) →
          Completes (.chamberCreate m) s (staged (persist (reserveSlots (b1.modStrata fun s =>
            { s with creation := Tab.set s.creation c no_ }) c writes) m writes) m [leBytes 4 no_, ed, q, leBytes 8 g, leBytes 8 g2])))) ∧
    (Called s m 0x0101 p b → shaped p 4 [(1, 3)] = true → made →
      (¬ drained → Completes (.chamberDelete m) s (answered b m 0x0104 [])) ∧
      (drained → b.sump.st ≠ .ready → Completes (.chamberDelete m) s (answered b m 0x0061 [])) ∧
      (drained → b.sump.st = .ready →
        Completes (.chamberDelete m) s (staged (awaits (quiesceChamber b c 3 none) m (.drained c)) m []))) ∧
    (Called s m 0x0102 p b → shaped p 4 [(1, 3)] = true →
      (b.n ≤ c → Completes (.chamberQuiesce m) s (answered b m 0x0020 [])) ∧
      (c < b.n → h.st = .none → Completes (.chamberQuiesce m) s (answered b m 0x0106 [])) ∧
      (made → h.resetting = true → Completes (.chamberQuiesce m) s (staged (awaits b m (.chamber c)) m [])) ∧
      (made → h.resetting = false → h.st = .quiesced → Completes (.chamberQuiesce m) s (answered (quiesceChamber b c 3 none) m 0 [])) ∧
      (made → h.resetting = false → h.st = .active →
        Completes (.chamberQuiesce m) s (staged (awaits (quiesceChamber b c 3 none) m (.quiesced c)) m [[1]]))) ∧
    (Called s m 0x0103 p b → shaped p 4 [(1, 3)] = true → made →
      Completes (.chamberReset m) s (staged (awaits (beginReset b c) m (.chamber c)) m [])) ∧
    (Called s m 0x0104 p b → shaped p 16 [(12, 4)] = true → pb p 1 < 8 → ((pb p 1).testBit 0 = true → weights) →
      ((pb p 1).testBit 1 = true → 1 ≤ pb p 10 ∧ pb p 10 ≤ 100) → ((pb p 1).testBit 2 = true → pb p 11 < 2) → made → b.sump.st = .ready →
      Completes (.chamberConfig m) s (staged (persist b m []) m [])) ∧
    (Called s m 0x0105 p b → shaped p 8 [(1, 3)] = true →
      (4 ≤ lo → lo ≤ hi → hi ≤ 12 → leField p 4 4 < 4096 → made → b.sump.st = .ready →
        Completes (.chamberPinpol m) s (staged (persist b m []) m [])) ∧
      ((lo < 4 ∨ hi < lo ∨ 12 < hi ∨ 4096 ≤ leField p 4 4) → Completes (.chamberPinpol m) s (answered b m 0x0020 []))) ∧
    (Called s m 0x0106 p b → shaped p 16 [(2, 6)] = true → pb p 1 < 8 → allDigits (nibbles (slice p 8 8)) = true →
      (∀ d < 10, d ∈ nibbles (slice p 8 8)) → made → b.sump.st = .ready → Completes (.dectabLoad m) s (staged (persist b m []) m [])) ∧
    (Called s m 0x0107 p b → shaped p 4 [(1, 3)] = true → c < b.n →
      (h.st = .none → Completes (.chamberInfo m) s (answered b m 0 (zeros 4 ++ leBytes 4 (Tab.get b.strata.creation 0 c) ++ zeros 16))) ∧
      (h.st ≠ .none → Completes (.chamberInfo m) s (answered b m 0
        ([(if h.st = .active then 1 else 2), (if x.pq then 1 else 0), BitVec.ofNat 8 h.custodians.k, BitVec.ofNat 8 h.custodians.keys.length] ++
          leBytes 4 (Tab.get b.strata.creation 0 c) ++ leBytes 4 h.pinpol.toNat ++
          ([0, 1, 2, 3, 4, 5, 6, 7].map fun k => BitVec.ofNat 8 (Tab.get h.groups Group.reset k).weight) ++
          [BitVec.ofNat 8 x.interval, BitVec.ofNat 8 ((if h.borrow then 1 else 0) + 2 * (if h.uread then 1 else 0)),
            BitVec.ofNat 8 ([0, 1, 2, 3, 4, 5, 6, 7].map fun t => if (Tab.get? h.decTabs t).isSome then 2 ^ t else 0).sum, 0]))))) ∧
  (∀ (b : Block) (m : Mbx) (p : Bytes) (hold : List Bytes),
    let c := pb p 0
    let sel := pb p 1
    let t := resumed b m
    let ends (t : Block) : Prop := settleMailbox b m = finishCommand t m 0 0 [] 0xFE
    (GoesOn b m 0x0100 1 p hold → ∃ t out, settleMailbox b m = finishCommand t m 0 0 out 0xFE ∧ out.length = 20 ∧
      (t.chamber c).st = .active ∧ (t.chamber c).custodians = { k := pb p 2, keys := custodianKeys p 8 (pb p 3) } ∧
      (t.chamber c).credit = 4096 * b.n ∧ (t.chamber c).spCredit = 256 * b.n ∧ (t.chamber c).sqs = [] ∧ (t.chamber c).qreason = 0 ∧
      (t.chain (.chamber c)).present = true ∧ (t.chain (.chamber c)).chainNo = 0 ∧ (t.chain (.chamber c)).nextSeq = 0 ∧
      (t.chain (.chamber c)).headers.length = 1) ∧
    (GoesOn b m 0x0104 1 p hold → sel = 2 → ends (t.modChain (.chamber c) fun x => { x with interval := pb p 10 })) ∧
    (GoesOn b m 0x0104 1 p hold → sel = 4 → ends (t.modCh c fun h => { h with uread := (pb p 11).testBit 0 })) ∧
    (GoesOn b m 0x0104 1 p hold → sel = 1 → ends (t.modCh c fun h =>
      { h with groups := [0, 1, 2, 3, 4, 5, 6, 7].map fun g => (g, { Tab.get h.groups Group.reset g with weight := pb p (2 + g) }) })) ∧
    (GoesOn b m 0x0105 1 p hold → ends (t.modCh c fun h => { h with pinpol := BitVec.ofNat 32 (leField p 4 4) })) ∧
    (GoesOn b m 0x0106 1 p hold → ends (t.modCh c fun h => { h with decTabs := Tab.set h.decTabs (pb p 1) (slice p 8 8) })) ∧
    (GoesOn b m 0x0101 2 p hold → ∃ t, settleMailbox b m = finishCommand t m 0 0 [] 0xFE ∧ (t.chamber c).st = .none ∧
      (t.chain (.chamber c)).present = false ∧ Tab.get? t.keys.handleKeys c = none ∧ (∀ a ∈ t.bimor.auths, a.scope ≠ c) ∧
      (c, 65536 + c * b.sumpSpace) ∈ t.sump.erasing) ∧
    (GoesOn b m 0x0102 2 p [[1]] → ends t) ∧ (GoesOn b m 0x0103 1 p hold → ends t))

/-- The queue commands and SLICE_BIND (R53, R55, R82, R327, R357): ranges, states and versions; the commit asked for; and what it puts in force. -/
def Obligations.QueueCommands : Prop :=
  ∀ (s : State) (m : Mbx) (p : Bytes) (b : Block) (hold : List Bytes),
    let c := pb p 0
    let n := pb p 1
    let cq := pb p 12
    let t := resumed b m
    let placed : Prop := c < b.n ∧ n < 8 ∧ 4 ≤ pb p 2 ∧ pb p 2 ≤ 16 ∧ leField p 4 8 % 4096 = 0
    let usable : Prop := (b.chamber c).st = .active ∧ (b.chamber c).resetting = false
    let cqOk : Prop := shaped p 16 [(15, 1)] = true ∧ placed ∧ cq < 16 ∧ pb p 13 ≠ 0 ∧ (1 < pb p 13 → pb p 14 ≠ 0)
    let sqOk : Prop := shaped p 16 [(13, 3)] = true ∧ placed ∧ cq < 8
    let fmt := min (pb p 3) 1
    let ends (t : Block) (out : Bytes) : Prop := settleMailbox b m = finishCommand t m 0 0 out 0xFE
    (Called s m 0x0110 p b → cqOk →
      (pb p 3 = 0 → Completes (.cqCreate m) s (answered b m 0x0105 [])) ∧
      (pb p 3 ≠ 0 → ¬ usable → Completes (.cqCreate m) s (answered b m 0x0106 [])) ∧
      (pb p 3 ≠ 0 → usable → (b.cq c n).en = true → Completes (.cqCreate m) s (answered b m 0x0106 [])) ∧
      (pb p 3 ≠ 0 → usable → (b.cq c n).en = false → b.sump.st = .ready →
        Completes (.cqCreate m) s (staged (persist b m []) m []))) ∧
    (Called s m 0x0110 p b → ¬ cqOk → Completes (.cqCreate m) s (answered b m 0x0020 [])) ∧
    (Called s m 0x0111 p b → sqOk → pb p 3 ≠ 0 → usable → (b.sq c n).en = false →
      ((b.cq c cq).en = false → Completes (.sqCreate m) s (answered b m 0x0020 [])) ∧
      ((b.cq c cq).en = true → (b.cq c cq).fmt ≠ fmt → Completes (.sqCreate m) s (answered b m 0x0105 [])) ∧
      ((b.cq c cq).en = true → (b.cq c cq).fmt = fmt → b.sump.st = .ready →
        Completes (.sqCreate m) s (staged (persist b m []) m []))) ∧
    (Called s m 0x0112 p b → shaped p 4 [(3, 1)] = true → c < b.n → pb p 2 < 8 → usable → b.sump.st = .ready →
      (n = 0 → (b.sq c (pb p 2)).en = true →
        Completes (.queueDelete m) s (staged (awaits (stopQueue b c (pb p 2)) m (.queue c (pb p 2))) m [])) ∧
      (n = 0 → (b.sq c (pb p 2)).en = false → Completes (.queueDelete m) s (answered b m 0x0106 [])) ∧
      (n = 1 → (∃ q ∈ (b.chamber c).sqs, q.2.en = true ∧ q.2.cq = pb p 2) → Completes (.queueDelete m) s (answered b m 0x0106 [])) ∧
      (n = 1 → (b.cq c (pb p 2)).en = true → (∀ q ∈ (b.chamber c).sqs, ¬ (q.2.en = true ∧ q.2.cq = pb p 2)) →
        Completes (.queueDelete m) s (staged b m []))) ∧
    (Called s m 0x0120 p b → shaped p 8 [(2, 2)] = true → 1 ≤ c → c ≤ 4 → leField p 4 4 < 2 ^ 20 →
      (n = 1 → Completes (.sliceBind m) s (answered (b.modBimor fun y => { y with binds := Tab.erase y.binds (c - 1) }) m 0 [])) ∧
      (n = 0 → (∃ e ∈ b.bimor.binds, e.1 ≠ c - 1 ∧ e.2 = leField p 4 4) → Completes (.sliceBind m) s (answered b m 0x0020 [])) ∧
      (n = 0 → (∀ e ∈ b.bimor.binds, ¬ (e.1 ≠ c - 1 ∧ e.2 = leField p 4 4)) → Completes (.sliceBind m) s (answered
        (b.modBimor fun y => { y with binds := Tab.set y.binds (c - 1) (leField p 4 4) }) m 0 []))) ∧
    (GoesOn b m 0x0110 1 p hold → ends (t.modCq c n fun _ =>
      { Cq.reset with en := true, base := leField p 4 8, depthLog2 := pb p 2, vecEn := cq.testBit 0, vector := cq / 2
                      fmt := fmt, coalCount := pb p 13, coalTime := pb p 14 }) [BitVec.ofNat 8 fmt, 0, 0, 0]) ∧
    (GoesOn b m 0x0111 1 p hold → ends (t.modSq c n fun _ =>
      { Sq.reset with en := true, base := leField p 4 8, depthLog2 := pb p 2, cq := cq, fmt := fmt }) [BitVec.ofNat 8 fmt, 0, 0, 0]) ∧
    (GoesOn b m 0x0112 1 p hold → settleMailbox b m =
      (persist t m []).modMbx (mbxNo m) fun x => { x with phase := .waiting, cont := x.cont + 1, hold := [] }) ∧
    (GoesOn b m 0x0112 2 p hold → n = 0 → ends (t.modCh c fun h => { h with sqs := Tab.erase h.sqs (pb p 2) }) []) ∧
    (GoesOn b m 0x0112 2 p hold → n = 1 → ends (t.modCh c fun h => { h with cqs := Tab.erase h.cqs (pb p 2) }) [])

/-- KEY_COMPONENT and KEY_GENERATE (R173, R174, R358, R359): parts of one key in order and alike, each opened under the session's key; the sum of
the parts, or random bytes, becomes a record whose commit is asked for; and the answer follows the commit.
KEY_DELETE, KEY_INFO, KEY_LIST and KEY_PIN (R28, R37, R48, R49, R358): the record found by handle or by slot; its deletion's commit; its
attributes; the list of a scope's keys; and the pin, at once for a resident record and after its fetch for another. -/
def Obligations.KeyCommands : Prop :=
  (∀ (s : State) (m : Mbx) (p : Bytes) (b b1 : Block) (ses : Session) (comp key : Bytes) (g e : Nat) (hold : List Bytes)
    (places : List NewRecord),
    let alg := pb p 12
    let scope := pb p 0
    let slot := leField p 8 4
    let sessionOpen : Prop := b.bimor.sessions.find? (fun x => x.id == leField p 4 4 && decide (b.now < x.opened + 3600000000)) = some ses
    let exists_ : Prop := scope = 0xFF ∨ (b.chamber scope).st ≠ .none
    let put (b : Block) (f : Session → Session) : Block :=
      b.modBimor fun y => { y with sessions := y.sessions.map fun x => if x.id = ses.id then f x else x }
    let formed : Prop := componentShape b p = true ∧ (slot = 0xFFFFFFFF ∨ slotInScope b scope slot = true)
    let alike : Prop := ses.parts = [] ∨ ses.attributes = slice p 0 1 ++ slice p 2 38
    let next : Prop := pb p 1 = ses.parts.length + 1
    let tKey := (sha3_512 ([0, 0, 0, 1] ++ montShared true ses.scalar (slice p 40 56) ++ ascii "VWCOMP" ++ leBytes 4 ses.id)).take 32
    let opened := gcmOpen tKey (slice p 96 12) (p.take 40) (slice p 108 32) (slice p 140 16)
    let part := comp.take (symmetricLen alg (8 * pb p 19))
    let kcv := symmetricKcv alg part
    let sum := ses.parts.foldl (fun k c => xorBytes k c.data) part
    let whole := if alg ≤ 2 then oddParity sum else sum
    let emptied : Block := put b fun x => { x with parts := [], attributes := [] }
    let c := if scope = 0xFF then 64 else scope
    let rec_ := newSymmetric emptied c g alg (slice p 13 2) (byteAt p 15) (byteAt p 16) (slice p 17 2) (leField p 20 4) 0xFFFFFFFF whole
    let galg := pb p 4
    let gkey := if galg ≤ 2 then oddParity key else key
    let grec := newSymmetric b1 c g galg (slice p 5 2) (byteAt p 7) (byteAt p 8) (slice p 9 2) (leField p 12 4) 0xFFFFFFFF gkey
    let gj := generateJob p
    let creating (b : Block) (alg : Nat) (r : NewRecord) : Block :=
      askCommit ((reserveSlots b c [r]).passes .headstock c (if alg ≤ 2 then 1 else if alg ≤ 5 then 2 else 0)) m [r]
    let pair (b : Block) := keygenRecords b gj places key
    let pairCreating (b : Block) : Block :=
      askCommit ((reserveSlots b c (pair b).2).headGallery c (schemeLattice gj.scheme)) m (pair b).2
    let pairHeld (b : Block) : Bytes :=
      (pair b).1.result ++ recKcv (((pair b).2.headD (freeLines 0 1)).lines.headD []) ++ [0] ++ (pair b).1.output.getD []
    (Called s m 0x0201 p b → formed → exists_ → sessionOpen →
      (¬ next → Completes (.keyComponent m) s (answered b m 0x0106 [])) ∧
      (next → ¬ alike → Completes (.keyComponent m) s (answered emptied m 0x0020 [])) ∧
      (next → alike → opened = none → Completes (.keyComponent m) s (answered b m 0x0024 [])) ∧
      (next → alike → opened = some comp → pb p 1 < pb p 2 → Completes (.keyComponent m) s (answered (put b fun x =>
        { x with parts := x.parts ++ [{ part := pb p 1, data := part }], attributes := slice p 0 1 ++ slice p 2 38 }) m 0 (kcv ++ zeros 5))) ∧
      (next → alike → opened = some comp → pb p 2 ≤ pb p 1 → symmetricUse alg (slice p 13 2) (byteAt p 15) = false →
        Completes (.keyComponent m) s (answered b m 0x0011 [])) ∧
      (next → alike → opened = some comp → pb p 2 ≤ pb p 1 → symmetricUse alg (slice p 13 2) (byteAt p 15) = true →
        scopeSlot b c slot = .ok g → b.sump.st = .ready → Completes (.keyComponent m) s
          (staged (creating emptied alg rec_.1) m [kcv ++ zeros 5 ++ leBytes 8 rec_.2.1 ++ rec_.2.2 ++ [0]]))) ∧
    (Called s m 0x0202 p b → p.length = 20 → scopeValid b scope = true → exists_ →
      (pb p 1 = 0 → leField p 2 2 = 0 → newRecordOk gj false = true → symmetricUse galg (slice p 5 2) (byteAt p 7) = true →
        (lowestRun b c 1 = none → Completes (.keyGenerate m) s (answered b m 0x0015 [])) ∧
        (lowestRun b c 1 = some g → b.draw (symmetricLen galg (8 * pb p 11)) = none →
          Completes (.keyGenerate m) s (answered b m 0x0040 [])) ∧
        (lowestRun b c 1 = some g → b.draw (symmetricLen galg (8 * pb p 11)) = some (key, b1) → b1.sump.st = .ready →
          Completes (.keyGenerate m) s
            (staged (creating b1 galg grec.1) m [leBytes 8 grec.2.1 ++ zeros 8 ++ grec.2.2 ++ [0]]))) ∧
      (pb p 1 ≠ 0 → pkSyntax (.ticket 0 0) gj 3 = true → newRecordOk gj true = true →
        (keygenPlan b (.ticket 0 0) gj = .error e → e ≠ 0x0101 → Completes (.keyGenerate m) s (answered b m e [])) ∧
        (keygenPlan b (.ticket 0 0) gj = .ok places →
          (schemeRsa gj.scheme = true →
            (keygenPrimes b gj = none → Completes (.keyGenerate m) s (answered b m 0x0040 [])) ∧
            (keygenPrimes b gj = some (none, b1) → Completes (.keyGenerate m) s (answered b m 0x00F0 [])) ∧
            (keygenPrimes b gj = some (some key, b1) → b1.sump.st ≠ .ready → Completes (.keyGenerate m) s (answered b1 m 0x0061 [])) ∧
            (keygenPrimes b gj = some (some key, b1) → b1.sump.st = .ready →
              Completes (.keyGenerate m) s (staged (pairCreating b1) m [pairHeld b1]))) ∧
          (schemeRsa gj.scheme = false →
            (b.draw (keygenDraw gj.scheme) = none → Completes (.keyGenerate m) s (answered b m 0x0040 [])) ∧
            (b.draw (keygenDraw gj.scheme) = some (key, b1) → b1.sump.st ≠ .ready → Completes (.keyGenerate m) s (answered b1 m 0x0061 [])) ∧
            (b.draw (keygenDraw gj.scheme) = some (key, b1) → b1.sump.st = .ready →
              Completes (.keyGenerate m) s (staged (pairCreating b1) m [pairHeld b1])))))) ∧
    ((GoesOn b m 0x0201 1 p hold ∨ GoesOn b m 0x0202 1 p hold ∨ GoesOn b m 0x0303 1 p hold) →
      settleMailbox b m = finishCommand (resumed b m) m 0 0 (hold.headD []) 0xFE)) ∧
  (∀ (s : State) (m : Mbx) (ret : DdrReturn) (p : Bytes) (b b1 : Block) (lines : List Bytes) (line : Bytes) (v e : Nat) (r : Resolved),
    let scope := pb p 0
    let c := if scope = 0xFF then 64 else scope
    let handle := leField p 8 8
    let exists_ : Prop := scope = 0xFF ∨ (b.chamber scope).st ≠ .none
    let g := if scope = 0xFF then leField p 4 4 else 65536 + scope * b.sumpSpace + leField p 4 4
    let h := leField p 0 8
    let pc := if hSystem h then 64 else hChamber h
    let w := recWidth r.head
    wfDdr ret = true →
    (Called s m 0x0204 p b → shaped p 16 [(1, 7)] = true → scopeValid b scope = true →
      (¬ exists_ → Completes (.keyDelete m ret) s (answered b m 0x0106 [])) ∧
      (exists_ → findRecord b ret handle c = (.error e, b1) → e ≠ 0x0101 → Completes (.keyDelete m ret) s (answered b1 m e [])) ∧
      (exists_ → findRecord b ret handle c = (.ok lines, b1) → b1.sump.st = .ready → Completes (.keyDelete m ret) s (staged
        (askCommit b1 m [{ gidx := handleGidx b1 handle, lines := List.replicate lines.length (zeros 64), newClass := none }]) m []))) ∧
    (Called s m 0x0205 p b → shaped p 8 [(1, 3)] = true → scopeValid b scope = true → slotInScope b scope (leField p 4 4) = true → exists_ →
      (lineAt b ret g = (.ok (line, v), b1) → isKeyHead b1 g line = false → Completes (.keyInfo m ret) s (answered b1 m 0x0106 [])) ∧
      (lineAt b ret g = (.ok (line, v), b1) → isKeyHead b1 g line = true → Completes (.keyInfo m ret) s (answered b1 m 0
        (leBytes 8 (issueHandle b1 c g (verClass v) (verVersion v)) ++ fit 32 (line.drop 32)))) ∧
      (lineAt b ret g = (.error e, b1) → e ≠ 0x0101 → Completes (.keyInfo m ret) s (answered b1 m e []))) ∧
    (Called s m 0x0206 p b → shaped p 10 [(1, 3)] = true → scopeValid b scope = true → 1 ≤ leField p 8 2 → leField p 8 2 ≤ 254 → exists_ →
      b.sump.ddr.hint = [] → Completes (.keyList m ret) s (answered b m 0 (zeros 4 ++ leBytes 4 0xFFFFFFFF))) ∧
    (Called s m 0x0206 p b → shaped p 10 [(1, 3)] = true → scopeValid b scope = true → 1 ≤ leField p 8 2 → leField p 8 2 ≤ 254 → exists_ →
      b.sump.ddr.hint = [g] → (scope = 0xFF → 4096 ≤ g ∧ g < 65536) → (scope ≠ 0xFF → leField p 4 4 < b.sumpSpace) →
      lineAt b ret g = (.ok (line, v), b1) → isKeyHead b1 g line = true → Completes (.keyList m ret) s (answered b1 m 0
        (leBytes 2 1 ++ zeros 2 ++ leBytes 4 0xFFFFFFFF ++ leBytes 8 (issueHandle b1 c g (verClass v) (verVersion v)) ++ slice line 32 1 ++
          slice line 35 2 ++ slice line 37 1 ++ slice line 39 1 ++ slice line 51 1 ++ zeros 2))) ∧
    (Called s m 0x0207 p b → shaped p 12 [(9, 3)] = true → pb p 8 < 2 → (pc = 64 ∨ (pc < b.n ∧ (b.chamber pc).st ≠ .none)) →
      (resolve b h pc false = .ok r → recUsage r.head = ascii "9A" → Completes (.keyPin m) s (answered b m 0x0011 [])) ∧
      (resolve b h pc false = .ok r → recUsage r.head ≠ ascii "9A" → pb p 8 = 1 →
        Completes (.keyPin m) s (answered (unpinRecord b (handleGidx b h) w) m 0 [])) ∧
      (resolve b h pc false = .ok r → recUsage r.head ≠ ascii "9A" → pb p 8 = 0 → pinExceeds b (handleGidx b h) w = true →
        Completes (.keyPin m) s (answered b m 0x0013 [])) ∧
      (resolve b h pc false = .ok r → recUsage r.head ≠ ascii "9A" → pb p 8 = 0 → pinExceeds b (handleGidx b h) w = false →
        Completes (.keyPin m) s (answered (pinRecord b (handleGidx b h) w) m 0 [])) ∧
      (resolve b h pc false = .miss (handleGidx b h) → b.sump.st ≠ .ready → Completes (.keyPin m) s (answered b m 0x0061 [])) ∧
      (resolve b h pc false = .miss (handleGidx b h) → b.sump.st = .ready → (∀ x ∈ b.keys.misses, x.gidx ≠ handleGidx b h) → Completes (.keyPin m) s
        (staged (awaits (b.modKeys fun k => { k with misses := k.misses ++
          [{ gidx := handleGidx b h, payer := pc, waiters := [], pinFor := [m], refetch := false }] }) m (.pin (handleGidx b h))) m []))))

/-- CUSTODIAN_SET and the audit commands (R69, R207, R353, R358, R360): the commits they ask for and what those put in force, the keys of the current
chain and of the one before it, and the flush.
The recipe and decode-table commands (R266 to R269, R315 to R317, R361): staging; a load, whose digest, place and commit decide; masks and
deletion; and what the lists return. -/
def Obligations.AuditAndRecipeCommands : Prop :=
  (∀ (s : State) (m : Mbx) (p : Bytes) (b : Block) (hold : List Bytes) (n : Nat) (ed pq : Bytes),
    let scope := pb p 0
    let i : ChainId := if scope = 0xFF then .system else .chamber scope
    let c := b.chain i
    let y := b.chain .system
    let t := resumed b m
    let usable : Prop := if scope = 0xFF then y.present = true else (b.chamber scope).st = .active ∧ (b.chamber scope).resetting = false
    let exists_ : Prop := scope = 0xFF ∨ (b.chamber scope).st ≠ .none
    let ringOk : Prop := p.length = 20 ∧ scopeValid b scope = true ∧ 12 ≤ pb p 1 ∧ pb p 1 ≤ 22 ∧ 4 ≤ pb p 2 ∧ pb p 2 ≤ 16 ∧ pb p 3 < 128 ∧
      (scope = 0xFF ∨ pb p 3 / 2 < 8) ∧ leField p 4 8 % 4096 = 0 ∧ leField p 12 8 % 4096 = 0
    let putRing (r : Ring) : Block := t.modChain i fun c => { c with ring := r }
    let set : Custodians := { k := pb p 1, keys := custodianKeys p 4 (pb p 2) }
    let cancelled : Block := t.modBimor fun y => { y with auths := y.auths.filter fun a => !(a.scope == scope) }
    let ends (t : Block) : Prop := settleMailbox b m = finishCommand t m 0 0 [] 0xFE
    let keysOf (n : Nat) : Option (Bytes × Bytes) := if n = c.chainNo then some (c.edPub, c.pqPub)
      else if n + 1 = c.chainNo then c.before.map (fun k => (k.edPub, k.pqPub)) else none
    let signed := ascii "VWAK" ++ [BitVec.ofNat 8 scope, if c.pq then 1 else 0] ++ leBytes 2 (leField p 2 2) ++ fit 8 b.device ++ fit 57 ed ++
      zeros 7 ++ (if c.pq then fit 2592 pq else [])
    let closed := closeBatch b .system 2
    (Called s m 0x0208 p b → scopeValid b scope = true → kOfN (pb p 1) (pb p 2) = true → shaped p (4 + 57 * pb p 2) [(3, 1)] = true →
      (¬ exists_ → Completes (.custodianSet m) s (answered b m 0x0106 [])) ∧
      (exists_ → b.sump.st ≠ .ready → Completes (.custodianSet m) s (answered b m 0x0061 [])) ∧
      (exists_ → b.sump.st = .ready → Completes (.custodianSet m) s (staged (persist b m []) m []))) ∧
    (GoesOn b m 0x0208 1 p hold → scope = 0xFF → ends (cancelled.modBimor fun y => { y with custodians := set })) ∧
    (GoesOn b m 0x0208 1 p hold → scope ≠ 0xFF → ends (cancelled.modCh scope fun h => { h with custodians := set })) ∧
    (Called s m 0x0300 p b → ringOk →
      (¬ usable → Completes (.auditRingCreate m) s (answered b m 0x0106 [])) ∧
      (usable → c.ring.en = true → Completes (.auditRingCreate m) s (answered b m 0x0106 [])) ∧
      (usable → c.ring.en = false → b.sump.st = .ready → Completes (.auditRingCreate m) s (staged (persist b m []) m []))) ∧
    (GoesOn b m 0x0300 1 p hold → ends (putRing
      { Ring.reset with en := true, leafBase := leField p 4 8, hdrBase := leField p 12 8, llog2 := pb p 1, hlog2 := pb p 2
                        vecEn := (pb p 3).testBit 0, vector := pb p 3 / 2 })) ∧
    (Called s m 0x0301 p b → shaped p 4 [(1, 3)] = true → scopeValid b scope = true → usable →
      (c.ring.en = false → Completes (.auditRingDelete m) s (answered b m 0x0106 [])) ∧
      (c.ring.en = true → b.sump.st = .ready → Completes (.auditRingDelete m) s (staged (persist b m []) m []))) ∧
    (GoesOn b m 0x0301 1 p hold → ends (putRing Ring.reset)) ∧
    (Called s m 0x0302 p b → shaped p 4 [(1, 1)] = true → scopeValid b scope = true →
      (c.present = true → keysOf (leField p 2 2) = some (ed, pq) → Completes (.auditKeys m) s (answered b m 0
        (signed ++ edSign true false (ascii "VWAUDITKEY") b.identity.seed signed))) ∧
      ((c.present = false ∨ keysOf (leField p 2 2) = none) → Completes (.auditKeys m) s (answered b m 0x0106 []))) ∧
    (Called s m 0x0303 p b → p = [] → (closed.chain .system).batch = none → lastLeafHeader (closed.chain .system) = none →
      Completes (.auditFlushSystem m) s (answered closed m 0 (flushResult y))) ∧
    (Called s m 0x0303 p b → p = [] → (closed.chain .system).batch = none → lastLeafHeader (closed.chain .system) = some n →
      Completes (.auditFlushSystem m) s (staged (awaits closed m (.flush n)) m [flushResult y])) ∧
    (Called s m 0x0303 p b → p = [] → (closed.chain .system).batch.isSome = true →
      Completes (.auditFlushSystem m) s (staged (awaits closed m (.flush (closed.chain .system).nextPos)) m [flushResult y]))) ∧
  (∀ (s : State) (m : Mbx) (p : Bytes) (b b1 : Block) (hold : List Bytes) (x : Bytes) (e : Nat),
    let id := leField p 0 2
    let first := leField p 4 4
    let count := leField p 8 2
    let len := leField p 4 2
    let t := resumed b m
    let known : Prop := ∃ r ∈ b.chisel.table, r.id = id
    let old : Bytes := match b.bimor.staging with
      | some s => if s.id = id then s.image else []
      | none => []
    let image := patch (fit (max old.length (3 * (first + count))) old) (3 * first) (p.drop 16)
    let loads : Prop := shaped p 80 [(7, 1)] = true ∧ 0x1000 ≤ id ∧ id ≠ 0xFFFF ∧ leField p 2 2 ≠ 0 ∧ len ≠ 0 ∧ pb p 6 < 2 ∧
      stagedImage b id len = some x ∧ shake256 x 64 = slice p 16 64
    let table (f : List Recipe → List Recipe) : Block := { t with chisel := { t.chisel with table := f t.chisel.table } }
    let masked := Tab.modify t.chisel.decode DecodeEntry.reset (pb p 0) fun e => { e with mask := BitVec.ofNat 64 (leField p 8 8) }
    let from_ := b.chisel.table.filter fun r => id ≤ r.id
    let ends (t : Block) (out : Bytes) : Prop := settleMailbox b m = finishCommand t m 0 0 out 0xFE
    (Called s m 0x0400 p b → 1 ≤ count → count ≤ 1354 → shaped p (16 + 3 * count) [(2, 2), (10, 6)] = true →
      (first + count ≤ 65535 → Completes (.recipeStage m) s (answered (b.modBimor fun y =>
        { y with staging := some { id := id, image := image } }) m 0 [])) ∧
      (65535 < first + count → Completes (.recipeStage m) s (answered b m 0x0107 []))) ∧
    (Called s m 0x0401 p b → loads →
      (known → pb p 6 = 0 → Completes (.recipeLoad m) s (answered b m 0x0106 [])) ∧
      (¬ known → 512 ≤ b.chisel.table.length → Completes (.recipeLoad m) s (answered b m 0x0107 [])) ∧
      ((known ∧ pb p 6 = 1 ∨ ¬ known ∧ b.chisel.table.length < 512) → (freeRange b len).1 = none →
        Completes (.recipeLoad m) s (answered b m 0x0107 [])) ∧
      ((known ∧ pb p 6 = 1 ∨ ¬ known ∧ b.chisel.table.length < 512) → freeRange b len = (some e, b1) → b1.sump.st = .ready →
        Completes (.recipeLoad m) s (staged (persist b1 m []) m [leBytes 2 e, x]))) ∧
    (Called s m 0x0401 p b → shaped p 80 [(7, 1)] = true → stagedImage b id len = some x → shake256 x 64 ≠ slice p 16 64 →
      Completes (.recipeLoad m) s (answered b m 0x0020 [])) ∧
    (GoesOn b m 0x0401 1 p [leBytes 2 e, x] → e < 65536 → ends ((installRecipe t
      { id := id, entry := e, len := len, mask := BitVec.ofNat 64 (leField p 8 8), maxcyc := leField p 2 2 }
      (imageInstructions x)).modBimor fun y => { y with staging := none }) (leBytes 2 e ++ zeros 2)) ∧
    (Called s m 0x0402 p b → shaped p 16 [(2, 6)] = true → 0x0800 ≤ id → id ≠ 0xFFFF →
      (¬ known → Completes (.recipeMask m) s (answered b m 0x0106 [])) ∧
      (known → b.sump.st = .ready → Completes (.recipeMask m) s (staged (persist b m []) m []))) ∧
    (GoesOn b m 0x0402 1 p hold → ends (table fun l => l.map fun r =>
      if r.id = id then { r with mask := BitVec.ofNat 64 (leField p 8 8) } else r) []) ∧
    (Called s m 0x0403 p b → shaped p 4 [(2, 2)] = true →
      (id < 0x1000 → Completes (.recipeDelete m) s (answered b m 0x0020 [])) ∧
      (0x1000 ≤ id → id ≠ 0xFFFF → known → b.sump.st = .ready → Completes (.recipeDelete m) s (staged (persist b m []) m []))) ∧
    (GoesOn b m 0x0403 1 p hold → ends (removeRecipe t id) []) ∧
    (Called s m 0x0404 p b → shaped p 4 [(2, 2)] = true → from_.length ≤ 169 → Completes (.recipeList m) s (answered b m 0
      (leBytes 2 from_.length ++ leBytes 2 0xFFFF ++ (from_.map (recipeEntry b)).flatten))) ∧
    (Called s m 0x0410 p b → p.length = 3200 →
      (∀ d, imageBreach p = some d → Completes (.decodeLoad m) s (settle (finishCommand b m 0x0020 d [] 0xFE))) ∧
      (imageBreach p = none → b.sump.st = .ready → Completes (.decodeLoad m) s (staged (persist b m []) m []))) ∧
    (GoesOn b m 0x0410 1 p hold → ends (decodeInstalled (loadImage t p)) []) ∧
    (Called s m 0x0411 p b → shaped p 16 [(1, 7)] = true → pb p 0 < 8 →
      ((Tab.get b.chisel.decode DecodeEntry.reset (pb p 0)).valid = false → Completes (.decodeMask m) s (answered b m 0x0106 [])) ∧
      ((Tab.get b.chisel.decode DecodeEntry.reset (pb p 0)).valid = true → b.sump.st = .ready →
        Completes (.decodeMask m) s (staged (persist b m []) m []))) ∧
    (GoesOn b m 0x0411 1 p hold → ends (decodeInstalled { t with chisel := { t.chisel with decode := masked } }) []) ∧
    (Called s m 0x0412 p b → p = [] →
      Completes (.decodeRead m) s (answered b m 0 (decodeImage b ++ shake256 (decodeImage b) 64))))

/-- The configuration, Sump, counter and record commands (R227 to R231, R362 to R364, R461, R523, R530).
What SUMP_INIT leaves (R230, R318): Sump READY and empty under a head of version 0, and no chamber, recipe or decode image. -/
def Obligations.ConfigCommands : Prop :=
  (∀ (s : State) (m : Mbx) (p header : Bytes) (lines : List (DdrLine × Bytes)) (hint : List Nat) (journal : List Bytes) (b b1 : Block)
    (hold : List Bytes),
    let y := b.bimor
    let u := b.sump
    let used := b.strata.generations.length
    let bytes := 64 + 72 * b.sumpT + 64 * blocksBelow b.sumpT (b.depth + 1)
    let mode : JMode := if pb p 0 = 0 then .off else if pb p 0 = 1 then .async else .sync
    let base := leField p 4 8
    let same : Prop := base = u.jbase ∧ pb p 1 = u.jlog2
    let journalOk : Prop := shaped p 12 [(2, 2)] = true ∧ pb p 0 ≤ 2 ∧ 10 ≤ pb p 1 ∧ pb p 1 ≤ 20 ∧ base % 4096 = 0 ∧ (pb p 0 = 0 → base = 0)
    let put (f : Sump → Sump) : Block := b.modSump fun x => f { x with jmode := mode, jbase := base, jlog2 := pb p 1 }
    let count := if pb p 1 = 0 then 256 else pb p 1
    let config := ctrConfig b (pb p 0) (pb p 1) (leField p 2 2) 0x0020 0x0106 0
    let records := strataRead b b.recorderC (pb p 0) (leField p 4 4) (leField p 8 2)
    let saves : Save := { base := leField p 0 8, started := false, snapshot := Ddr.blank, rootv := 0, jmac := [] }
    let taken : Save := { saves with started := true, snapshot := u.ddr, rootv := u.rootv, jmac := u.jmac }
    let fresh : Prop := p ≠ y.settings ∧ y.pending ≠ some p ∧ settingsOk p = true
    let generation := p ++ leBytes 4 b.strata.pcc ++ leBytes 4 (crc32c (p ++ leBytes 4 b.strata.pcc)) ++ zeros 12
    (Called s m 0x0500 p b → p = [] → Completes (.configRead m) s (answered b m 0
      ([BitVec.ofNat 8 used, if y.pending.isSome then 1 else 0, 0, 0] ++ y.settings ++ y.pending.getD (zeros 76)))) ∧
    (Called s m 0x0501 p b → ¬ fresh → Completes (.configCommit m) s (answered b m 0x0020 [])) ∧
    (Called s m 0x0501 p b → fresh → pb p 0 ≠ b.nlog2 → anyChamber b = true → Completes (.configCommit m) s (answered b m 0x0104 [])) ∧
    (Called s m 0x0501 p b → fresh → (pb p 0 = b.nlog2 ∨ anyChamber b = false) →
      (16 ≤ used → Completes (.configCommit m) s (answered b m 0x0102 [])) ∧
      (used < 16 → Completes (.configCommit m) s (answered (((setBorrow b p).modStrata fun x =>
        { x with generations := x.generations ++ [generation] }).modBimor fun x => { x with pending := some p }) m 0
        [BitVec.ofNat 8 (15 - used), 0, 0, 0]))) ∧
    (Called s m 0x0510 p b → journalOk →
      (same → Completes (.sumpJournal m) s (answered (put fun x => x) m 0 [])) ∧
      (¬ same → u.jhead ≠ u.jtail → Completes (.sumpJournal m) s (answered b m 0x0106 [])) ∧
      (¬ same → u.jhead = u.jtail → Completes (.sumpJournal m) s (answered (put fun x => { x with jhead := 0, jtail := 0 }) m 0 []))) ∧
    (Called s m 0x0511 p b → p.length = 16 →
      (leField p 8 8 < bytes → Completes (.sumpSave m) s (answered b m 0x0020 (leBytes 8 bytes))) ∧
      (bytes ≤ leField p 8 8 → u.st ≠ .ready → Completes (.sumpSave m) s (answered b m 0x0061 [])) ∧
      (bytes ≤ leField p 8 8 → u.st = .ready → u.save.isSome = true → Completes (.sumpSave m) s (answered b m 0x0106 [])) ∧
      (bytes ≤ leField p 8 8 → u.st = .ready → u.save = none → u.commit = none → Completes (.sumpSave m) s
        (staged (awaits (b.modSump fun x => { x with save := some taken }) m .snapshot) m [])) ∧
      (bytes ≤ leField p 8 8 → u.st = .ready → u.save = none → u.commit.isSome = true → Completes (.sumpSave m) s
        (staged (awaits (b.modSump fun x => { x with save := some saves }) m .snapshot) m []))) ∧
    (GoesOn b m 0x0511 1 p hold → settleMailbox b m = finishCommand (resumed b m) m 0 0 (leBytes 8 bytes) 0xFE) ∧
    (wfImage header lines journal = true → Called s m 0x0512 p b → shaped p 32 [(28, 4)] = true →
      (u.st ≠ .empty → Completes (.sumpRestore m header lines hint journal) s (answered b m 0x0106 [])) ∧
      (u.st = .empty → u.ddr.trained = false → Completes (.sumpRestore m header lines hint journal) s (answered b m 0x0061 [])) ∧
      (u.st = .empty → u.ddr.trained = true → sumpRestore b header lines hint (journal.take (leField p 24 4)) = none →
        Completes (.sumpRestore m header lines hint journal) s (answered b m 0x0060 [])) ∧
      (u.st = .empty → u.ddr.trained = true → sumpRestore b header lines hint (journal.take (leField p 24 4)) = some b1 →
        Completes (.sumpRestore m header lines hint journal) s (answered (restoreFromSump b1) m 0 []))) ∧
    (Called s m 0x0513 p b → p = [] →
      (u.ddr.trained = false → Completes (.sumpInit m) s (answered b m 0x0061 [])) ∧
      (u.ddr.trained = true → u.commit = none → Completes (.sumpInit m) s (answered (initSump b) m 0 [])) ∧
      (u.ddr.trained = true → u.commit.isSome = true → Completes (.sumpInit m) s (staged (awaits b m .noCommit) m []))) ∧
    (Called s m 0x0600 p b → shaped p 4 [(2, 2)] = true →
      (pb p 0 + count ≤ 256 → Completes (.tallyRead m) s (answered b m 0
        ((List.range count).flatMap fun i => leBytes 6 (b.tallyOf (pb p 0 + i)) ++ [0, 0]))) ∧
      (256 < pb p 0 + count → Completes (.tallyRead m) s (answered b m 0x0020 []))) ∧
    (Called s m 0x0601 p b → p.length = 4 → Completes (.counterConfig m) s (answered config.2 m config.1 [])) ∧
    (Called s m 0x0610 p b → shaped p 10 [(1, 3)] = true → pb p 0 ≤ 1 → 1 ≤ leField p 8 2 → leField p 8 2 ≤ 127 →
      Completes (.strataRead m) s (answered b m 0
        (leBytes 4 records.1 ++ leBytes 4 records.2.length ++ zeros 8 ++ records.2.flatten)))) ∧
  (∀ (b : Block), b.records = none →
    let t := initSump b
    t.sump.st = .ready ∧ t.sump.rootv = 0 ∧ t.sump.jmac = zeros 8 ∧ t.sump.ddr.hint = [] ∧ t.sump.bad = [] ∧ t.sump.erasing = [] ∧
    t.strata.sumpHead = some (0, zeros 8) ∧
    (b.chuck.items = [] → ∀ c < 64, (t.chamber c).st = .none ∧ (Tab.get? b.ch c ≠ none → (t.chain (.chamber c)).present = false)) ∧
    t.chisel.table = [] ∧ t.chisel.store = Chisel.reset.store ∧ t.chisel.decode = [] ∧ t.chisel.micro = [])

/-- PAIR_STATUS, PAIR_CREATE, PAIR_DISSOLVE and CLAIM_GRANT (R365, R477, R479, R490, R491, R498).
Handshakes and claims (R477 to R481, R488, R491 to R493, R495, R498): a PAIR_JOIN that is not genuine changes nothing, a genuine one goes to the part
it names; the timeout; a CLAIM is accepted only above the table's entry; DISSOLVE; and the rejoining of a former member. -/
def Obligations.PairCommands : Prop :=
  (∀ (s : State) (m : Mbx) (p : Bytes) (b b1 : Block) (x : Bytes) (e : Nat),
    let k := b.kerard
    let role := match k.role with
      | .active => 1
      | .standby => 2
      | .none => if k.served = [] then 0 else 3
    let joinOk : Prop := shaped p 20 [(2, 2)] = true ∧ (pb p 0 = 1 ∨ pb p 0 = 2) ∧
      (pb p 1 = 0 ∨ (pb p 1 = 1 ∧ allZero (slice p 12 8) = true))
    let peer := slice p 4 8
    let ref := slice p 12 8
    let joining := kPair b1 fun k =>
      { k with st := .joining, role := .none, joinScalar := x, joinRole := if pb p 0 = 1 then .active else .standby, rejoin := false
               refHost := pb p 1 = 1, peerDevice := peer, refereeDevice := ref, referee := (nodeOf b1 ref).getD 0
               peerNode := (nodeOf b1 peer).getD 0, joinMbx := some m, joinRef := none
               joinPeer := k.joinPeer.filter fun x => x.take 8 == peer }
    let claim := leField p 0 2
    let self : Prop := slice p 8 8 = b.device
    let mine : Prop := b.paired = true ∧ k.refHost = true ∧ (self ∨ slice p 8 8 = k.peerDevice) ∧ k.claimSeen < claim
    let granted := gainClaim b claim
    let other := joinAnswered (learnClaim b claim)
    (Called s m 0x0700 p b → p = [] → Completes (.pairStatus m) s (answered b m 0
      ([BitVec.ofNat 8 role, if k.refHost then 1 else 0] ++ leBytes 2 k.held ++ leBytes 2 k.claimSeen ++ zeros 2 ++ fit 8 k.peerDevice ++
        leBytes 8 k.lastBeat ++ leBytes 8 k.missPeer))) ∧
    (Called s m 0x0701 p b → joinOk →
      (pairRefusal b p = some e → e ≠ 0x0101 → Completes (.pairCreate m) s (answered b m e [])) ∧
      (pairRefusal b p = none → b.sump.st = .ready → b.draw 56 = none → Completes (.pairCreate m) s (answered b m 0x0040 [])) ∧
      (pairRefusal b p = none → b.sump.st = .ready → b.draw 56 = some (x, b1) →
        Completes (.pairCreate m) s (staged (joinTry (joinSend (awaits joining m .pair))) m []))) ∧
    (Called s m 0x0702 p b → p = [] →
      ((b.paired = false ∨ k.st = .joining) → Completes (.pairDissolve m) s (answered b m 0x0106 [])) ∧
      (b.paired = true → k.st ≠ .joining → b.sump.st = .ready → k.role = .active →
        Completes (.pairDissolve m) s (staged (persist (dissolveHeld b) m []) m [])) ∧
      (b.paired = true → k.st ≠ .joining → b.sump.st = .ready → k.role ≠ .active → b.lantern.st ≠ .running →
        Completes (.pairDissolve m) s (answered b m 0x0040 [])) ∧
      (b.paired = true → k.st ≠ .joining → b.sump.st = .ready → k.role ≠ .active → b.lantern.st = .running →
        Completes (.pairDissolve m) s (staged (persist (leavePair b) m []) m []))) ∧
    (Called s m 0x0703 p b → shaped p 16 [(2, 6)] = true →
      (¬ mine → Completes (.claimGrant m) s (answered b m 0x0106 [])) ∧
      (mine → self → grantToSelf k = false → Completes (.claimGrant m) s (answered b m 0x0106 [])) ∧
      (mine → self → grantToSelf k = true → ¬ (k.st = .inSync ∧ k.role = .standby) →
        Completes (.claimGrant m) s (answered granted m 0 (leBytes 2 granted.kerard.held))) ∧
      (mine → ¬ self → grantToPeer k = false → Completes (.claimGrant m) s (answered b m 0x0106 [])) ∧
      (mine → ¬ self → grantToPeer k = true →
        Completes (.claimGrant m) s (answered other m 0 (leBytes 2 other.kerard.held))))) ∧
  (∀ (s : State) (p : KPort) (f pk : Bytes) (e : KEnd) (t : Block) (pn : Nat) (m : Bool),
    let b := s.blk
    let k := b.kerard
    let x := fPayload f
    let genuine : Prop := x.length = 210 ∧ keyId pk = x.take 8 ∧ edCheck true false (ascii "VWPAIR") pk (x.take 96) (x.drop 96) = true ∧
      montValid true (joinPk x) = true
    let joins (u : Block) : Prop := Completes (.pairJoin p f pk) s (settle u)
    let mayRejoin : Prop := (b.life = 2 ∨ b.life = 3) ∧ b.sump.st = .ready ∧ b.paired = true ∧ k.st ≠ .joining ∧ k.role = .standby ∧
      k.joinScalar = [] ∧ (nodeOf b k.peerDevice).isSome = true
    let u := t.kerard
    let c := leField x 8 2
    let claims (v : Block) : Prop := Completes (.claim p f) s (settle (joinAnswered v))
    (Arrives s p f 0x10 → ¬ genuine → joins b) ∧
    (Arrives s p f 0x10 → genuine → leField x 24 1 ≠ 3 → slice x 8 8 = b.device → joins (joinFromPeer b (fSrc f) x)) ∧
    (Arrives s p f 0x10 → genuine → leField x 24 1 ≠ 3 → slice x 8 8 ≠ b.device → slice x 16 8 = b.device →
      joins (joinAtReferee b (fSrc f) x)) ∧
    (Arrives s p f 0x10 → genuine → leField x 24 1 = 3 → k.st = .joining → k.refHost = false → x.take 8 = k.refereeDevice →
      slice x 8 8 = b.device → joins (joinTry (b.modKerard fun k => { k with joinRef := some x, referee := fSrc f }))) ∧
    (k.joinPeer = some x → x.take 8 = k.peerDevice → joinAgrees b x = false → joinTry b = joinFail b 0x106) ∧
    ((joinFail b 0x106).kerard.joinScalar = [] ∧ (k.rejoin = false → (joinFail b 0x106).kerard.st = .none)) ∧
    ((joinKeys b x none).kerard.joinScalar = [] ∧ (joinKeys b x none).kerard.mseq = 0 ∧
      (joinKeys b x none).kerard.fPeer = ⟨0, 0⟩) ∧
    (b.running = true → (k.st = .joining ∨ k.rejoin = true) → k.joinScalar ≠ [] →
      Completes .pairJoinTimeout s (settle (joinFail b 0x104))) ∧
    (b.running = true → (k.st ≠ .joining ∧ k.rejoin = false ∨ k.joinScalar = []) → Completes .pairJoinTimeout s (settle b)) ∧
    (Arrives s p f 0x12 → Accepts b f (cmacOpens b f) e t → e = .peer ∨ e = .referee →
      (x.take 8 ≠ u.pairId ∨ c ≤ claimEntry t → claims t) ∧
      (x.take 8 = u.pairId → claimEntry t < c → leField x 10 1 ≠ u.node → claims (learnClaim t c)) ∧
      (x.take 8 = u.pairId → claimEntry t < c → leField x 10 1 = u.node → e = .peer → claims t) ∧
      (x.take 8 = u.pairId → claimEntry t < c → leField x 10 1 = u.node → e = .referee →
        claims (if u.st = .joining then firstClaim t c else if u.role = .active then claimAgain t c else takeOver t c))) ∧
    (b.chuck.items = [] → k.joinMbx = none → (learnClaim b c).kerard.role = .standby ∧ (learnClaim b c).kerard.egressClosed = true ∧
      (learnClaim b c).kerard.claimSeen = max k.claimSeen c ∧ (k.st ≠ .joining → (learnClaim b c).kerard.st = .stale) ∧
      (k.st = .joining → (learnClaim b c).kerard.st = .syncing)) ∧
    (Arrives s p f 0x13 → Accepts b f (cmacOpens b f) .peer t → u.role = .standby → x = u.pairId →
      Completes (.dissolve p f) s (settle (leavePair t))) ∧
    (Arrives s p f 0x13 → Accepts b f (cmacOpens b f) .peer t → (u.role ≠ .standby ∨ x ≠ u.pairId) →
      Completes (.dissolve p f) s (settle t)) ∧
    (Arrives s p f 0x13 → Accepts b f (cmacOpens b f) (.member pn m) t →
      Completes (.dissolve p f) s (settle (t.modKerard fun k => { k with served := Tab.erase k.served pn }))) ∧
    ((unpair b).kerard.st = .none ∧ (unpair b).kerard.role = .none ∧ (unpair b).kerard.held = k.held ∧ (unpair b).kerard.linkKey = [] ∧
      (unpair b).kerard.transport = [] ∧ (unpair b).kerard.egressClosed = false) ∧
    (b.running = true → (¬ mayRejoin ∨ b.draw 56 = none) → Completes .rejoin s (settle b)) ∧
    (∀ d v, b.running = true → mayRejoin → b.draw 56 = some (d, v) → Completes .rejoin s (settle (joinSend ((dropMirrored v).modKerard
      fun k => { k with joinScalar := d, joinRole := .standby, rejoin := true, joinPeer := none, joinRef := none, joinMbx := none
                        headers := [], early := [] })))))

/-- ATTEST, LIFECYCLE_SET, UNLOCK and ZEROISE (R366, R370 to R377, R380, R381, R393, R445, R453).
FW_STAGE, FW_COMMIT, TAMPER_SET, DEVICE_RESET, IO_CONFIG and IO_STATUS (R366, R389, R431, R516, R544, R548, R550). -/
def Obligations.LifecycleCommands : Prop :=
  (∀ (s : State) (m : Mbx) (p : Bytes) (b b1 : Block) (key : Bytes) (ed q : Bytes) (g g2 : Nat) (writes : List NewRecord) (hold : List Bytes),
    let target := pb p 0
    let i := mbxNo m
    let quiet : Prop := b.strata.evidenceFull = false ∧ b.lcount < 4092
    let well : Prop := p.length = 4 ∧ allZero (slice p 1 3) = true
    let report := attestBody b p
    let set (b : Block) (to_ : Nat) : Block := answered (setLifecycle b to_ 0) m 0 [BitVec.ofNat 8 to_, 0, 0, 0]
    let drawn : Block := { b1 with bbram := { b1.bbram with drk := some key, markerOk := true } }
    let armed : Block := drawn.modBelay fun y => { y with armed := true }
    let made (b : Block) : Block :=
      let b := initSump (deriveSumpKeys { b with records := none })
      b.modKeys fun k => { k with sysHandleKey := systemHandleKey b }
    let proofs : Prop := 8 ≤ p.length ∧ blockOk p = true ∧ allZero (slice p 1 3) = true ∧ proofsHold b p = true
    let ready : Prop := quiet ∧ b.lantern.st = .running ∧ b.sump.ddr.trained = true
    (Called s m 0x0800 p b → p.length = 32 → Completes (.attest m) s (answered b m 0
      (report ++ edSign true false (ascii "VWATTEST") b.identity.seed report))) ∧
    (Called s m 0x0801 p b → well → target = 1 → b.life = 0 →
      ((¬ quiet ∨ monitorAlarms b ≠ 0 ∨ batteryLow b = true) → Completes (.lifecycleSet m) s (answered b m 0x0103 [])) ∧
      (quiet → monitorAlarms b = 0 → batteryLow b = false → b.draw 32 = none → Completes (.lifecycleSet m) s (answered b m 0x0040 [])) ∧
      (quiet → monitorAlarms b = 0 → batteryLow b = false → b.draw 32 = some (key, b1) → Completes (.lifecycleSet m) s (set armed 1))) ∧
    (Called s m 0x0801 p b → well → target = 5 → b.life = 1 → Completes (.lifecycleSet m) s (set (zeroiseWork b) 5)) ∧
    (Called s m 0x0801 p b → well → target = 3 → b.life = 2 → b.lcount < 4092 → Completes (.lifecycleSet m) s (set b 3)) ∧
    (Called s m 0x0801 p b → well → (target = 6 ∨ target = 7) → b.life = 5 → Completes (.lifecycleSet m) s (set b target)) ∧
    (Called s m 0x0801 p b → well → (target = 0 ∨ target = 4 ∨ 7 < target ∨ (target = 3 ∧ b.life ≠ 2)) →
      Completes (.lifecycleSet m) s (answered b m 0x0103 [])) ∧
    (Called s m 0x0801 p b → target = 2 → b.life = 1 → proofs → ready →
      newAuditKeys (made b) 64 ((pb p 6).testBit 0) = .ok ((ed, q, g, g2, writes), b1) → Completes (.lifecycleSet m) s
        (staged (persist b1 m writes) m [ed, q, leBytes 8 g, leBytes 8 g2])) ∧
    (Called s m 0x0801 p b → target = 2 → b.life = 1 → 8 ≤ p.length → blockOk p = true → allZero (slice p 1 3) = true → quiet →
      proofsHold b p = false → Completes (.lifecycleSet m) s (settle (finishCommand b m 0x0101 0 [] (namedScope b (b.mbx i))))) ∧
    (GoesOn b m 0x0801 1 p hold → ∃ t : Block, settleMailbox b m = t.modMbx i (fun x => { x with phase := .waiting, cont := x.cont + 1, hold := [] }) ∧
      t.life = 2 ∧ t.bimor.custodians = { k := pb p 4, keys := blockKeys p } ∧ t.bimor.binds = [] ∧
      (t.chain .system).present = true ∧ (t.mbx i).await = .firstEntry) ∧
    (Called s m 0x0802 p b → p = [] →
      (mayUnlock b = false → Completes (.unlock m) s (answered b m 0x0103 [])) ∧
      (mayUnlock b = true → Completes (.unlock m) s
        (answered ((chainIds (setLifecycle b (lockedFrom b) 0)).foldl unlockChain (setLifecycle b (lockedFrom b) 0)) m 0 []))) ∧
    (Called s m 0x0803 p b → p.length = 4 → allZero (slice p 0 4) = true → Completes (.zeroise m) s (answered
      ((fileReport (zeroise (cancelWakes b fun _ => true) 1)
        { code := 0x0150, src := i, cls := .z, p0 := reqTag (b.mbx i), p1 := 0, p2 := 0, rom := false, overrun := false, quiesce := 64
          detected := b.now }).modBelay fun y => { y with alarmOut := true }) m 0 []))) ∧
  (∀ (s : State) (m : Mbx) (p : Bytes) (b : Block) (hold : List Bytes) (mn mx wn wx : Nat),
    let off := leField p 0 4
    let d := p.drop 8
    let n := leField p 0 4
    let x := b.bimor.fwStage.readBytes 0 n
    let slot : FwSlot := { header := x.take 256, body := x.drop 256 }
    let image : Prop := shaped p 72 [(4, 4)] = true ∧ 257 ≤ n ∧ n ≤ b.bimor.fwStaged ∧ shake256 x 64 = slice p 8 64
    let verifies : Prop := imageFailure b slot.header slot.body = none ∧ fwLen slot.header = n - 256
    let within : Prop := mn ≤ pb p 1 ∧ pb p 1 ≤ mx ∧ wn ≤ pb p 2 ∧ pb p 2 ≤ wx
    let t := resumed b m
    let levels := [0, 1, 2, 3, 4, 5, 6, 7].foldl (fun a k => if gpioLevel b k then a + 2 ^ k else a) 0
    (Called s m 0x0810 p b → 9 ≤ p.length → allZero (slice p 4 4) = true →
      (off + d.length ≤ 2097408 → Completes (.fwStage m) s (answered (b.modBimor fun y =>
        { y with fwStage := y.fwStage.writeBytes off d, fwStaged := max y.fwStaged (off + d.length) }) m 0 [])) ∧
      (2097408 < off + d.length → Completes (.fwStage m) s (answered b m 0x0107 []))) ∧
    (Called s m 0x0811 p b → image →
      (verifies → b.identity.slot = 0 → Completes (.fwCommit m) s
        (answered { b with identity := { b.identity with slotB := slot } } m 0 [])) ∧
      (verifies → b.identity.slot ≠ 0 → Completes (.fwCommit m) s
        (answered { b with identity := { b.identity with slotA := slot } } m 0 [])) ∧
      (∀ r, cmdRow 0x0811 = some r → ¬ verifies → Completes (.fwCommit m) s
        (settle (finishCommand b m 0x0101 0 [] (namedScope (entered s.blk m r) (s.blk.mbx (mbxNo m))))))) ∧
    (Called s m 0x0804 p b → shaped p 4 [(3, 1)] = true →
      (monitorBounds b (pb p 0) = none → Completes (.tamperSet m) s (answered b m 0x0020 [])) ∧
      (monitorBounds b (pb p 0) = some (mn, mx, wn, wx) → ¬ within → Completes (.tamperSet m) s (answered b m 0x0020 [])) ∧
      (monitorBounds b (pb p 0) = some (mn, mx, wn, wx) → within → Completes (.tamperSet m) s
        (answered ((b.modMonitor (pb p 0) fun x => { x with m := pb p 1, wcode := pb p 2, countA := 0, countB := 0 }).modStrata fun x =>
          { x with tamperCopy := Tab.set x.tamperCopy (pb p 0) (pb p 1, pb p 2) }) m 0 []))) ∧
    (Called s m 0x0805 p b → p.length = 4 → allZero (slice p 0 4) = true → Completes (.deviceReset m) s (answered b m 0 [])) ∧
    (Called s m 0x0900 p b → ioOk p = true → b.sump.st = .ready → Completes (.ioConfig m) s (staged (persist b m []) m [])) ∧
    (Called s m 0x0900 p b → ioOk p = false → Completes (.ioConfig m) s (answered b m 0x0020 [])) ∧
    (GoesOn b m 0x0900 1 p hold → settleMailbox b m = finishCommand { t with io := { t.io with
      gpio := [0, 1, 2, 3, 4, 5, 6, 7].map fun k => (k, pb p k)
      led := [0, 1].map fun k => (k, pb p (8 + k))
      config := some p } } m 0 0 [] 0xFE) ∧
    (Called s m 0x0901 p b → p = [] → Completes (.ioStatus m) s (answered { b with io := { b.io with suppressed := 0 } } m 0
      [BitVec.ofNat 8 b.io.inputs.toNat, BitVec.ofNat 8 levels, BitVec.ofNat 8 b.io.suppressed.toNat, 0])))

/-! ### Sideband, registers, attestation and debug -/

/-- The SMBus commands (R540 to R542, R563): a write whose PEC fails is discarded; requests, GO and acknowledgements by the mailbox's state; what the
reads return; and a bus timeout.
A host referee's beats, its silence, and the inputs that wake (R489, R490, R499, R506, R508, R549, R550): one beat by register or pin, a wake by
the pin's active level, and neither again within 10 us. -/
def Obligations.SidebandAndInputs : Prop :=
  (∀ (s : State) (temp v pec count : BitVec 8) (off : BitVec 16) (d : Bytes),
    let b := s.blk
    let on : Prop := b.pmc.powerGood = true ∧ b.io.ir ≠ .extest ∧ b.io.ir ≠ .highz ∧ b.io.ir ≠ .clamp
    let x := b.mbx 5
    let u := b.smbus
    let w := leBytes 1 (2 * u.addr)
    let r := leBytes 1 (2 * u.addr + 1)
    let put (f : Smbus → Smbus) : Block := { b with smbus := f b.smbus }
    let answer (b : Block) (head d : Bytes) : Block := b.emit (.smbus (some (d ++ [smbusPec (w ++ head ++ r ++ d)])))
    let at_ := leField d 0 2
    let valid (d : Bytes) : Prop := pec = smbusPec (w ++ d)
    let bit_ (x : Bool) (k : Nat) : Nat := if x then k else 0
    let read := (List.range count.toNat).map fun i => if off.toNat + i < 4096 then x.rsp.read (off.toNat + i) else 0
    let beyond : Block := if 4096 < off.toNat + count.toNat then put fun s => { s with range := true } else b
    (on → Completes (.status temp) s (answer b [1] ([8, BitVec.ofNat 8 b.life, BitVec.ofNat 8 b.pmc.st, if b.pmc.ready then 1 else 0, 0] ++
      leBytes 2 b.kerard.held ++ [temp, 0]))) ∧
    (on → wfBlockWrite d = true → ¬ valid ([0x10] ++ leBytes 1 d.length ++ d) → Completes (.mbxReq d pec) s (put fun s => { s with pec := true })) ∧
    (on → wfBlockWrite d = true → 3 ≤ d.length → d.length ≤ 255 → valid ([0x10] ++ leBytes 1 d.length ++ d) →
      (x.busy = true → Completes (.mbxReq d pec) s (put fun s => { s with reqBusy := true })) ∧
      (x.busy = false → 4096 < at_ + (d.length - 2) → Completes (.mbxReq d pec) s (put fun s => { s with range := true })) ∧
      (x.busy = false → at_ + (d.length - 2) ≤ 4096 → Completes (.mbxReq d pec) s
        (b.modMbx 5 fun x => { x with req := x.req.writeBytes at_ (d.drop 2) }))) ∧
    (on → valid [0x11, v] → v = 1 →
      (x.busy = true ∨ x.done = true → Completes (.mbxGo v pec) s (put fun s => { s with overrun := true })) ∧
      (x.busy = false → x.done = false → Completes (.mbxGo v pec) s (mbxGo b .sb))) ∧
    (on → Completes .mbxStat s (answer b [0x12] [BitVec.ofNat 8 (bit_ x.busy 1 + bit_ x.done 2 + bit_ b.pmc.ready 4 + bit_ u.pec 8 +
      bit_ u.reqBusy 16 + bit_ u.overrun 32 + bit_ u.range 64)])) ∧
    (on → (count = 0 ∨ 240 < count.toNat) → Completes (.mbxRsp off count) s (b.emit (.smbus none))) ∧
    (on → count ≠ 0 → count.toNat ≤ 240 → Completes (.mbxRsp off count) s
      (answer beyond ([0x13, 3] ++ leBytes 2 off.toNat ++ [count]) ([count] ++ read))) ∧
    (on → valid [0x14, v] → Completes (.mbxAck v pec) s { (b.modMbx 5 fun x => { x with done := x.done && !v.toNat.testBit 1 }) with smbus :=
      { u with pec := u.pec && !v.toNat.testBit 3, reqBusy := u.reqBusy && !v.toNat.testBit 4
               overrun := u.overrun && !v.toNat.testBit 5, range := u.range && !v.toNat.testBit 6 } }) ∧
    (on → valid [0x20, v] → v = 1 → Completes (.hostbeat v pec) s (hostBeat b)) ∧
    (on → Completes .smbusTimeout s (b.emit (.smbus none))) ∧
    (b.pmc.powerGood = false → Completes (.status temp) s b ∧ Completes .mbxStat s b ∧ Completes .smbusTimeout s b)) ∧
  (∀ (s : State) (n : Fin 8) (level : Bool) (v : BitVec 32) (samples : Nat),
    let b := s.blk
    let on : Prop := b.pmc.powerGood = true ∧ b.io.ir ≠ .extest ∧ b.io.ir ≠ .highz ∧ b.io.ir ≠ .clamp
    let cfg := Tab.get b.io.gpio 0 n
    let moves : Prop := b.io.inputs.getLsbD n ≠ level ∧ 4 ≤ samples
    let pin : BitVec 8 := 1 <<< n.val
    let inputs := if level then b.io.inputs ||| pin else b.io.inputs &&& ~~~ pin
    let seen : Block := { b with io := { b.io with inputs := inputs } }
    let recent : Prop := ∃ t, Tab.get? b.io.lastWake n = some t ∧ b.now < t + 10
    let marked : Block := { seen with io := { seen.io with lastWake := Tab.set seen.io.lastWake n b.now } }
    (b.hostOn = true →
      (v.toNat.testBit 0 = true → Completes (.krdHostbeat none .word v) s (hostBeat b)) ∧
      (v.toNat.testBit 0 = false → Completes (.krdHostbeat none .word v) s b) ∧
      Completes (.krdHostbeat none .other v) s (b.modKerard fun k => { k with err := k.err ||| 1 })) ∧
    (on → moves → cfg % 16 = 3 →
      (¬ recent → Completes (.refereeHeartbeatInput n level samples) s (hostBeat marked)) ∧
      (recent → Completes (.refereeHeartbeatInput n level samples) s seen)) ∧
    (on → ¬ moves → Completes (.refereeHeartbeatInput n level samples) s b ∧ Completes (.gpioWake n level samples) s b) ∧
    (on → moves → cfg % 16 = 2 → level ≠ cfg.testBit 4 →
      (¬ recent → b.running = true → Completes (.gpioWake n level samples) s (ladderExit marked)) ∧
      (recent → Completes (.gpioWake n level samples) s
        { seen with io := { seen.io with suppressed := seen.io.suppressed ||| pin } })) ∧
    (on → moves → (cfg % 16 ≠ 2 ∨ level = cfg.testBit 4) → Completes (.gpioWake n level samples) s seen) ∧
    (b.running = true → Completes .hostTimeout s (settle (hostTimeout b))))

/-- The registers whose accesses have effects of their own (R234, R254, R255, R421, R510, R519, R528, R529), from the PF and in a chamber's window.
Reads of the register windows (R4, R5, R57, R234, R254, R255, R330, R337, R519, R528), operands of REGISTER_WRITE: a register answers with its fields'
values, one that is only written, a reserved range and a reserved bit with zero; and a slice reads no block of another.
REGISTER_WRITE (R4, R56, R207, R234, R254, R328, R336, R337, R406, R499, R519, R535, R536, R537, R539): GO and the other registers of a mailbox,
the write-one-to-clear errors, the settings kept in range, and the functions' configuration. -/
def Obligations.Registers : Prop :=
  (∀ (s : State) (c : Fin 64) (slot : Fin 16) (r : Fin 4) (u : Fin 73) (n : Fin 8) (k : Fin 256) (core : Fin 64) (v : BitVec 32),
    let b := s.blk
    let cap := v.toNat % 4096
    let refill := v.toNat / 4096 % 4096
    let ctr := Tab.get b.counters.prog Ctr.reset (8 * u.val + n.val)
    let held := if u.val < 64 then 8 else 4
    let badTly : Block := { b with counters := { b.counters with tlyErr := b.counters.tlyErr ||| 1 } }
    let latched := (List.range 8).map fun i => (8 * u.val + i, (Tab.get b.counters.prog Ctr.reset (8 * u.val + i)).count.toNat)
    let high (i v : Nat) : Block := { b with counters := { b.counters with highLatch := Tab.set b.counters.highLatch i (v / 2 ^ 32) } }
    let cycles := Tab.get b.counters.cycles 0 core % 2 ^ 64
    let old := Tab.get (b.chamber c).vfe VfeSlot.reset slot
    let w := v.toNat
    let want : VfeSlot :=
      { event := w % 1024, level := w.testBit 10, chain := w.testBit 11, en := w.testBit 12, counter := w / 2 ^ 13 % 8
        unit := w / 2 ^ 16 % 128, bound := false, refused := old.refused && !w.testBit 25 }
    let target := Tab.get b.counters.prog Ctr.reset (8 * want.unit + want.counter)
    (b.hostOn = true →
      (v.toNat.testBit 0 = true → Completes (.chkClrmax none .word v) s { b with ch := Tab.mapVals b.ch fun _ h =>
        { h with groups := Tab.mapVals h.groups fun _ g => { g with wmax := 0 } } }) ∧
      Completes (.chkClrmax none .other v) s (b.modChuck fun x => { x with err := x.err ||| 1 }) ∧
      ((cap < railFloor r ∨ refill = 0) →
        Completes (.pmcRail none r .word v) s (b.modPmc fun p => { p with err := p.err ||| 4 })) ∧
      (railFloor r ≤ cap → refill ≠ 0 → Completes (.pmcRail none r .word v) s (b.modPmc fun p =>
        { p with pendingRail := p.pendingRail.filter (fun x => x.1 != r.val) ++ [(r.val, cap, refill)] })) ∧
      Completes (.smpRootvL none .word) s
        ((b.modSump fun x => { x with rootvLatch := x.rootv / 2 ^ 32 }).answer (b.sump.rootv % 2 ^ 32)) ∧
      Completes (.blyFlast0 none .word) s
        ((b.modBelay fun y => { y with flast0 := y.live0, flast1 := y.live1, flast2 := y.live2 }).answer b.belay.live0.toNat) ∧
      Completes (.tlyUcnt none u n .word) s
        (({ b with counters := { b.counters with latch := latched, latchUnit := some u.val } } : Block).answer
          (if n.val < held then ctr.count.toNat else 0)) ∧
      Completes (.tlyTL none k .word) s ((high k (b.tallyOf k)).answer (b.tallyOf k % 2 ^ 32)) ∧
      Completes (.tlyCycL none core .word) s ((high (256 + core.val) cycles).answer (cycles % 2 ^ 32)) ∧
      Completes (.tlyUcnt none u n .other) s badTly ∧ Completes (.tlyTL none k .other) s badTly ∧
      Completes (.tlyCycL none core .other) s badTly) ∧
    (b.vfOn c = true →
      Completes (.vfcClrmax c .word v) s (b.modCh c fun h =>
        { h with groups := Tab.mapVals h.groups fun g x => if v.toNat.testBit g then { x with wmax := 0 } else x }) ∧
      Completes (.vfeCfg c slot .other v) s (b.modCh c fun h => { h with qerr := h.qerr ||| 4 }) ∧
      (old.bound = false → want.en = false → Completes (.vfeCfg c slot .word v) s
        (b.modCh c fun h => { h with vfe := Tab.set h.vfe slot want })) ∧
      (old.bound = false → want.en = true →
        (vfePermitted want.unit want.counter = true → target.owner = .free →
          ctrAdmitted b want.unit want.counter want.event want.level want.chain (.chamber c) = true →
          Completes (.vfeCfg c slot .word v) s ((ctrTake b want.unit want.counter want.event want.level want.chain (.chamber c)).modCh c fun h =>
            { h with vfe := Tab.set h.vfe slot { want with bound := true } })) ∧
        ((vfePermitted want.unit want.counter = false ∨ target.owner ≠ .free) → Completes (.vfeCfg c slot .word v) s
          (b.modCh c fun h => { h with vfe := Tab.set h.vfe slot { want with refused := true } })))) ∧
    (b.hostOn = true → ∀ p, b.bimor.binds = [] → Completes (.tlyTL (some p) k .word) s
      (((b.emit (.aer 0 "Unsupported Request")).tally 153).emit .unsupportedRead))) ∧
  (∀ (s : State) (off c k g n : Nat) (hold : Hold), s.blk.hostOn = true →
    let b := s.blk
    let x := b.mbx 0
    let h := b.chamber c
    let bit_ (x : Bool) (k : Nat) : Nat := if x then k else 0
    let pf (off : Nat) (z : WSize) (t : Block) : Prop := wfHostWrite (.readPf none off z) = true →
      Completes (.registerWrite (.readPf none off z)) s (settle t)
    let vf (off v : Nat) : Prop := b.vfOn c = true → wfHostWrite (.readVf c off .word) = true →
      Completes (.registerWrite (.readVf c off .word)) s (settle (b.answer v))
    let held (f : Item → Bool) : Nat := (b.chuck.items.filter fun p => f p.2).length
    let inGroup (i : Item) : Bool := i.chamber == c && i.group == g
    pf 0x2004 .word (b.answer (bit_ x.busy 1 + bit_ x.done 2 + bit_ b.pmc.ready 4 + 256 * (x.vmaj % 16) + 4096 * (x.vmin % 16))) ∧
    pf 0x2000 .word (b.answer 0) ∧
    pf 0x2008 .word (b.answer (bit_ x.irqEn 1 + 2 * (x.vector % 64))) ∧
    (off < 0x1000 → off % 4 = 0 → pf off .word (b.answer (ofLe (x.req.readBytes off 4))) ∧
      pf (off + 0x1000) .word (b.answer (ofLe (x.rsp.readBytes off 4)))) ∧
    (off < 0x1000 → off % 8 = 0 → pf off .dword (b.answer (ofLe (x.req.readBytes off 8)))) ∧
    (off < 0x1000 → off % 4 ≠ 0 → pf off .word ((b.modMbx 0 fun x => { x with err := x.err ||| 4 }).answer 0)) ∧
    (regionOf off = .reserved → ∀ z, pf off z (b.answer 0)) ∧
    (regionOf off = .chk → k < 6 → off % 65536 = 0x20 + 4 * k → [Hold.fence, .miss, .counter, .leaf, .power, .full][k]? = some hold →
      pf off .word (b.answer (held fun i => i.st == .held hold))) ∧
    (regionOf off = .pmc → off % 65536 = 8 → pf off .word (b.answer b.pmc.on.toNat)) ∧
    (regionOf off = .pmc → off % 65536 = 4 → pf off .word (b.answer (b.pmc.floor + 2 ^ 8 * b.pmc.darkIdle + 2 ^ 12 * b.pmc.deepIdle +
      2 ^ 16 * b.pmc.offDelay))) ∧
    (regionOf off = .smp → off % 65536 = 8 → pf off .word (b.answer b.sumpSpace)) ∧
    (regionOf off = .smp → off % 65536 = 0x1C → pf off .word (b.answer (b.sump.faultsTag + 2 ^ 8 * b.sump.faultsNode + 2 ^ 16 * b.sump.faultsEcc))) ∧
    (regionOf off = .bly → k < 64 → off % 65536 = 0x1100 + 4 * k → pf off .word (b.answer (b.ferrule k).viol)) ∧
    ((∃ k, regionOf off = .slc k) → ∀ z, pf off z (((b.emit (.aer 0 "Unsupported Request")).tally 153).emit .unsupportedRead)) ∧
    (off < 0x40 → off % 4 = 0 → vf off 0) ∧
    (n < 8 → vf (0x40 + 4 * n) (b.sq c n).head ∧ vf (0xC0 + 4 * n) ((b.cq c n).tail + bit_ (b.cq c n).phase (2 ^ 16))) ∧
    vf 0x184 h.qerr.toNat ∧ vf 0x1004 h.qreason.toNat ∧ vf 0x1014 h.pinpol.toNat ∧
    (g < 8 → vf (0x1120 + 4 * g) (b.group c g).wmax ∧ vf (0x1140 + 4 * g) ((b.group c g).wavg / 256) ∧
      (held inGroup < 65536 → vf (0x1100 + 4 * g) (held (fun i => inGroup i && i.st == .ready) + 2 ^ 16 * held fun i => inGroup i && match i.st with
        | .held _ => true
        | _ => false))) ∧
    (n < 16 → (b.vfe c n).bound = false → vf (0x1240 + 4 * n) 0) ∧
    (n < 16 → (b.vfe c n).bound = true → vf (0x1240 + 4 * n) (b.ctr (b.vfe c n).unit (b.vfe c n).counter).count.toNat)) ∧
  (∀ (s : State) (off fn vec addr data : Nat) (v : BitVec 64) (c : Nat) (on : Bool), s.blk.hostOn = true →
    let b := s.blk
    let w := v.toNat % 2 ^ 32
    let W := BitVec.ofNat 32 w
    let x := b.mbx 0
    let pf (off : Nat) (z : WSize) (t : Block) : Prop := wfHostWrite (.pf none off z v) = true →
      Completes (.registerWrite (.pf none off z v)) s (settle t)
    let vf (off : Nat) (t : Block) : Prop := wfHostWrite (.vf c off .word v) = true →
      Completes (.registerWrite (.vf c off .word v)) s (settle t)
    let put (f : Mailbox → Mailbox) : Block := b.modMbx 0 f
    let shift := w % 16
    let window := w / 16 % 16
    let timeout := w / 256 % 128
    let has : Prop := fn = 0 ∨ (b.pcie.vfEnable = true ∧ fn ≤ b.n)
    let cfg (i : HostWrite) (p : Pcie) : Prop := wfHostWrite i = true → Completes (.registerWrite i) s (settle { b with pcie := p })
    (w.testBit 0 = true → pf 0x2000 .word (mbxGo b .pf)) ∧
    (off < 0x1000 → off % 4 = 0 → x.busy = false →
      pf off .word (put fun x => { x with req := x.req.writeBytes off (leBytes 4 v.toNat) })) ∧
    (off < 0x1000 → off % 4 = 0 → x.busy = true → pf off .word (put fun x => { x with err := x.err ||| 2 })) ∧
    pf 0x2004 .word (put fun x => { x with done := x.done && !w.testBit 1 }) ∧
    (regionOf off = .chk → off % 65536 = 4 → pf off .word (b.modChuck fun x =>
      { x with ewmaShift := if 1 ≤ shift ∧ shift ≤ 8 then shift else x.ewmaShift, busyWin := if window ≤ 8 then window else x.busyWin })) ∧
    (regionOf off = .chk → off % 65536 = 12 → pf off .word (b.modChuck fun x => { x with err := x.err &&& ~~~ W })) ∧
    (regionOf off = .pmc → off % 65536 = 4 → pf off .word (pmcCfg b W)) ∧
    (regionOf off = .pmc → off % 65536 = 0x14 → pf off .word (b.modPmc fun p => { p with keep := BitVec.ofNat 24 w &&& 0x03FFFC })) ∧
    (regionOf off = .krd → off % 65536 = 0x20 → 1 ≤ timeout → timeout ≤ 100 → pf off .word (b.modKerard fun k =>
      { k with gen1 := w.testBit 0, vecEn := w.testBit 1, vector := w / 4 % 64, hostTimeout := timeout })) ∧
    (regionOf off = .smp → off % 65536 = 0x20 → pf off .word (b.modSump fun u => { u with err := u.err &&& ~~~ W })) ∧
    (regionOf off = .lan → off % 65536 = 12 → pf off .word (b.modLantern fun l => { l with sizeErr := l.sizeErr &&& ~~~ W })) ∧
    (regionOf off = .bly → off % 65536 = 0x100C → pf off .word (b.modBelay fun y => { y with err := y.err &&& ~~~ W })) ∧
    (regionOf off = .tly → off % 65536 = 0x3200 →
      pf off .word { b with counters := { b.counters with tlyErr := b.counters.tlyErr &&& ~~~ W } }) ∧
    (regionOf off = .flw → off % 65536 = 0x18 → pf off .word (b.modChain .system fun y =>
      { y with ring := { y.ring with err := y.ring.err &&& ~~~ W } })) ∧
    ((∃ k, regionOf off = .slc k) → ∀ z, pf off z ((b.emit (.aer 0 "Unsupported Request")).tally 153)) ∧
    (b.vfOn c = true → vf 0x184 (b.modCh c fun h => { h with qerr := h.qerr &&& ~~~ W })) ∧
    (b.vfOn c = true → vf 0x2000 (b.modLantern fun l =>
      { l with ports := Tab.modify l.ports LanPort.reset (64 + c) fun p => { p with err := p.err && !w.testBit 1 } })) ∧
    (has → vec < (if fn = 0 then 64 else 8) → cfg (.vector fn vec addr data)
      { b.pcie with table := Tab.set b.pcie.table (64 * fn + vec) (addr % 2 ^ 64, data % 2 ^ 32) }) ∧
    (has → cfg (.msixEnable fn on) { b.pcie with msixEn := Tab.set b.pcie.msixEn fn on }) ∧
    (has → cfg (.busMaster fn on) { b.pcie with bme := Tab.set b.pcie.bme fn on }) ∧
    cfg .vfEnable { b.pcie with vfEnable := true } ∧ cfg (.d3hot on) { b.pcie with d3hot := on } ∧
    (has → wfHostWrite (.poisoned fn) = true → Completes (.registerWrite (.poisoned fn)) s
      (settle ((b.emit (.aer fn "Poisoned TLP Received")).tally 152))))

/-- The SPDM requests and DOE (R395): the connection's versions, capabilities and algorithms in their order; digests, the certificate chain in
portions, challenges and measurements; errors; discovery; and the abort. What the manual gives no value for stays free.
The instructions of the TAP and accesses of the debug port (R383, R416, R417, R545 to R547): each is loaded where the lifecycle and the debug policy
permit it and decoded as BYPASS where they do not; IDCODE shows the part number; and the port works through Ferrule 79. -/
def Obligations.AttestationAndDebug : Prop :=
  (∀ (s : State) (msg : Bytes) (drawn : Bytes) (b1 : Block) (index : Nat), s.blk.hostOn = true → s.blk.pmc.booted = true →
    let b := s.blk
    let p := b.spdm
    let code (c : Byte) : Prop := 4 ≤ msg.length ∧ byteAt msg 1 = c
    let error (i : Instr) (p : Spdm) (c d : Nat) : Prop := Completes i s (doeAnswer b 1 (spdmError p c d))
    let same : Prop := byteAt msg 0 = (if p.version = 0 then 0x10 else BitVec.ofNat 8 p.version)
    let version := (byteAt msg 0).toNat
    let free : Bytes := fit 9 (Config.freeBytes b.free 9)
    let caps : Spdm := { p with version := version }
    let capsAnswer := spdmHead caps 0x61 0 0 ++ [0] ++ free.take 1 ++ [0, 0, 0x16, 0, 0, 0] ++ (if version = 0x12 then free.drop 1 else [])
    let asym := leField msg 8 4
    let hash := leField msg 12 4
    let ec : Prop := asym.testBit 7 = true
    let ed : Prop := asym.testBit 11 = true ∧ p.version = 0x12
    let algosOk : Prop := 32 ≤ msg.length ∧ leField msg 4 2 = msg.length ∧ (ec ∨ ed) ∧ (hash.testBit 1 = true ∨ hash.testBit 2 = true)
    let chain := spdmChain b
    let off := leField msg 4 2
    let len := min (leField msg 6 2) (chain.length - off)
    let part := spdmHead p 0x02 0 0 ++ leBytes 2 len ++ leBytes 2 (chain.length - off - len) ++ slice chain off len
    let digests := spdmHead p 0x01 0 1 ++ spdmHash p chain
    let certs (r : Bytes) : Block := doeAnswer { b with spdm := { p with certs := p.certs ++ msg ++ r } } 1 r
    let q := b1.spdm
    let blocks := spdmBlocks (measurements b1)
    let kind := (byteAt msg 3).toNat
    let summary : Bytes := if kind = 0 then [] else spdmHash q (if kind = 1 then (blocks.take 1).flatten else blocks.flatten)
    let auth := spdmHead q 0x03 0 1 ++ spdmHash q (spdmChain b1) ++ drawn.take 32 ++ summary ++ zeros 2
    let chosen := if kind = 0 then [] else if kind = 0xFF then blocks else [blocks.getD (kind - 1) []]
    let meas := spdmHead q 0x60 (if kind = 0 then 5 else 0) 0 ++ leBytes 1 chosen.length ++ leBytes 3 chosen.flatten.length ++
      chosen.flatten ++ drawn.take 32 ++ zeros 2
    let versions : Bytes := [0x10, 0x04, 0, 0, 0, 2, 0x00, 0x11, 0x00, 0x12]
    (code 0x84 → byteAt msg 0 = 0x10 → Completes (.getVersion msg) s
      (doeAnswer { b with spdm := { Spdm.reset with vca := msg ++ versions } } 1 versions)) ∧
    (code 0x84 → byteAt msg 0 ≠ 0x10 → error (.getVersion msg) Spdm.reset 0x41 0) ∧
    (code 0xE1 →
      (p.vca = [] ∨ p.caps = true → error (.getCapabilities msg) p 0x04 0) ∧
      (p.vca ≠ [] → p.caps = false → version ≠ 0x11 → version ≠ 0x12 → error (.getCapabilities msg) p 0x41 0) ∧
      (p.vca ≠ [] → p.caps = false → (version = 0x11 ∧ msg.length = 12 ∨ version = 0x12 ∧ msg.length = 20) →
        Completes (.getCapabilities msg) s (doeAnswer { b with
          free := b.free + 1, spdm := { caps with caps := true, vca := p.vca ++ msg ++ capsAnswer } } 1 capsAnswer))) ∧
    (code 0xE3 →
      (p.caps = false ∨ p.algos = true → error (.negotiateAlgorithms msg) p 0x04 0) ∧
      (p.caps = true → p.algos = false → ¬ same → error (.negotiateAlgorithms msg) p 0x41 0) ∧
      (p.caps = true → p.algos = false → same → ¬ algosOk → error (.negotiateAlgorithms msg) p 0x01 0) ∧
      (p.caps = true → p.algos = false → same → algosOk → ∃ t, Completes (.negotiateAlgorithms msg) s t ∧ t.spdm.algos = true ∧
        (¬ ed → t.spdm.asym448 = false) ∧ (¬ ec → t.spdm.asym448 = true) ∧ (hash.testBit 2 = false → t.spdm.sha512 = false) ∧
        (hash.testBit 1 = false → t.spdm.sha512 = true) ∧ t.spdm.version = p.version ∧ t.out.length = b.out.length + 1)) ∧
    (code 0x81 → p.algos = true → same → Completes (.getDigests msg) s (certs digests)) ∧
    (code 0x81 → p.algos = false → error (.getDigests msg) p 0x04 0) ∧
    (code 0x82 → p.algos = true → same →
      (msg.length = 8 → byteAt msg 2 &&& 15 = 0 → off < chain.length → Completes (.getCertificate msg) s (certs part)) ∧
      ((msg.length ≠ 8 ∨ byteAt msg 2 &&& 15 ≠ 0 ∨ chain.length ≤ off) → error (.getCertificate msg) p 0x01 0)) ∧
    (code 0x83 → p.algos = true → same → msg.length = 36 → byteAt msg 2 = 0 → (kind = 0 ∨ kind = 1 ∨ kind = 255) →
      (b.draw 80 = none → error (.challenge msg) p 0x05 0) ∧
      (b.draw 80 = some (drawn, b1) → Completes (.challenge msg) s (doeAnswer { b1 with spdm := { q with certs := [], meas := [] } } 1
        (auth ++ spdmSign b1 "responder-challenge_auth signing" (q.vca ++ q.certs ++ msg ++ auth) (drawn.drop 32))))) ∧
    (code 0xE0 → p.algos = true → same → (byteAt msg 2).toNat.testBit 0 = false → msg.length = 4 → (kind ≤ 5 ∨ kind = 255) →
      b.draw 80 = some (drawn, b1) → Completes (.getMeasurements msg) s
        (doeAnswer { b1 with spdm := { q with meas := q.meas ++ msg ++ meas } } 1 meas)) ∧
    (code 0xE0 → p.algos = true → same → (byteAt msg 2).toNat.testBit 0 = true → msg.length = 37 → byteAt msg 36 = 0 →
      (kind ≤ 5 ∨ kind = 255) → b.draw 80 = some (drawn, b1) → Completes (.getMeasurements msg) s
        (doeAnswer { b1 with spdm := { q with meas := [] } } 1 (meas ++ spdmSign b1 "responder-measurements signing"
          ((if q.version = 0x12 then q.vca else []) ++ (q.meas ++ msg ++ meas)) (drawn.drop 32)))) ∧
    (4 ≤ msg.length → byteAt msg 1 ∉ [0x84, 0xE1, 0xE3, 0x81, 0x82, 0x83, 0xE0] →
      error (.spdmUnsupported msg) p 0x07 (byteAt msg 1).toNat) ∧
    (index < 256 → Completes (.doeDiscovery index) s (doeAnswer b 0
      (if index = 0 then [1, 0, 0, 1] else if index = 1 then [1, 0, 1, 0] else [0xFF, 0xFF, 0, 0]))) ∧
    Completes .doeAbort s { b with spdm := { p with answer := none } }) ∧
  (∀ (s : State) (write : Bool) (addr : BitVec 40),
    let b := s.blk
    let policy := b.setting 3
    let scan : Prop := b.life = 0 ∨ b.life = 1 ∨ b.life = 6 ∨ ((b.life = 2 ∨ b.life = 3) ∧ policy.testBit 2 = true)
    let dap : Prop := b.life = 0 ∨ b.life = 1 ∨ b.life = 6 ∨ (b.life = 2 ∧ (policy % 4 = 1 ∨ policy % 4 = 2)) ∨ (b.life = 3 ∧ policy % 4 = 2)
    let load (ir : JtagIr) : Block := { b with io := { b.io with ir := ir } }
    let loads (i : Instr) (ir : JtagIr) (permitted : Prop) : Prop :=
      (permitted → Completes i s (load ir)) ∧ (¬ permitted → Completes i s (load .bypass))
    let kind : AccessKind := if write then .write else .read
    let access := ferruleAccess b 79 kind addr.toNat none
    (b.pmc.powerGood = true →
      loads .extest .extest scan ∧ loads .samplePreload .sample scan ∧ loads .highz .highz scan ∧ loads .clamp .clamp scan ∧
      loads .dap .dap dap ∧ loads .bypass .bypass True ∧
      ∃ rev maker : Nat, rev < 16 ∧ maker < 2048 ∧ Completes .idcode s ({ load .idcode with free := b.free + 1 }.emit
        (.jtag (rev * 2 ^ 28 + 0x6480 * 2 ^ 12 + maker * 2 + 1)))) ∧
    Completes .tapReset s (load .idcode) ∧
    (b.running = true → b.io.ir = .dap → dap →
      (write = true → Completes (.dapAccess write addr) s access.2) ∧
      (write = false → access.1 = false → Completes (.dapAccess write addr) s (access.2.emit (.jtag 0))) ∧
      (write = false → access.1 = true → ∃ v, v < 2 ^ 32 ∧
        Completes (.dapAccess write addr) s ({ access.2 with free := access.2.free + 1 }.emit (.jtag v)))) ∧
    ((b.io.ir ≠ .dap ∨ ¬ dap) → Completes (.dapAccess write addr) s b))

/-! ### Resets and power -/

/-- The resets' commands (R222, R333, R337, R340, R514 to R516, R518, R532): which device reset begins, waits or is absorbed and what it leaves;
PERST_N, a hot reset and DL_Down; pulses at a reset pin; the functions' resets; a chamber reset's end. -/
def Obligations.ResetCommands : Prop :=
  ∀ (s : State) (c : Fin 64) (cause n : Nat), 4 ≤ n →
    let b := s.blk
    let keeps (t : Block) : Prop := t.bbram = b.bbram ∧
      t.strata = b.strata.recorderFor (b.setting 1) (byteAt (settingsInForce b.strata) 1).toNat ∧ t.belay.monitors = b.belay.monitors ∧
      t.belay.intake = b.belay.intake ∧ t.identity.arb = b.identity.arb ∧ t.identity.revoked = b.identity.revoked
    let keepsWarm (t : Block) : Prop := t.pmc.floor = b.pmc.floor ∧ t.pmc.keep = b.pmc.keep ∧ t.pmc.cap = b.pmc.cap ∧
      t.pmc.refill = b.pmc.refill ∧ t.pmc.tokens = b.pmc.cap ∧ t.counters.tally = b.counters.tally ∧ t.sump.ddr.records = b.sump.ddr.records ∧
      t.smbus = b.smbus
    let cleared (t : Block) : Prop := t.keys = Keys.reset ∧ t.ch = [] ∧ t.chains = [] ∧ t.chuck = Chuck.reset ∧ t.bimor.mbx = [] ∧
      t.bimor.sessions = [] ∧ t.pcie = Pcie.reset ∧ t.lantern.st = .off ∧ t.lantern.central = [] ∧ t.pmc.ready = false ∧
      t.pmc.booted = false ∧ t.kerard.bypassOpen = false ∧ t.pmc.queue = [] ∧ t.pmc.warming = 0 ∧ t.pmc.on = 0x940003 ∧
      t.sump.st = .empty ∧ t.pmc.st = 0 ∧ t.pmc.perst = false ∧ t.pmc.err = 0
    let begins (i : Instr) (n : Nat) (b : Block) : Prop :=
      let w := (stopWork (cancelWakes b fun _ => true)).modPmc fun p => { p with warm := some n, ready := false, resetScheduled := false, resetDue := false }
      Completes i s (if w.sump.commit = none then deviceReset w false else w)
    (keeps (deviceReset b false) ∧ keepsWarm (deviceReset b false) ∧ cleared (deviceReset b false) ∧
      (deviceReset b false).pmc.warm = b.pmc.warm) ∧
    (let pins := b.modPmc fun p => { p with sysRst := true }
     (b.running = true → b.belay.responses = [] → begins (.sysRstNAssert n) 1 pins) ∧
     (b.pmc.powerGood = true → (b.pmc.warm ≠ none ∨ b.belay.responses ≠ []) → Completes (.sysRstNAssert n) s pins)) ∧
    (b.pmc.powerGood = false → Completes (.sysRstNAssert n) s b) ∧
    (let due := b.modPmc fun p => { p with resetScheduled := false }
     (b.running = true → b.pmc.resetScheduled = true → b.pmc.sysRst = false → b.belay.responses = [] → begins .deviceResetTimer 2 due) ∧
     (b.running = true → b.pmc.resetScheduled = true → b.pmc.sysRst = true → Completes .deviceResetTimer s due) ∧
     (b.running = true → b.pmc.resetScheduled = true → b.pmc.sysRst = false → b.belay.responses ≠ [] →
       Completes .deviceResetTimer s (due.modPmc fun p => { p with resetDue := true }))) ∧
    (∀ k, 1 ≤ k → k < 4 → let pulse := detectorEvent (detectorEvent b 17 false .pulse) 17 true .pulse
      Completes (.sysRstNAssert k) s pulse ∧ Completes (.perstNAssert k) s pulse ∧ Completes (.perstNRelease k) s pulse) ∧
    (Completes (.sysRstNAssert 0) s b ∧ Completes (.perstNAssert 0) s b ∧ Completes (.perstNRelease 0) s b) ∧
    (b.running = true → b.pmc.resetScheduled = false → Completes .deviceResetTimer s b) ∧
    (b.pmc.warm = some cause → b.sump.commit = none → ∃ t, exec .warmResetRelease s = .next { s with blk := t } ∧ keeps t ∧ keepsWarm t ∧
      cleared t ∧ t.pmc.warm = none ∧ t.pmc.cause = cause ∧ t.pmc.sysRst = false) ∧
    ((b.pmc.warm = none ∨ b.sump.commit ≠ none) → Completes .warmResetRelease s b) ∧
    (b.pmc.powerGood = false → ∃ t, exec .coldReset s = .next { s with blk := t } ∧ keeps t ∧
      cleared t ∧ t.pmc.cause = 0 ∧ t.pmc.floor = 3 ∧ t.counters.tally = [] ∧ t.now = (b.strata.optBase + 16) * 62500 ∧
      t.pmc.powerGood = true ∧ t.pmc.onBattery = false) ∧
    (b.pmc.powerGood = true → Completes .coldReset s b) ∧
    (let held := b.modPmc fun p => { p with perstN := true, perst := true }
     (b.running = true → b.sump.commit = none → Completes (.perstNAssert n) s (settle (portReset held))) ∧
     (b.running = true → b.sump.commit ≠ none →
       Completes (.perstNAssert n) s (settle (held.modPmc fun p => { p with perstDue := true }))) ∧
     (b.running = false → Completes (.perstNAssert n) s held)) ∧
    (b.pmc.perstN = true → b.pmc.st ≠ 4 → Completes (.perstNRelease n) s (b.modPmc fun p => { p with perstN := false })) ∧
    (b.running = true → b.pmc.perstN = true → b.pmc.st = 4 →
      Completes (.perstNRelease n) s (ladderExit (b.modPmc fun p => { p with perstN := false }))) ∧
    (b.pmc.perstN = false → Completes (.perstNRelease n) s b) ∧
    (b.hostOn = true → b.sump.commit = none → Completes .dlDown s (settle (portReset b))) ∧
    (b.hostOn = true → b.sump.commit ≠ none → Completes .dlDown s (settle (b.modPmc fun p => { p with perstDue := true }))) ∧
    ((portReset b).pcie = Pcie.reset) ∧
    (∀ i < 5, (b.mbx i).phase = .idle → (mbxResets b).mbx i = { Mailbox.reset with busy := !b.pmc.ready }) ∧
    (∀ i < 5, (b.mbx i).phase ≠ .idle → ((mbxResets b).mbx i).discard = true ∧ ((mbxResets b).mbx i).phase = (b.mbx i).phase ∧
      ((mbxResets b).mbx i).busy = true) ∧
    (b.hostOn = true → Completes .pfFlr s (settle (mbxResets (dropVfs b)))) ∧
    (b.hostOn = true → b.pcie.vfEnable = true → Completes .vfEnableClear s (settle (dropVfs b))) ∧
    (b.hostOn = true → b.pcie.vfEnable = true → Completes (.vfFlr c) s (settle (beginReset (resetFunction b (c + 1)) c))) ∧
    (b.hostOn = false ∨ b.pcie.vfEnable = false → Completes (.vfFlr c) s b ∧ Completes .vfEnableClear s b) ∧
    (b.running = true → (b.chamber c).resetting = true → gaBusyFor b c = false → Completes (.chamberResetComplete c) s
      (settle (b.modCh c fun h => { h with resetting := false, st := if b.life = 4 then .quiesced else .active, qreason := 0 }))) ∧
    (b.running = true → ((b.chamber c).resetting = false ∨ gaBusyFor b c = true) → Completes (.chamberResetComplete c) s (settle b))

/-- The boot (R385 to R391, R443, R444, R448, R453 to R455): which slot runs, what a boot without an image leaves, what the firmware starts with, READY;
and a rail that leaves its range (R555). -/
def Obligations.BootCommands : Prop :=
  ∀ (s : State) (errA errB lost ring : Bool) (bad : Option (BitVec 32)) (link : Option KPort),
    let b := s.blk
    let fa := if errA then some 6 else imageFailure b b.identity.slotA.header b.identity.slotA.body
    let fb := if errB then some 6 else imageFailure b b.identity.slotB.header b.identity.slotB.body
    let ha := b.identity.slotA.header
    let hb := b.identity.slotB.header
    let may : Prop := b.running = true ∧ b.pmc.booted = false ∧ b.identity.noImage = false
    let first : Prop := fwSvn hb < fwSvn ha ∨ (fwSvn hb = fwSvn ha ∧ fwVer hb ≤ fwVer ha)
    let found := if b.pmc.cause ≠ 0 then b
      else checkBbram (flaggedEntry (if lost then stateLost (commitPending b false) else commitPending b true))
    let boots (slot : Nat) : Prop :=
      Completes (.boot none errA errB lost bad) s (firmwareStarts found slot (bad.map (·.toNat)))
    let runs (t : Block) (slot : Nat) (bad : Option Nat) : Prop := (firmwareStarts t slot bad).pmc.booted = true ∧
      (firmwareStarts t slot bad).identity.slot = slot ∧ (firmwareStarts t slot bad).gallery.tablesOk = bad.isNone ∧
      (firmwareStarts t slot bad).identity.running = (if slot = 0 then t.identity.slotA else t.identity.slotB).header.take 140
    let h := b.identity.running
    (may → ∀ x y, fa = some x → fb = some y → Completes (.boot none errA errB lost bad) s
      { romRecord b 0x0140 0 .w x y with identity := { b.identity with noImage := true } }) ∧
    (may → fa = none → fb ≠ none → boots 0) ∧
    (may → fa ≠ none → fb = none → boots 1) ∧
    (may → fa = none → fb = none → first → boots 0) ∧
    (may → fa = none → fb = none → ¬ first → boots 1) ∧
    (b.running = true → (b.pmc.booted = true ∨ b.identity.noImage = true) → Completes (.boot none errA errB lost bad) s b) ∧
    (∀ slot bad, runs b slot bad) ∧
    (b.bbram.pending = [] → b.bbram.overflow = 0 → (commitPending b true).strata.pcc = min (2 ^ 32 - 1) (b.strata.pcc + 1)) ∧
    ((b.bbram.markerOk = false ∨ b.bbram.crcOk = false) → 1 ≤ b.life → b.life ≤ 4 → (checkBbram b).life = 5) ∧
    (b.bbram.markerOk = true → b.bbram.crcOk = true → checkBbram b = b) ∧
    (∀ g, (headerFailure b g = some 4 → fwSvn g < b.identity.arb) ∧ (4 ≤ fwKeyIdx g → headerFailure b g ≠ none) ∧
      (b.identity.revoked.getLsbD (fwKeyIdx g) = true → headerFailure b g ≠ none) ∧ (fwSvn g < b.identity.arb → headerFailure b g ≠ none)) ∧
    (b.running = true → b.pmc.booted = true → b.pmc.ready = false → ∃ t, exec .ready s = .next { s with blk := t } ∧
      t.pmc.ready = true ∧ t.identity.arb = max b.identity.arb (fwSvn h) ∧
      t.identity.revoked = b.identity.revoked ||| (BitVec.ofNat 4 (byteAt h 7).toNat &&& ~~~ ((1 : BitVec 4) <<< fwKeyIdx h)) ∧
      ∀ i < 6, (t.mbx i).busy = ((b.mbx i).phase != .idle)) ∧
    ((b.pmc.booted = false ∨ b.pmc.ready = true) → Completes .ready s b) ∧
    (link = none → ring = false → Completes (.railOutOfRange ring link) s b) ∧
    (link = none → ring = true → Completes (.railOutOfRange ring link) s (bypassClose b)) ∧
    (∀ p, link = some p → Completes (.railOutOfRange ring link) s (linkLoss (if ring then bypassClose b else b) p)) ∧
    ((bypassClose b).kerard.bypassOpen = false)

/-- The power ladder (R472, R502 to R504, R510): each entry with its conditions, Dormant only by PME_Turn_Off, every exit into Twilight with its
wakes, and the restoration after Dormant, which brings the recipe stores and the decode table back (R257). -/
def Obligations.PowerLadder : Prop :=
  ∀ (s : State) (bad : BitVec 32), s.blk.running = true →
    let b := s.blk
    let goes (t : Block) : Prop := Completes .ladderEntry s (t.tally 155)
    let acked := b.emit (.message "PME_TO_Ack")
    (deviceIdle b = false → Completes .ladderEntry s b) ∧
    (deviceIdle b = true → b.pmc.st = 0 → goes (b.modPmc fun p => { p with st := 1 })) ∧
    let closes : Prop := flowstoneIdle b = true ∧ batchOpen b = true
    let dark : Prop := deviceIdle b = true ∧ b.pmc.st = 1 ∧ 2 ≤ b.pmc.floor ∧ staysAwake b = false
    (dark → closes → Completes .ladderEntry s (closeBatches b)) ∧
    (dark → ¬ closes → flowstoneClear b = true → marksLow b = true → goes (enterDark b)) ∧
    (dark → ¬ closes → flowstoneClear b = true → marksLow b = false → Completes .ladderEntry s (lowerMarks b)) ∧
    (dark → ¬ closes → flowstoneClear b = false → Completes .ladderEntry s b) ∧
    (deviceIdle b = true → b.pmc.st = 1 → (b.pmc.floor < 2 ∨ staysAwake b = true) → Completes .ladderEntry s b) ∧
    (deviceIdle b = true → b.pmc.st = 2 → 3 ≤ b.pmc.floor → staysAwake b = false → goes (enterDeep b)) ∧
    (deviceIdle b = true → b.pmc.st = 2 → (b.pmc.floor < 3 ∨ staysAwake b = true) → Completes .ladderEntry s b) ∧
    (deviceIdle b = true → (b.pmc.st = 3 ∨ b.pmc.st = 4) → Completes .ladderEntry s b) ∧
    ((enterDark b).pmc.st = 2 ∧ (enterDark b).pmc.on = 0x140001 ∧ (enterDark b).pmc.retain.getLsbD 23 = true ∧
      (∀ d < 8, b.pmc.on.getLsbD (2 + d) = true → (enterDark b).pmc.retain.getLsbD (2 + d) = true) ∧
      (enterDark b).kerard.bypassOpen = false) ∧
    ((enterDeep b).pmc.st = 3 ∧ (enterDeep b).pmc.on = 0x040000 ∧ (enterDeep b).keys.cache = [] ∧
      (enterDeep b).pmc.retain.getLsbD 0 = true ∧ (enterDeep b).pmc.retain.getLsbD 23 = false) ∧
    ((enterDormant b).pmc.st = 4 ∧ (enterDormant b).pmc.on = 0 ∧ (enterDormant b).pmc.retain = 0 ∧
      (enterDormant b).lantern.central = [] ∧ (enterDormant b).chisel = Chisel.reset ∧ (enterDormant b).gallery.tablesOk = false ∧
      (enterDormant b).stored = some { b.chisel with cores := [], deleted := [] }) ∧
    (b.hostOn = true → (b.pmc.st = 2 ∨ b.pmc.st = 3) → b.pmc.floor = 4 → staysAwake b = false → b.pcie.d3hot = true →
      deviceIdle acked = true → Completes .pmeTurnOff s ((enterDormant acked).tally 155)) ∧
    (b.hostOn = true → (b.pmc.st < 2 ∨ b.pmc.floor < 4 ∨ b.pcie.d3hot = false) → Completes .pmeTurnOff s acked) ∧
    (b.hostOn = false → Completes .pmeTurnOff s b) ∧
    (b.pmc.st = 0 → Completes .ladderExit s b) ∧
    (b.pmc.st = 1 → Completes .ladderExit s (b.modPmc fun p => { p with st := 0 })) ∧
    (b.pmc.st = 2 → ∃ t, exec .ladderExit s = .next { s with blk := t } ∧ t.pmc.st = 1 ∧ t.pmc.restoring = b.pmc.restoring ∧
      t.keys = b.keys ∧ ∀ d ∈ [1, 19, 23], t.pmc.on.getLsbD d = true ∨ t.pmc.warming.getLsbD d = true) ∧
    (b.pmc.st = 3 → ∃ t, exec .ladderExit s = .next { s with blk := t } ∧ t.pmc.st = 1 ∧ t.keys.refetching = !b.keys.pins.isEmpty ∧
      ∀ d ∈ [0, 1, 19, 20, 23], t.pmc.on.getLsbD d = true ∨ t.pmc.warming.getLsbD d = true) ∧
    (b.pmc.st = 4 → ∃ t, exec .ladderExit s = .next { s with blk := t } ∧ t.pmc.st = 1 ∧ t.pmc.restoring = true ∧
      ∀ d ∈ [0, 1, 18, 19, 20, 23], t.pmc.on.getLsbD d = true ∨ t.pmc.warming.getLsbD d = true) ∧
    (let restored (ok : Bool) : Block :=
      { b.modPmc (fun p => { p with restoring := false }) with
        chisel := { b.stored.getD b.chisel with cores := b.chisel.cores }, stored := none, gallery := { b.gallery with tablesOk := ok } }
     (b.pmc.restoring = true → Completes (.dormantRestoreComplete none) s (restored true)) ∧
     (b.pmc.restoring = true → Completes (.dormantRestoreComplete (some bad)) s
       ((restored false).report 0x0240 0 .w bad.toNat 0 0))) ∧
    (b.pmc.restoring = false → Completes (.dormantRestoreComplete none) s b)

/-- Domains on demand (R197, R201, R250, R505, R507 to R510): a wake that the ladder or work asks for is queued in the order of R507, granted at the head when every rail holds its cost, and over
when the clock ramp ends; after Dormant no cluster or quad stops warming before its stores are back; an idle engine domain goes off
unless PMC_KEEP holds it, FLW once its batches are closed and its marks lowered. -/
def Obligations.DomainWakes : Prop :=
  ∀ (s : State) (d : Fin 24) (ret : DdrReturn) (e t : Nat) (rest : List (Nat × Nat)), s.blk.running = true →
    let b := s.blk
    let bit : BitVec 24 := 1 <<< (d : Nat)
    let free : Prop := b.pmc.on.getLsbD d = false ∧ b.pmc.warming.getLsbD d = false
    let holds : Prop := ∀ r < 4, (wakeCost e).getD r 0 ≤ Tab.get b.pmc.tokens 0 r
    let cause : Prop := (d : Nat) < 2 ∨ 17 < (d : Nat) ∨ (d : Nat) ∈ chuckWakes b ∨ (d : Nat) ∈ engineWakes b
    let warms : Prop := b.pmc.restoring = false ∨ (d : Nat) < 2 ∨ 13 < (d : Nat)
    let engine : Prop := 2 ≤ (d : Nat) ∧ (d : Nat) ≤ 17 ∧ b.pmc.st ≤ 1 ∧ b.domainOn d = true ∧ b.pmc.keep.getLsbD d = false
    ((List.range 24).map wakeRank = [0, 2, 16, 17, 18, 19, 20, 21, 22, 23, 11, 12, 13, 14, 15, 9, 10, 6, 4, 5, 1, 7, 8, 3]) ∧
    ((List.range 24).map wakeCost = [[48, 16, 0, 0], [40, 12, 0, 0]] ++ List.replicate 8 [10, 4, 0, 0] ++ List.replicate 4 [140, 4, 0, 0] ++
      [[86, 2, 0, 0], [72, 0, 0, 0], [72, 0, 0, 0], [40, 4, 0, 0], [2, 0, 0, 0], [12, 10, 0, 55], [0, 0, 106, 0], [0, 0, 36, 0],
       [0, 0, 36, 0], [4, 52, 0, 0]]) ∧
    (free → cause → Completes (.wakeRequest d) s
      (b.modPmc fun p => { p with queue := insertWake d b.cyc p.queue, warming := p.warming ||| bit })) ∧
    (¬ free ∨ ¬ cause → Completes (.wakeRequest d) s b) ∧
    (∃ before after, b.pmc.queue = before ++ after ∧ insertWake d b.cyc b.pmc.queue = before ++ ((d : Nat), b.cyc) :: after ∧
      (∀ p ∈ before, wakeRank p.1 ≤ wakeRank d) ∧ ∀ p, after.head? = some p → wakeRank d < wakeRank p.1) ∧
    (b.pmc.queue = [] → Completes .wakeGrant s b) ∧
    (b.pmc.queue = (e, t) :: rest → holds → ∃ u, exec .wakeGrant s = .next { s with blk := u } ∧ u.pmc.queue = rest ∧
      u.pmc.granted = b.pmc.granted ++ [(e, t)] ∧ u.pmc.warming = b.pmc.warming ∧
      ∀ r < 4, Tab.get u.pmc.tokens 0 r = Tab.get b.pmc.tokens 0 r - (wakeCost e).getD r 0) ∧
    (b.pmc.queue = (e, t) :: rest → ¬ holds → Completes .wakeGrant s b) ∧
    (wfDdr ret = true → (¬ warms ∨ ∀ p ∈ b.pmc.granted, p.1 ≠ (d : Nat)) → Completes (.warmingEnd d ret) s (settle b)) ∧
    (wfDdr ret = true → warms → b.pmc.granted.find? (fun p => p.1 == (d : Nat)) = some ((d : Nat), t) →
      let up := b.modPmc fun p =>
        { p with granted := p.granted.filter (fun q => q.1 != (d : Nat)), on := p.on ||| bit, warming := p.warming &&& ~~~ bit
                 retain := p.retain &&& ~~~ bit
                 wmax := Tab.modify p.wmax 0 d (max (min (2 ^ 24 - 1) ((b.cyc - t) * 4 / 5))) }
      Completes (.warmingEnd d ret) s (settle (refreshHolds (domainUp up d ret)))) ∧
    let closes : Prop := (d : Nat) = 17 ∧ flowstoneIdle b = true ∧ batchOpen b = true
    (engine → closes → Completes (.domainOff d) s (settle (closeBatches b))) ∧
    (engine → ¬ closes → domainQuiet b d = true → ((d : Nat) ≠ 17 ∨ marksLow b = true) →
      Completes (.domainOff d) s (settle (refreshHolds (dropDomain b d)))) ∧
    ((dropDomain b d).domainOn d = false) ∧
    (engine → ¬ closes → domainQuiet b d = true → (d : Nat) = 17 → marksLow b = false → Completes (.domainOff d) s (settle (lowerMarks b))) ∧
    (¬ engine ∨ (¬ closes ∧ domainQuiet b d = false) → Completes (.domainOff d) s (settle b)) ∧
    ((cancelWakes b fun _ => true).pmc.queue = [])

/-! ### The pair -/

/-- The ports and the bypass (R465 to R470, R474, R499): training, its versions and generations, a failure and its repetition; opening, closing and
retrying the bypass; forwarding; and DISCOVER. -/
def Obligations.KerardPorts : Prop :=
  ∀ (s : State) (p : KPort) (f : Bytes) (node gen n : Nat) (lo hi : Nat × Nat) (good lanes2 : Bool),
    s.blk.running = true →
    let b := s.blk
    let k := b.kerard
    let on := b.domainOn (kDomain p) = true
    let link := b.link p
    let set (l : Link) : Block := b.modLink p fun _ => l
    let mayOpen : Prop := b.pmc.st ≤ 1 ∧ b.pmc.sysRst = false ∧ b.domainOn 21 = true ∧ b.domainOn 22 = true
    let opened := b.modKerard fun k => { k with bypassOpen := true, bypassTrying := true }
    let shut := b.modKerard fun k => { k with bypassOpen := false, bypassTrying := false, linkA := { k.linkA with st := .down, gen2 := false }
                                              linkB := { k.linkB with st := .down, gen2 := false } }
    let shares : Prop := lo.1 < 1 ∧ 1 ≤ hi.1 ∨ lo.1 = 1 ∧ lo.2 ≤ 1 ∧ 1 ≤ hi.1
    (on → link.st = .down → k.bypassOpen = true → ∃ t, exec (.kerardTrain p good lanes2) s = .next { s with blk := t } ∧
      (t.link p).st = .training ∧ (t.link p).retrains = min 0xFFFF (link.retrains + 1) ∧ t.out.length = b.out.length + 1) ∧
    (on → link.st = .down → k.bypassOpen = false → Completes (.kerardTrain p good lanes2) s b) ∧
    (on → link.st = .training → good = false → Completes (.kerardTrain p good lanes2) s (set { link with st := .down })) ∧
    (on → link.st = .training → good = true → link.peerGen ≠ 0 → ∃ t, exec (.kerardTrain p good lanes2) s = .next { s with blk := t } ∧
      (t.link p).st = .up ∧ ((t.link p).gen2 = true ↔ 2 ≤ link.peerGen ∧ k.gen1 = false ∧ lanes2 = true) ∧
      t.link (otherPort p) = b.link (otherPort p)) ∧
    ((link.st = .training ∨ link.st = .version) → shares → Completes (.version p node gen lo hi) s (set
      { link with st := .training, lmaj := 1, lmin := if 1 < hi.1 then 1 else min 1 hi.2, neighbour := node, peerGen := gen })) ∧
    ((link.st = .training ∨ link.st = .version) → ¬ shares →
      Completes (.version p node gen lo hi) s (set { link with st := .version, neighbour := node })) ∧
    (on → (link.st = .down ∨ link.st = .version) → k.bypassOpen = true → ∃ t, exec (.retrainTimer p) s = .next { s with blk := t } ∧
      (t.link p).st = .training) ∧
    (mayOpen → k.bypassOpen = false → Completes .bypassOpen s opened) ∧
    ((¬ mayOpen ∨ k.bypassOpen = true) → Completes .bypassOpen s b) ∧
    (k.bypassTrying = true → (b.linkUp .ka = false ∨ b.linkUp .kb = false) → Completes .bypassUpTimeout s shut) ∧
    ((k.bypassTrying = false ∨ (b.linkUp .ka = true ∧ b.linkUp .kb = true)) → Completes .bypassUpTimeout s b) ∧
    (k.bypassTrying = true → mayOpen → k.bypassOpen = false → Completes .bypassRetry s opened) ∧
    (k.bypassTrying = false → Completes .bypassRetry s b) ∧
    (b.linkUp p = true → Completes (.kerardLinkLoss p) s (set { link with st := .down, gen2 := false })) ∧
    (b.linkUp p = false → Completes (.kerardLinkLoss p) s b) ∧
    (on → b.linkUp p = true → k.bypassOpen = true → fWhole f = true → fDst f ≠ k.node →
      (2 ≤ fTtl f → fKind f ≠ 0x01 → b.linkUp (otherPort p) = true → Completes (.frameForward p f) s
        (b.emit (.frame (otherPort p) (patch f 5 (leBytes 1 (fTtl f - 1)))))) ∧
      ((fTtl f ≤ 1 ∨ fKind f = 0x01) → Completes (.frameForward p f) s b)) ∧
    (on → fDst f = k.node → Completes (.frameForward p f) s b) ∧
    (let x := frameHeader 0x02 0 k.node 0xFF b.pairNo b.frameClaim 0 16 ++ (b.device ++ leBytes 1 k.node ++ leBytes 1 (b.setting 2) ++
       leBytes 1 b.pairNo ++ leBytes 1 (proleCode k.role) ++ zeros 4) ++ zeros 16
     b.device.length = 8 → b.linkUp .ka = true → b.linkUp .kb = true → DmaOpen b 76 .read → DmaOpen b 77 .read →
       Completes .discoverSend s ((b.emit (.frame .ka x)).emit (.frame .kb x))) ∧
    let shown : Prop := on ∧ b.linkUp p = true ∧ k.bypassOpen = true ∧ fWhole f = true ∧ fKind f = 0x02 ∧ fDst f = 0xFF ∧ k.node ≠ 0xFF ∧
      DmaOpen b (kerardMaster p) .write
    (let d := (fPayload f).take 8
     shown → fSrc f = k.node →
       (d ≠ b.device → Completes (.discover p f) s (settle (kForward (b.modKerard fun k => { k with dupId := true }) p f))) ∧
       (d = b.device → Completes (.discover p f) s (settle (kForward b p f)))) ∧
    (let x := fPayload f
     let d := x.take 8
     let id := leField x 8 1
     let old := Tab.get k.seen Seen.reset id
     let hops := 8 - fTtl f
     let now : Seen := { device := d, role := leField x 9 1, pairNo := leField x 10 1, pairRole := leField x 11 1, live := true
                         viaA := if p = .ka then some hops else old.viaA, viaB := if p = .kb then some hops else old.viaB }
     let noted := b.modKerard fun k => { k with seen := Tab.set k.seen id now }
     shown → k.st ≠ .joining → k.joinScalar = [] → fSrc f ≠ k.node → Completes (.discover p f) s (settle (kForward noted p f))) ∧
    (∀ x, Tab.get? k.seen n = some x → Completes (.discoverSeenExpiry n) s
      (b.modKerard fun k => { k with seen := Tab.set k.seen n { x with live := false, viaA := none, viaB := none } })) ∧
    (Tab.get? k.seen n = none → Completes (.discoverSeenExpiry n) s b)

/-- Frames under a link key and heartbeats (R473, R475, R487 to R489, R492): what makes the device drop or accept a frame, what a verified
heartbeat renews, a missed interval, isolation and the return from it, and a referee's declaration of a failure. -/
def Obligations.Heartbeats : Prop :=
  ∀ (s : State) (p : KPort) (f : Bytes) (e : KEnd) (t : Block) (pn : Nat) (standby : Bool) (r : RefPair) (who : Party),
    let b := s.blk
    let k := b.kerard
    let check := kVerify b f (cmacOpens b f)
    let beat (u : Block) : Prop := Completes (.heartbeat p f) s (settle (joinAnswered u))
    let missed := if standby then r.missS + 1 else r.missA + 1
    let noted := modServed b pn fun r => if standby then { r with missS := missed } else { r with missA := missed }
    let alone : Prop := if k.refHost then k.hostLost = true ∧ 20 * k.hostTimeout ≤ k.missPeer else 8 ≤ k.missPeer ∧ 8 ≤ k.missRef
    (Accepts b f (cmacOpens b f) e t → check = (some e, t)) ∧
    (claimDrops b f = true → check = (none, dropClaim b)) ∧
    (claimDrops b f = false → kSender b f = none → check = (none, dropAuth b)) ∧
    (claimDrops b f = false → kSender b f = some e → cmacOpens b f e = false → check = (none, dropAuth b)) ∧
    (claimDrops b f = false → kSender b f = some e → cmacOpens b f e = true →
      (fSeq f < (kSeqOf b e).accepted ∨ fSeq f = 0) → check = (none, dropAuth b)) ∧
    (claimDrops b f = false → kSender b f = some e → cmacOpens b f e = true → fSeq f ≠ 0 → fSeq f = (kSeqOf b e).accepted →
      check = (none, b)) ∧
    ((dropAuth b).kerard.dropsAuth = min 0xFFFF (k.dropsAuth + 1) ∧ (dropClaim b).kerard.dropsClaim = min 0xFFFF (k.dropsClaim + 1)) ∧
    (Arrives s p f 0x11 → Accepts b f (cmacOpens b f) .peer t →
      beat (t.modKerard fun k => { k with missPeer := 0, peerOk := true, lastBeat := t.now })) ∧
    (Arrives s p f 0x11 → Accepts b f (cmacOpens b f) .referee t →
      let u := t.modKerard fun k => { k with missRef := 0, refOk := true, lastBeat := t.now }
      let x := fPayload f
      beat (if leField x 4 1 = u.kerard.node ∧ leField x 2 2 = u.kerard.held ∧ u.kerard.role = .active then rejoinService u else u)) ∧
    (Arrives s p f 0x11 → check.1 = none → beat check.2) ∧
    (b.running = true → b.paired = true → k.linkKey ≠ [] → Completes (.heartbeatMissed .peer) s
      (settle (isolateIfAlone (b.modKerard fun k => { k with missPeer := k.missPeer + 1, peerOk := false })))) ∧
    (b.running = true → b.paired = true → k.refHost = false → k.refKey ≠ [] → Completes (.heartbeatMissed .referee) s
      (settle (isolateIfAlone (b.modKerard fun k => { k with missRef := k.missRef + 1, refOk := false })))) ∧
    (b.running = true → b.paired = false → who = .peer ∨ who = .referee → Completes (.heartbeatMissed who) s (settle b)) ∧
    (b.running = true → b.servedPair pn = some r → missed ≠ 8 → Completes (.heartbeatMissed (.served pn standby)) s (settle noted)) ∧
    (b.running = true → b.servedPair pn = some r → missed = 8 → (if standby then r.failedS else r.failedA) = false →
      Completes (.heartbeatMissed (.served pn standby)) s (settle (declareFailed noted pn standby))) ∧
    (k.role = .active → (k.st = .syncing ∨ k.st = .inSync ∨ k.st = .degraded) → alone → b.chuck.items = [] → k.joinMbx = none →
      (isolateIfAlone b).kerard.st = .isolated ∧ (isolateIfAlone b).kerard.before = k.st ∧
      (isolateIfAlone b).kerard.egressClosed = true ∧ (isolateIfAlone b).kerard.held = k.held) ∧
    (¬ alone → isolateIfAlone b = b) ∧
    (k.st = .isolated → (rejoinService b).kerard.st = k.before ∧ (rejoinService b).kerard.egressClosed = false) ∧
    (b.servedPair pn = some r → r.claim ≠ 0 → r.claim < 65535 → r.failedS = false → r.sSync = true →
      ((declareFailed b pn false).servedPair pn).map (fun x => (x.claim, x.holder, x.activeNode, x.failedS)) =
        some (r.claim + 1, r.standbyNode, r.standbyNode, true)) ∧
    (b.servedPair pn = some r → r.claim ≠ 0 → r.claim < 65535 → r.failedA = false →
      ((declareFailed b pn true).servedPair pn).map (fun x => (x.claim, x.holder, x.activeNode, x.failedS)) =
        some (r.claim + 1, r.activeNode, r.activeNode, true)) ∧
    (b.running = true → (b.life = 4 ∨ b.life = 5) → Completes .heartbeatSend s b) ∧
    (b.running = true → b.life ≠ 4 → b.life ≠ 5 → k.role ≠ .none → k.linkKey ≠ [] → k.st ≠ .isolated → k.refHost = true → k.served = [] →
      Completes .heartbeatSend s (kSend b .peer 0x11 (leBytes 1 (proleCode k.role) ++ leBytes 1 (pstateCode k.st) ++ leBytes 2 k.held ++
        leBytes 1 (if k.role = .active then k.node else k.peerNode) ++ zeros 1 ++ leBytes 6 k.mseq ++ zeros 4) true))

/-- Mirroring (R474, R476, R480, R483, R484): a standby takes in commits by MSEQ and headers by number and acknowledges; an acknowledgement frees
what waited for it, ends the resynchronisation or records a header; a resend; a resynchronisation's batches; and a standby's leaves. -/
def Obligations.Mirroring : Prop :=
  ∀ (s : State) (p : KPort) (f iv x : Bytes) (setups : List Setup) (last : Bool) (t : Block) (o : MirrorOut) (ret : DdrReturn) (r : Nat)
      (m : Mbx) (rest : List (Nat × Mbx)),
    let b := s.blk
    let k := b.kerard
    let u := t.kerard
    let body := transportOpen b f iv
    let mirrored (kind : Nat) : Prop := Arrives s p f kind ∧ body = some x ∧
      Accepts b f (fun e => e == .peer && body.isSome) .peer t ∧ u.role = .standby ∧ fClaim f = claimEntry t ∧
      (u.st = .syncing ∨ u.st = .inSync)
    let n := leField x 0 6
    let i := chainOfScope (leField x 0 1)
    let batch := leField (x.drop 16) 8 8
    let acked (kind : Nat) : Prop := Arrives s p f 0x22 ∧ Accepts b f (cmacOpens b f) .peer t ∧ u.role = .active ∧
      leField (fPayload f) 0 1 = kind
    let no := leField (fPayload f) 8 8
    let scope := leField (fPayload f) 1 1
    let ended := b.modKerard fun k => { k with leafOut := rest }
    (wfSetups setups = true → mirrored 0x20 → n ≤ u.mseq →
      Completes (.mirror p f iv setups last) s (settle (mirrorAckSend t 0 0 n))) ∧
    (wfSetups setups = true → mirrored 0x20 → u.mseq < n → Tab.get? u.early n = none →
      let held := t.modKerard fun k => { k with early := Tab.set k.early n ⟨x, setups, last, false⟩ }
      Completes (.mirror p f iv setups last) s (settle (applyMirrors held.kerard.early.length held))) ∧
    (wfSetups setups = true → Arrives s p f 0x20 → claimDrops b f = false → kSender b f = some .peer → body = none →
      Completes (.mirror p f iv setups last) s (settle (dropAuth b))) ∧
    (mirrored 0x21 → Tab.get? u.headers (chainIx i) = none → Completes (.mirrorHdr p f iv) s (settle (mirrorAckSend
      (t.modKerard fun k => { k with headers := Tab.set k.headers (chainIx i) (batch, x.drop 16) }) 1 (leField x 0 1) batch))) ∧
    (mirrored 0x21 → ∀ old e, Tab.get? u.headers (chainIx i) = some (old, e) → batch ≤ old →
      Completes (.mirrorHdr p f iv) s (settle (mirrorAckSend t 1 (leField x 0 1) batch))) ∧
    (acked 0 → let hit := fun (q : MirrorOut) => q.hdrScope.isNone && q.no == no
      Completes (.mirrorAck p f) s (settle (t.modKerard fun k =>
        { k with out := k.out.filter (fun q => !hit q), released := k.released ++ (k.out.filter hit).flatMap (·.waiters) }))) ∧
    (acked 1 → Completes (.mirrorAck p f) s (settle (modHeader
      (t.modKerard fun k => { k with out := k.out.filter fun q => !(q.hdrScope == some scope && q.no == no) })
      (chainOfScope scope) no fun h => { h with mirrored := true }))) ∧
    (acked 2 → u.resyncing = true → u.lastSync ≠ none → ∃ v, exec (.mirrorAck p f) s = .next { s with blk := settle v } ∧
      v.kerard.st = .inSync ∧ v.kerard.resyncing = false ∧ v.kerard.lastSync = none) ∧
    (b.running = true → k.out.find? (fun q => q.hdrScope == o.hdrScope && q.no == o.no) = some o → b.mirroring = true →
      Completes (.mirrorResend o.hdrScope o.no) s (transmit b o true)) ∧
    (b.running = true → (∀ q ∈ k.out, q.hdrScope ≠ o.hdrScope ∨ q.no ≠ o.no) → Completes (.mirrorResend o.hdrScope o.no) s b) ∧
    (wfDdr ret = true → b.running = true → b.domainOn 19 = true → k.resyncing = false →
      Completes (.resyncCopy ret) s (settle b)) ∧
    (wfDdr ret = true → b.running = true → b.domainOn 19 = true → k.resyncing = true → k.resync = [r] → b.mirroring = true →
      ∀ v vb l, readRecord b ret r = (.ok v vb, l) →
      let c := k.mseq + 1
      Completes (.resyncCopy ret) s (settle (mirrorSend (b.modKerard fun k => { k with mseq := c, resync := [], lastSync := some c })
        { no := c, hdrScope := none, sync := true, waiters := []
          payload := mirrorPayload c [mirrorEntry r 0 (verVersion v) (verClass v) 0 l] }))) ∧
    (Arrives s p f 0x23 → Accepts b f (cmacOpens b f) .peer t → u.role = .active → (fPayload f).length = 64 →
      (entryCheck t .system = .granted → Completes (.leaf p f) s
        (settle (queueLeaf (takeEntry t .system) .system { src := .remote (fSeq f), body := fPayload f }))) ∧
      (entryCheck t .system ≠ .granted → Completes (.leaf p f) s (settle (leafAckSend t 0 0x104)))) ∧
    (Arrives s p f 0x24 → Accepts b f (cmacOpens b f) .peer t →
      Completes (.leafAck p f) s (settle (leafOutDone t (leField (fPayload f) 6 2 == 0)))) ∧
    (k.leafOut = (r, m) :: rest → (b.mbx (mbxNo m)).await = .remoteLeaf r →
      leafOutDone b true = ended.modMbx (mbxNo m) fun x => { x with await := .nothing, leaf := .accepted 0 }) ∧
    (b.running = true → k.leafOut = [] → Completes .leafAckTimeout s (settle b)) ∧
    (b.running = true → k.leafOut = (r, m) :: rest → (b.mbx (mbxNo m)).await = .remoteLeaf r → Completes .leafAckTimeout s
      (settle ((failMailbox ended m 0x104).modMbx (mbxNo m) fun x => { x with await := .nothing, leaf := .none })))
end

