-- ==== Sys2Proof/Laws/Mem.lean ====
section
/-! SUPPORT. Laws of the addressed buffers: reading after writing, and that every operation keeps the canonical form. -/
namespace Sys2Proof.Machine

theorem Memory.read_cons (p : Host.Cell) (m : Memory) (a : Nat) : Memory.read (p :: m) a = if p.1 = a then p.2 else Memory.read m a := by
  by_cases h : p.1 = a <;> simp [Memory.read, h]

@[simp] theorem Memory.read_nil (a : Nat) : Memory.read [] a = 0 := rfl

theorem Memory.read_insert (m : Memory) (a x : Nat) (v : Byte) (h : ∀ p ∈ m, p.1 ≠ a) :
    Memory.read (Memory.insert a v m) x = if x = a then v else Memory.read m x := by
  induction m with
  | nil => simp [Memory.insert, Memory.read_cons, eq_comm]
  | cons p r ih =>
    have hp := h p (by simp)
    have ihr := ih fun q hq => h q (by simp [hq])
    unfold Memory.insert
    split
    · rw [Memory.read_cons, ihr, Memory.read_cons]
      by_cases hx : x = a
      · simp [hx, hp]
      · simp [hx]
    · rw [Memory.read_cons]
      simp [eq_comm]

theorem Memory.read_filter (m : Memory) (a x : Nat) :
    Memory.read (m.filter fun p => p.1 != a) x = if x = a then 0 else Memory.read m x := by
  induction m with
  | nil => simp
  | cons p r ih =>
    rw [List.filter_cons, Memory.read_cons]
    by_cases hp : p.1 = a
    · simp only [hp, bne_self_eq_false, Bool.false_eq_true, if_false, ih]
      by_cases hx : x = a
      · simp [hx]
      · simp [hx, Ne.symm hx]
    · have : (p.1 != a) = true := by simp [hp]
      simp only [this, if_true, Memory.read_cons, ih]
      by_cases hx : x = a
      · simp [hx, hp]
      · simp [hx]

theorem Memory.ne_of_mem_filter (m : Memory) (a : Nat) : ∀ p ∈ m.filter fun p => p.1 != a, p.1 ≠ a := by
  intro p hp
  simpa using (List.mem_filter.mp hp).2

/-- Reading after a write: the byte written at its address, every other byte as before. -/
theorem Memory.read_write (m : Memory) (a x : Nat) (v : Byte) : Memory.read (Memory.write m a v) x = if x = a then v else Memory.read m x := by
  unfold Memory.write
  by_cases hv : v = 0
  · simp [hv, Memory.read_filter]
  · simp only [hv, if_false]
    rw [Memory.read_insert _ _ _ _ (Memory.ne_of_mem_filter m a), Memory.read_filter]
    by_cases hx : x = a <;> simp [hx]

theorem Memory.mem_insert (m : Memory) (a : Nat) (v : Byte) (p : Host.Cell) : p ∈ Memory.insert a v m → p = (a, v) ∨ p ∈ m := by
  induction m with
  | nil => simp [Memory.insert]
  | cons q r ih =>
    unfold Memory.insert
    split
    · intro h
      rcases List.mem_cons.mp h with h | h
      · exact .inr (by simp [h])
      · rcases ih h with h | h
        · exact .inl h
        · exact .inr (by simp [h])
    · intro h
      rcases List.mem_cons.mp h with h | h
      · exact .inl h
      · exact .inr h

theorem Memory.wf_insert (m : Memory) (a : Nat) (v : Byte) (hv : v ≠ 0) (hw : Memory.wf m) (h : ∀ p ∈ m, p.1 ≠ a) :
    Memory.wf (Memory.insert a v m) := by
  refine ⟨?_, fun p hp => ?_⟩
  · induction m with
    | nil => simp [Memory.insert]
    | cons q r ih =>
      have hq := h q (by simp)
      obtain ⟨h1, h2⟩ := hw
      rw [List.pairwise_cons] at h1
      unfold Memory.insert
      split
      · rename_i hlt
        rw [List.pairwise_cons]
        refine ⟨fun p hp => ?_, ih ⟨h1.2, fun p hp => h2 p (by simp [hp])⟩ fun p hp => h p (by simp [hp])⟩
        rcases Memory.mem_insert r a v p hp with hp | hp
        · simp [hp, hlt]
        · exact h1.1 p hp
      · rename_i hlt
        have ha : a < q.1 := by omega
        rw [List.pairwise_cons]
        refine ⟨fun p hp => ?_, by rw [List.pairwise_cons]; exact h1⟩
        rcases List.mem_cons.mp hp with hp | hp
        · simp [hp, ha]
        · exact Nat.lt_trans ha (h1.1 p hp)
  · rcases Memory.mem_insert m a v p hp with hp | hp
    · rw [hp]; exact hv
    · exact hw.2 p hp

/-- A write keeps the canonical form. -/
theorem Memory.wf_write (m : Memory) (a : Nat) (v : Byte) (h : Memory.wf m) : Memory.wf (Memory.write m a v) := by
  have hf : Memory.wf (m.filter fun p => p.1 != a) :=
    ⟨List.Pairwise.filter _ h.1, fun p hp => h.2 p (List.mem_filter.mp hp).1⟩
  unfold Memory.write
  by_cases hv : v = 0
  · simpa [hv] using hf
  · simp only [hv, if_false]
    exact Memory.wf_insert _ a v hv hf (Memory.ne_of_mem_filter m a)

/-- Writing a string of bytes keeps the canonical form. -/
theorem Memory.wf_writeBytes (d : Bytes) : ∀ (m : Memory) (a : Nat), Memory.wf m → Memory.wf (Memory.writeBytes m a d) := by
  induction d with
  | nil => intro m a h; exact h
  | cons x r ih => intro m a h; exact ih _ _ (Memory.wf_write m a x h)

/-- Empty buffers are in canonical form: so are those of the mailboxes and the cores at reset. -/
theorem Memory.wf_nil : Memory.wf [] := ⟨List.Pairwise.nil, by simp⟩

/-- The cores' buffers at reset. -/
theorem reset_core_wf (k : Nat) :
    Memory.wf (State.reset.blk.core k).scratch ∧ Memory.wf (State.reset.blk.core k).window ∧ Memory.wf (State.reset.blk.core k).context :=
  ⟨Memory.wf_nil, Memory.wf_nil, Memory.wf_nil⟩

end Sys2Proof.Machine
end

