-- ==== Sys2Proof/Laws/Rows.lean ====
section
/-! SUPPORT. What the conditions under which a family's commands have their effect come to, said once: a Chisel instruction that issues, an operation
that is ready, a mailbox's command that passes its checks, a frame that a port accepts. -/
namespace Sys2Proof.Machine

/-- An instruction that issues has the course of its meaning on the device after its INSTR event. -/
theorem issue_eq {s : State} {k : Fin 64} {cond : BitVec 4} (h : Issues s k cond) (f : Block → Course) :
    chiselRow k cond f s.blk = takeCourse k (f (decoded s.blk k)) := by
  simp [chiselRow, awake, h.live, h.cluster, runInstr, h.core, h.holds, decoded]

/-- An instruction that changes its core alone. -/
theorem issue_run {s : State} {k : Fin 64} {cond : BitVec 4} (h : Issues s k cond) (cost : Nat) (g : Core → Core) :
    chiselRow k cond (onCore k cost g) s.blk = issued s.blk k cost g := by
  rw [issue_eq h]; rfl

/-- An operation that is ready has the effect of its row. -/
theorem opRun_eq {s : State} {r : Requester} {j : Job} {op : Nat} (h : Ready s r j op) (row : OpRow) (hr : opRow op = some row) :
    liveSettle (opRun · op r) s.blk = settle (verdictOf s.blk r j (row.run (begun s r j) r j)) := by
  obtain ⟨h1, h2, h3, h4, h5, h6⟩ := h
  cases j
  simp only at h3 h4
  subst h3 h4
  simp only [liveSettle, h1, if_true, opRun, h2, hr, h5]
  cases r with
  | item n =>
    have hs : (directItem? s.blk (.item n)).isNone = false := by
      have := h6 n rfl
      cases hd : directItem? s.blk (.item n) <;> simp_all
    simp [begun, hs] <;> rfl
  | ticket k t =>
    simp [begun] <;> rfl

/-- A command that is called runs its first stage on the device its checks leave. -/
theorem called_run {s : State} {m : Mbx} {code : Nat} {p : Bytes} {b : Block} (h : Called s m code p b) (f : Block → Bytes → Res) :
    ∃ scope, startCommand s.blk m code f = settleRes m scope (f b p) := by
  obtain ⟨r, hr, h1, h2, h3, h4⟩ := h.admitted
  have hb : ¬ (s.blk.pmc.restoring = true ∧ code ≠ 1) := by rcases h.restored with q | q <;> simp [q]
  have hw : ¬ (makesLeaf s.blk r = true ∧ claimless s.blk = true) := by
    rintro ⟨q, q'⟩; have := h1 q; simp [q'] at this
  refine ⟨namedScope (entered s.blk m r) ((entered s.blk m r).mbx (mbxNo m)), ?_⟩
  simp only [startCommand, h.starts, h.header, hr, hb, if_false, hw, Bool.not_true]
  by_cases hl : makesLeaf s.blk r = true
  · have e1 : (takeEntry s.blk .system).modMbx (mbxNo m) (fun x => { x with leaf := .entry }) = entered s.blk m r := by
      simp [entered, hl]
    simp only [hl, (h1 hl).2, Bool.not_true, Bool.false_eq_true, if_false, e1, h2, execCommand, h3, h4]
  · have e1 : entered s.blk m r = s.blk := by simp [entered, hl]
    rw [e1] at h2 h3 h4 ⊢
    simp [hl, h2, execCommand, h3, h4]

/-- A status other than AUTH_FAILED ends a command whatever it named. -/
theorem finish_scope (b : Block) (m : Mbx) (st d : Nat) (p : Bytes) (a c : Nat) (h : st ≠ 0x0101) :
    finishCommand b m st d p a = finishCommand b m st d p c := by
  unfold finishCommand; simp [show st ≠ stAuthFailed from h]

/-- A command that is called and answers at once. -/
theorem called_answers {s : State} {m : Mbx} {code : Nat} {p : Bytes} {b : Block} (h : Called s m code p b) (f : Block → Bytes → Res)
    (t : Block) (st : Nat) (pay : Bytes) (hf : f b p = .reply t st 0 pay) (hs : st ≠ 0x0101) :
    liveSettle (fun b => startCommand b m code f) s.blk = answered t m st pay := by
  obtain ⟨sc, e⟩ := called_run h f
  simp [liveSettle, h.live, e, hf, settleRes, answered]; rw [finish_scope _ _ _ _ _ _ _ hs]

/-- A command that is called and goes on in a further stage. -/
theorem called_waits {s : State} {m : Mbx} {code : Nat} {p : Bytes} {b : Block} (h : Called s m code p b) (f : Block → Bytes → Res)
    (t : Block) (hold : List Bytes) (hf : f b p = .wait t hold) :
    liveSettle (fun b => startCommand b m code f) s.blk = staged t m hold := by
  obtain ⟨sc, e⟩ := called_run h f
  simp [liveSettle, h.live, e, hf, settleRes, staged]

/-- A frame that an endpoint's check accepts verifies. -/
theorem accepts_verify {b : Block} {f : Bytes} {authentic : KEnd → Bool} {e : KEnd} {t : Block} (h : Accepts b f authentic e t) :
    kVerify b f authentic = (some e, t) := by
  have h1 : fSeq f ≠ (kSeqOf b e).accepted := Nat.ne_of_gt h.newer
  have h2 : ¬ fSeq f < (kSeqOf b e).accepted := Nat.not_lt.mpr (Nat.le_of_lt h.newer)
  have h3 : fSeq f ≠ 0 := Nat.ne_of_gt (Nat.lt_of_le_of_lt (Nat.zero_le _) h.newer)
  simp [kVerify, h.claim, h.sender, h.opens, h1, h2, h3, h.left]

/-- A transfer that the engine's Ferrule admits goes through and reports nothing (R411). -/
theorem access_open {b : Block} {m : Nat} {k : AccessKind} (h : DmaOpen b m k) (who : Option Nat) :
    ferruleAccess b m k (dmaAddress m) who = (true, b) := by
  have h : rulesAdmit (b.ferrule m).active (dmaAddress m / granuleBytes m) k = true := h
  simp [ferruleAccess, h]

/-- Bytes that come in through an open Ferrule are those that were sent. -/
theorem dmaRead_open {b : Block} {c : Nat} (h : DmaOpen b (hostMaster c) .write) (x : DmaRead) : dmaRead b c x = (x, b) := by
  cases x <;> simp [dmaRead, dmaIn, access_open h]

/-- Bytes that go out through an open Ferrule are written as they are. -/
theorem dmaWrite_open {b : Block} {m : Nat} (h : DmaOpen b m .read) (who : Option Nat) (fn addr : Nat) (d : Bytes) :
    b.dmaWrite m who fn addr d = b.emit (.write fn addr d) := by
  simp [Block.dmaWrite, dmaOut, access_open h]

/-- A frame that arrives is taken in. -/
theorem arrives_intake {s : State} {p : KPort} {f : Bytes} {kind : Nat} (h : Arrives s p f kind) (g : Block → Block) :
    kIntake s.blk p f kind g = g s.blk := by
  simp [kIntake, kTake, access_open h.admits, h.up, h.node, h.whole, h.kind, h.dst]

/-- A frame under a link key that arrives and is accepted has its effect. -/
theorem arrives_auth {s : State} {p : KPort} {f : Bytes} {kind : Nat} {e : KEnd} {t : Block} (h : Arrives s p f kind)
    (ha : Accepts s.blk f (cmacOpens s.blk f) e t) (g : Block → KEnd → Block) : kAuth s.blk p f kind g = g t e := by
  simp [kAuth, arrives_intake h, accepts_verify ha]

/-- A port's commands have their effect while its domain is on. -/
theorem arrives_live {s : State} {p : KPort} {f : Bytes} {kind : Nat} (h : Arrives s p f kind) (g : Block → Block) :
    kerardLive p g s.blk = g s.blk := by
  simp [kerardLive, awake, h.live, h.domain]

end Sys2Proof.Machine
end

