-- ==== Sys2Proof/Laws/Tab.lean ====
section
/-! SUPPORT. Laws of tables: reading after setting, and that setting keeps the order. -/
namespace Sys2Proof.Machine

/-- Indices strictly rise. -/
abbrev Tab.wf {α : Type} (t : Tab α) : Prop := t.Pairwise fun p q => p.1 < q.1

@[simp] theorem Tab.get?_nil {α : Type} (i : Nat) : Tab.get? ([] : Tab α) i = none := rfl

@[simp] theorem Tab.get_nil {α : Type} (d : α) (i : Nat) : Tab.get ([] : Tab α) d i = d := rfl

theorem Tab.get?_cons {α : Type} (p : Nat × α) (t : Tab α) (i : Nat) :
    Tab.get? (p :: t) i = if p.1 = i then some p.2 else Tab.get? t i := by
  by_cases h : p.1 = i <;> simp [Tab.get?, h]

theorem Tab.get?_insertSorted_ne {α : Type} (t : Tab α) {i j : Nat} (v : α) (h : j ≠ i) :
    Tab.get? (Tab.insertSorted i v t) j = Tab.get? t j := by
  induction t with
  | nil => simp [Tab.insertSorted, Tab.get?_cons, Ne.symm h]
  | cons p r ih =>
    unfold Tab.insertSorted
    split
    · simp [Tab.get?_cons, ih]
    · simp [Tab.get?_cons, Ne.symm h]

theorem Tab.get?_insertSorted_self {α : Type} (t : Tab α) (i : Nat) (v : α) (h : ∀ p ∈ t, p.1 ≠ i) :
    Tab.get? (Tab.insertSorted i v t) i = some v := by
  induction t with
  | nil => simp [Tab.insertSorted, Tab.get?_cons]
  | cons p r ih =>
    have hp := h p (by simp)
    unfold Tab.insertSorted
    split
    · simp [Tab.get?_cons, hp, ih fun q hq => h q (by simp [hq])]
    · simp [Tab.get?_cons]

@[simp] theorem Tab.get?_erase_self {α : Type} (t : Tab α) (i : Nat) : Tab.get? (Tab.erase t i) i = none := by
  induction t with
  | nil => rfl
  | cons p r ih =>
    by_cases h : p.1 = i
    · simpa [Tab.erase, h] using ih
    · have : Tab.erase (p :: r) i = p :: Tab.erase r i := by simp [Tab.erase, h]
      rw [this, Tab.get?_cons, if_neg h, ih]

theorem Tab.get?_erase_ne {α : Type} (t : Tab α) {i j : Nat} (h : j ≠ i) : Tab.get? (Tab.erase t i) j = Tab.get? t j := by
  induction t with
  | nil => rfl
  | cons p r ih =>
    by_cases hp : p.1 = i
    · have : Tab.erase (p :: r) i = Tab.erase r i := by simp [Tab.erase, hp]
      rw [this, ih, Tab.get?_cons, if_neg (by omega)]
    · have : Tab.erase (p :: r) i = p :: Tab.erase r i := by simp [Tab.erase, hp]
      rw [this, Tab.get?_cons, Tab.get?_cons, ih]

theorem Tab.ne_of_mem_erase {α : Type} (t : Tab α) (i : Nat) : ∀ p ∈ Tab.erase t i, p.1 ≠ i := by
  intro p hp
  simpa [Tab.erase] using (List.mem_filter.mp hp).2

@[simp] theorem Tab.get?_set_self {α : Type} (t : Tab α) (i : Nat) (v : α) : Tab.get? (Tab.set t i v) i = some v :=
  Tab.get?_insertSorted_self _ _ _ (Tab.ne_of_mem_erase t i)

theorem Tab.get?_set_ne {α : Type} (t : Tab α) {i j : Nat} (v : α) (h : j ≠ i) : Tab.get? (Tab.set t i v) j = Tab.get? t j := by
  rw [Tab.set, Tab.get?_insertSorted_ne _ _ h, Tab.get?_erase_ne _ h]

@[simp] theorem Tab.get_set_self {α : Type} (t : Tab α) (d : α) (i : Nat) (v : α) : Tab.get (Tab.set t i v) d i = v := by
  simp [Tab.get]

theorem Tab.get_set_ne {α : Type} (t : Tab α) (d : α) {i j : Nat} (v : α) (h : j ≠ i) :
    Tab.get (Tab.set t i v) d j = Tab.get t d j := by simp [Tab.get, Tab.get?_set_ne t v h]

@[simp] theorem Tab.get_modify_self {α : Type} (t : Tab α) (d : α) (i : Nat) (f : α → α) :
    Tab.get (Tab.modify t d i f) d i = f (Tab.get t d i) := by simp [Tab.modify]

theorem Tab.get_modify_ne {α : Type} (t : Tab α) (d : α) {i j : Nat} (f : α → α) (h : j ≠ i) :
    Tab.get (Tab.modify t d i f) d j = Tab.get t d j := by simp [Tab.modify, Tab.get_set_ne t d _ h]

theorem Tab.mem_insertSorted {α : Type} (t : Tab α) (i : Nat) (v : α) (p : Nat × α) :
    p ∈ Tab.insertSorted i v t → p = (i, v) ∨ p ∈ t := by
  induction t with
  | nil => simp [Tab.insertSorted]
  | cons q r ih =>
    unfold Tab.insertSorted
    split
    · intro h
      rcases List.mem_cons.mp h with h | h
      · exact .inr (by simp [h])
      · rcases ih h with h | h
        · exact .inl h
        · exact .inr (by simp [h])
    · intro h
      rcases List.mem_cons.mp h with h | h
      · exact .inl h
      · exact .inr h

theorem Tab.wf_insertSorted {α : Type} (t : Tab α) (i : Nat) (v : α) (hw : Tab.wf t) (h : ∀ p ∈ t, p.1 ≠ i) :
    Tab.wf (Tab.insertSorted i v t) := by
  induction t with
  | nil => simp [Tab.insertSorted, Tab.wf]
  | cons q r ih =>
    have hq := h q (by simp)
    rw [Tab.wf, List.pairwise_cons] at hw
    unfold Tab.insertSorted
    split
    · rename_i hlt
      rw [Tab.wf, List.pairwise_cons]
      refine ⟨fun p hp => ?_, ih hw.2 fun p hp => h p (by simp [hp])⟩
      rcases Tab.mem_insertSorted r i v p hp with hp | hp
      · simp [hp, hlt]
      · exact hw.1 p hp
    · rename_i hlt
      have hi : i < q.1 := by omega
      rw [Tab.wf, List.pairwise_cons]
      refine ⟨fun p hp => ?_, by rw [List.pairwise_cons]; exact hw⟩
      rcases List.mem_cons.mp hp with hp | hp
      · simp [hp, hi]
      · exact Nat.lt_trans hi (hw.1 p hp)

theorem Tab.wf_erase {α : Type} (t : Tab α) (i : Nat) (h : Tab.wf t) : Tab.wf (Tab.erase t i) := List.Pairwise.filter _ h

/-- Setting an entry keeps the indices rising. -/
theorem Tab.wf_set {α : Type} (t : Tab α) (i : Nat) (v : α) (h : Tab.wf t) : Tab.wf (Tab.set t i v) :=
  Tab.wf_insertSorted _ _ _ (Tab.wf_erase t i h) (Tab.ne_of_mem_erase t i)

theorem Tab.wf_modify {α : Type} (t : Tab α) (d : α) (i : Nat) (f : α → α) (h : Tab.wf t) : Tab.wf (Tab.modify t d i f) :=
  Tab.wf_set _ _ _ h

end Sys2Proof.Machine
end

