-- ==== Sys2Proof/Laws/State.lean ====
section
/-! SUPPORT. What each update of the device leaves as it was: one lemma for each field and update. -/
namespace Sys2Proof.Machine

variable (b : Block)

/-! ### modCh -/

@[simp] theorem modCh_nlog2 (c : Nat) (f : Chamber → Chamber) : (b.modCh c f).nlog2 = b.nlog2 := rfl
@[simp] theorem modCh_memGiB (c : Nat) (f : Chamber → Chamber) : (b.modCh c f).memGiB = b.memGiB := rfl
@[simp] theorem modCh_dual (c : Nat) (f : Chamber → Chamber) : (b.modCh c f).dual = b.dual := rfl
@[simp] theorem modCh_now (c : Nat) (f : Chamber → Chamber) : (b.modCh c f).now = b.now := rfl
@[simp] theorem modCh_cyc (c : Nat) (f : Chamber → Chamber) : (b.modCh c f).cyc = b.cyc := rfl
@[simp] theorem modCh_free (c : Nat) (f : Chamber → Chamber) : (b.modCh c f).free = b.free := rfl
@[simp] theorem modCh_out (c : Nat) (f : Chamber → Chamber) : (b.modCh c f).out = b.out := rfl
@[simp] theorem modCh_life (c : Nat) (f : Chamber → Chamber) : (b.modCh c f).life = b.life := rfl
@[simp] theorem modCh_records (c : Nat) (f : Chamber → Chamber) : (b.modCh c f).records = b.records := rfl
@[simp] theorem modCh_chuck (c : Nat) (f : Chamber → Chamber) : (b.modCh c f).chuck = b.chuck := rfl
@[simp] theorem modCh_spindle (c : Nat) (f : Chamber → Chamber) : (b.modCh c f).spindle = b.spindle := rfl
@[simp] theorem modCh_auger (c : Nat) (f : Chamber → Chamber) : (b.modCh c f).auger = b.auger := rfl
@[simp] theorem modCh_gallery (c : Nat) (f : Chamber → Chamber) : (b.modCh c f).gallery = b.gallery := rfl
@[simp] theorem modCh_keys (c : Nat) (f : Chamber → Chamber) : (b.modCh c f).keys = b.keys := rfl
@[simp] theorem modCh_sump (c : Nat) (f : Chamber → Chamber) : (b.modCh c f).sump = b.sump := rfl
@[simp] theorem modCh_chains (c : Nat) (f : Chamber → Chamber) : (b.modCh c f).chains = b.chains := rfl
@[simp] theorem modCh_lantern (c : Nat) (f : Chamber → Chamber) : (b.modCh c f).lantern = b.lantern := rfl
@[simp] theorem modCh_chisel (c : Nat) (f : Chamber → Chamber) : (b.modCh c f).chisel = b.chisel := rfl
@[simp] theorem modCh_bimor (c : Nat) (f : Chamber → Chamber) : (b.modCh c f).bimor = b.bimor := rfl
@[simp] theorem modCh_identity (c : Nat) (f : Chamber → Chamber) : (b.modCh c f).identity = b.identity := rfl
@[simp] theorem modCh_spdm (c : Nat) (f : Chamber → Chamber) : (b.modCh c f).spdm = b.spdm := rfl
@[simp] theorem modCh_kerard (c : Nat) (f : Chamber → Chamber) : (b.modCh c f).kerard = b.kerard := rfl
@[simp] theorem modCh_ferrules (c : Nat) (f : Chamber → Chamber) : (b.modCh c f).ferrules = b.ferrules := rfl
@[simp] theorem modCh_belay (c : Nat) (f : Chamber → Chamber) : (b.modCh c f).belay = b.belay := rfl
@[simp] theorem modCh_bbram (c : Nat) (f : Chamber → Chamber) : (b.modCh c f).bbram = b.bbram := rfl
@[simp] theorem modCh_strata (c : Nat) (f : Chamber → Chamber) : (b.modCh c f).strata = b.strata := rfl
@[simp] theorem modCh_pmc (c : Nat) (f : Chamber → Chamber) : (b.modCh c f).pmc = b.pmc := rfl
@[simp] theorem modCh_counters (c : Nat) (f : Chamber → Chamber) : (b.modCh c f).counters = b.counters := rfl
@[simp] theorem modCh_pcie (c : Nat) (f : Chamber → Chamber) : (b.modCh c f).pcie = b.pcie := rfl
@[simp] theorem modCh_smbus (c : Nat) (f : Chamber → Chamber) : (b.modCh c f).smbus = b.smbus := rfl
@[simp] theorem modCh_io (c : Nat) (f : Chamber → Chamber) : (b.modCh c f).io = b.io := rfl

/-! ### modChain -/

@[simp] theorem modChain_nlog2 (i : ChainId) (f : Chain → Chain) : (b.modChain i f).nlog2 = b.nlog2 := rfl
@[simp] theorem modChain_memGiB (i : ChainId) (f : Chain → Chain) : (b.modChain i f).memGiB = b.memGiB := rfl
@[simp] theorem modChain_dual (i : ChainId) (f : Chain → Chain) : (b.modChain i f).dual = b.dual := rfl
@[simp] theorem modChain_now (i : ChainId) (f : Chain → Chain) : (b.modChain i f).now = b.now := rfl
@[simp] theorem modChain_cyc (i : ChainId) (f : Chain → Chain) : (b.modChain i f).cyc = b.cyc := rfl
@[simp] theorem modChain_free (i : ChainId) (f : Chain → Chain) : (b.modChain i f).free = b.free := rfl
@[simp] theorem modChain_out (i : ChainId) (f : Chain → Chain) : (b.modChain i f).out = b.out := rfl
@[simp] theorem modChain_life (i : ChainId) (f : Chain → Chain) : (b.modChain i f).life = b.life := rfl
@[simp] theorem modChain_ch (i : ChainId) (f : Chain → Chain) : (b.modChain i f).ch = b.ch := rfl
@[simp] theorem modChain_records (i : ChainId) (f : Chain → Chain) : (b.modChain i f).records = b.records := rfl
@[simp] theorem modChain_chuck (i : ChainId) (f : Chain → Chain) : (b.modChain i f).chuck = b.chuck := rfl
@[simp] theorem modChain_spindle (i : ChainId) (f : Chain → Chain) : (b.modChain i f).spindle = b.spindle := rfl
@[simp] theorem modChain_auger (i : ChainId) (f : Chain → Chain) : (b.modChain i f).auger = b.auger := rfl
@[simp] theorem modChain_gallery (i : ChainId) (f : Chain → Chain) : (b.modChain i f).gallery = b.gallery := rfl
@[simp] theorem modChain_keys (i : ChainId) (f : Chain → Chain) : (b.modChain i f).keys = b.keys := rfl
@[simp] theorem modChain_sump (i : ChainId) (f : Chain → Chain) : (b.modChain i f).sump = b.sump := rfl
@[simp] theorem modChain_lantern (i : ChainId) (f : Chain → Chain) : (b.modChain i f).lantern = b.lantern := rfl
@[simp] theorem modChain_chisel (i : ChainId) (f : Chain → Chain) : (b.modChain i f).chisel = b.chisel := rfl
@[simp] theorem modChain_bimor (i : ChainId) (f : Chain → Chain) : (b.modChain i f).bimor = b.bimor := rfl
@[simp] theorem modChain_identity (i : ChainId) (f : Chain → Chain) : (b.modChain i f).identity = b.identity := rfl
@[simp] theorem modChain_spdm (i : ChainId) (f : Chain → Chain) : (b.modChain i f).spdm = b.spdm := rfl
@[simp] theorem modChain_kerard (i : ChainId) (f : Chain → Chain) : (b.modChain i f).kerard = b.kerard := rfl
@[simp] theorem modChain_ferrules (i : ChainId) (f : Chain → Chain) : (b.modChain i f).ferrules = b.ferrules := rfl
@[simp] theorem modChain_belay (i : ChainId) (f : Chain → Chain) : (b.modChain i f).belay = b.belay := rfl
@[simp] theorem modChain_bbram (i : ChainId) (f : Chain → Chain) : (b.modChain i f).bbram = b.bbram := rfl
@[simp] theorem modChain_strata (i : ChainId) (f : Chain → Chain) : (b.modChain i f).strata = b.strata := rfl
@[simp] theorem modChain_pmc (i : ChainId) (f : Chain → Chain) : (b.modChain i f).pmc = b.pmc := rfl
@[simp] theorem modChain_counters (i : ChainId) (f : Chain → Chain) : (b.modChain i f).counters = b.counters := rfl
@[simp] theorem modChain_pcie (i : ChainId) (f : Chain → Chain) : (b.modChain i f).pcie = b.pcie := rfl
@[simp] theorem modChain_smbus (i : ChainId) (f : Chain → Chain) : (b.modChain i f).smbus = b.smbus := rfl
@[simp] theorem modChain_io (i : ChainId) (f : Chain → Chain) : (b.modChain i f).io = b.io := rfl

/-! ### emit -/

@[simp] theorem emit_nlog2 (o : Out) : (b.emit o).nlog2 = b.nlog2 := rfl
@[simp] theorem emit_memGiB (o : Out) : (b.emit o).memGiB = b.memGiB := rfl
@[simp] theorem emit_dual (o : Out) : (b.emit o).dual = b.dual := rfl
@[simp] theorem emit_now (o : Out) : (b.emit o).now = b.now := rfl
@[simp] theorem emit_cyc (o : Out) : (b.emit o).cyc = b.cyc := rfl
@[simp] theorem emit_free (o : Out) : (b.emit o).free = b.free := rfl
@[simp] theorem emit_life (o : Out) : (b.emit o).life = b.life := rfl
@[simp] theorem emit_ch (o : Out) : (b.emit o).ch = b.ch := rfl
@[simp] theorem emit_records (o : Out) : (b.emit o).records = b.records := rfl
@[simp] theorem emit_chuck (o : Out) : (b.emit o).chuck = b.chuck := rfl
@[simp] theorem emit_spindle (o : Out) : (b.emit o).spindle = b.spindle := rfl
@[simp] theorem emit_auger (o : Out) : (b.emit o).auger = b.auger := rfl
@[simp] theorem emit_gallery (o : Out) : (b.emit o).gallery = b.gallery := rfl
@[simp] theorem emit_keys (o : Out) : (b.emit o).keys = b.keys := rfl
@[simp] theorem emit_sump (o : Out) : (b.emit o).sump = b.sump := rfl
@[simp] theorem emit_chains (o : Out) : (b.emit o).chains = b.chains := rfl
@[simp] theorem emit_lantern (o : Out) : (b.emit o).lantern = b.lantern := rfl
@[simp] theorem emit_chisel (o : Out) : (b.emit o).chisel = b.chisel := rfl
@[simp] theorem emit_bimor (o : Out) : (b.emit o).bimor = b.bimor := rfl
@[simp] theorem emit_identity (o : Out) : (b.emit o).identity = b.identity := rfl
@[simp] theorem emit_spdm (o : Out) : (b.emit o).spdm = b.spdm := rfl
@[simp] theorem emit_kerard (o : Out) : (b.emit o).kerard = b.kerard := rfl
@[simp] theorem emit_ferrules (o : Out) : (b.emit o).ferrules = b.ferrules := rfl
@[simp] theorem emit_belay (o : Out) : (b.emit o).belay = b.belay := rfl
@[simp] theorem emit_bbram (o : Out) : (b.emit o).bbram = b.bbram := rfl
@[simp] theorem emit_strata (o : Out) : (b.emit o).strata = b.strata := rfl
@[simp] theorem emit_pmc (o : Out) : (b.emit o).pmc = b.pmc := rfl
@[simp] theorem emit_counters (o : Out) : (b.emit o).counters = b.counters := rfl
@[simp] theorem emit_pcie (o : Out) : (b.emit o).pcie = b.pcie := rfl
@[simp] theorem emit_smbus (o : Out) : (b.emit o).smbus = b.smbus := rfl
@[simp] theorem emit_io (o : Out) : (b.emit o).io = b.io := rfl

/-! ### answer -/

@[simp] theorem answer_nlog2 (v : Nat) : (b.answer v).nlog2 = b.nlog2 := rfl
@[simp] theorem answer_memGiB (v : Nat) : (b.answer v).memGiB = b.memGiB := rfl
@[simp] theorem answer_dual (v : Nat) : (b.answer v).dual = b.dual := rfl
@[simp] theorem answer_now (v : Nat) : (b.answer v).now = b.now := rfl
@[simp] theorem answer_cyc (v : Nat) : (b.answer v).cyc = b.cyc := rfl
@[simp] theorem answer_free (v : Nat) : (b.answer v).free = b.free := rfl
@[simp] theorem answer_life (v : Nat) : (b.answer v).life = b.life := rfl
@[simp] theorem answer_ch (v : Nat) : (b.answer v).ch = b.ch := rfl
@[simp] theorem answer_records (v : Nat) : (b.answer v).records = b.records := rfl
@[simp] theorem answer_chuck (v : Nat) : (b.answer v).chuck = b.chuck := rfl
@[simp] theorem answer_spindle (v : Nat) : (b.answer v).spindle = b.spindle := rfl
@[simp] theorem answer_auger (v : Nat) : (b.answer v).auger = b.auger := rfl
@[simp] theorem answer_gallery (v : Nat) : (b.answer v).gallery = b.gallery := rfl
@[simp] theorem answer_keys (v : Nat) : (b.answer v).keys = b.keys := rfl
@[simp] theorem answer_sump (v : Nat) : (b.answer v).sump = b.sump := rfl
@[simp] theorem answer_chains (v : Nat) : (b.answer v).chains = b.chains := rfl
@[simp] theorem answer_lantern (v : Nat) : (b.answer v).lantern = b.lantern := rfl
@[simp] theorem answer_chisel (v : Nat) : (b.answer v).chisel = b.chisel := rfl
@[simp] theorem answer_bimor (v : Nat) : (b.answer v).bimor = b.bimor := rfl
@[simp] theorem answer_identity (v : Nat) : (b.answer v).identity = b.identity := rfl
@[simp] theorem answer_spdm (v : Nat) : (b.answer v).spdm = b.spdm := rfl
@[simp] theorem answer_kerard (v : Nat) : (b.answer v).kerard = b.kerard := rfl
@[simp] theorem answer_ferrules (v : Nat) : (b.answer v).ferrules = b.ferrules := rfl
@[simp] theorem answer_belay (v : Nat) : (b.answer v).belay = b.belay := rfl
@[simp] theorem answer_bbram (v : Nat) : (b.answer v).bbram = b.bbram := rfl
@[simp] theorem answer_strata (v : Nat) : (b.answer v).strata = b.strata := rfl
@[simp] theorem answer_pmc (v : Nat) : (b.answer v).pmc = b.pmc := rfl
@[simp] theorem answer_counters (v : Nat) : (b.answer v).counters = b.counters := rfl
@[simp] theorem answer_pcie (v : Nat) : (b.answer v).pcie = b.pcie := rfl
@[simp] theorem answer_smbus (v : Nat) : (b.answer v).smbus = b.smbus := rfl
@[simp] theorem answer_io (v : Nat) : (b.answer v).io = b.io := rfl

/-! ### modChuck -/

@[simp] theorem modChuck_nlog2 (f : Chuck → Chuck) : (b.modChuck f).nlog2 = b.nlog2 := rfl
@[simp] theorem modChuck_memGiB (f : Chuck → Chuck) : (b.modChuck f).memGiB = b.memGiB := rfl
@[simp] theorem modChuck_dual (f : Chuck → Chuck) : (b.modChuck f).dual = b.dual := rfl
@[simp] theorem modChuck_now (f : Chuck → Chuck) : (b.modChuck f).now = b.now := rfl
@[simp] theorem modChuck_cyc (f : Chuck → Chuck) : (b.modChuck f).cyc = b.cyc := rfl
@[simp] theorem modChuck_free (f : Chuck → Chuck) : (b.modChuck f).free = b.free := rfl
@[simp] theorem modChuck_out (f : Chuck → Chuck) : (b.modChuck f).out = b.out := rfl
@[simp] theorem modChuck_life (f : Chuck → Chuck) : (b.modChuck f).life = b.life := rfl
@[simp] theorem modChuck_ch (f : Chuck → Chuck) : (b.modChuck f).ch = b.ch := rfl
@[simp] theorem modChuck_records (f : Chuck → Chuck) : (b.modChuck f).records = b.records := rfl
@[simp] theorem modChuck_spindle (f : Chuck → Chuck) : (b.modChuck f).spindle = b.spindle := rfl
@[simp] theorem modChuck_auger (f : Chuck → Chuck) : (b.modChuck f).auger = b.auger := rfl
@[simp] theorem modChuck_gallery (f : Chuck → Chuck) : (b.modChuck f).gallery = b.gallery := rfl
@[simp] theorem modChuck_keys (f : Chuck → Chuck) : (b.modChuck f).keys = b.keys := rfl
@[simp] theorem modChuck_sump (f : Chuck → Chuck) : (b.modChuck f).sump = b.sump := rfl
@[simp] theorem modChuck_chains (f : Chuck → Chuck) : (b.modChuck f).chains = b.chains := rfl
@[simp] theorem modChuck_lantern (f : Chuck → Chuck) : (b.modChuck f).lantern = b.lantern := rfl
@[simp] theorem modChuck_chisel (f : Chuck → Chuck) : (b.modChuck f).chisel = b.chisel := rfl
@[simp] theorem modChuck_bimor (f : Chuck → Chuck) : (b.modChuck f).bimor = b.bimor := rfl
@[simp] theorem modChuck_identity (f : Chuck → Chuck) : (b.modChuck f).identity = b.identity := rfl
@[simp] theorem modChuck_spdm (f : Chuck → Chuck) : (b.modChuck f).spdm = b.spdm := rfl
@[simp] theorem modChuck_kerard (f : Chuck → Chuck) : (b.modChuck f).kerard = b.kerard := rfl
@[simp] theorem modChuck_ferrules (f : Chuck → Chuck) : (b.modChuck f).ferrules = b.ferrules := rfl
@[simp] theorem modChuck_belay (f : Chuck → Chuck) : (b.modChuck f).belay = b.belay := rfl
@[simp] theorem modChuck_bbram (f : Chuck → Chuck) : (b.modChuck f).bbram = b.bbram := rfl
@[simp] theorem modChuck_strata (f : Chuck → Chuck) : (b.modChuck f).strata = b.strata := rfl
@[simp] theorem modChuck_pmc (f : Chuck → Chuck) : (b.modChuck f).pmc = b.pmc := rfl
@[simp] theorem modChuck_counters (f : Chuck → Chuck) : (b.modChuck f).counters = b.counters := rfl
@[simp] theorem modChuck_pcie (f : Chuck → Chuck) : (b.modChuck f).pcie = b.pcie := rfl
@[simp] theorem modChuck_smbus (f : Chuck → Chuck) : (b.modChuck f).smbus = b.smbus := rfl
@[simp] theorem modChuck_io (f : Chuck → Chuck) : (b.modChuck f).io = b.io := rfl

/-! ### modLantern -/

@[simp] theorem modLantern_nlog2 (f : Lantern → Lantern) : (b.modLantern f).nlog2 = b.nlog2 := rfl
@[simp] theorem modLantern_memGiB (f : Lantern → Lantern) : (b.modLantern f).memGiB = b.memGiB := rfl
@[simp] theorem modLantern_dual (f : Lantern → Lantern) : (b.modLantern f).dual = b.dual := rfl
@[simp] theorem modLantern_now (f : Lantern → Lantern) : (b.modLantern f).now = b.now := rfl
@[simp] theorem modLantern_cyc (f : Lantern → Lantern) : (b.modLantern f).cyc = b.cyc := rfl
@[simp] theorem modLantern_free (f : Lantern → Lantern) : (b.modLantern f).free = b.free := rfl
@[simp] theorem modLantern_out (f : Lantern → Lantern) : (b.modLantern f).out = b.out := rfl
@[simp] theorem modLantern_life (f : Lantern → Lantern) : (b.modLantern f).life = b.life := rfl
@[simp] theorem modLantern_ch (f : Lantern → Lantern) : (b.modLantern f).ch = b.ch := rfl
@[simp] theorem modLantern_records (f : Lantern → Lantern) : (b.modLantern f).records = b.records := rfl
@[simp] theorem modLantern_chuck (f : Lantern → Lantern) : (b.modLantern f).chuck = b.chuck := rfl
@[simp] theorem modLantern_spindle (f : Lantern → Lantern) : (b.modLantern f).spindle = b.spindle := rfl
@[simp] theorem modLantern_auger (f : Lantern → Lantern) : (b.modLantern f).auger = b.auger := rfl
@[simp] theorem modLantern_gallery (f : Lantern → Lantern) : (b.modLantern f).gallery = b.gallery := rfl
@[simp] theorem modLantern_keys (f : Lantern → Lantern) : (b.modLantern f).keys = b.keys := rfl
@[simp] theorem modLantern_sump (f : Lantern → Lantern) : (b.modLantern f).sump = b.sump := rfl
@[simp] theorem modLantern_chains (f : Lantern → Lantern) : (b.modLantern f).chains = b.chains := rfl
@[simp] theorem modLantern_chisel (f : Lantern → Lantern) : (b.modLantern f).chisel = b.chisel := rfl
@[simp] theorem modLantern_bimor (f : Lantern → Lantern) : (b.modLantern f).bimor = b.bimor := rfl
@[simp] theorem modLantern_identity (f : Lantern → Lantern) : (b.modLantern f).identity = b.identity := rfl
@[simp] theorem modLantern_spdm (f : Lantern → Lantern) : (b.modLantern f).spdm = b.spdm := rfl
@[simp] theorem modLantern_kerard (f : Lantern → Lantern) : (b.modLantern f).kerard = b.kerard := rfl
@[simp] theorem modLantern_ferrules (f : Lantern → Lantern) : (b.modLantern f).ferrules = b.ferrules := rfl
@[simp] theorem modLantern_belay (f : Lantern → Lantern) : (b.modLantern f).belay = b.belay := rfl
@[simp] theorem modLantern_bbram (f : Lantern → Lantern) : (b.modLantern f).bbram = b.bbram := rfl
@[simp] theorem modLantern_strata (f : Lantern → Lantern) : (b.modLantern f).strata = b.strata := rfl
@[simp] theorem modLantern_pmc (f : Lantern → Lantern) : (b.modLantern f).pmc = b.pmc := rfl
@[simp] theorem modLantern_counters (f : Lantern → Lantern) : (b.modLantern f).counters = b.counters := rfl
@[simp] theorem modLantern_pcie (f : Lantern → Lantern) : (b.modLantern f).pcie = b.pcie := rfl
@[simp] theorem modLantern_smbus (f : Lantern → Lantern) : (b.modLantern f).smbus = b.smbus := rfl
@[simp] theorem modLantern_io (f : Lantern → Lantern) : (b.modLantern f).io = b.io := rfl

/-! ### modSump -/

@[simp] theorem modSump_nlog2 (f : Sump → Sump) : (b.modSump f).nlog2 = b.nlog2 := rfl
@[simp] theorem modSump_memGiB (f : Sump → Sump) : (b.modSump f).memGiB = b.memGiB := rfl
@[simp] theorem modSump_dual (f : Sump → Sump) : (b.modSump f).dual = b.dual := rfl
@[simp] theorem modSump_now (f : Sump → Sump) : (b.modSump f).now = b.now := rfl
@[simp] theorem modSump_cyc (f : Sump → Sump) : (b.modSump f).cyc = b.cyc := rfl
@[simp] theorem modSump_free (f : Sump → Sump) : (b.modSump f).free = b.free := rfl
@[simp] theorem modSump_out (f : Sump → Sump) : (b.modSump f).out = b.out := rfl
@[simp] theorem modSump_life (f : Sump → Sump) : (b.modSump f).life = b.life := rfl
@[simp] theorem modSump_ch (f : Sump → Sump) : (b.modSump f).ch = b.ch := rfl
@[simp] theorem modSump_records (f : Sump → Sump) : (b.modSump f).records = b.records := rfl
@[simp] theorem modSump_chuck (f : Sump → Sump) : (b.modSump f).chuck = b.chuck := rfl
@[simp] theorem modSump_spindle (f : Sump → Sump) : (b.modSump f).spindle = b.spindle := rfl
@[simp] theorem modSump_auger (f : Sump → Sump) : (b.modSump f).auger = b.auger := rfl
@[simp] theorem modSump_gallery (f : Sump → Sump) : (b.modSump f).gallery = b.gallery := rfl
@[simp] theorem modSump_keys (f : Sump → Sump) : (b.modSump f).keys = b.keys := rfl
@[simp] theorem modSump_chains (f : Sump → Sump) : (b.modSump f).chains = b.chains := rfl
@[simp] theorem modSump_lantern (f : Sump → Sump) : (b.modSump f).lantern = b.lantern := rfl
@[simp] theorem modSump_chisel (f : Sump → Sump) : (b.modSump f).chisel = b.chisel := rfl
@[simp] theorem modSump_bimor (f : Sump → Sump) : (b.modSump f).bimor = b.bimor := rfl
@[simp] theorem modSump_identity (f : Sump → Sump) : (b.modSump f).identity = b.identity := rfl
@[simp] theorem modSump_spdm (f : Sump → Sump) : (b.modSump f).spdm = b.spdm := rfl
@[simp] theorem modSump_kerard (f : Sump → Sump) : (b.modSump f).kerard = b.kerard := rfl
@[simp] theorem modSump_ferrules (f : Sump → Sump) : (b.modSump f).ferrules = b.ferrules := rfl
@[simp] theorem modSump_belay (f : Sump → Sump) : (b.modSump f).belay = b.belay := rfl
@[simp] theorem modSump_bbram (f : Sump → Sump) : (b.modSump f).bbram = b.bbram := rfl
@[simp] theorem modSump_strata (f : Sump → Sump) : (b.modSump f).strata = b.strata := rfl
@[simp] theorem modSump_pmc (f : Sump → Sump) : (b.modSump f).pmc = b.pmc := rfl
@[simp] theorem modSump_counters (f : Sump → Sump) : (b.modSump f).counters = b.counters := rfl
@[simp] theorem modSump_pcie (f : Sump → Sump) : (b.modSump f).pcie = b.pcie := rfl
@[simp] theorem modSump_smbus (f : Sump → Sump) : (b.modSump f).smbus = b.smbus := rfl
@[simp] theorem modSump_io (f : Sump → Sump) : (b.modSump f).io = b.io := rfl

/-! ### modKeys -/

@[simp] theorem modKeys_nlog2 (f : Keys → Keys) : (b.modKeys f).nlog2 = b.nlog2 := rfl
@[simp] theorem modKeys_memGiB (f : Keys → Keys) : (b.modKeys f).memGiB = b.memGiB := rfl
@[simp] theorem modKeys_dual (f : Keys → Keys) : (b.modKeys f).dual = b.dual := rfl
@[simp] theorem modKeys_now (f : Keys → Keys) : (b.modKeys f).now = b.now := rfl
@[simp] theorem modKeys_cyc (f : Keys → Keys) : (b.modKeys f).cyc = b.cyc := rfl
@[simp] theorem modKeys_free (f : Keys → Keys) : (b.modKeys f).free = b.free := rfl
@[simp] theorem modKeys_out (f : Keys → Keys) : (b.modKeys f).out = b.out := rfl
@[simp] theorem modKeys_life (f : Keys → Keys) : (b.modKeys f).life = b.life := rfl
@[simp] theorem modKeys_ch (f : Keys → Keys) : (b.modKeys f).ch = b.ch := rfl
@[simp] theorem modKeys_records (f : Keys → Keys) : (b.modKeys f).records = b.records := rfl
@[simp] theorem modKeys_chuck (f : Keys → Keys) : (b.modKeys f).chuck = b.chuck := rfl
@[simp] theorem modKeys_spindle (f : Keys → Keys) : (b.modKeys f).spindle = b.spindle := rfl
@[simp] theorem modKeys_auger (f : Keys → Keys) : (b.modKeys f).auger = b.auger := rfl
@[simp] theorem modKeys_gallery (f : Keys → Keys) : (b.modKeys f).gallery = b.gallery := rfl
@[simp] theorem modKeys_sump (f : Keys → Keys) : (b.modKeys f).sump = b.sump := rfl
@[simp] theorem modKeys_chains (f : Keys → Keys) : (b.modKeys f).chains = b.chains := rfl
@[simp] theorem modKeys_lantern (f : Keys → Keys) : (b.modKeys f).lantern = b.lantern := rfl
@[simp] theorem modKeys_chisel (f : Keys → Keys) : (b.modKeys f).chisel = b.chisel := rfl
@[simp] theorem modKeys_bimor (f : Keys → Keys) : (b.modKeys f).bimor = b.bimor := rfl
@[simp] theorem modKeys_identity (f : Keys → Keys) : (b.modKeys f).identity = b.identity := rfl
@[simp] theorem modKeys_spdm (f : Keys → Keys) : (b.modKeys f).spdm = b.spdm := rfl
@[simp] theorem modKeys_kerard (f : Keys → Keys) : (b.modKeys f).kerard = b.kerard := rfl
@[simp] theorem modKeys_ferrules (f : Keys → Keys) : (b.modKeys f).ferrules = b.ferrules := rfl
@[simp] theorem modKeys_belay (f : Keys → Keys) : (b.modKeys f).belay = b.belay := rfl
@[simp] theorem modKeys_bbram (f : Keys → Keys) : (b.modKeys f).bbram = b.bbram := rfl
@[simp] theorem modKeys_strata (f : Keys → Keys) : (b.modKeys f).strata = b.strata := rfl
@[simp] theorem modKeys_pmc (f : Keys → Keys) : (b.modKeys f).pmc = b.pmc := rfl
@[simp] theorem modKeys_counters (f : Keys → Keys) : (b.modKeys f).counters = b.counters := rfl
@[simp] theorem modKeys_pcie (f : Keys → Keys) : (b.modKeys f).pcie = b.pcie := rfl
@[simp] theorem modKeys_smbus (f : Keys → Keys) : (b.modKeys f).smbus = b.smbus := rfl
@[simp] theorem modKeys_io (f : Keys → Keys) : (b.modKeys f).io = b.io := rfl

/-! ### modBelay -/

@[simp] theorem modBelay_nlog2 (f : Belay → Belay) : (b.modBelay f).nlog2 = b.nlog2 := rfl
@[simp] theorem modBelay_memGiB (f : Belay → Belay) : (b.modBelay f).memGiB = b.memGiB := rfl
@[simp] theorem modBelay_dual (f : Belay → Belay) : (b.modBelay f).dual = b.dual := rfl
@[simp] theorem modBelay_now (f : Belay → Belay) : (b.modBelay f).now = b.now := rfl
@[simp] theorem modBelay_cyc (f : Belay → Belay) : (b.modBelay f).cyc = b.cyc := rfl
@[simp] theorem modBelay_free (f : Belay → Belay) : (b.modBelay f).free = b.free := rfl
@[simp] theorem modBelay_out (f : Belay → Belay) : (b.modBelay f).out = b.out := rfl
@[simp] theorem modBelay_life (f : Belay → Belay) : (b.modBelay f).life = b.life := rfl
@[simp] theorem modBelay_ch (f : Belay → Belay) : (b.modBelay f).ch = b.ch := rfl
@[simp] theorem modBelay_records (f : Belay → Belay) : (b.modBelay f).records = b.records := rfl
@[simp] theorem modBelay_chuck (f : Belay → Belay) : (b.modBelay f).chuck = b.chuck := rfl
@[simp] theorem modBelay_spindle (f : Belay → Belay) : (b.modBelay f).spindle = b.spindle := rfl
@[simp] theorem modBelay_auger (f : Belay → Belay) : (b.modBelay f).auger = b.auger := rfl
@[simp] theorem modBelay_gallery (f : Belay → Belay) : (b.modBelay f).gallery = b.gallery := rfl
@[simp] theorem modBelay_keys (f : Belay → Belay) : (b.modBelay f).keys = b.keys := rfl
@[simp] theorem modBelay_sump (f : Belay → Belay) : (b.modBelay f).sump = b.sump := rfl
@[simp] theorem modBelay_chains (f : Belay → Belay) : (b.modBelay f).chains = b.chains := rfl
@[simp] theorem modBelay_lantern (f : Belay → Belay) : (b.modBelay f).lantern = b.lantern := rfl
@[simp] theorem modBelay_chisel (f : Belay → Belay) : (b.modBelay f).chisel = b.chisel := rfl
@[simp] theorem modBelay_bimor (f : Belay → Belay) : (b.modBelay f).bimor = b.bimor := rfl
@[simp] theorem modBelay_identity (f : Belay → Belay) : (b.modBelay f).identity = b.identity := rfl
@[simp] theorem modBelay_spdm (f : Belay → Belay) : (b.modBelay f).spdm = b.spdm := rfl
@[simp] theorem modBelay_kerard (f : Belay → Belay) : (b.modBelay f).kerard = b.kerard := rfl
@[simp] theorem modBelay_ferrules (f : Belay → Belay) : (b.modBelay f).ferrules = b.ferrules := rfl
@[simp] theorem modBelay_bbram (f : Belay → Belay) : (b.modBelay f).bbram = b.bbram := rfl
@[simp] theorem modBelay_strata (f : Belay → Belay) : (b.modBelay f).strata = b.strata := rfl
@[simp] theorem modBelay_pmc (f : Belay → Belay) : (b.modBelay f).pmc = b.pmc := rfl
@[simp] theorem modBelay_counters (f : Belay → Belay) : (b.modBelay f).counters = b.counters := rfl
@[simp] theorem modBelay_pcie (f : Belay → Belay) : (b.modBelay f).pcie = b.pcie := rfl
@[simp] theorem modBelay_smbus (f : Belay → Belay) : (b.modBelay f).smbus = b.smbus := rfl
@[simp] theorem modBelay_io (f : Belay → Belay) : (b.modBelay f).io = b.io := rfl

/-! ### modStrata -/

@[simp] theorem modStrata_nlog2 (f : Strata → Strata) : (b.modStrata f).nlog2 = b.nlog2 := rfl
@[simp] theorem modStrata_memGiB (f : Strata → Strata) : (b.modStrata f).memGiB = b.memGiB := rfl
@[simp] theorem modStrata_dual (f : Strata → Strata) : (b.modStrata f).dual = b.dual := rfl
@[simp] theorem modStrata_now (f : Strata → Strata) : (b.modStrata f).now = b.now := rfl
@[simp] theorem modStrata_cyc (f : Strata → Strata) : (b.modStrata f).cyc = b.cyc := rfl
@[simp] theorem modStrata_free (f : Strata → Strata) : (b.modStrata f).free = b.free := rfl
@[simp] theorem modStrata_out (f : Strata → Strata) : (b.modStrata f).out = b.out := rfl
@[simp] theorem modStrata_life (f : Strata → Strata) : (b.modStrata f).life = b.life := rfl
@[simp] theorem modStrata_ch (f : Strata → Strata) : (b.modStrata f).ch = b.ch := rfl
@[simp] theorem modStrata_records (f : Strata → Strata) : (b.modStrata f).records = b.records := rfl
@[simp] theorem modStrata_chuck (f : Strata → Strata) : (b.modStrata f).chuck = b.chuck := rfl
@[simp] theorem modStrata_spindle (f : Strata → Strata) : (b.modStrata f).spindle = b.spindle := rfl
@[simp] theorem modStrata_auger (f : Strata → Strata) : (b.modStrata f).auger = b.auger := rfl
@[simp] theorem modStrata_gallery (f : Strata → Strata) : (b.modStrata f).gallery = b.gallery := rfl
@[simp] theorem modStrata_keys (f : Strata → Strata) : (b.modStrata f).keys = b.keys := rfl
@[simp] theorem modStrata_sump (f : Strata → Strata) : (b.modStrata f).sump = b.sump := rfl
@[simp] theorem modStrata_chains (f : Strata → Strata) : (b.modStrata f).chains = b.chains := rfl
@[simp] theorem modStrata_lantern (f : Strata → Strata) : (b.modStrata f).lantern = b.lantern := rfl
@[simp] theorem modStrata_chisel (f : Strata → Strata) : (b.modStrata f).chisel = b.chisel := rfl
@[simp] theorem modStrata_bimor (f : Strata → Strata) : (b.modStrata f).bimor = b.bimor := rfl
@[simp] theorem modStrata_identity (f : Strata → Strata) : (b.modStrata f).identity = b.identity := rfl
@[simp] theorem modStrata_spdm (f : Strata → Strata) : (b.modStrata f).spdm = b.spdm := rfl
@[simp] theorem modStrata_kerard (f : Strata → Strata) : (b.modStrata f).kerard = b.kerard := rfl
@[simp] theorem modStrata_ferrules (f : Strata → Strata) : (b.modStrata f).ferrules = b.ferrules := rfl
@[simp] theorem modStrata_belay (f : Strata → Strata) : (b.modStrata f).belay = b.belay := rfl
@[simp] theorem modStrata_bbram (f : Strata → Strata) : (b.modStrata f).bbram = b.bbram := rfl
@[simp] theorem modStrata_pmc (f : Strata → Strata) : (b.modStrata f).pmc = b.pmc := rfl
@[simp] theorem modStrata_counters (f : Strata → Strata) : (b.modStrata f).counters = b.counters := rfl
@[simp] theorem modStrata_pcie (f : Strata → Strata) : (b.modStrata f).pcie = b.pcie := rfl
@[simp] theorem modStrata_smbus (f : Strata → Strata) : (b.modStrata f).smbus = b.smbus := rfl
@[simp] theorem modStrata_io (f : Strata → Strata) : (b.modStrata f).io = b.io := rfl

/-! ### modPmc -/

@[simp] theorem modPmc_nlog2 (f : Pmc → Pmc) : (b.modPmc f).nlog2 = b.nlog2 := rfl
@[simp] theorem modPmc_memGiB (f : Pmc → Pmc) : (b.modPmc f).memGiB = b.memGiB := rfl
@[simp] theorem modPmc_dual (f : Pmc → Pmc) : (b.modPmc f).dual = b.dual := rfl
@[simp] theorem modPmc_now (f : Pmc → Pmc) : (b.modPmc f).now = b.now := rfl
@[simp] theorem modPmc_cyc (f : Pmc → Pmc) : (b.modPmc f).cyc = b.cyc := rfl
@[simp] theorem modPmc_free (f : Pmc → Pmc) : (b.modPmc f).free = b.free := rfl
@[simp] theorem modPmc_out (f : Pmc → Pmc) : (b.modPmc f).out = b.out := rfl
@[simp] theorem modPmc_life (f : Pmc → Pmc) : (b.modPmc f).life = b.life := rfl
@[simp] theorem modPmc_ch (f : Pmc → Pmc) : (b.modPmc f).ch = b.ch := rfl
@[simp] theorem modPmc_records (f : Pmc → Pmc) : (b.modPmc f).records = b.records := rfl
@[simp] theorem modPmc_chuck (f : Pmc → Pmc) : (b.modPmc f).chuck = b.chuck := rfl
@[simp] theorem modPmc_spindle (f : Pmc → Pmc) : (b.modPmc f).spindle = b.spindle := rfl
@[simp] theorem modPmc_auger (f : Pmc → Pmc) : (b.modPmc f).auger = b.auger := rfl
@[simp] theorem modPmc_gallery (f : Pmc → Pmc) : (b.modPmc f).gallery = b.gallery := rfl
@[simp] theorem modPmc_keys (f : Pmc → Pmc) : (b.modPmc f).keys = b.keys := rfl
@[simp] theorem modPmc_sump (f : Pmc → Pmc) : (b.modPmc f).sump = b.sump := rfl
@[simp] theorem modPmc_chains (f : Pmc → Pmc) : (b.modPmc f).chains = b.chains := rfl
@[simp] theorem modPmc_lantern (f : Pmc → Pmc) : (b.modPmc f).lantern = b.lantern := rfl
@[simp] theorem modPmc_chisel (f : Pmc → Pmc) : (b.modPmc f).chisel = b.chisel := rfl
@[simp] theorem modPmc_bimor (f : Pmc → Pmc) : (b.modPmc f).bimor = b.bimor := rfl
@[simp] theorem modPmc_identity (f : Pmc → Pmc) : (b.modPmc f).identity = b.identity := rfl
@[simp] theorem modPmc_spdm (f : Pmc → Pmc) : (b.modPmc f).spdm = b.spdm := rfl
@[simp] theorem modPmc_kerard (f : Pmc → Pmc) : (b.modPmc f).kerard = b.kerard := rfl
@[simp] theorem modPmc_ferrules (f : Pmc → Pmc) : (b.modPmc f).ferrules = b.ferrules := rfl
@[simp] theorem modPmc_belay (f : Pmc → Pmc) : (b.modPmc f).belay = b.belay := rfl
@[simp] theorem modPmc_bbram (f : Pmc → Pmc) : (b.modPmc f).bbram = b.bbram := rfl
@[simp] theorem modPmc_strata (f : Pmc → Pmc) : (b.modPmc f).strata = b.strata := rfl
@[simp] theorem modPmc_counters (f : Pmc → Pmc) : (b.modPmc f).counters = b.counters := rfl
@[simp] theorem modPmc_pcie (f : Pmc → Pmc) : (b.modPmc f).pcie = b.pcie := rfl
@[simp] theorem modPmc_smbus (f : Pmc → Pmc) : (b.modPmc f).smbus = b.smbus := rfl
@[simp] theorem modPmc_io (f : Pmc → Pmc) : (b.modPmc f).io = b.io := rfl

/-! ### modKerard -/

@[simp] theorem modKerard_nlog2 (f : Kerard → Kerard) : (b.modKerard f).nlog2 = b.nlog2 := rfl
@[simp] theorem modKerard_memGiB (f : Kerard → Kerard) : (b.modKerard f).memGiB = b.memGiB := rfl
@[simp] theorem modKerard_dual (f : Kerard → Kerard) : (b.modKerard f).dual = b.dual := rfl
@[simp] theorem modKerard_now (f : Kerard → Kerard) : (b.modKerard f).now = b.now := rfl
@[simp] theorem modKerard_cyc (f : Kerard → Kerard) : (b.modKerard f).cyc = b.cyc := rfl
@[simp] theorem modKerard_free (f : Kerard → Kerard) : (b.modKerard f).free = b.free := rfl
@[simp] theorem modKerard_out (f : Kerard → Kerard) : (b.modKerard f).out = b.out := rfl
@[simp] theorem modKerard_life (f : Kerard → Kerard) : (b.modKerard f).life = b.life := rfl
@[simp] theorem modKerard_ch (f : Kerard → Kerard) : (b.modKerard f).ch = b.ch := rfl
@[simp] theorem modKerard_records (f : Kerard → Kerard) : (b.modKerard f).records = b.records := rfl
@[simp] theorem modKerard_chuck (f : Kerard → Kerard) : (b.modKerard f).chuck = b.chuck := rfl
@[simp] theorem modKerard_spindle (f : Kerard → Kerard) : (b.modKerard f).spindle = b.spindle := rfl
@[simp] theorem modKerard_auger (f : Kerard → Kerard) : (b.modKerard f).auger = b.auger := rfl
@[simp] theorem modKerard_gallery (f : Kerard → Kerard) : (b.modKerard f).gallery = b.gallery := rfl
@[simp] theorem modKerard_keys (f : Kerard → Kerard) : (b.modKerard f).keys = b.keys := rfl
@[simp] theorem modKerard_sump (f : Kerard → Kerard) : (b.modKerard f).sump = b.sump := rfl
@[simp] theorem modKerard_chains (f : Kerard → Kerard) : (b.modKerard f).chains = b.chains := rfl
@[simp] theorem modKerard_lantern (f : Kerard → Kerard) : (b.modKerard f).lantern = b.lantern := rfl
@[simp] theorem modKerard_chisel (f : Kerard → Kerard) : (b.modKerard f).chisel = b.chisel := rfl
@[simp] theorem modKerard_bimor (f : Kerard → Kerard) : (b.modKerard f).bimor = b.bimor := rfl
@[simp] theorem modKerard_identity (f : Kerard → Kerard) : (b.modKerard f).identity = b.identity := rfl
@[simp] theorem modKerard_spdm (f : Kerard → Kerard) : (b.modKerard f).spdm = b.spdm := rfl
@[simp] theorem modKerard_ferrules (f : Kerard → Kerard) : (b.modKerard f).ferrules = b.ferrules := rfl
@[simp] theorem modKerard_belay (f : Kerard → Kerard) : (b.modKerard f).belay = b.belay := rfl
@[simp] theorem modKerard_bbram (f : Kerard → Kerard) : (b.modKerard f).bbram = b.bbram := rfl
@[simp] theorem modKerard_strata (f : Kerard → Kerard) : (b.modKerard f).strata = b.strata := rfl
@[simp] theorem modKerard_pmc (f : Kerard → Kerard) : (b.modKerard f).pmc = b.pmc := rfl
@[simp] theorem modKerard_counters (f : Kerard → Kerard) : (b.modKerard f).counters = b.counters := rfl
@[simp] theorem modKerard_pcie (f : Kerard → Kerard) : (b.modKerard f).pcie = b.pcie := rfl
@[simp] theorem modKerard_smbus (f : Kerard → Kerard) : (b.modKerard f).smbus = b.smbus := rfl
@[simp] theorem modKerard_io (f : Kerard → Kerard) : (b.modKerard f).io = b.io := rfl

/-! ### modBimor -/

@[simp] theorem modBimor_nlog2 (f : Bimor → Bimor) : (b.modBimor f).nlog2 = b.nlog2 := rfl
@[simp] theorem modBimor_memGiB (f : Bimor → Bimor) : (b.modBimor f).memGiB = b.memGiB := rfl
@[simp] theorem modBimor_dual (f : Bimor → Bimor) : (b.modBimor f).dual = b.dual := rfl
@[simp] theorem modBimor_now (f : Bimor → Bimor) : (b.modBimor f).now = b.now := rfl
@[simp] theorem modBimor_cyc (f : Bimor → Bimor) : (b.modBimor f).cyc = b.cyc := rfl
@[simp] theorem modBimor_free (f : Bimor → Bimor) : (b.modBimor f).free = b.free := rfl
@[simp] theorem modBimor_out (f : Bimor → Bimor) : (b.modBimor f).out = b.out := rfl
@[simp] theorem modBimor_life (f : Bimor → Bimor) : (b.modBimor f).life = b.life := rfl
@[simp] theorem modBimor_ch (f : Bimor → Bimor) : (b.modBimor f).ch = b.ch := rfl
@[simp] theorem modBimor_records (f : Bimor → Bimor) : (b.modBimor f).records = b.records := rfl
@[simp] theorem modBimor_chuck (f : Bimor → Bimor) : (b.modBimor f).chuck = b.chuck := rfl
@[simp] theorem modBimor_spindle (f : Bimor → Bimor) : (b.modBimor f).spindle = b.spindle := rfl
@[simp] theorem modBimor_auger (f : Bimor → Bimor) : (b.modBimor f).auger = b.auger := rfl
@[simp] theorem modBimor_gallery (f : Bimor → Bimor) : (b.modBimor f).gallery = b.gallery := rfl
@[simp] theorem modBimor_keys (f : Bimor → Bimor) : (b.modBimor f).keys = b.keys := rfl
@[simp] theorem modBimor_sump (f : Bimor → Bimor) : (b.modBimor f).sump = b.sump := rfl
@[simp] theorem modBimor_chains (f : Bimor → Bimor) : (b.modBimor f).chains = b.chains := rfl
@[simp] theorem modBimor_lantern (f : Bimor → Bimor) : (b.modBimor f).lantern = b.lantern := rfl
@[simp] theorem modBimor_chisel (f : Bimor → Bimor) : (b.modBimor f).chisel = b.chisel := rfl
@[simp] theorem modBimor_identity (f : Bimor → Bimor) : (b.modBimor f).identity = b.identity := rfl
@[simp] theorem modBimor_spdm (f : Bimor → Bimor) : (b.modBimor f).spdm = b.spdm := rfl
@[simp] theorem modBimor_kerard (f : Bimor → Bimor) : (b.modBimor f).kerard = b.kerard := rfl
@[simp] theorem modBimor_ferrules (f : Bimor → Bimor) : (b.modBimor f).ferrules = b.ferrules := rfl
@[simp] theorem modBimor_belay (f : Bimor → Bimor) : (b.modBimor f).belay = b.belay := rfl
@[simp] theorem modBimor_bbram (f : Bimor → Bimor) : (b.modBimor f).bbram = b.bbram := rfl
@[simp] theorem modBimor_strata (f : Bimor → Bimor) : (b.modBimor f).strata = b.strata := rfl
@[simp] theorem modBimor_pmc (f : Bimor → Bimor) : (b.modBimor f).pmc = b.pmc := rfl
@[simp] theorem modBimor_counters (f : Bimor → Bimor) : (b.modBimor f).counters = b.counters := rfl
@[simp] theorem modBimor_pcie (f : Bimor → Bimor) : (b.modBimor f).pcie = b.pcie := rfl
@[simp] theorem modBimor_smbus (f : Bimor → Bimor) : (b.modBimor f).smbus = b.smbus := rfl
@[simp] theorem modBimor_io (f : Bimor → Bimor) : (b.modBimor f).io = b.io := rfl

/-! ### modCore -/

@[simp] theorem modCore_nlog2 (k : Nat) (f : Core → Core) : (b.modCore k f).nlog2 = b.nlog2 := rfl
@[simp] theorem modCore_memGiB (k : Nat) (f : Core → Core) : (b.modCore k f).memGiB = b.memGiB := rfl
@[simp] theorem modCore_dual (k : Nat) (f : Core → Core) : (b.modCore k f).dual = b.dual := rfl
@[simp] theorem modCore_now (k : Nat) (f : Core → Core) : (b.modCore k f).now = b.now := rfl
@[simp] theorem modCore_cyc (k : Nat) (f : Core → Core) : (b.modCore k f).cyc = b.cyc := rfl
@[simp] theorem modCore_free (k : Nat) (f : Core → Core) : (b.modCore k f).free = b.free := rfl
@[simp] theorem modCore_out (k : Nat) (f : Core → Core) : (b.modCore k f).out = b.out := rfl
@[simp] theorem modCore_life (k : Nat) (f : Core → Core) : (b.modCore k f).life = b.life := rfl
@[simp] theorem modCore_ch (k : Nat) (f : Core → Core) : (b.modCore k f).ch = b.ch := rfl
@[simp] theorem modCore_records (k : Nat) (f : Core → Core) : (b.modCore k f).records = b.records := rfl
@[simp] theorem modCore_chuck (k : Nat) (f : Core → Core) : (b.modCore k f).chuck = b.chuck := rfl
@[simp] theorem modCore_spindle (k : Nat) (f : Core → Core) : (b.modCore k f).spindle = b.spindle := rfl
@[simp] theorem modCore_auger (k : Nat) (f : Core → Core) : (b.modCore k f).auger = b.auger := rfl
@[simp] theorem modCore_gallery (k : Nat) (f : Core → Core) : (b.modCore k f).gallery = b.gallery := rfl
@[simp] theorem modCore_keys (k : Nat) (f : Core → Core) : (b.modCore k f).keys = b.keys := rfl
@[simp] theorem modCore_sump (k : Nat) (f : Core → Core) : (b.modCore k f).sump = b.sump := rfl
@[simp] theorem modCore_chains (k : Nat) (f : Core → Core) : (b.modCore k f).chains = b.chains := rfl
@[simp] theorem modCore_lantern (k : Nat) (f : Core → Core) : (b.modCore k f).lantern = b.lantern := rfl
@[simp] theorem modCore_bimor (k : Nat) (f : Core → Core) : (b.modCore k f).bimor = b.bimor := rfl
@[simp] theorem modCore_identity (k : Nat) (f : Core → Core) : (b.modCore k f).identity = b.identity := rfl
@[simp] theorem modCore_spdm (k : Nat) (f : Core → Core) : (b.modCore k f).spdm = b.spdm := rfl
@[simp] theorem modCore_kerard (k : Nat) (f : Core → Core) : (b.modCore k f).kerard = b.kerard := rfl
@[simp] theorem modCore_ferrules (k : Nat) (f : Core → Core) : (b.modCore k f).ferrules = b.ferrules := rfl
@[simp] theorem modCore_belay (k : Nat) (f : Core → Core) : (b.modCore k f).belay = b.belay := rfl
@[simp] theorem modCore_bbram (k : Nat) (f : Core → Core) : (b.modCore k f).bbram = b.bbram := rfl
@[simp] theorem modCore_strata (k : Nat) (f : Core → Core) : (b.modCore k f).strata = b.strata := rfl
@[simp] theorem modCore_pmc (k : Nat) (f : Core → Core) : (b.modCore k f).pmc = b.pmc := rfl
@[simp] theorem modCore_counters (k : Nat) (f : Core → Core) : (b.modCore k f).counters = b.counters := rfl
@[simp] theorem modCore_pcie (k : Nat) (f : Core → Core) : (b.modCore k f).pcie = b.pcie := rfl
@[simp] theorem modCore_smbus (k : Nat) (f : Core → Core) : (b.modCore k f).smbus = b.smbus := rfl
@[simp] theorem modCore_io (k : Nat) (f : Core → Core) : (b.modCore k f).io = b.io := rfl

/-! ### setItem -/

@[simp] theorem setItem_nlog2 (n : Nat) (i : Item) : (b.setItem n i).nlog2 = b.nlog2 := rfl
@[simp] theorem setItem_memGiB (n : Nat) (i : Item) : (b.setItem n i).memGiB = b.memGiB := rfl
@[simp] theorem setItem_dual (n : Nat) (i : Item) : (b.setItem n i).dual = b.dual := rfl
@[simp] theorem setItem_now (n : Nat) (i : Item) : (b.setItem n i).now = b.now := rfl
@[simp] theorem setItem_cyc (n : Nat) (i : Item) : (b.setItem n i).cyc = b.cyc := rfl
@[simp] theorem setItem_free (n : Nat) (i : Item) : (b.setItem n i).free = b.free := rfl
@[simp] theorem setItem_out (n : Nat) (i : Item) : (b.setItem n i).out = b.out := rfl
@[simp] theorem setItem_life (n : Nat) (i : Item) : (b.setItem n i).life = b.life := rfl
@[simp] theorem setItem_ch (n : Nat) (i : Item) : (b.setItem n i).ch = b.ch := rfl
@[simp] theorem setItem_records (n : Nat) (i : Item) : (b.setItem n i).records = b.records := rfl
@[simp] theorem setItem_spindle (n : Nat) (i : Item) : (b.setItem n i).spindle = b.spindle := rfl
@[simp] theorem setItem_auger (n : Nat) (i : Item) : (b.setItem n i).auger = b.auger := rfl
@[simp] theorem setItem_gallery (n : Nat) (i : Item) : (b.setItem n i).gallery = b.gallery := rfl
@[simp] theorem setItem_keys (n : Nat) (i : Item) : (b.setItem n i).keys = b.keys := rfl
@[simp] theorem setItem_sump (n : Nat) (i : Item) : (b.setItem n i).sump = b.sump := rfl
@[simp] theorem setItem_chains (n : Nat) (i : Item) : (b.setItem n i).chains = b.chains := rfl
@[simp] theorem setItem_lantern (n : Nat) (i : Item) : (b.setItem n i).lantern = b.lantern := rfl
@[simp] theorem setItem_chisel (n : Nat) (i : Item) : (b.setItem n i).chisel = b.chisel := rfl
@[simp] theorem setItem_bimor (n : Nat) (i : Item) : (b.setItem n i).bimor = b.bimor := rfl
@[simp] theorem setItem_identity (n : Nat) (i : Item) : (b.setItem n i).identity = b.identity := rfl
@[simp] theorem setItem_spdm (n : Nat) (i : Item) : (b.setItem n i).spdm = b.spdm := rfl
@[simp] theorem setItem_kerard (n : Nat) (i : Item) : (b.setItem n i).kerard = b.kerard := rfl
@[simp] theorem setItem_ferrules (n : Nat) (i : Item) : (b.setItem n i).ferrules = b.ferrules := rfl
@[simp] theorem setItem_belay (n : Nat) (i : Item) : (b.setItem n i).belay = b.belay := rfl
@[simp] theorem setItem_bbram (n : Nat) (i : Item) : (b.setItem n i).bbram = b.bbram := rfl
@[simp] theorem setItem_strata (n : Nat) (i : Item) : (b.setItem n i).strata = b.strata := rfl
@[simp] theorem setItem_pmc (n : Nat) (i : Item) : (b.setItem n i).pmc = b.pmc := rfl
@[simp] theorem setItem_counters (n : Nat) (i : Item) : (b.setItem n i).counters = b.counters := rfl
@[simp] theorem setItem_pcie (n : Nat) (i : Item) : (b.setItem n i).pcie = b.pcie := rfl
@[simp] theorem setItem_smbus (n : Nat) (i : Item) : (b.setItem n i).smbus = b.smbus := rfl
@[simp] theorem setItem_io (n : Nat) (i : Item) : (b.setItem n i).io = b.io := rfl

/-! ### modItem -/

@[simp] theorem modItem_nlog2 (n : Nat) (f : Item → Item) : (b.modItem n f).nlog2 = b.nlog2 := by unfold Block.modItem; split <;> rfl
@[simp] theorem modItem_memGiB (n : Nat) (f : Item → Item) : (b.modItem n f).memGiB = b.memGiB := by unfold Block.modItem; split <;> rfl
@[simp] theorem modItem_dual (n : Nat) (f : Item → Item) : (b.modItem n f).dual = b.dual := by unfold Block.modItem; split <;> rfl
@[simp] theorem modItem_now (n : Nat) (f : Item → Item) : (b.modItem n f).now = b.now := by unfold Block.modItem; split <;> rfl
@[simp] theorem modItem_cyc (n : Nat) (f : Item → Item) : (b.modItem n f).cyc = b.cyc := by unfold Block.modItem; split <;> rfl
@[simp] theorem modItem_free (n : Nat) (f : Item → Item) : (b.modItem n f).free = b.free := by unfold Block.modItem; split <;> rfl
@[simp] theorem modItem_out (n : Nat) (f : Item → Item) : (b.modItem n f).out = b.out := by unfold Block.modItem; split <;> rfl
@[simp] theorem modItem_life (n : Nat) (f : Item → Item) : (b.modItem n f).life = b.life := by unfold Block.modItem; split <;> rfl
@[simp] theorem modItem_ch (n : Nat) (f : Item → Item) : (b.modItem n f).ch = b.ch := by unfold Block.modItem; split <;> rfl
@[simp] theorem modItem_records (n : Nat) (f : Item → Item) : (b.modItem n f).records = b.records := by unfold Block.modItem; split <;> rfl
@[simp] theorem modItem_spindle (n : Nat) (f : Item → Item) : (b.modItem n f).spindle = b.spindle := by unfold Block.modItem; split <;> rfl
@[simp] theorem modItem_auger (n : Nat) (f : Item → Item) : (b.modItem n f).auger = b.auger := by unfold Block.modItem; split <;> rfl
@[simp] theorem modItem_gallery (n : Nat) (f : Item → Item) : (b.modItem n f).gallery = b.gallery := by unfold Block.modItem; split <;> rfl
@[simp] theorem modItem_keys (n : Nat) (f : Item → Item) : (b.modItem n f).keys = b.keys := by unfold Block.modItem; split <;> rfl
@[simp] theorem modItem_sump (n : Nat) (f : Item → Item) : (b.modItem n f).sump = b.sump := by unfold Block.modItem; split <;> rfl
@[simp] theorem modItem_chains (n : Nat) (f : Item → Item) : (b.modItem n f).chains = b.chains := by unfold Block.modItem; split <;> rfl
@[simp] theorem modItem_lantern (n : Nat) (f : Item → Item) : (b.modItem n f).lantern = b.lantern := by unfold Block.modItem; split <;> rfl
@[simp] theorem modItem_chisel (n : Nat) (f : Item → Item) : (b.modItem n f).chisel = b.chisel := by unfold Block.modItem; split <;> rfl
@[simp] theorem modItem_bimor (n : Nat) (f : Item → Item) : (b.modItem n f).bimor = b.bimor := by unfold Block.modItem; split <;> rfl
@[simp] theorem modItem_identity (n : Nat) (f : Item → Item) : (b.modItem n f).identity = b.identity := by unfold Block.modItem; split <;> rfl
@[simp] theorem modItem_spdm (n : Nat) (f : Item → Item) : (b.modItem n f).spdm = b.spdm := by unfold Block.modItem; split <;> rfl
@[simp] theorem modItem_kerard (n : Nat) (f : Item → Item) : (b.modItem n f).kerard = b.kerard := by unfold Block.modItem; split <;> rfl
@[simp] theorem modItem_ferrules (n : Nat) (f : Item → Item) : (b.modItem n f).ferrules = b.ferrules := by unfold Block.modItem; split <;> rfl
@[simp] theorem modItem_belay (n : Nat) (f : Item → Item) : (b.modItem n f).belay = b.belay := by unfold Block.modItem; split <;> rfl
@[simp] theorem modItem_bbram (n : Nat) (f : Item → Item) : (b.modItem n f).bbram = b.bbram := by unfold Block.modItem; split <;> rfl
@[simp] theorem modItem_strata (n : Nat) (f : Item → Item) : (b.modItem n f).strata = b.strata := by unfold Block.modItem; split <;> rfl
@[simp] theorem modItem_pmc (n : Nat) (f : Item → Item) : (b.modItem n f).pmc = b.pmc := by unfold Block.modItem; split <;> rfl
@[simp] theorem modItem_counters (n : Nat) (f : Item → Item) : (b.modItem n f).counters = b.counters := by unfold Block.modItem; split <;> rfl
@[simp] theorem modItem_pcie (n : Nat) (f : Item → Item) : (b.modItem n f).pcie = b.pcie := by unfold Block.modItem; split <;> rfl
@[simp] theorem modItem_smbus (n : Nat) (f : Item → Item) : (b.modItem n f).smbus = b.smbus := by unfold Block.modItem; split <;> rfl
@[simp] theorem modItem_io (n : Nat) (f : Item → Item) : (b.modItem n f).io = b.io := by unfold Block.modItem; split <;> rfl

/-! ### modTicket -/

@[simp] theorem modTicket_nlog2 (k t : Nat) (f : Ticket → Ticket) : (b.modTicket k t f).nlog2 = b.nlog2 := rfl
@[simp] theorem modTicket_memGiB (k t : Nat) (f : Ticket → Ticket) : (b.modTicket k t f).memGiB = b.memGiB := rfl
@[simp] theorem modTicket_dual (k t : Nat) (f : Ticket → Ticket) : (b.modTicket k t f).dual = b.dual := rfl
@[simp] theorem modTicket_now (k t : Nat) (f : Ticket → Ticket) : (b.modTicket k t f).now = b.now := rfl
@[simp] theorem modTicket_cyc (k t : Nat) (f : Ticket → Ticket) : (b.modTicket k t f).cyc = b.cyc := rfl
@[simp] theorem modTicket_free (k t : Nat) (f : Ticket → Ticket) : (b.modTicket k t f).free = b.free := rfl
@[simp] theorem modTicket_out (k t : Nat) (f : Ticket → Ticket) : (b.modTicket k t f).out = b.out := rfl
@[simp] theorem modTicket_life (k t : Nat) (f : Ticket → Ticket) : (b.modTicket k t f).life = b.life := rfl
@[simp] theorem modTicket_ch (k t : Nat) (f : Ticket → Ticket) : (b.modTicket k t f).ch = b.ch := rfl
@[simp] theorem modTicket_records (k t : Nat) (f : Ticket → Ticket) : (b.modTicket k t f).records = b.records := rfl
@[simp] theorem modTicket_chuck (k t : Nat) (f : Ticket → Ticket) : (b.modTicket k t f).chuck = b.chuck := rfl
@[simp] theorem modTicket_spindle (k t : Nat) (f : Ticket → Ticket) : (b.modTicket k t f).spindle = b.spindle := rfl
@[simp] theorem modTicket_auger (k t : Nat) (f : Ticket → Ticket) : (b.modTicket k t f).auger = b.auger := rfl
@[simp] theorem modTicket_gallery (k t : Nat) (f : Ticket → Ticket) : (b.modTicket k t f).gallery = b.gallery := rfl
@[simp] theorem modTicket_keys (k t : Nat) (f : Ticket → Ticket) : (b.modTicket k t f).keys = b.keys := rfl
@[simp] theorem modTicket_sump (k t : Nat) (f : Ticket → Ticket) : (b.modTicket k t f).sump = b.sump := rfl
@[simp] theorem modTicket_chains (k t : Nat) (f : Ticket → Ticket) : (b.modTicket k t f).chains = b.chains := rfl
@[simp] theorem modTicket_lantern (k t : Nat) (f : Ticket → Ticket) : (b.modTicket k t f).lantern = b.lantern := rfl
@[simp] theorem modTicket_bimor (k t : Nat) (f : Ticket → Ticket) : (b.modTicket k t f).bimor = b.bimor := rfl
@[simp] theorem modTicket_identity (k t : Nat) (f : Ticket → Ticket) : (b.modTicket k t f).identity = b.identity := rfl
@[simp] theorem modTicket_spdm (k t : Nat) (f : Ticket → Ticket) : (b.modTicket k t f).spdm = b.spdm := rfl
@[simp] theorem modTicket_kerard (k t : Nat) (f : Ticket → Ticket) : (b.modTicket k t f).kerard = b.kerard := rfl
@[simp] theorem modTicket_ferrules (k t : Nat) (f : Ticket → Ticket) : (b.modTicket k t f).ferrules = b.ferrules := rfl
@[simp] theorem modTicket_belay (k t : Nat) (f : Ticket → Ticket) : (b.modTicket k t f).belay = b.belay := rfl
@[simp] theorem modTicket_bbram (k t : Nat) (f : Ticket → Ticket) : (b.modTicket k t f).bbram = b.bbram := rfl
@[simp] theorem modTicket_strata (k t : Nat) (f : Ticket → Ticket) : (b.modTicket k t f).strata = b.strata := rfl
@[simp] theorem modTicket_pmc (k t : Nat) (f : Ticket → Ticket) : (b.modTicket k t f).pmc = b.pmc := rfl
@[simp] theorem modTicket_counters (k t : Nat) (f : Ticket → Ticket) : (b.modTicket k t f).counters = b.counters := rfl
@[simp] theorem modTicket_pcie (k t : Nat) (f : Ticket → Ticket) : (b.modTicket k t f).pcie = b.pcie := rfl
@[simp] theorem modTicket_smbus (k t : Nat) (f : Ticket → Ticket) : (b.modTicket k t f).smbus = b.smbus := rfl
@[simp] theorem modTicket_io (k t : Nat) (f : Ticket → Ticket) : (b.modTicket k t f).io = b.io := rfl

/-! ### tallyBy -/

@[simp] theorem tallyBy_nlog2 (k n : Nat) : (b.tallyBy k n).nlog2 = b.nlog2 := rfl
@[simp] theorem tallyBy_memGiB (k n : Nat) : (b.tallyBy k n).memGiB = b.memGiB := rfl
@[simp] theorem tallyBy_dual (k n : Nat) : (b.tallyBy k n).dual = b.dual := rfl
@[simp] theorem tallyBy_now (k n : Nat) : (b.tallyBy k n).now = b.now := rfl
@[simp] theorem tallyBy_cyc (k n : Nat) : (b.tallyBy k n).cyc = b.cyc := rfl
@[simp] theorem tallyBy_free (k n : Nat) : (b.tallyBy k n).free = b.free := rfl
@[simp] theorem tallyBy_out (k n : Nat) : (b.tallyBy k n).out = b.out := rfl
@[simp] theorem tallyBy_life (k n : Nat) : (b.tallyBy k n).life = b.life := rfl
@[simp] theorem tallyBy_ch (k n : Nat) : (b.tallyBy k n).ch = b.ch := rfl
@[simp] theorem tallyBy_records (k n : Nat) : (b.tallyBy k n).records = b.records := rfl
@[simp] theorem tallyBy_chuck (k n : Nat) : (b.tallyBy k n).chuck = b.chuck := rfl
@[simp] theorem tallyBy_spindle (k n : Nat) : (b.tallyBy k n).spindle = b.spindle := rfl
@[simp] theorem tallyBy_auger (k n : Nat) : (b.tallyBy k n).auger = b.auger := rfl
@[simp] theorem tallyBy_gallery (k n : Nat) : (b.tallyBy k n).gallery = b.gallery := rfl
@[simp] theorem tallyBy_keys (k n : Nat) : (b.tallyBy k n).keys = b.keys := rfl
@[simp] theorem tallyBy_sump (k n : Nat) : (b.tallyBy k n).sump = b.sump := rfl
@[simp] theorem tallyBy_chains (k n : Nat) : (b.tallyBy k n).chains = b.chains := rfl
@[simp] theorem tallyBy_lantern (k n : Nat) : (b.tallyBy k n).lantern = b.lantern := rfl
@[simp] theorem tallyBy_chisel (k n : Nat) : (b.tallyBy k n).chisel = b.chisel := rfl
@[simp] theorem tallyBy_bimor (k n : Nat) : (b.tallyBy k n).bimor = b.bimor := rfl
@[simp] theorem tallyBy_identity (k n : Nat) : (b.tallyBy k n).identity = b.identity := rfl
@[simp] theorem tallyBy_spdm (k n : Nat) : (b.tallyBy k n).spdm = b.spdm := rfl
@[simp] theorem tallyBy_kerard (k n : Nat) : (b.tallyBy k n).kerard = b.kerard := rfl
@[simp] theorem tallyBy_ferrules (k n : Nat) : (b.tallyBy k n).ferrules = b.ferrules := rfl
@[simp] theorem tallyBy_belay (k n : Nat) : (b.tallyBy k n).belay = b.belay := rfl
@[simp] theorem tallyBy_bbram (k n : Nat) : (b.tallyBy k n).bbram = b.bbram := rfl
@[simp] theorem tallyBy_strata (k n : Nat) : (b.tallyBy k n).strata = b.strata := rfl
@[simp] theorem tallyBy_pmc (k n : Nat) : (b.tallyBy k n).pmc = b.pmc := rfl
@[simp] theorem tallyBy_pcie (k n : Nat) : (b.tallyBy k n).pcie = b.pcie := rfl
@[simp] theorem tallyBy_smbus (k n : Nat) : (b.tallyBy k n).smbus = b.smbus := rfl
@[simp] theorem tallyBy_io (k n : Nat) : (b.tallyBy k n).io = b.io := rfl

/-! ### tally -/

@[simp] theorem tally_nlog2 (k : Nat) : (b.tally k).nlog2 = b.nlog2 := rfl
@[simp] theorem tally_memGiB (k : Nat) : (b.tally k).memGiB = b.memGiB := rfl
@[simp] theorem tally_dual (k : Nat) : (b.tally k).dual = b.dual := rfl
@[simp] theorem tally_now (k : Nat) : (b.tally k).now = b.now := rfl
@[simp] theorem tally_cyc (k : Nat) : (b.tally k).cyc = b.cyc := rfl
@[simp] theorem tally_free (k : Nat) : (b.tally k).free = b.free := rfl
@[simp] theorem tally_out (k : Nat) : (b.tally k).out = b.out := rfl
@[simp] theorem tally_life (k : Nat) : (b.tally k).life = b.life := rfl
@[simp] theorem tally_ch (k : Nat) : (b.tally k).ch = b.ch := rfl
@[simp] theorem tally_records (k : Nat) : (b.tally k).records = b.records := rfl
@[simp] theorem tally_chuck (k : Nat) : (b.tally k).chuck = b.chuck := rfl
@[simp] theorem tally_spindle (k : Nat) : (b.tally k).spindle = b.spindle := rfl
@[simp] theorem tally_auger (k : Nat) : (b.tally k).auger = b.auger := rfl
@[simp] theorem tally_gallery (k : Nat) : (b.tally k).gallery = b.gallery := rfl
@[simp] theorem tally_keys (k : Nat) : (b.tally k).keys = b.keys := rfl
@[simp] theorem tally_sump (k : Nat) : (b.tally k).sump = b.sump := rfl
@[simp] theorem tally_chains (k : Nat) : (b.tally k).chains = b.chains := rfl
@[simp] theorem tally_lantern (k : Nat) : (b.tally k).lantern = b.lantern := rfl
@[simp] theorem tally_chisel (k : Nat) : (b.tally k).chisel = b.chisel := rfl
@[simp] theorem tally_bimor (k : Nat) : (b.tally k).bimor = b.bimor := rfl
@[simp] theorem tally_identity (k : Nat) : (b.tally k).identity = b.identity := rfl
@[simp] theorem tally_spdm (k : Nat) : (b.tally k).spdm = b.spdm := rfl
@[simp] theorem tally_kerard (k : Nat) : (b.tally k).kerard = b.kerard := rfl
@[simp] theorem tally_ferrules (k : Nat) : (b.tally k).ferrules = b.ferrules := rfl
@[simp] theorem tally_belay (k : Nat) : (b.tally k).belay = b.belay := rfl
@[simp] theorem tally_bbram (k : Nat) : (b.tally k).bbram = b.bbram := rfl
@[simp] theorem tally_strata (k : Nat) : (b.tally k).strata = b.strata := rfl
@[simp] theorem tally_pmc (k : Nat) : (b.tally k).pmc = b.pmc := rfl
@[simp] theorem tally_pcie (k : Nat) : (b.tally k).pcie = b.pcie := rfl
@[simp] theorem tally_smbus (k : Nat) : (b.tally k).smbus = b.smbus := rfl
@[simp] theorem tally_io (k : Nat) : (b.tally k).io = b.io := rfl

/-! ### events -/

@[simp] theorem events_nlog2 (u ev : Nat) (who : List Nat) : (b.events u ev who).nlog2 = b.nlog2 := rfl
@[simp] theorem events_memGiB (u ev : Nat) (who : List Nat) : (b.events u ev who).memGiB = b.memGiB := rfl
@[simp] theorem events_dual (u ev : Nat) (who : List Nat) : (b.events u ev who).dual = b.dual := rfl
@[simp] theorem events_now (u ev : Nat) (who : List Nat) : (b.events u ev who).now = b.now := rfl
@[simp] theorem events_cyc (u ev : Nat) (who : List Nat) : (b.events u ev who).cyc = b.cyc := rfl
@[simp] theorem events_free (u ev : Nat) (who : List Nat) : (b.events u ev who).free = b.free := rfl
@[simp] theorem events_out (u ev : Nat) (who : List Nat) : (b.events u ev who).out = b.out := rfl
@[simp] theorem events_life (u ev : Nat) (who : List Nat) : (b.events u ev who).life = b.life := rfl
@[simp] theorem events_ch (u ev : Nat) (who : List Nat) : (b.events u ev who).ch = b.ch := rfl
@[simp] theorem events_records (u ev : Nat) (who : List Nat) : (b.events u ev who).records = b.records := rfl
@[simp] theorem events_chuck (u ev : Nat) (who : List Nat) : (b.events u ev who).chuck = b.chuck := rfl
@[simp] theorem events_spindle (u ev : Nat) (who : List Nat) : (b.events u ev who).spindle = b.spindle := rfl
@[simp] theorem events_auger (u ev : Nat) (who : List Nat) : (b.events u ev who).auger = b.auger := rfl
@[simp] theorem events_gallery (u ev : Nat) (who : List Nat) : (b.events u ev who).gallery = b.gallery := rfl
@[simp] theorem events_keys (u ev : Nat) (who : List Nat) : (b.events u ev who).keys = b.keys := rfl
@[simp] theorem events_sump (u ev : Nat) (who : List Nat) : (b.events u ev who).sump = b.sump := rfl
@[simp] theorem events_chains (u ev : Nat) (who : List Nat) : (b.events u ev who).chains = b.chains := rfl
@[simp] theorem events_lantern (u ev : Nat) (who : List Nat) : (b.events u ev who).lantern = b.lantern := rfl
@[simp] theorem events_chisel (u ev : Nat) (who : List Nat) : (b.events u ev who).chisel = b.chisel := rfl
@[simp] theorem events_bimor (u ev : Nat) (who : List Nat) : (b.events u ev who).bimor = b.bimor := rfl
@[simp] theorem events_identity (u ev : Nat) (who : List Nat) : (b.events u ev who).identity = b.identity := rfl
@[simp] theorem events_spdm (u ev : Nat) (who : List Nat) : (b.events u ev who).spdm = b.spdm := rfl
@[simp] theorem events_kerard (u ev : Nat) (who : List Nat) : (b.events u ev who).kerard = b.kerard := rfl
@[simp] theorem events_ferrules (u ev : Nat) (who : List Nat) : (b.events u ev who).ferrules = b.ferrules := rfl
@[simp] theorem events_belay (u ev : Nat) (who : List Nat) : (b.events u ev who).belay = b.belay := rfl
@[simp] theorem events_bbram (u ev : Nat) (who : List Nat) : (b.events u ev who).bbram = b.bbram := rfl
@[simp] theorem events_strata (u ev : Nat) (who : List Nat) : (b.events u ev who).strata = b.strata := rfl
@[simp] theorem events_pmc (u ev : Nat) (who : List Nat) : (b.events u ev who).pmc = b.pmc := rfl
@[simp] theorem events_pcie (u ev : Nat) (who : List Nat) : (b.events u ev who).pcie = b.pcie := rfl
@[simp] theorem events_smbus (u ev : Nat) (who : List Nat) : (b.events u ev who).smbus = b.smbus := rfl
@[simp] theorem events_io (u ev : Nat) (who : List Nat) : (b.events u ev who).io = b.io := rfl

/-! ### event -/

@[simp] theorem event_nlog2 (u ev : Nat) (who : Option Nat) : (b.event u ev who).nlog2 = b.nlog2 := rfl
@[simp] theorem event_memGiB (u ev : Nat) (who : Option Nat) : (b.event u ev who).memGiB = b.memGiB := rfl
@[simp] theorem event_dual (u ev : Nat) (who : Option Nat) : (b.event u ev who).dual = b.dual := rfl
@[simp] theorem event_now (u ev : Nat) (who : Option Nat) : (b.event u ev who).now = b.now := rfl
@[simp] theorem event_cyc (u ev : Nat) (who : Option Nat) : (b.event u ev who).cyc = b.cyc := rfl
@[simp] theorem event_free (u ev : Nat) (who : Option Nat) : (b.event u ev who).free = b.free := rfl
@[simp] theorem event_out (u ev : Nat) (who : Option Nat) : (b.event u ev who).out = b.out := rfl
@[simp] theorem event_life (u ev : Nat) (who : Option Nat) : (b.event u ev who).life = b.life := rfl
@[simp] theorem event_ch (u ev : Nat) (who : Option Nat) : (b.event u ev who).ch = b.ch := rfl
@[simp] theorem event_records (u ev : Nat) (who : Option Nat) : (b.event u ev who).records = b.records := rfl
@[simp] theorem event_chuck (u ev : Nat) (who : Option Nat) : (b.event u ev who).chuck = b.chuck := rfl
@[simp] theorem event_spindle (u ev : Nat) (who : Option Nat) : (b.event u ev who).spindle = b.spindle := rfl
@[simp] theorem event_auger (u ev : Nat) (who : Option Nat) : (b.event u ev who).auger = b.auger := rfl
@[simp] theorem event_gallery (u ev : Nat) (who : Option Nat) : (b.event u ev who).gallery = b.gallery := rfl
@[simp] theorem event_keys (u ev : Nat) (who : Option Nat) : (b.event u ev who).keys = b.keys := rfl
@[simp] theorem event_sump (u ev : Nat) (who : Option Nat) : (b.event u ev who).sump = b.sump := rfl
@[simp] theorem event_chains (u ev : Nat) (who : Option Nat) : (b.event u ev who).chains = b.chains := rfl
@[simp] theorem event_lantern (u ev : Nat) (who : Option Nat) : (b.event u ev who).lantern = b.lantern := rfl
@[simp] theorem event_chisel (u ev : Nat) (who : Option Nat) : (b.event u ev who).chisel = b.chisel := rfl
@[simp] theorem event_bimor (u ev : Nat) (who : Option Nat) : (b.event u ev who).bimor = b.bimor := rfl
@[simp] theorem event_identity (u ev : Nat) (who : Option Nat) : (b.event u ev who).identity = b.identity := rfl
@[simp] theorem event_spdm (u ev : Nat) (who : Option Nat) : (b.event u ev who).spdm = b.spdm := rfl
@[simp] theorem event_kerard (u ev : Nat) (who : Option Nat) : (b.event u ev who).kerard = b.kerard := rfl
@[simp] theorem event_ferrules (u ev : Nat) (who : Option Nat) : (b.event u ev who).ferrules = b.ferrules := rfl
@[simp] theorem event_belay (u ev : Nat) (who : Option Nat) : (b.event u ev who).belay = b.belay := rfl
@[simp] theorem event_bbram (u ev : Nat) (who : Option Nat) : (b.event u ev who).bbram = b.bbram := rfl
@[simp] theorem event_strata (u ev : Nat) (who : Option Nat) : (b.event u ev who).strata = b.strata := rfl
@[simp] theorem event_pmc (u ev : Nat) (who : Option Nat) : (b.event u ev who).pmc = b.pmc := rfl
@[simp] theorem event_pcie (u ev : Nat) (who : Option Nat) : (b.event u ev who).pcie = b.pcie := rfl
@[simp] theorem event_smbus (u ev : Nat) (who : Option Nat) : (b.event u ev who).smbus = b.smbus := rfl
@[simp] theorem event_io (u ev : Nat) (who : Option Nat) : (b.event u ev who).io = b.io := rfl

/-! ### lasting -/

@[simp] theorem lasting_nlog2 (u ev : Nat) (who : List Nat) : (b.lasting u ev who).nlog2 = b.nlog2 := rfl
@[simp] theorem lasting_memGiB (u ev : Nat) (who : List Nat) : (b.lasting u ev who).memGiB = b.memGiB := rfl
@[simp] theorem lasting_dual (u ev : Nat) (who : List Nat) : (b.lasting u ev who).dual = b.dual := rfl
@[simp] theorem lasting_now (u ev : Nat) (who : List Nat) : (b.lasting u ev who).now = b.now := rfl
@[simp] theorem lasting_cyc (u ev : Nat) (who : List Nat) : (b.lasting u ev who).cyc = b.cyc := rfl
@[simp] theorem lasting_free (u ev : Nat) (who : List Nat) : (b.lasting u ev who).free = b.free := rfl
@[simp] theorem lasting_out (u ev : Nat) (who : List Nat) : (b.lasting u ev who).out = b.out := rfl
@[simp] theorem lasting_life (u ev : Nat) (who : List Nat) : (b.lasting u ev who).life = b.life := rfl
@[simp] theorem lasting_ch (u ev : Nat) (who : List Nat) : (b.lasting u ev who).ch = b.ch := rfl
@[simp] theorem lasting_records (u ev : Nat) (who : List Nat) : (b.lasting u ev who).records = b.records := rfl
@[simp] theorem lasting_chuck (u ev : Nat) (who : List Nat) : (b.lasting u ev who).chuck = b.chuck := rfl
@[simp] theorem lasting_spindle (u ev : Nat) (who : List Nat) : (b.lasting u ev who).spindle = b.spindle := rfl
@[simp] theorem lasting_auger (u ev : Nat) (who : List Nat) : (b.lasting u ev who).auger = b.auger := rfl
@[simp] theorem lasting_gallery (u ev : Nat) (who : List Nat) : (b.lasting u ev who).gallery = b.gallery := rfl
@[simp] theorem lasting_keys (u ev : Nat) (who : List Nat) : (b.lasting u ev who).keys = b.keys := rfl
@[simp] theorem lasting_sump (u ev : Nat) (who : List Nat) : (b.lasting u ev who).sump = b.sump := rfl
@[simp] theorem lasting_chains (u ev : Nat) (who : List Nat) : (b.lasting u ev who).chains = b.chains := rfl
@[simp] theorem lasting_lantern (u ev : Nat) (who : List Nat) : (b.lasting u ev who).lantern = b.lantern := rfl
@[simp] theorem lasting_chisel (u ev : Nat) (who : List Nat) : (b.lasting u ev who).chisel = b.chisel := rfl
@[simp] theorem lasting_bimor (u ev : Nat) (who : List Nat) : (b.lasting u ev who).bimor = b.bimor := rfl
@[simp] theorem lasting_identity (u ev : Nat) (who : List Nat) : (b.lasting u ev who).identity = b.identity := rfl
@[simp] theorem lasting_spdm (u ev : Nat) (who : List Nat) : (b.lasting u ev who).spdm = b.spdm := rfl
@[simp] theorem lasting_kerard (u ev : Nat) (who : List Nat) : (b.lasting u ev who).kerard = b.kerard := rfl
@[simp] theorem lasting_ferrules (u ev : Nat) (who : List Nat) : (b.lasting u ev who).ferrules = b.ferrules := rfl
@[simp] theorem lasting_belay (u ev : Nat) (who : List Nat) : (b.lasting u ev who).belay = b.belay := rfl
@[simp] theorem lasting_bbram (u ev : Nat) (who : List Nat) : (b.lasting u ev who).bbram = b.bbram := rfl
@[simp] theorem lasting_strata (u ev : Nat) (who : List Nat) : (b.lasting u ev who).strata = b.strata := rfl
@[simp] theorem lasting_pmc (u ev : Nat) (who : List Nat) : (b.lasting u ev who).pmc = b.pmc := rfl
@[simp] theorem lasting_pcie (u ev : Nat) (who : List Nat) : (b.lasting u ev who).pcie = b.pcie := rfl
@[simp] theorem lasting_smbus (u ev : Nat) (who : List Nat) : (b.lasting u ev who).smbus = b.smbus := rfl
@[simp] theorem lasting_io (u ev : Nat) (who : List Nat) : (b.lasting u ev who).io = b.io := rfl

/-! ### report -/

@[simp] theorem report_nlog2 (code src : Nat) (cls : RClass) (p0 p1 p2 : Nat) : (b.report code src cls p0 p1 p2).nlog2 = b.nlog2 := rfl
@[simp] theorem report_memGiB (code src : Nat) (cls : RClass) (p0 p1 p2 : Nat) : (b.report code src cls p0 p1 p2).memGiB = b.memGiB := rfl
@[simp] theorem report_dual (code src : Nat) (cls : RClass) (p0 p1 p2 : Nat) : (b.report code src cls p0 p1 p2).dual = b.dual := rfl
@[simp] theorem report_now (code src : Nat) (cls : RClass) (p0 p1 p2 : Nat) : (b.report code src cls p0 p1 p2).now = b.now := rfl
@[simp] theorem report_cyc (code src : Nat) (cls : RClass) (p0 p1 p2 : Nat) : (b.report code src cls p0 p1 p2).cyc = b.cyc := rfl
@[simp] theorem report_free (code src : Nat) (cls : RClass) (p0 p1 p2 : Nat) : (b.report code src cls p0 p1 p2).free = b.free := rfl
@[simp] theorem report_out (code src : Nat) (cls : RClass) (p0 p1 p2 : Nat) : (b.report code src cls p0 p1 p2).out = b.out := rfl
@[simp] theorem report_life (code src : Nat) (cls : RClass) (p0 p1 p2 : Nat) : (b.report code src cls p0 p1 p2).life = b.life := rfl
@[simp] theorem report_ch (code src : Nat) (cls : RClass) (p0 p1 p2 : Nat) : (b.report code src cls p0 p1 p2).ch = b.ch := rfl
@[simp] theorem report_records (code src : Nat) (cls : RClass) (p0 p1 p2 : Nat) : (b.report code src cls p0 p1 p2).records = b.records := rfl
@[simp] theorem report_chuck (code src : Nat) (cls : RClass) (p0 p1 p2 : Nat) : (b.report code src cls p0 p1 p2).chuck = b.chuck := rfl
@[simp] theorem report_spindle (code src : Nat) (cls : RClass) (p0 p1 p2 : Nat) : (b.report code src cls p0 p1 p2).spindle = b.spindle := rfl
@[simp] theorem report_auger (code src : Nat) (cls : RClass) (p0 p1 p2 : Nat) : (b.report code src cls p0 p1 p2).auger = b.auger := rfl
@[simp] theorem report_gallery (code src : Nat) (cls : RClass) (p0 p1 p2 : Nat) : (b.report code src cls p0 p1 p2).gallery = b.gallery := rfl
@[simp] theorem report_keys (code src : Nat) (cls : RClass) (p0 p1 p2 : Nat) : (b.report code src cls p0 p1 p2).keys = b.keys := rfl
@[simp] theorem report_sump (code src : Nat) (cls : RClass) (p0 p1 p2 : Nat) : (b.report code src cls p0 p1 p2).sump = b.sump := rfl
@[simp] theorem report_chains (code src : Nat) (cls : RClass) (p0 p1 p2 : Nat) : (b.report code src cls p0 p1 p2).chains = b.chains := rfl
@[simp] theorem report_lantern (code src : Nat) (cls : RClass) (p0 p1 p2 : Nat) : (b.report code src cls p0 p1 p2).lantern = b.lantern := rfl
@[simp] theorem report_chisel (code src : Nat) (cls : RClass) (p0 p1 p2 : Nat) : (b.report code src cls p0 p1 p2).chisel = b.chisel := rfl
@[simp] theorem report_bimor (code src : Nat) (cls : RClass) (p0 p1 p2 : Nat) : (b.report code src cls p0 p1 p2).bimor = b.bimor := rfl
@[simp] theorem report_identity (code src : Nat) (cls : RClass) (p0 p1 p2 : Nat) : (b.report code src cls p0 p1 p2).identity = b.identity := rfl
@[simp] theorem report_spdm (code src : Nat) (cls : RClass) (p0 p1 p2 : Nat) : (b.report code src cls p0 p1 p2).spdm = b.spdm := rfl
@[simp] theorem report_kerard (code src : Nat) (cls : RClass) (p0 p1 p2 : Nat) : (b.report code src cls p0 p1 p2).kerard = b.kerard := rfl
@[simp] theorem report_ferrules (code src : Nat) (cls : RClass) (p0 p1 p2 : Nat) : (b.report code src cls p0 p1 p2).ferrules = b.ferrules := rfl
@[simp] theorem report_bbram (code src : Nat) (cls : RClass) (p0 p1 p2 : Nat) : (b.report code src cls p0 p1 p2).bbram = b.bbram := rfl
@[simp] theorem report_strata (code src : Nat) (cls : RClass) (p0 p1 p2 : Nat) : (b.report code src cls p0 p1 p2).strata = b.strata := rfl
@[simp] theorem report_pmc (code src : Nat) (cls : RClass) (p0 p1 p2 : Nat) : (b.report code src cls p0 p1 p2).pmc = b.pmc := rfl
@[simp] theorem report_counters (code src : Nat) (cls : RClass) (p0 p1 p2 : Nat) : (b.report code src cls p0 p1 p2).counters = b.counters := rfl
@[simp] theorem report_pcie (code src : Nat) (cls : RClass) (p0 p1 p2 : Nat) : (b.report code src cls p0 p1 p2).pcie = b.pcie := rfl
@[simp] theorem report_smbus (code src : Nat) (cls : RClass) (p0 p1 p2 : Nat) : (b.report code src cls p0 p1 p2).smbus = b.smbus := rfl
@[simp] theorem report_io (code src : Nat) (cls : RClass) (p0 p1 p2 : Nat) : (b.report code src cls p0 p1 p2).io = b.io := rfl

/-! ### modMbx -/

@[simp] theorem modMbx_nlog2 (i : Nat) (f : Mailbox → Mailbox) : (b.modMbx i f).nlog2 = b.nlog2 := rfl
@[simp] theorem modMbx_memGiB (i : Nat) (f : Mailbox → Mailbox) : (b.modMbx i f).memGiB = b.memGiB := rfl
@[simp] theorem modMbx_dual (i : Nat) (f : Mailbox → Mailbox) : (b.modMbx i f).dual = b.dual := rfl
@[simp] theorem modMbx_now (i : Nat) (f : Mailbox → Mailbox) : (b.modMbx i f).now = b.now := rfl
@[simp] theorem modMbx_cyc (i : Nat) (f : Mailbox → Mailbox) : (b.modMbx i f).cyc = b.cyc := rfl
@[simp] theorem modMbx_free (i : Nat) (f : Mailbox → Mailbox) : (b.modMbx i f).free = b.free := rfl
@[simp] theorem modMbx_out (i : Nat) (f : Mailbox → Mailbox) : (b.modMbx i f).out = b.out := rfl
@[simp] theorem modMbx_life (i : Nat) (f : Mailbox → Mailbox) : (b.modMbx i f).life = b.life := rfl
@[simp] theorem modMbx_ch (i : Nat) (f : Mailbox → Mailbox) : (b.modMbx i f).ch = b.ch := rfl
@[simp] theorem modMbx_records (i : Nat) (f : Mailbox → Mailbox) : (b.modMbx i f).records = b.records := rfl
@[simp] theorem modMbx_chuck (i : Nat) (f : Mailbox → Mailbox) : (b.modMbx i f).chuck = b.chuck := rfl
@[simp] theorem modMbx_spindle (i : Nat) (f : Mailbox → Mailbox) : (b.modMbx i f).spindle = b.spindle := rfl
@[simp] theorem modMbx_auger (i : Nat) (f : Mailbox → Mailbox) : (b.modMbx i f).auger = b.auger := rfl
@[simp] theorem modMbx_gallery (i : Nat) (f : Mailbox → Mailbox) : (b.modMbx i f).gallery = b.gallery := rfl
@[simp] theorem modMbx_keys (i : Nat) (f : Mailbox → Mailbox) : (b.modMbx i f).keys = b.keys := rfl
@[simp] theorem modMbx_sump (i : Nat) (f : Mailbox → Mailbox) : (b.modMbx i f).sump = b.sump := rfl
@[simp] theorem modMbx_chains (i : Nat) (f : Mailbox → Mailbox) : (b.modMbx i f).chains = b.chains := rfl
@[simp] theorem modMbx_lantern (i : Nat) (f : Mailbox → Mailbox) : (b.modMbx i f).lantern = b.lantern := rfl
@[simp] theorem modMbx_chisel (i : Nat) (f : Mailbox → Mailbox) : (b.modMbx i f).chisel = b.chisel := rfl
@[simp] theorem modMbx_identity (i : Nat) (f : Mailbox → Mailbox) : (b.modMbx i f).identity = b.identity := rfl
@[simp] theorem modMbx_spdm (i : Nat) (f : Mailbox → Mailbox) : (b.modMbx i f).spdm = b.spdm := rfl
@[simp] theorem modMbx_kerard (i : Nat) (f : Mailbox → Mailbox) : (b.modMbx i f).kerard = b.kerard := rfl
@[simp] theorem modMbx_ferrules (i : Nat) (f : Mailbox → Mailbox) : (b.modMbx i f).ferrules = b.ferrules := rfl
@[simp] theorem modMbx_belay (i : Nat) (f : Mailbox → Mailbox) : (b.modMbx i f).belay = b.belay := rfl
@[simp] theorem modMbx_bbram (i : Nat) (f : Mailbox → Mailbox) : (b.modMbx i f).bbram = b.bbram := rfl
@[simp] theorem modMbx_strata (i : Nat) (f : Mailbox → Mailbox) : (b.modMbx i f).strata = b.strata := rfl
@[simp] theorem modMbx_pmc (i : Nat) (f : Mailbox → Mailbox) : (b.modMbx i f).pmc = b.pmc := rfl
@[simp] theorem modMbx_counters (i : Nat) (f : Mailbox → Mailbox) : (b.modMbx i f).counters = b.counters := rfl
@[simp] theorem modMbx_pcie (i : Nat) (f : Mailbox → Mailbox) : (b.modMbx i f).pcie = b.pcie := rfl
@[simp] theorem modMbx_smbus (i : Nat) (f : Mailbox → Mailbox) : (b.modMbx i f).smbus = b.smbus := rfl
@[simp] theorem modMbx_io (i : Nat) (f : Mailbox → Mailbox) : (b.modMbx i f).io = b.io := rfl

/-! ### modFerrule -/

@[simp] theorem modFerrule_nlog2 (m : Nat) (f : Ferrule → Ferrule) : (b.modFerrule m f).nlog2 = b.nlog2 := rfl
@[simp] theorem modFerrule_memGiB (m : Nat) (f : Ferrule → Ferrule) : (b.modFerrule m f).memGiB = b.memGiB := rfl
@[simp] theorem modFerrule_dual (m : Nat) (f : Ferrule → Ferrule) : (b.modFerrule m f).dual = b.dual := rfl
@[simp] theorem modFerrule_now (m : Nat) (f : Ferrule → Ferrule) : (b.modFerrule m f).now = b.now := rfl
@[simp] theorem modFerrule_cyc (m : Nat) (f : Ferrule → Ferrule) : (b.modFerrule m f).cyc = b.cyc := rfl
@[simp] theorem modFerrule_free (m : Nat) (f : Ferrule → Ferrule) : (b.modFerrule m f).free = b.free := rfl
@[simp] theorem modFerrule_out (m : Nat) (f : Ferrule → Ferrule) : (b.modFerrule m f).out = b.out := rfl
@[simp] theorem modFerrule_life (m : Nat) (f : Ferrule → Ferrule) : (b.modFerrule m f).life = b.life := rfl
@[simp] theorem modFerrule_ch (m : Nat) (f : Ferrule → Ferrule) : (b.modFerrule m f).ch = b.ch := rfl
@[simp] theorem modFerrule_records (m : Nat) (f : Ferrule → Ferrule) : (b.modFerrule m f).records = b.records := rfl
@[simp] theorem modFerrule_chuck (m : Nat) (f : Ferrule → Ferrule) : (b.modFerrule m f).chuck = b.chuck := rfl
@[simp] theorem modFerrule_spindle (m : Nat) (f : Ferrule → Ferrule) : (b.modFerrule m f).spindle = b.spindle := rfl
@[simp] theorem modFerrule_auger (m : Nat) (f : Ferrule → Ferrule) : (b.modFerrule m f).auger = b.auger := rfl
@[simp] theorem modFerrule_gallery (m : Nat) (f : Ferrule → Ferrule) : (b.modFerrule m f).gallery = b.gallery := rfl
@[simp] theorem modFerrule_keys (m : Nat) (f : Ferrule → Ferrule) : (b.modFerrule m f).keys = b.keys := rfl
@[simp] theorem modFerrule_sump (m : Nat) (f : Ferrule → Ferrule) : (b.modFerrule m f).sump = b.sump := rfl
@[simp] theorem modFerrule_chains (m : Nat) (f : Ferrule → Ferrule) : (b.modFerrule m f).chains = b.chains := rfl
@[simp] theorem modFerrule_lantern (m : Nat) (f : Ferrule → Ferrule) : (b.modFerrule m f).lantern = b.lantern := rfl
@[simp] theorem modFerrule_chisel (m : Nat) (f : Ferrule → Ferrule) : (b.modFerrule m f).chisel = b.chisel := rfl
@[simp] theorem modFerrule_bimor (m : Nat) (f : Ferrule → Ferrule) : (b.modFerrule m f).bimor = b.bimor := rfl
@[simp] theorem modFerrule_identity (m : Nat) (f : Ferrule → Ferrule) : (b.modFerrule m f).identity = b.identity := rfl
@[simp] theorem modFerrule_spdm (m : Nat) (f : Ferrule → Ferrule) : (b.modFerrule m f).spdm = b.spdm := rfl
@[simp] theorem modFerrule_kerard (m : Nat) (f : Ferrule → Ferrule) : (b.modFerrule m f).kerard = b.kerard := rfl
@[simp] theorem modFerrule_belay (m : Nat) (f : Ferrule → Ferrule) : (b.modFerrule m f).belay = b.belay := rfl
@[simp] theorem modFerrule_bbram (m : Nat) (f : Ferrule → Ferrule) : (b.modFerrule m f).bbram = b.bbram := rfl
@[simp] theorem modFerrule_strata (m : Nat) (f : Ferrule → Ferrule) : (b.modFerrule m f).strata = b.strata := rfl
@[simp] theorem modFerrule_pmc (m : Nat) (f : Ferrule → Ferrule) : (b.modFerrule m f).pmc = b.pmc := rfl
@[simp] theorem modFerrule_counters (m : Nat) (f : Ferrule → Ferrule) : (b.modFerrule m f).counters = b.counters := rfl
@[simp] theorem modFerrule_pcie (m : Nat) (f : Ferrule → Ferrule) : (b.modFerrule m f).pcie = b.pcie := rfl
@[simp] theorem modFerrule_smbus (m : Nat) (f : Ferrule → Ferrule) : (b.modFerrule m f).smbus = b.smbus := rfl
@[simp] theorem modFerrule_io (m : Nat) (f : Ferrule → Ferrule) : (b.modFerrule m f).io = b.io := rfl

/-! ### modMonitor -/

@[simp] theorem modMonitor_nlog2 (k : Nat) (f : Monitor → Monitor) : (b.modMonitor k f).nlog2 = b.nlog2 := rfl
@[simp] theorem modMonitor_memGiB (k : Nat) (f : Monitor → Monitor) : (b.modMonitor k f).memGiB = b.memGiB := rfl
@[simp] theorem modMonitor_dual (k : Nat) (f : Monitor → Monitor) : (b.modMonitor k f).dual = b.dual := rfl
@[simp] theorem modMonitor_now (k : Nat) (f : Monitor → Monitor) : (b.modMonitor k f).now = b.now := rfl
@[simp] theorem modMonitor_cyc (k : Nat) (f : Monitor → Monitor) : (b.modMonitor k f).cyc = b.cyc := rfl
@[simp] theorem modMonitor_free (k : Nat) (f : Monitor → Monitor) : (b.modMonitor k f).free = b.free := rfl
@[simp] theorem modMonitor_out (k : Nat) (f : Monitor → Monitor) : (b.modMonitor k f).out = b.out := rfl
@[simp] theorem modMonitor_life (k : Nat) (f : Monitor → Monitor) : (b.modMonitor k f).life = b.life := rfl
@[simp] theorem modMonitor_ch (k : Nat) (f : Monitor → Monitor) : (b.modMonitor k f).ch = b.ch := rfl
@[simp] theorem modMonitor_records (k : Nat) (f : Monitor → Monitor) : (b.modMonitor k f).records = b.records := rfl
@[simp] theorem modMonitor_chuck (k : Nat) (f : Monitor → Monitor) : (b.modMonitor k f).chuck = b.chuck := rfl
@[simp] theorem modMonitor_spindle (k : Nat) (f : Monitor → Monitor) : (b.modMonitor k f).spindle = b.spindle := rfl
@[simp] theorem modMonitor_auger (k : Nat) (f : Monitor → Monitor) : (b.modMonitor k f).auger = b.auger := rfl
@[simp] theorem modMonitor_gallery (k : Nat) (f : Monitor → Monitor) : (b.modMonitor k f).gallery = b.gallery := rfl
@[simp] theorem modMonitor_keys (k : Nat) (f : Monitor → Monitor) : (b.modMonitor k f).keys = b.keys := rfl
@[simp] theorem modMonitor_sump (k : Nat) (f : Monitor → Monitor) : (b.modMonitor k f).sump = b.sump := rfl
@[simp] theorem modMonitor_chains (k : Nat) (f : Monitor → Monitor) : (b.modMonitor k f).chains = b.chains := rfl
@[simp] theorem modMonitor_lantern (k : Nat) (f : Monitor → Monitor) : (b.modMonitor k f).lantern = b.lantern := rfl
@[simp] theorem modMonitor_chisel (k : Nat) (f : Monitor → Monitor) : (b.modMonitor k f).chisel = b.chisel := rfl
@[simp] theorem modMonitor_bimor (k : Nat) (f : Monitor → Monitor) : (b.modMonitor k f).bimor = b.bimor := rfl
@[simp] theorem modMonitor_identity (k : Nat) (f : Monitor → Monitor) : (b.modMonitor k f).identity = b.identity := rfl
@[simp] theorem modMonitor_spdm (k : Nat) (f : Monitor → Monitor) : (b.modMonitor k f).spdm = b.spdm := rfl
@[simp] theorem modMonitor_kerard (k : Nat) (f : Monitor → Monitor) : (b.modMonitor k f).kerard = b.kerard := rfl
@[simp] theorem modMonitor_ferrules (k : Nat) (f : Monitor → Monitor) : (b.modMonitor k f).ferrules = b.ferrules := rfl
@[simp] theorem modMonitor_bbram (k : Nat) (f : Monitor → Monitor) : (b.modMonitor k f).bbram = b.bbram := rfl
@[simp] theorem modMonitor_strata (k : Nat) (f : Monitor → Monitor) : (b.modMonitor k f).strata = b.strata := rfl
@[simp] theorem modMonitor_pmc (k : Nat) (f : Monitor → Monitor) : (b.modMonitor k f).pmc = b.pmc := rfl
@[simp] theorem modMonitor_counters (k : Nat) (f : Monitor → Monitor) : (b.modMonitor k f).counters = b.counters := rfl
@[simp] theorem modMonitor_pcie (k : Nat) (f : Monitor → Monitor) : (b.modMonitor k f).pcie = b.pcie := rfl
@[simp] theorem modMonitor_smbus (k : Nat) (f : Monitor → Monitor) : (b.modMonitor k f).smbus = b.smbus := rfl
@[simp] theorem modMonitor_io (k : Nat) (f : Monitor → Monitor) : (b.modMonitor k f).io = b.io := rfl

/-! ### setCtr -/

@[simp] theorem setCtr_nlog2 (u n : Nat) (c : Ctr) : (b.setCtr u n c).nlog2 = b.nlog2 := rfl
@[simp] theorem setCtr_memGiB (u n : Nat) (c : Ctr) : (b.setCtr u n c).memGiB = b.memGiB := rfl
@[simp] theorem setCtr_dual (u n : Nat) (c : Ctr) : (b.setCtr u n c).dual = b.dual := rfl
@[simp] theorem setCtr_now (u n : Nat) (c : Ctr) : (b.setCtr u n c).now = b.now := rfl
@[simp] theorem setCtr_cyc (u n : Nat) (c : Ctr) : (b.setCtr u n c).cyc = b.cyc := rfl
@[simp] theorem setCtr_free (u n : Nat) (c : Ctr) : (b.setCtr u n c).free = b.free := rfl
@[simp] theorem setCtr_out (u n : Nat) (c : Ctr) : (b.setCtr u n c).out = b.out := rfl
@[simp] theorem setCtr_life (u n : Nat) (c : Ctr) : (b.setCtr u n c).life = b.life := rfl
@[simp] theorem setCtr_ch (u n : Nat) (c : Ctr) : (b.setCtr u n c).ch = b.ch := rfl
@[simp] theorem setCtr_records (u n : Nat) (c : Ctr) : (b.setCtr u n c).records = b.records := rfl
@[simp] theorem setCtr_chuck (u n : Nat) (c : Ctr) : (b.setCtr u n c).chuck = b.chuck := rfl
@[simp] theorem setCtr_spindle (u n : Nat) (c : Ctr) : (b.setCtr u n c).spindle = b.spindle := rfl
@[simp] theorem setCtr_auger (u n : Nat) (c : Ctr) : (b.setCtr u n c).auger = b.auger := rfl
@[simp] theorem setCtr_gallery (u n : Nat) (c : Ctr) : (b.setCtr u n c).gallery = b.gallery := rfl
@[simp] theorem setCtr_keys (u n : Nat) (c : Ctr) : (b.setCtr u n c).keys = b.keys := rfl
@[simp] theorem setCtr_sump (u n : Nat) (c : Ctr) : (b.setCtr u n c).sump = b.sump := rfl
@[simp] theorem setCtr_chains (u n : Nat) (c : Ctr) : (b.setCtr u n c).chains = b.chains := rfl
@[simp] theorem setCtr_lantern (u n : Nat) (c : Ctr) : (b.setCtr u n c).lantern = b.lantern := rfl
@[simp] theorem setCtr_chisel (u n : Nat) (c : Ctr) : (b.setCtr u n c).chisel = b.chisel := rfl
@[simp] theorem setCtr_bimor (u n : Nat) (c : Ctr) : (b.setCtr u n c).bimor = b.bimor := rfl
@[simp] theorem setCtr_identity (u n : Nat) (c : Ctr) : (b.setCtr u n c).identity = b.identity := rfl
@[simp] theorem setCtr_spdm (u n : Nat) (c : Ctr) : (b.setCtr u n c).spdm = b.spdm := rfl
@[simp] theorem setCtr_kerard (u n : Nat) (c : Ctr) : (b.setCtr u n c).kerard = b.kerard := rfl
@[simp] theorem setCtr_ferrules (u n : Nat) (c : Ctr) : (b.setCtr u n c).ferrules = b.ferrules := rfl
@[simp] theorem setCtr_belay (u n : Nat) (c : Ctr) : (b.setCtr u n c).belay = b.belay := rfl
@[simp] theorem setCtr_bbram (u n : Nat) (c : Ctr) : (b.setCtr u n c).bbram = b.bbram := rfl
@[simp] theorem setCtr_strata (u n : Nat) (c : Ctr) : (b.setCtr u n c).strata = b.strata := rfl
@[simp] theorem setCtr_pmc (u n : Nat) (c : Ctr) : (b.setCtr u n c).pmc = b.pmc := rfl
@[simp] theorem setCtr_pcie (u n : Nat) (c : Ctr) : (b.setCtr u n c).pcie = b.pcie := rfl
@[simp] theorem setCtr_smbus (u n : Nat) (c : Ctr) : (b.setCtr u n c).smbus = b.smbus := rfl
@[simp] theorem setCtr_io (u n : Nat) (c : Ctr) : (b.setCtr u n c).io = b.io := rfl

/-! ### setVfe -/

@[simp] theorem setVfe_nlog2 (c i : Nat) (v : VfeSlot) : (b.setVfe c i v).nlog2 = b.nlog2 := rfl
@[simp] theorem setVfe_memGiB (c i : Nat) (v : VfeSlot) : (b.setVfe c i v).memGiB = b.memGiB := rfl
@[simp] theorem setVfe_dual (c i : Nat) (v : VfeSlot) : (b.setVfe c i v).dual = b.dual := rfl
@[simp] theorem setVfe_now (c i : Nat) (v : VfeSlot) : (b.setVfe c i v).now = b.now := rfl
@[simp] theorem setVfe_cyc (c i : Nat) (v : VfeSlot) : (b.setVfe c i v).cyc = b.cyc := rfl
@[simp] theorem setVfe_free (c i : Nat) (v : VfeSlot) : (b.setVfe c i v).free = b.free := rfl
@[simp] theorem setVfe_out (c i : Nat) (v : VfeSlot) : (b.setVfe c i v).out = b.out := rfl
@[simp] theorem setVfe_life (c i : Nat) (v : VfeSlot) : (b.setVfe c i v).life = b.life := rfl
@[simp] theorem setVfe_records (c i : Nat) (v : VfeSlot) : (b.setVfe c i v).records = b.records := rfl
@[simp] theorem setVfe_chuck (c i : Nat) (v : VfeSlot) : (b.setVfe c i v).chuck = b.chuck := rfl
@[simp] theorem setVfe_spindle (c i : Nat) (v : VfeSlot) : (b.setVfe c i v).spindle = b.spindle := rfl
@[simp] theorem setVfe_auger (c i : Nat) (v : VfeSlot) : (b.setVfe c i v).auger = b.auger := rfl
@[simp] theorem setVfe_gallery (c i : Nat) (v : VfeSlot) : (b.setVfe c i v).gallery = b.gallery := rfl
@[simp] theorem setVfe_keys (c i : Nat) (v : VfeSlot) : (b.setVfe c i v).keys = b.keys := rfl
@[simp] theorem setVfe_sump (c i : Nat) (v : VfeSlot) : (b.setVfe c i v).sump = b.sump := rfl
@[simp] theorem setVfe_chains (c i : Nat) (v : VfeSlot) : (b.setVfe c i v).chains = b.chains := rfl
@[simp] theorem setVfe_lantern (c i : Nat) (v : VfeSlot) : (b.setVfe c i v).lantern = b.lantern := rfl
@[simp] theorem setVfe_chisel (c i : Nat) (v : VfeSlot) : (b.setVfe c i v).chisel = b.chisel := rfl
@[simp] theorem setVfe_bimor (c i : Nat) (v : VfeSlot) : (b.setVfe c i v).bimor = b.bimor := rfl
@[simp] theorem setVfe_identity (c i : Nat) (v : VfeSlot) : (b.setVfe c i v).identity = b.identity := rfl
@[simp] theorem setVfe_spdm (c i : Nat) (v : VfeSlot) : (b.setVfe c i v).spdm = b.spdm := rfl
@[simp] theorem setVfe_kerard (c i : Nat) (v : VfeSlot) : (b.setVfe c i v).kerard = b.kerard := rfl
@[simp] theorem setVfe_ferrules (c i : Nat) (v : VfeSlot) : (b.setVfe c i v).ferrules = b.ferrules := rfl
@[simp] theorem setVfe_belay (c i : Nat) (v : VfeSlot) : (b.setVfe c i v).belay = b.belay := rfl
@[simp] theorem setVfe_bbram (c i : Nat) (v : VfeSlot) : (b.setVfe c i v).bbram = b.bbram := rfl
@[simp] theorem setVfe_strata (c i : Nat) (v : VfeSlot) : (b.setVfe c i v).strata = b.strata := rfl
@[simp] theorem setVfe_pmc (c i : Nat) (v : VfeSlot) : (b.setVfe c i v).pmc = b.pmc := rfl
@[simp] theorem setVfe_counters (c i : Nat) (v : VfeSlot) : (b.setVfe c i v).counters = b.counters := rfl
@[simp] theorem setVfe_pcie (c i : Nat) (v : VfeSlot) : (b.setVfe c i v).pcie = b.pcie := rfl
@[simp] theorem setVfe_smbus (c i : Nat) (v : VfeSlot) : (b.setVfe c i v).smbus = b.smbus := rfl
@[simp] theorem setVfe_io (c i : Nat) (v : VfeSlot) : (b.setVfe c i v).io = b.io := rfl

/-! ### setGaCore -/

@[simp] theorem setGaCore_nlog2 (k : Nat) (g : GaCoreState) : (b.setGaCore k g).nlog2 = b.nlog2 := rfl
@[simp] theorem setGaCore_memGiB (k : Nat) (g : GaCoreState) : (b.setGaCore k g).memGiB = b.memGiB := rfl
@[simp] theorem setGaCore_dual (k : Nat) (g : GaCoreState) : (b.setGaCore k g).dual = b.dual := rfl
@[simp] theorem setGaCore_now (k : Nat) (g : GaCoreState) : (b.setGaCore k g).now = b.now := rfl
@[simp] theorem setGaCore_cyc (k : Nat) (g : GaCoreState) : (b.setGaCore k g).cyc = b.cyc := rfl
@[simp] theorem setGaCore_free (k : Nat) (g : GaCoreState) : (b.setGaCore k g).free = b.free := rfl
@[simp] theorem setGaCore_out (k : Nat) (g : GaCoreState) : (b.setGaCore k g).out = b.out := rfl
@[simp] theorem setGaCore_life (k : Nat) (g : GaCoreState) : (b.setGaCore k g).life = b.life := rfl
@[simp] theorem setGaCore_ch (k : Nat) (g : GaCoreState) : (b.setGaCore k g).ch = b.ch := rfl
@[simp] theorem setGaCore_records (k : Nat) (g : GaCoreState) : (b.setGaCore k g).records = b.records := rfl
@[simp] theorem setGaCore_chuck (k : Nat) (g : GaCoreState) : (b.setGaCore k g).chuck = b.chuck := rfl
@[simp] theorem setGaCore_spindle (k : Nat) (g : GaCoreState) : (b.setGaCore k g).spindle = b.spindle := rfl
@[simp] theorem setGaCore_auger (k : Nat) (g : GaCoreState) : (b.setGaCore k g).auger = b.auger := rfl
@[simp] theorem setGaCore_keys (k : Nat) (g : GaCoreState) : (b.setGaCore k g).keys = b.keys := rfl
@[simp] theorem setGaCore_sump (k : Nat) (g : GaCoreState) : (b.setGaCore k g).sump = b.sump := rfl
@[simp] theorem setGaCore_chains (k : Nat) (g : GaCoreState) : (b.setGaCore k g).chains = b.chains := rfl
@[simp] theorem setGaCore_lantern (k : Nat) (g : GaCoreState) : (b.setGaCore k g).lantern = b.lantern := rfl
@[simp] theorem setGaCore_chisel (k : Nat) (g : GaCoreState) : (b.setGaCore k g).chisel = b.chisel := rfl
@[simp] theorem setGaCore_bimor (k : Nat) (g : GaCoreState) : (b.setGaCore k g).bimor = b.bimor := rfl
@[simp] theorem setGaCore_identity (k : Nat) (g : GaCoreState) : (b.setGaCore k g).identity = b.identity := rfl
@[simp] theorem setGaCore_spdm (k : Nat) (g : GaCoreState) : (b.setGaCore k g).spdm = b.spdm := rfl
@[simp] theorem setGaCore_kerard (k : Nat) (g : GaCoreState) : (b.setGaCore k g).kerard = b.kerard := rfl
@[simp] theorem setGaCore_ferrules (k : Nat) (g : GaCoreState) : (b.setGaCore k g).ferrules = b.ferrules := rfl
@[simp] theorem setGaCore_belay (k : Nat) (g : GaCoreState) : (b.setGaCore k g).belay = b.belay := rfl
@[simp] theorem setGaCore_bbram (k : Nat) (g : GaCoreState) : (b.setGaCore k g).bbram = b.bbram := rfl
@[simp] theorem setGaCore_strata (k : Nat) (g : GaCoreState) : (b.setGaCore k g).strata = b.strata := rfl
@[simp] theorem setGaCore_pmc (k : Nat) (g : GaCoreState) : (b.setGaCore k g).pmc = b.pmc := rfl
@[simp] theorem setGaCore_counters (k : Nat) (g : GaCoreState) : (b.setGaCore k g).counters = b.counters := rfl
@[simp] theorem setGaCore_pcie (k : Nat) (g : GaCoreState) : (b.setGaCore k g).pcie = b.pcie := rfl
@[simp] theorem setGaCore_smbus (k : Nat) (g : GaCoreState) : (b.setGaCore k g).smbus = b.smbus := rfl
@[simp] theorem setGaCore_io (k : Nat) (g : GaCoreState) : (b.setGaCore k g).io = b.io := rfl

/-! ### modSmbus -/

@[simp] theorem modSmbus_nlog2 (f : Smbus → Smbus) : (b.modSmbus f).nlog2 = b.nlog2 := rfl
@[simp] theorem modSmbus_memGiB (f : Smbus → Smbus) : (b.modSmbus f).memGiB = b.memGiB := rfl
@[simp] theorem modSmbus_dual (f : Smbus → Smbus) : (b.modSmbus f).dual = b.dual := rfl
@[simp] theorem modSmbus_now (f : Smbus → Smbus) : (b.modSmbus f).now = b.now := rfl
@[simp] theorem modSmbus_cyc (f : Smbus → Smbus) : (b.modSmbus f).cyc = b.cyc := rfl
@[simp] theorem modSmbus_free (f : Smbus → Smbus) : (b.modSmbus f).free = b.free := rfl
@[simp] theorem modSmbus_out (f : Smbus → Smbus) : (b.modSmbus f).out = b.out := rfl
@[simp] theorem modSmbus_life (f : Smbus → Smbus) : (b.modSmbus f).life = b.life := rfl
@[simp] theorem modSmbus_ch (f : Smbus → Smbus) : (b.modSmbus f).ch = b.ch := rfl
@[simp] theorem modSmbus_records (f : Smbus → Smbus) : (b.modSmbus f).records = b.records := rfl
@[simp] theorem modSmbus_chuck (f : Smbus → Smbus) : (b.modSmbus f).chuck = b.chuck := rfl
@[simp] theorem modSmbus_spindle (f : Smbus → Smbus) : (b.modSmbus f).spindle = b.spindle := rfl
@[simp] theorem modSmbus_auger (f : Smbus → Smbus) : (b.modSmbus f).auger = b.auger := rfl
@[simp] theorem modSmbus_gallery (f : Smbus → Smbus) : (b.modSmbus f).gallery = b.gallery := rfl
@[simp] theorem modSmbus_keys (f : Smbus → Smbus) : (b.modSmbus f).keys = b.keys := rfl
@[simp] theorem modSmbus_sump (f : Smbus → Smbus) : (b.modSmbus f).sump = b.sump := rfl
@[simp] theorem modSmbus_chains (f : Smbus → Smbus) : (b.modSmbus f).chains = b.chains := rfl
@[simp] theorem modSmbus_lantern (f : Smbus → Smbus) : (b.modSmbus f).lantern = b.lantern := rfl
@[simp] theorem modSmbus_chisel (f : Smbus → Smbus) : (b.modSmbus f).chisel = b.chisel := rfl
@[simp] theorem modSmbus_bimor (f : Smbus → Smbus) : (b.modSmbus f).bimor = b.bimor := rfl
@[simp] theorem modSmbus_identity (f : Smbus → Smbus) : (b.modSmbus f).identity = b.identity := rfl
@[simp] theorem modSmbus_spdm (f : Smbus → Smbus) : (b.modSmbus f).spdm = b.spdm := rfl
@[simp] theorem modSmbus_kerard (f : Smbus → Smbus) : (b.modSmbus f).kerard = b.kerard := rfl
@[simp] theorem modSmbus_ferrules (f : Smbus → Smbus) : (b.modSmbus f).ferrules = b.ferrules := rfl
@[simp] theorem modSmbus_belay (f : Smbus → Smbus) : (b.modSmbus f).belay = b.belay := rfl
@[simp] theorem modSmbus_bbram (f : Smbus → Smbus) : (b.modSmbus f).bbram = b.bbram := rfl
@[simp] theorem modSmbus_strata (f : Smbus → Smbus) : (b.modSmbus f).strata = b.strata := rfl
@[simp] theorem modSmbus_pmc (f : Smbus → Smbus) : (b.modSmbus f).pmc = b.pmc := rfl
@[simp] theorem modSmbus_counters (f : Smbus → Smbus) : (b.modSmbus f).counters = b.counters := rfl
@[simp] theorem modSmbus_pcie (f : Smbus → Smbus) : (b.modSmbus f).pcie = b.pcie := rfl
@[simp] theorem modSmbus_io (f : Smbus → Smbus) : (b.modSmbus f).io = b.io := rfl

/-! ### modSq -/

@[simp] theorem modSq_nlog2 (c g : Nat) (f : Sq → Sq) : (b.modSq c g f).nlog2 = b.nlog2 := rfl
@[simp] theorem modSq_memGiB (c g : Nat) (f : Sq → Sq) : (b.modSq c g f).memGiB = b.memGiB := rfl
@[simp] theorem modSq_dual (c g : Nat) (f : Sq → Sq) : (b.modSq c g f).dual = b.dual := rfl
@[simp] theorem modSq_now (c g : Nat) (f : Sq → Sq) : (b.modSq c g f).now = b.now := rfl
@[simp] theorem modSq_cyc (c g : Nat) (f : Sq → Sq) : (b.modSq c g f).cyc = b.cyc := rfl
@[simp] theorem modSq_free (c g : Nat) (f : Sq → Sq) : (b.modSq c g f).free = b.free := rfl
@[simp] theorem modSq_out (c g : Nat) (f : Sq → Sq) : (b.modSq c g f).out = b.out := rfl
@[simp] theorem modSq_life (c g : Nat) (f : Sq → Sq) : (b.modSq c g f).life = b.life := rfl
@[simp] theorem modSq_records (c g : Nat) (f : Sq → Sq) : (b.modSq c g f).records = b.records := rfl
@[simp] theorem modSq_chuck (c g : Nat) (f : Sq → Sq) : (b.modSq c g f).chuck = b.chuck := rfl
@[simp] theorem modSq_spindle (c g : Nat) (f : Sq → Sq) : (b.modSq c g f).spindle = b.spindle := rfl
@[simp] theorem modSq_auger (c g : Nat) (f : Sq → Sq) : (b.modSq c g f).auger = b.auger := rfl
@[simp] theorem modSq_gallery (c g : Nat) (f : Sq → Sq) : (b.modSq c g f).gallery = b.gallery := rfl
@[simp] theorem modSq_keys (c g : Nat) (f : Sq → Sq) : (b.modSq c g f).keys = b.keys := rfl
@[simp] theorem modSq_sump (c g : Nat) (f : Sq → Sq) : (b.modSq c g f).sump = b.sump := rfl
@[simp] theorem modSq_chains (c g : Nat) (f : Sq → Sq) : (b.modSq c g f).chains = b.chains := rfl
@[simp] theorem modSq_lantern (c g : Nat) (f : Sq → Sq) : (b.modSq c g f).lantern = b.lantern := rfl
@[simp] theorem modSq_chisel (c g : Nat) (f : Sq → Sq) : (b.modSq c g f).chisel = b.chisel := rfl
@[simp] theorem modSq_bimor (c g : Nat) (f : Sq → Sq) : (b.modSq c g f).bimor = b.bimor := rfl
@[simp] theorem modSq_identity (c g : Nat) (f : Sq → Sq) : (b.modSq c g f).identity = b.identity := rfl
@[simp] theorem modSq_spdm (c g : Nat) (f : Sq → Sq) : (b.modSq c g f).spdm = b.spdm := rfl
@[simp] theorem modSq_kerard (c g : Nat) (f : Sq → Sq) : (b.modSq c g f).kerard = b.kerard := rfl
@[simp] theorem modSq_ferrules (c g : Nat) (f : Sq → Sq) : (b.modSq c g f).ferrules = b.ferrules := rfl
@[simp] theorem modSq_belay (c g : Nat) (f : Sq → Sq) : (b.modSq c g f).belay = b.belay := rfl
@[simp] theorem modSq_bbram (c g : Nat) (f : Sq → Sq) : (b.modSq c g f).bbram = b.bbram := rfl
@[simp] theorem modSq_strata (c g : Nat) (f : Sq → Sq) : (b.modSq c g f).strata = b.strata := rfl
@[simp] theorem modSq_pmc (c g : Nat) (f : Sq → Sq) : (b.modSq c g f).pmc = b.pmc := rfl
@[simp] theorem modSq_counters (c g : Nat) (f : Sq → Sq) : (b.modSq c g f).counters = b.counters := rfl
@[simp] theorem modSq_pcie (c g : Nat) (f : Sq → Sq) : (b.modSq c g f).pcie = b.pcie := rfl
@[simp] theorem modSq_smbus (c g : Nat) (f : Sq → Sq) : (b.modSq c g f).smbus = b.smbus := rfl
@[simp] theorem modSq_io (c g : Nat) (f : Sq → Sq) : (b.modSq c g f).io = b.io := rfl

/-! ### modCq -/

@[simp] theorem modCq_nlog2 (c q : Nat) (f : Cq → Cq) : (b.modCq c q f).nlog2 = b.nlog2 := rfl
@[simp] theorem modCq_memGiB (c q : Nat) (f : Cq → Cq) : (b.modCq c q f).memGiB = b.memGiB := rfl
@[simp] theorem modCq_dual (c q : Nat) (f : Cq → Cq) : (b.modCq c q f).dual = b.dual := rfl
@[simp] theorem modCq_now (c q : Nat) (f : Cq → Cq) : (b.modCq c q f).now = b.now := rfl
@[simp] theorem modCq_cyc (c q : Nat) (f : Cq → Cq) : (b.modCq c q f).cyc = b.cyc := rfl
@[simp] theorem modCq_free (c q : Nat) (f : Cq → Cq) : (b.modCq c q f).free = b.free := rfl
@[simp] theorem modCq_out (c q : Nat) (f : Cq → Cq) : (b.modCq c q f).out = b.out := rfl
@[simp] theorem modCq_life (c q : Nat) (f : Cq → Cq) : (b.modCq c q f).life = b.life := rfl
@[simp] theorem modCq_records (c q : Nat) (f : Cq → Cq) : (b.modCq c q f).records = b.records := rfl
@[simp] theorem modCq_chuck (c q : Nat) (f : Cq → Cq) : (b.modCq c q f).chuck = b.chuck := rfl
@[simp] theorem modCq_spindle (c q : Nat) (f : Cq → Cq) : (b.modCq c q f).spindle = b.spindle := rfl
@[simp] theorem modCq_auger (c q : Nat) (f : Cq → Cq) : (b.modCq c q f).auger = b.auger := rfl
@[simp] theorem modCq_gallery (c q : Nat) (f : Cq → Cq) : (b.modCq c q f).gallery = b.gallery := rfl
@[simp] theorem modCq_keys (c q : Nat) (f : Cq → Cq) : (b.modCq c q f).keys = b.keys := rfl
@[simp] theorem modCq_sump (c q : Nat) (f : Cq → Cq) : (b.modCq c q f).sump = b.sump := rfl
@[simp] theorem modCq_chains (c q : Nat) (f : Cq → Cq) : (b.modCq c q f).chains = b.chains := rfl
@[simp] theorem modCq_lantern (c q : Nat) (f : Cq → Cq) : (b.modCq c q f).lantern = b.lantern := rfl
@[simp] theorem modCq_chisel (c q : Nat) (f : Cq → Cq) : (b.modCq c q f).chisel = b.chisel := rfl
@[simp] theorem modCq_bimor (c q : Nat) (f : Cq → Cq) : (b.modCq c q f).bimor = b.bimor := rfl
@[simp] theorem modCq_identity (c q : Nat) (f : Cq → Cq) : (b.modCq c q f).identity = b.identity := rfl
@[simp] theorem modCq_spdm (c q : Nat) (f : Cq → Cq) : (b.modCq c q f).spdm = b.spdm := rfl
@[simp] theorem modCq_kerard (c q : Nat) (f : Cq → Cq) : (b.modCq c q f).kerard = b.kerard := rfl
@[simp] theorem modCq_ferrules (c q : Nat) (f : Cq → Cq) : (b.modCq c q f).ferrules = b.ferrules := rfl
@[simp] theorem modCq_belay (c q : Nat) (f : Cq → Cq) : (b.modCq c q f).belay = b.belay := rfl
@[simp] theorem modCq_bbram (c q : Nat) (f : Cq → Cq) : (b.modCq c q f).bbram = b.bbram := rfl
@[simp] theorem modCq_strata (c q : Nat) (f : Cq → Cq) : (b.modCq c q f).strata = b.strata := rfl
@[simp] theorem modCq_pmc (c q : Nat) (f : Cq → Cq) : (b.modCq c q f).pmc = b.pmc := rfl
@[simp] theorem modCq_counters (c q : Nat) (f : Cq → Cq) : (b.modCq c q f).counters = b.counters := rfl
@[simp] theorem modCq_pcie (c q : Nat) (f : Cq → Cq) : (b.modCq c q f).pcie = b.pcie := rfl
@[simp] theorem modCq_smbus (c q : Nat) (f : Cq → Cq) : (b.modCq c q f).smbus = b.smbus := rfl
@[simp] theorem modCq_io (c q : Nat) (f : Cq → Cq) : (b.modCq c q f).io = b.io := rfl

/-! ### modGroup -/

@[simp] theorem modGroup_nlog2 (c g : Nat) (f : Group → Group) : (b.modGroup c g f).nlog2 = b.nlog2 := rfl
@[simp] theorem modGroup_memGiB (c g : Nat) (f : Group → Group) : (b.modGroup c g f).memGiB = b.memGiB := rfl
@[simp] theorem modGroup_dual (c g : Nat) (f : Group → Group) : (b.modGroup c g f).dual = b.dual := rfl
@[simp] theorem modGroup_now (c g : Nat) (f : Group → Group) : (b.modGroup c g f).now = b.now := rfl
@[simp] theorem modGroup_cyc (c g : Nat) (f : Group → Group) : (b.modGroup c g f).cyc = b.cyc := rfl
@[simp] theorem modGroup_free (c g : Nat) (f : Group → Group) : (b.modGroup c g f).free = b.free := rfl
@[simp] theorem modGroup_out (c g : Nat) (f : Group → Group) : (b.modGroup c g f).out = b.out := rfl
@[simp] theorem modGroup_life (c g : Nat) (f : Group → Group) : (b.modGroup c g f).life = b.life := rfl
@[simp] theorem modGroup_records (c g : Nat) (f : Group → Group) : (b.modGroup c g f).records = b.records := rfl
@[simp] theorem modGroup_chuck (c g : Nat) (f : Group → Group) : (b.modGroup c g f).chuck = b.chuck := rfl
@[simp] theorem modGroup_spindle (c g : Nat) (f : Group → Group) : (b.modGroup c g f).spindle = b.spindle := rfl
@[simp] theorem modGroup_auger (c g : Nat) (f : Group → Group) : (b.modGroup c g f).auger = b.auger := rfl
@[simp] theorem modGroup_gallery (c g : Nat) (f : Group → Group) : (b.modGroup c g f).gallery = b.gallery := rfl
@[simp] theorem modGroup_keys (c g : Nat) (f : Group → Group) : (b.modGroup c g f).keys = b.keys := rfl
@[simp] theorem modGroup_sump (c g : Nat) (f : Group → Group) : (b.modGroup c g f).sump = b.sump := rfl
@[simp] theorem modGroup_chains (c g : Nat) (f : Group → Group) : (b.modGroup c g f).chains = b.chains := rfl
@[simp] theorem modGroup_lantern (c g : Nat) (f : Group → Group) : (b.modGroup c g f).lantern = b.lantern := rfl
@[simp] theorem modGroup_chisel (c g : Nat) (f : Group → Group) : (b.modGroup c g f).chisel = b.chisel := rfl
@[simp] theorem modGroup_bimor (c g : Nat) (f : Group → Group) : (b.modGroup c g f).bimor = b.bimor := rfl
@[simp] theorem modGroup_identity (c g : Nat) (f : Group → Group) : (b.modGroup c g f).identity = b.identity := rfl
@[simp] theorem modGroup_spdm (c g : Nat) (f : Group → Group) : (b.modGroup c g f).spdm = b.spdm := rfl
@[simp] theorem modGroup_kerard (c g : Nat) (f : Group → Group) : (b.modGroup c g f).kerard = b.kerard := rfl
@[simp] theorem modGroup_ferrules (c g : Nat) (f : Group → Group) : (b.modGroup c g f).ferrules = b.ferrules := rfl
@[simp] theorem modGroup_belay (c g : Nat) (f : Group → Group) : (b.modGroup c g f).belay = b.belay := rfl
@[simp] theorem modGroup_bbram (c g : Nat) (f : Group → Group) : (b.modGroup c g f).bbram = b.bbram := rfl
@[simp] theorem modGroup_strata (c g : Nat) (f : Group → Group) : (b.modGroup c g f).strata = b.strata := rfl
@[simp] theorem modGroup_pmc (c g : Nat) (f : Group → Group) : (b.modGroup c g f).pmc = b.pmc := rfl
@[simp] theorem modGroup_counters (c g : Nat) (f : Group → Group) : (b.modGroup c g f).counters = b.counters := rfl
@[simp] theorem modGroup_pcie (c g : Nat) (f : Group → Group) : (b.modGroup c g f).pcie = b.pcie := rfl
@[simp] theorem modGroup_smbus (c g : Nat) (f : Group → Group) : (b.modGroup c g f).smbus = b.smbus := rfl
@[simp] theorem modGroup_io (c g : Nat) (f : Group → Group) : (b.modGroup c g f).io = b.io := rfl

/-! ### aer -/

@[simp] theorem aer_nlog2 (fn : Nat) (e : String) (corr : Bool) : (b.aer fn e corr).nlog2 = b.nlog2 := rfl
@[simp] theorem aer_memGiB (fn : Nat) (e : String) (corr : Bool) : (b.aer fn e corr).memGiB = b.memGiB := rfl
@[simp] theorem aer_dual (fn : Nat) (e : String) (corr : Bool) : (b.aer fn e corr).dual = b.dual := rfl
@[simp] theorem aer_now (fn : Nat) (e : String) (corr : Bool) : (b.aer fn e corr).now = b.now := rfl
@[simp] theorem aer_cyc (fn : Nat) (e : String) (corr : Bool) : (b.aer fn e corr).cyc = b.cyc := rfl
@[simp] theorem aer_free (fn : Nat) (e : String) (corr : Bool) : (b.aer fn e corr).free = b.free := rfl
@[simp] theorem aer_life (fn : Nat) (e : String) (corr : Bool) : (b.aer fn e corr).life = b.life := rfl
@[simp] theorem aer_ch (fn : Nat) (e : String) (corr : Bool) : (b.aer fn e corr).ch = b.ch := rfl
@[simp] theorem aer_records (fn : Nat) (e : String) (corr : Bool) : (b.aer fn e corr).records = b.records := rfl
@[simp] theorem aer_chuck (fn : Nat) (e : String) (corr : Bool) : (b.aer fn e corr).chuck = b.chuck := rfl
@[simp] theorem aer_spindle (fn : Nat) (e : String) (corr : Bool) : (b.aer fn e corr).spindle = b.spindle := rfl
@[simp] theorem aer_auger (fn : Nat) (e : String) (corr : Bool) : (b.aer fn e corr).auger = b.auger := rfl
@[simp] theorem aer_gallery (fn : Nat) (e : String) (corr : Bool) : (b.aer fn e corr).gallery = b.gallery := rfl
@[simp] theorem aer_keys (fn : Nat) (e : String) (corr : Bool) : (b.aer fn e corr).keys = b.keys := rfl
@[simp] theorem aer_sump (fn : Nat) (e : String) (corr : Bool) : (b.aer fn e corr).sump = b.sump := rfl
@[simp] theorem aer_chains (fn : Nat) (e : String) (corr : Bool) : (b.aer fn e corr).chains = b.chains := rfl
@[simp] theorem aer_lantern (fn : Nat) (e : String) (corr : Bool) : (b.aer fn e corr).lantern = b.lantern := rfl
@[simp] theorem aer_chisel (fn : Nat) (e : String) (corr : Bool) : (b.aer fn e corr).chisel = b.chisel := rfl
@[simp] theorem aer_bimor (fn : Nat) (e : String) (corr : Bool) : (b.aer fn e corr).bimor = b.bimor := rfl
@[simp] theorem aer_identity (fn : Nat) (e : String) (corr : Bool) : (b.aer fn e corr).identity = b.identity := rfl
@[simp] theorem aer_spdm (fn : Nat) (e : String) (corr : Bool) : (b.aer fn e corr).spdm = b.spdm := rfl
@[simp] theorem aer_kerard (fn : Nat) (e : String) (corr : Bool) : (b.aer fn e corr).kerard = b.kerard := rfl
@[simp] theorem aer_ferrules (fn : Nat) (e : String) (corr : Bool) : (b.aer fn e corr).ferrules = b.ferrules := rfl
@[simp] theorem aer_belay (fn : Nat) (e : String) (corr : Bool) : (b.aer fn e corr).belay = b.belay := rfl
@[simp] theorem aer_bbram (fn : Nat) (e : String) (corr : Bool) : (b.aer fn e corr).bbram = b.bbram := rfl
@[simp] theorem aer_strata (fn : Nat) (e : String) (corr : Bool) : (b.aer fn e corr).strata = b.strata := rfl
@[simp] theorem aer_pmc (fn : Nat) (e : String) (corr : Bool) : (b.aer fn e corr).pmc = b.pmc := rfl
@[simp] theorem aer_pcie (fn : Nat) (e : String) (corr : Bool) : (b.aer fn e corr).pcie = b.pcie := rfl
@[simp] theorem aer_smbus (fn : Nat) (e : String) (corr : Bool) : (b.aer fn e corr).smbus = b.smbus := rfl
@[simp] theorem aer_io (fn : Nat) (e : String) (corr : Bool) : (b.aer fn e corr).io = b.io := rfl

/-! ### msix -/

@[simp] theorem msix_nlog2 (fn vec : Nat) : (b.msix fn vec).nlog2 = b.nlog2 := by unfold Block.msix; split <;> (try split) <;> rfl
@[simp] theorem msix_memGiB (fn vec : Nat) : (b.msix fn vec).memGiB = b.memGiB := by unfold Block.msix; split <;> (try split) <;> rfl
@[simp] theorem msix_dual (fn vec : Nat) : (b.msix fn vec).dual = b.dual := by unfold Block.msix; split <;> (try split) <;> rfl
@[simp] theorem msix_now (fn vec : Nat) : (b.msix fn vec).now = b.now := by unfold Block.msix; split <;> (try split) <;> rfl
@[simp] theorem msix_cyc (fn vec : Nat) : (b.msix fn vec).cyc = b.cyc := by unfold Block.msix; split <;> (try split) <;> rfl
@[simp] theorem msix_free (fn vec : Nat) : (b.msix fn vec).free = b.free := by unfold Block.msix; split <;> (try split) <;> rfl
@[simp] theorem msix_life (fn vec : Nat) : (b.msix fn vec).life = b.life := by unfold Block.msix; split <;> (try split) <;> rfl
@[simp] theorem msix_ch (fn vec : Nat) : (b.msix fn vec).ch = b.ch := by unfold Block.msix; split <;> (try split) <;> rfl
@[simp] theorem msix_records (fn vec : Nat) : (b.msix fn vec).records = b.records := by unfold Block.msix; split <;> (try split) <;> rfl
@[simp] theorem msix_chuck (fn vec : Nat) : (b.msix fn vec).chuck = b.chuck := by unfold Block.msix; split <;> (try split) <;> rfl
@[simp] theorem msix_spindle (fn vec : Nat) : (b.msix fn vec).spindle = b.spindle := by unfold Block.msix; split <;> (try split) <;> rfl
@[simp] theorem msix_auger (fn vec : Nat) : (b.msix fn vec).auger = b.auger := by unfold Block.msix; split <;> (try split) <;> rfl
@[simp] theorem msix_gallery (fn vec : Nat) : (b.msix fn vec).gallery = b.gallery := by unfold Block.msix; split <;> (try split) <;> rfl
@[simp] theorem msix_keys (fn vec : Nat) : (b.msix fn vec).keys = b.keys := by unfold Block.msix; split <;> (try split) <;> rfl
@[simp] theorem msix_sump (fn vec : Nat) : (b.msix fn vec).sump = b.sump := by unfold Block.msix; split <;> (try split) <;> rfl
@[simp] theorem msix_chains (fn vec : Nat) : (b.msix fn vec).chains = b.chains := by unfold Block.msix; split <;> (try split) <;> rfl
@[simp] theorem msix_lantern (fn vec : Nat) : (b.msix fn vec).lantern = b.lantern := by unfold Block.msix; split <;> (try split) <;> rfl
@[simp] theorem msix_chisel (fn vec : Nat) : (b.msix fn vec).chisel = b.chisel := by unfold Block.msix; split <;> (try split) <;> rfl
@[simp] theorem msix_bimor (fn vec : Nat) : (b.msix fn vec).bimor = b.bimor := by unfold Block.msix; split <;> (try split) <;> rfl
@[simp] theorem msix_identity (fn vec : Nat) : (b.msix fn vec).identity = b.identity := by unfold Block.msix; split <;> (try split) <;> rfl
@[simp] theorem msix_spdm (fn vec : Nat) : (b.msix fn vec).spdm = b.spdm := by unfold Block.msix; split <;> (try split) <;> rfl
@[simp] theorem msix_kerard (fn vec : Nat) : (b.msix fn vec).kerard = b.kerard := by unfold Block.msix; split <;> (try split) <;> rfl
@[simp] theorem msix_ferrules (fn vec : Nat) : (b.msix fn vec).ferrules = b.ferrules := by unfold Block.msix; split <;> (try split) <;> rfl
@[simp] theorem msix_belay (fn vec : Nat) : (b.msix fn vec).belay = b.belay := by unfold Block.msix; split <;> (try split) <;> rfl
@[simp] theorem msix_bbram (fn vec : Nat) : (b.msix fn vec).bbram = b.bbram := by unfold Block.msix; split <;> (try split) <;> rfl
@[simp] theorem msix_strata (fn vec : Nat) : (b.msix fn vec).strata = b.strata := by unfold Block.msix; split <;> (try split) <;> rfl
@[simp] theorem msix_pmc (fn vec : Nat) : (b.msix fn vec).pmc = b.pmc := by unfold Block.msix; split <;> (try split) <;> rfl
@[simp] theorem msix_counters (fn vec : Nat) : (b.msix fn vec).counters = b.counters := by unfold Block.msix; split <;> (try split) <;> rfl
@[simp] theorem msix_smbus (fn vec : Nat) : (b.msix fn vec).smbus = b.smbus := by unfold Block.msix; split <;> (try split) <;> rfl
@[simp] theorem msix_io (fn vec : Nat) : (b.msix fn vec).io = b.io := by unfold Block.msix; split <;> (try split) <;> rfl

/-! ### modLanPort -/

@[simp] theorem modLanPort_nlog2 (p : Nat) (f : LanPort → LanPort) : (b.modLanPort p f).nlog2 = b.nlog2 := rfl
@[simp] theorem modLanPort_memGiB (p : Nat) (f : LanPort → LanPort) : (b.modLanPort p f).memGiB = b.memGiB := rfl
@[simp] theorem modLanPort_dual (p : Nat) (f : LanPort → LanPort) : (b.modLanPort p f).dual = b.dual := rfl
@[simp] theorem modLanPort_now (p : Nat) (f : LanPort → LanPort) : (b.modLanPort p f).now = b.now := rfl
@[simp] theorem modLanPort_cyc (p : Nat) (f : LanPort → LanPort) : (b.modLanPort p f).cyc = b.cyc := rfl
@[simp] theorem modLanPort_free (p : Nat) (f : LanPort → LanPort) : (b.modLanPort p f).free = b.free := rfl
@[simp] theorem modLanPort_out (p : Nat) (f : LanPort → LanPort) : (b.modLanPort p f).out = b.out := rfl
@[simp] theorem modLanPort_life (p : Nat) (f : LanPort → LanPort) : (b.modLanPort p f).life = b.life := rfl
@[simp] theorem modLanPort_ch (p : Nat) (f : LanPort → LanPort) : (b.modLanPort p f).ch = b.ch := rfl
@[simp] theorem modLanPort_records (p : Nat) (f : LanPort → LanPort) : (b.modLanPort p f).records = b.records := rfl
@[simp] theorem modLanPort_chuck (p : Nat) (f : LanPort → LanPort) : (b.modLanPort p f).chuck = b.chuck := rfl
@[simp] theorem modLanPort_spindle (p : Nat) (f : LanPort → LanPort) : (b.modLanPort p f).spindle = b.spindle := rfl
@[simp] theorem modLanPort_auger (p : Nat) (f : LanPort → LanPort) : (b.modLanPort p f).auger = b.auger := rfl
@[simp] theorem modLanPort_gallery (p : Nat) (f : LanPort → LanPort) : (b.modLanPort p f).gallery = b.gallery := rfl
@[simp] theorem modLanPort_keys (p : Nat) (f : LanPort → LanPort) : (b.modLanPort p f).keys = b.keys := rfl
@[simp] theorem modLanPort_sump (p : Nat) (f : LanPort → LanPort) : (b.modLanPort p f).sump = b.sump := rfl
@[simp] theorem modLanPort_chains (p : Nat) (f : LanPort → LanPort) : (b.modLanPort p f).chains = b.chains := rfl
@[simp] theorem modLanPort_chisel (p : Nat) (f : LanPort → LanPort) : (b.modLanPort p f).chisel = b.chisel := rfl
@[simp] theorem modLanPort_bimor (p : Nat) (f : LanPort → LanPort) : (b.modLanPort p f).bimor = b.bimor := rfl
@[simp] theorem modLanPort_identity (p : Nat) (f : LanPort → LanPort) : (b.modLanPort p f).identity = b.identity := rfl
@[simp] theorem modLanPort_spdm (p : Nat) (f : LanPort → LanPort) : (b.modLanPort p f).spdm = b.spdm := rfl
@[simp] theorem modLanPort_kerard (p : Nat) (f : LanPort → LanPort) : (b.modLanPort p f).kerard = b.kerard := rfl
@[simp] theorem modLanPort_ferrules (p : Nat) (f : LanPort → LanPort) : (b.modLanPort p f).ferrules = b.ferrules := rfl
@[simp] theorem modLanPort_belay (p : Nat) (f : LanPort → LanPort) : (b.modLanPort p f).belay = b.belay := rfl
@[simp] theorem modLanPort_bbram (p : Nat) (f : LanPort → LanPort) : (b.modLanPort p f).bbram = b.bbram := rfl
@[simp] theorem modLanPort_strata (p : Nat) (f : LanPort → LanPort) : (b.modLanPort p f).strata = b.strata := rfl
@[simp] theorem modLanPort_pmc (p : Nat) (f : LanPort → LanPort) : (b.modLanPort p f).pmc = b.pmc := rfl
@[simp] theorem modLanPort_counters (p : Nat) (f : LanPort → LanPort) : (b.modLanPort p f).counters = b.counters := rfl
@[simp] theorem modLanPort_pcie (p : Nat) (f : LanPort → LanPort) : (b.modLanPort p f).pcie = b.pcie := rfl
@[simp] theorem modLanPort_smbus (p : Nat) (f : LanPort → LanPort) : (b.modLanPort p f).smbus = b.smbus := rfl
@[simp] theorem modLanPort_io (p : Nat) (f : LanPort → LanPort) : (b.modLanPort p f).io = b.io := rfl

/-! ### modLink -/

@[simp] theorem modLink_nlog2 (p : KPort) (f : Link → Link) : (b.modLink p f).nlog2 = b.nlog2 := by cases p <;> rfl
@[simp] theorem modLink_memGiB (p : KPort) (f : Link → Link) : (b.modLink p f).memGiB = b.memGiB := by cases p <;> rfl
@[simp] theorem modLink_dual (p : KPort) (f : Link → Link) : (b.modLink p f).dual = b.dual := by cases p <;> rfl
@[simp] theorem modLink_now (p : KPort) (f : Link → Link) : (b.modLink p f).now = b.now := by cases p <;> rfl
@[simp] theorem modLink_cyc (p : KPort) (f : Link → Link) : (b.modLink p f).cyc = b.cyc := by cases p <;> rfl
@[simp] theorem modLink_free (p : KPort) (f : Link → Link) : (b.modLink p f).free = b.free := by cases p <;> rfl
@[simp] theorem modLink_out (p : KPort) (f : Link → Link) : (b.modLink p f).out = b.out := by cases p <;> rfl
@[simp] theorem modLink_life (p : KPort) (f : Link → Link) : (b.modLink p f).life = b.life := by cases p <;> rfl
@[simp] theorem modLink_ch (p : KPort) (f : Link → Link) : (b.modLink p f).ch = b.ch := by cases p <;> rfl
@[simp] theorem modLink_records (p : KPort) (f : Link → Link) : (b.modLink p f).records = b.records := by cases p <;> rfl
@[simp] theorem modLink_chuck (p : KPort) (f : Link → Link) : (b.modLink p f).chuck = b.chuck := by cases p <;> rfl
@[simp] theorem modLink_spindle (p : KPort) (f : Link → Link) : (b.modLink p f).spindle = b.spindle := by cases p <;> rfl
@[simp] theorem modLink_auger (p : KPort) (f : Link → Link) : (b.modLink p f).auger = b.auger := by cases p <;> rfl
@[simp] theorem modLink_gallery (p : KPort) (f : Link → Link) : (b.modLink p f).gallery = b.gallery := by cases p <;> rfl
@[simp] theorem modLink_keys (p : KPort) (f : Link → Link) : (b.modLink p f).keys = b.keys := by cases p <;> rfl
@[simp] theorem modLink_sump (p : KPort) (f : Link → Link) : (b.modLink p f).sump = b.sump := by cases p <;> rfl
@[simp] theorem modLink_chains (p : KPort) (f : Link → Link) : (b.modLink p f).chains = b.chains := by cases p <;> rfl
@[simp] theorem modLink_lantern (p : KPort) (f : Link → Link) : (b.modLink p f).lantern = b.lantern := by cases p <;> rfl
@[simp] theorem modLink_chisel (p : KPort) (f : Link → Link) : (b.modLink p f).chisel = b.chisel := by cases p <;> rfl
@[simp] theorem modLink_bimor (p : KPort) (f : Link → Link) : (b.modLink p f).bimor = b.bimor := by cases p <;> rfl
@[simp] theorem modLink_identity (p : KPort) (f : Link → Link) : (b.modLink p f).identity = b.identity := by cases p <;> rfl
@[simp] theorem modLink_spdm (p : KPort) (f : Link → Link) : (b.modLink p f).spdm = b.spdm := by cases p <;> rfl
@[simp] theorem modLink_ferrules (p : KPort) (f : Link → Link) : (b.modLink p f).ferrules = b.ferrules := by cases p <;> rfl
@[simp] theorem modLink_belay (p : KPort) (f : Link → Link) : (b.modLink p f).belay = b.belay := by cases p <;> rfl
@[simp] theorem modLink_bbram (p : KPort) (f : Link → Link) : (b.modLink p f).bbram = b.bbram := by cases p <;> rfl
@[simp] theorem modLink_strata (p : KPort) (f : Link → Link) : (b.modLink p f).strata = b.strata := by cases p <;> rfl
@[simp] theorem modLink_pmc (p : KPort) (f : Link → Link) : (b.modLink p f).pmc = b.pmc := by cases p <;> rfl
@[simp] theorem modLink_counters (p : KPort) (f : Link → Link) : (b.modLink p f).counters = b.counters := by cases p <;> rfl
@[simp] theorem modLink_pcie (p : KPort) (f : Link → Link) : (b.modLink p f).pcie = b.pcie := by cases p <;> rfl
@[simp] theorem modLink_smbus (p : KPort) (f : Link → Link) : (b.modLink p f).smbus = b.smbus := by cases p <;> rfl
@[simp] theorem modLink_io (p : KPort) (f : Link → Link) : (b.modLink p f).io = b.io := by cases p <;> rfl

/-! ### What the updates write -/

@[simp] theorem modChuck_chuck (f : Chuck → Chuck) : (b.modChuck f).chuck = f b.chuck := rfl
@[simp] theorem modLantern_lantern (f : Lantern → Lantern) : (b.modLantern f).lantern = f b.lantern := rfl
@[simp] theorem modSump_sump (f : Sump → Sump) : (b.modSump f).sump = f b.sump := rfl
@[simp] theorem modKeys_keys (f : Keys → Keys) : (b.modKeys f).keys = f b.keys := rfl
@[simp] theorem modBelay_belay (f : Belay → Belay) : (b.modBelay f).belay = f b.belay := rfl
@[simp] theorem modStrata_strata (f : Strata → Strata) : (b.modStrata f).strata = f b.strata := rfl
@[simp] theorem modPmc_pmc (f : Pmc → Pmc) : (b.modPmc f).pmc = f b.pmc := rfl
@[simp] theorem modKerard_kerard (f : Kerard → Kerard) : (b.modKerard f).kerard = f b.kerard := rfl
@[simp] theorem modBimor_bimor (f : Bimor → Bimor) : (b.modBimor f).bimor = f b.bimor := rfl
@[simp] theorem modSmbus_smbus (f : Smbus → Smbus) : (b.modSmbus f).smbus = f b.smbus := rfl
@[simp] theorem emit_out (o : Out) : (b.emit o).out = b.out ++ [o] := rfl
@[simp] theorem answer_out (v : Nat) : (b.answer v).out = b.out ++ [.read v] := rfl

/-! ### Reading what was written -/

@[simp] theorem chamber_modCh_self (c : Nat) (f : Chamber → Chamber) : (b.modCh c f).chamber c = f (b.chamber c) := Tab.get_modify_self _ _ _ _

theorem chamber_modCh_ne {c d : Nat} (f : Chamber → Chamber) (h : d ≠ c) : (b.modCh c f).chamber d = b.chamber d := Tab.get_modify_ne _ _ _ h

@[simp] theorem chain_modChain_self (i : ChainId) (f : Chain → Chain) : (b.modChain i f).chain i = f (b.chain i) := Tab.get_modify_self _ _ _ _

@[simp] theorem core_modCore_self (k : Nat) (f : Core → Core) : (b.modCore k f).core k = f (b.core k) := Tab.get_modify_self _ _ _ _

theorem core_modCore_ne {k j : Nat} (f : Core → Core) (h : j ≠ k) : (b.modCore k f).core j = b.core j := Tab.get_modify_ne _ _ _ h

@[simp] theorem item?_setItem_self (n : Nat) (i : Item) : (b.setItem n i).item? n = some i := Tab.get?_set_self _ _ _

theorem item?_setItem_ne {n m : Nat} (i : Item) (h : m ≠ n) : (b.setItem n i).item? m = b.item? m := Tab.get?_set_ne _ _ h

theorem item?_modItem_self (n : Nat) (f : Item → Item) : (b.modItem n f).item? n = (b.item? n).map f := by
  unfold Block.modItem
  cases h : b.item? n <;> simp [h]

@[simp] theorem mbx_modMbx_self (i : Nat) (f : Mailbox → Mailbox) : (b.modMbx i f).mbx i = f (b.mbx i) := Tab.get_modify_self _ _ _ _

theorem mbx_modMbx_ne {i j : Nat} (f : Mailbox → Mailbox) (h : j ≠ i) : (b.modMbx i f).mbx j = b.mbx j := Tab.get_modify_ne _ _ _ h

@[simp] theorem ticket_modTicket_self (k t : Nat) (f : Ticket → Ticket) : (b.modTicket k t f).ticket k t = f (b.ticket k t) := by
  simp [Block.modTicket, Block.ticket, Tab.get_modify_self]

@[simp] theorem ferrule_modFerrule_self (m : Nat) (f : Ferrule → Ferrule) : (b.modFerrule m f).ferrule m = f (b.ferrule m) :=
  Tab.get_modify_self _ _ _ _

@[simp] theorem monitor_modMonitor_self (k : Nat) (f : Monitor → Monitor) : (b.modMonitor k f).monitor k = f (b.monitor k) := by
  simp [Block.modMonitor, Block.monitor]

@[simp] theorem tallyOf_tallyBy_self (k n : Nat) : (b.tallyBy k n).tallyOf k = min (2 ^ 48 - 1) (b.tallyOf k + n) := by
  simp [Block.tallyBy, Block.tallyOf]

@[simp] theorem core_event (u ev : Nat) (who : Option Nat) (k : Nat) : (b.event u ev who).core k = b.core k := rfl

@[simp] theorem coreEvent_chisel (k ev : Nat) : (coreEvent b k ev).chisel = b.chisel := rfl

@[simp] theorem coreEvent_core (k ev j : Nat) : (coreEvent b k ev).core j = b.core j := rfl

/-! ### Registers of a core -/

theorem reg_setReg (c : Core) (r q : BitVec 4) (v : Byte) : (c.setReg r v).reg q = if q = r then v else c.reg q := by
  unfold Core.setReg Core.reg
  by_cases h : q = r
  · simp [h]
  · have : q.toNat ≠ r.toNat := fun e => h (BitVec.eq_of_toNat_eq e)
    simp [Tab.get_set_ne _ _ _ this, h]

@[simp] theorem reg_setReg_self (c : Core) (r : BitVec 4) (v : Byte) : (c.setReg r v).reg r = v := by simp [reg_setReg]

end Sys2Proof.Machine
end

