-- ==== Sys2Proof/Laws/Words.lean ====
section
/-! SUPPORT. The fields of a Chisel word that was put together from its parts: its condition, its opcode and every field of its operand. -/
namespace Sys2Proof.Laws

/-- A field that lies in the lower part. -/
theorem field_low {m n : Nat} (x : BitVec m) (y : BitVec n) (lo k : Nat) (h : lo + k ≤ n) :
    (x ++ y).extractLsb' lo k = y.extractLsb' lo k := by
  apply BitVec.eq_of_getLsbD_eq
  intro i hi
  have : lo + i < n := by omega
  simp [BitVec.getLsbD_append, hi, this]

/-- A field that lies in the upper part. -/
theorem field_high {m n : Nat} (x : BitVec m) (y : BitVec n) (lo k : Nat) (h : n ≤ lo) :
    (x ++ y).extractLsb' lo k = x.extractLsb' (lo - n) k := by
  apply BitVec.eq_of_getLsbD_eq
  intro i hi
  have h1 : ¬ lo + i < n := by omega
  have h2 : lo + i - n = lo - n + i := by omega
  simp [BitVec.getLsbD_append, hi, h1, h2]

/-- A field that is the whole. -/
theorem field_whole {n : Nat} (x : BitVec n) : x.extractLsb' 0 n = x := by
  apply BitVec.eq_of_getLsbD_eq
  intro i hi
  simp [hi]

/-- The condition of a word. -/
theorem wordCond_word (c : BitVec 4) (op : BitVec 6) (o : BitVec 14) : wordCond (chiselWord c op o) = c :=
  (field_high (c ++ op) o 20 4 (by omega)).trans ((field_high c op 6 4 (by omega)).trans (field_whole c))

/-- The opcode of a word. -/
theorem wordOp_word (c : BitVec 4) (op : BitVec 6) (o : BitVec 14) : wordOp (chiselWord c op o) = op :=
  (field_high (c ++ op) o 14 6 (by omega)).trans ((field_low c op 0 6 (by omega)).trans (field_whole op))

/-- A field of a word's operand. -/
theorem wordField_word (c : BitVec 4) (op : BitVec 6) (o : BitVec 14) (lo n : Nat) (h : lo + n ≤ 14) :
    wordField (chiselWord c op o) lo n = o.extractLsb' lo n := field_low (c ++ op) o lo n h

/-- The code of a 16-bit register reads as that register. -/
theorem reg16Of_codeOf (r : Reg16) : reg16Of (codeOf r) = some r := by
  cases r with
  | pair n => revert n; decide
  | x => decide
  | y => decide
  | sp => decide

/-- A pointer's bit selects it. -/
theorem ptrOf_ptrBit (p : Ptr) : ptrOf (ptrBit p) = p := by cases p <;> decide

/-- A flag's bit says it. -/
theorem ofBool_one (b : Bool) : (BitVec.ofBool b == (1 : BitVec 1)) = b := by cases b <;> decide

/-! ### Operand layouts -/

/-- The fields of an operand laid out as RR. -/
theorem fields_putRR (d s : BitVec 4) :
    (putRR d s).extractLsb' 10 4 = d ∧
    (putRR d s).extractLsb' 6 4 = s ∧
    (putRR d s).extractLsb' 0 6 = (0 : BitVec 6) :=
  ⟨(field_high (d ++ s) ((0 : BitVec 6)) 10 4 (by omega)).trans ((field_high (d) (s) 4 4 (by omega)).trans (field_whole (d))),
    (field_high (d ++ s) ((0 : BitVec 6)) 6 4 (by omega)).trans ((field_low (d) (s) 0 4 (by omega)).trans (field_whole (s))),
    (field_low (d ++ s) ((0 : BitVec 6)) 0 6 (by omega)).trans (field_whole ((0 : BitVec 6)))⟩

/-- The fields of an operand laid out as RI. -/
theorem fields_putRI (d : BitVec 4) (imm : BitVec 8) :
    (putRI d imm).extractLsb' 10 4 = d ∧
    (putRI d imm).extractLsb' 8 2 = (0 : BitVec 2) ∧
    (putRI d imm).extractLsb' 0 8 = imm :=
  ⟨(field_high (d ++ (0 : BitVec 2)) (imm) 10 4 (by omega)).trans ((field_high (d) ((0 : BitVec 2)) 2 4 (by omega)).trans (field_whole (d))),
    (field_high (d ++ (0 : BitVec 2)) (imm) 8 2 (by omega)).trans ((field_low (d) ((0 : BitVec 2)) 0 2 (by omega)).trans (field_whole ((0 : BitVec 2)))),
    (field_low (d ++ (0 : BitVec 2)) (imm) 0 8 (by omega)).trans (field_whole (imm))⟩

/-- The fields of an operand laid out as R. -/
theorem fields_putR (r : BitVec 4) :
    (putR r).extractLsb' 10 4 = r ∧
    (putR r).extractLsb' 0 10 = (0 : BitVec 10) :=
  ⟨(field_high (r) ((0 : BitVec 10)) 10 4 (by omega)).trans (field_whole (r)),
    (field_low (r) ((0 : BitVec 10)) 0 10 (by omega)).trans (field_whole ((0 : BitVec 10)))⟩

/-- The fields of an operand laid out as R with a pair. -/
theorem fields_putP (p : BitVec 3) :
    (putP p).extractLsb' 13 1 = (0 : BitVec 1) ∧
    (putP p).extractLsb' 10 3 = p ∧
    (putP p).extractLsb' 0 10 = (0 : BitVec 10) :=
  ⟨(field_high ((0 : BitVec 1) ++ p) ((0 : BitVec 10)) 13 1 (by omega)).trans ((field_high ((0 : BitVec 1)) (p) 3 1 (by omega)).trans (field_whole ((0 : BitVec 1)))),
    (field_high ((0 : BitVec 1) ++ p) ((0 : BitVec 10)) 10 3 (by omega)).trans ((field_low ((0 : BitVec 1)) (p) 0 3 (by omega)).trans (field_whole (p))),
    (field_low ((0 : BitVec 1) ++ p) ((0 : BitVec 10)) 0 10 (by omega)).trans (field_whole ((0 : BitVec 10)))⟩

/-- The fields of an operand laid out as U. -/
theorem fields_putU (r sub : BitVec 4) :
    (putU r sub).extractLsb' 10 4 = r ∧
    (putU r sub).extractLsb' 6 4 = sub ∧
    (putU r sub).extractLsb' 0 6 = (0 : BitVec 6) :=
  ⟨(field_high (r ++ sub) ((0 : BitVec 6)) 10 4 (by omega)).trans ((field_high (r) (sub) 4 4 (by omega)).trans (field_whole (r))),
    (field_high (r ++ sub) ((0 : BitVec 6)) 6 4 (by omega)).trans ((field_low (r) (sub) 0 4 (by omega)).trans (field_whole (sub))),
    (field_low (r ++ sub) ((0 : BitVec 6)) 0 6 (by omega)).trans (field_whole ((0 : BitVec 6)))⟩

/-- The fields of an operand laid out as M. -/
theorem fields_putM (r : BitVec 4) (p : Ptr) (inc : Bool) (x : BitVec 8) :
    (putM r p inc x).extractLsb' 10 4 = r ∧
    (putM r p inc x).extractLsb' 9 1 = ptrBit p ∧
    (putM r p inc x).extractLsb' 8 1 = BitVec.ofBool inc ∧
    (putM r p inc x).extractLsb' 0 8 = x :=
  ⟨(field_high (r ++ ptrBit p ++ BitVec.ofBool inc) (x) 10 4 (by omega)).trans ((field_high (r ++ ptrBit p) (BitVec.ofBool inc) 2 4 (by omega)).trans ((field_high (r) (ptrBit p) 1 4 (by omega)).trans (field_whole (r)))),
    (field_high (r ++ ptrBit p ++ BitVec.ofBool inc) (x) 9 1 (by omega)).trans ((field_high (r ++ ptrBit p) (BitVec.ofBool inc) 1 1 (by omega)).trans ((field_low (r) (ptrBit p) 0 1 (by omega)).trans (field_whole (ptrBit p)))),
    (field_high (r ++ ptrBit p ++ BitVec.ofBool inc) (x) 8 1 (by omega)).trans ((field_low (r ++ ptrBit p) (BitVec.ofBool inc) 0 1 (by omega)).trans (field_whole (BitVec.ofBool inc))),
    (field_low (r ++ ptrBit p ++ BitVec.ofBool inc) (x) 0 8 (by omega)).trans (field_whole (x))⟩

/-- The fields of an operand laid out as M with a pair. -/
theorem fields_putMP (r : BitVec 3) (p : Ptr) (inc : Bool) (x : BitVec 8) :
    (putMP r p inc x).extractLsb' 13 1 = (0 : BitVec 1) ∧
    (putMP r p inc x).extractLsb' 10 3 = r ∧
    (putMP r p inc x).extractLsb' 9 1 = ptrBit p ∧
    (putMP r p inc x).extractLsb' 8 1 = BitVec.ofBool inc ∧
    (putMP r p inc x).extractLsb' 0 8 = x :=
  ⟨(field_high ((0 : BitVec 1) ++ r ++ ptrBit p ++ BitVec.ofBool inc) (x) 13 1 (by omega)).trans ((field_high ((0 : BitVec 1) ++ r ++ ptrBit p) (BitVec.ofBool inc) 5 1 (by omega)).trans ((field_high ((0 : BitVec 1) ++ r) (ptrBit p) 4 1 (by omega)).trans ((field_high ((0 : BitVec 1)) (r) 3 1 (by omega)).trans (field_whole ((0 : BitVec 1)))))),
    (field_high ((0 : BitVec 1) ++ r ++ ptrBit p ++ BitVec.ofBool inc) (x) 10 3 (by omega)).trans ((field_high ((0 : BitVec 1) ++ r ++ ptrBit p) (BitVec.ofBool inc) 2 3 (by omega)).trans ((field_high ((0 : BitVec 1) ++ r) (ptrBit p) 1 3 (by omega)).trans ((field_low ((0 : BitVec 1)) (r) 0 3 (by omega)).trans (field_whole (r))))),
    (field_high ((0 : BitVec 1) ++ r ++ ptrBit p ++ BitVec.ofBool inc) (x) 9 1 (by omega)).trans ((field_high ((0 : BitVec 1) ++ r ++ ptrBit p) (BitVec.ofBool inc) 1 1 (by omega)).trans ((field_low ((0 : BitVec 1) ++ r) (ptrBit p) 0 1 (by omega)).trans (field_whole (ptrBit p)))),
    (field_high ((0 : BitVec 1) ++ r ++ ptrBit p ++ BitVec.ofBool inc) (x) 8 1 (by omega)).trans ((field_low ((0 : BitVec 1) ++ r ++ ptrBit p) (BitVec.ofBool inc) 0 1 (by omega)).trans (field_whole (BitVec.ofBool inc))),
    (field_low ((0 : BitVec 1) ++ r ++ ptrBit p ++ BitVec.ofBool inc) (x) 0 8 (by omega)).trans (field_whole (x))⟩

/-- The fields of an operand laid out as J of CALLR. -/
theorem fields_callr (p : BitVec 3) :
    ((1 : BitVec 1) ++ (0 : BitVec 10) ++ p : BitVec 14).extractLsb' 13 1 = (1 : BitVec 1) ∧
    ((1 : BitVec 1) ++ (0 : BitVec 10) ++ p : BitVec 14).extractLsb' 3 10 = (0 : BitVec 10) ∧
    ((1 : BitVec 1) ++ (0 : BitVec 10) ++ p : BitVec 14).extractLsb' 0 3 = p :=
  ⟨(field_high ((1 : BitVec 1) ++ (0 : BitVec 10)) (p) 13 1 (by omega)).trans ((field_high ((1 : BitVec 1)) ((0 : BitVec 10)) 10 1 (by omega)).trans (field_whole ((1 : BitVec 1)))),
    (field_high ((1 : BitVec 1) ++ (0 : BitVec 10)) (p) 3 10 (by omega)).trans ((field_low ((1 : BitVec 1)) ((0 : BitVec 10)) 0 10 (by omega)).trans (field_whole ((0 : BitVec 10)))),
    (field_low ((1 : BitVec 1) ++ (0 : BitVec 10)) (p) 0 3 (by omega)).trans (field_whole (p))⟩

/-- The fields of an operand laid out as L of LOOP. -/
theorem fields_loop (p : BitVec 3) (off : BitVec 11) :
    (p ++ off : BitVec 14).extractLsb' 11 3 = p ∧
    (p ++ off : BitVec 14).extractLsb' 0 11 = off :=
  ⟨(field_high (p) (off) 11 3 (by omega)).trans (field_whole (p)),
    (field_low (p) (off) 0 11 (by omega)).trans (field_whole (off))⟩

/-- The fields of an operand laid out as L of LOOPI. -/
theorem fields_loopi (n : BitVec 6) (off : BitVec 8) :
    (n ++ off : BitVec 14).extractLsb' 8 6 = n ∧
    (n ++ off : BitVec 14).extractLsb' 0 8 = off :=
  ⟨(field_high (n) (off) 8 6 (by omega)).trans (field_whole (n)),
    (field_low (n) (off) 0 8 (by omega)).trans (field_whole (off))⟩

/-- The fields of an operand laid out as MD. -/
theorem fields_mul (d : BitVec 3) (x y : BitVec 4) :
    (d ++ x ++ y ++ (0 : BitVec 3) : BitVec 14).extractLsb' 11 3 = d ∧
    (d ++ x ++ y ++ (0 : BitVec 3) : BitVec 14).extractLsb' 7 4 = x ∧
    (d ++ x ++ y ++ (0 : BitVec 3) : BitVec 14).extractLsb' 3 4 = y ∧
    (d ++ x ++ y ++ (0 : BitVec 3) : BitVec 14).extractLsb' 0 3 = (0 : BitVec 3) :=
  ⟨(field_high (d ++ x ++ y) ((0 : BitVec 3)) 11 3 (by omega)).trans ((field_high (d ++ x) (y) 8 3 (by omega)).trans ((field_high (d) (x) 4 3 (by omega)).trans (field_whole (d)))),
    (field_high (d ++ x ++ y) ((0 : BitVec 3)) 7 4 (by omega)).trans ((field_high (d ++ x) (y) 4 4 (by omega)).trans ((field_low (d) (x) 0 4 (by omega)).trans (field_whole (x)))),
    (field_high (d ++ x ++ y) ((0 : BitVec 3)) 3 4 (by omega)).trans ((field_low (d ++ x) (y) 0 4 (by omega)).trans (field_whole (y))),
    (field_low (d ++ x ++ y) ((0 : BitVec 3)) 0 3 (by omega)).trans (field_whole ((0 : BitVec 3)))⟩

/-- The fields of an operand laid out as DIVU. -/
theorem fields_divu (d : BitVec 3) (w : BitVec 4) :
    ((0 : BitVec 1) ++ d ++ w ++ (0 : BitVec 6) : BitVec 14).extractLsb' 13 1 = (0 : BitVec 1) ∧
    ((0 : BitVec 1) ++ d ++ w ++ (0 : BitVec 6) : BitVec 14).extractLsb' 10 3 = d ∧
    ((0 : BitVec 1) ++ d ++ w ++ (0 : BitVec 6) : BitVec 14).extractLsb' 6 4 = w ∧
    ((0 : BitVec 1) ++ d ++ w ++ (0 : BitVec 6) : BitVec 14).extractLsb' 0 6 = (0 : BitVec 6) :=
  ⟨(field_high ((0 : BitVec 1) ++ d ++ w) ((0 : BitVec 6)) 13 1 (by omega)).trans ((field_high ((0 : BitVec 1) ++ d) (w) 7 1 (by omega)).trans ((field_high ((0 : BitVec 1)) (d) 3 1 (by omega)).trans (field_whole ((0 : BitVec 1))))),
    (field_high ((0 : BitVec 1) ++ d ++ w) ((0 : BitVec 6)) 10 3 (by omega)).trans ((field_high ((0 : BitVec 1) ++ d) (w) 4 3 (by omega)).trans ((field_low ((0 : BitVec 1)) (d) 0 3 (by omega)).trans (field_whole (d)))),
    (field_high ((0 : BitVec 1) ++ d ++ w) ((0 : BitVec 6)) 6 4 (by omega)).trans ((field_low ((0 : BitVec 1) ++ d) (w) 0 4 (by omega)).trans (field_whole (w))),
    (field_low ((0 : BitVec 1) ++ d ++ w) ((0 : BitVec 6)) 0 6 (by omega)).trans (field_whole ((0 : BitVec 6)))⟩

/-- The fields of an operand laid out as LP. -/
theorem fields_lpi (r : Reg16) (high : Bool) (i : BitVec 8) :
    (codeOf r ++ BitVec.ofBool high ++ (0 : BitVec 1) ++ i : BitVec 14).extractLsb' 10 4 = codeOf r ∧
    (codeOf r ++ BitVec.ofBool high ++ (0 : BitVec 1) ++ i : BitVec 14).extractLsb' 9 1 = BitVec.ofBool high ∧
    (codeOf r ++ BitVec.ofBool high ++ (0 : BitVec 1) ++ i : BitVec 14).extractLsb' 8 1 = (0 : BitVec 1) ∧
    (codeOf r ++ BitVec.ofBool high ++ (0 : BitVec 1) ++ i : BitVec 14).extractLsb' 0 8 = i :=
  ⟨(field_high (codeOf r ++ BitVec.ofBool high ++ (0 : BitVec 1)) (i) 10 4 (by omega)).trans ((field_high (codeOf r ++ BitVec.ofBool high) ((0 : BitVec 1)) 2 4 (by omega)).trans ((field_high (codeOf r) (BitVec.ofBool high) 1 4 (by omega)).trans (field_whole (codeOf r)))),
    (field_high (codeOf r ++ BitVec.ofBool high ++ (0 : BitVec 1)) (i) 9 1 (by omega)).trans ((field_high (codeOf r ++ BitVec.ofBool high) ((0 : BitVec 1)) 1 1 (by omega)).trans ((field_low (codeOf r) (BitVec.ofBool high) 0 1 (by omega)).trans (field_whole (BitVec.ofBool high)))),
    (field_high (codeOf r ++ BitVec.ofBool high ++ (0 : BitVec 1)) (i) 8 1 (by omega)).trans ((field_low (codeOf r ++ BitVec.ofBool high) ((0 : BitVec 1)) 0 1 (by omega)).trans (field_whole ((0 : BitVec 1)))),
    (field_low (codeOf r ++ BitVec.ofBool high ++ (0 : BitVec 1)) (i) 0 8 (by omega)).trans (field_whole (i))⟩

/-- The fields of an operand laid out as WI. -/
theorem fields_addwi (r : Reg16) (i : BitVec 10) :
    (codeOf r ++ i : BitVec 14).extractLsb' 10 4 = codeOf r ∧
    (codeOf r ++ i : BitVec 14).extractLsb' 0 10 = i :=
  ⟨(field_high (codeOf r) (i) 10 4 (by omega)).trans (field_whole (codeOf r)),
    (field_low (codeOf r) (i) 0 10 (by omega)).trans (field_whole (i))⟩

/-- The fields of an operand laid out as J of JR. -/
theorem fields_jr (p : BitVec 3) :
    ((0 : BitVec 11) ++ p : BitVec 14).extractLsb' 13 1 = 0 ∧
    ((0 : BitVec 11) ++ p : BitVec 14).extractLsb' 3 10 = 0 ∧
    ((0 : BitVec 11) ++ p : BitVec 14).extractLsb' 0 3 = p :=
  ⟨(field_high (0 : BitVec 11) p 13 1 (by omega)).trans (by decide), (field_high (0 : BitVec 11) p 3 10 (by omega)).trans (by decide),
    (field_low (0 : BitVec 11) p 0 3 (by omega)).trans (field_whole p)⟩

end Sys2Proof.Laws
end

