-- ==== Sys2Proof/Tests/Slice0.lean ====
section
/-! SUPPORT. Small checks of the model on fixed values. -/
namespace Sys2Proof.Tests
open Sys2Proof.Machine

/-! ### The devices of these tests -/

/-- A device that has booted and serves: four chambers, of which chamber 0 exists, every domain on, every function a bus master. -/
def up : Block :=
  { Block.reset with
    nlog2 := 2, life := 3
    pmc := { Pmc.reset with on := 0xFFFFFF, booted := true, ready := true, perstN := false }
    pcie := { Pcie.reset with vfEnable := true, bme := [(0, true), (1, true), (2, true)] }
    sump := { Sump.reset with st := .ready }, lantern := { Lantern.reset with st := .running, katOk := true }
    ferrules := bootFerrules
    ch := [(0, { Chamber.absent with st := .active })] }

/-- A state with this device and no command waiting. -/
def st (b : Block) : State := { blk := b, pending := [] }

/-- The bytes of a request. -/
def request (m : Mbx) (code auth : Nat) (p : Bytes) : Bytes :=
  [3, 1] ++ leBytes 2 code ++ zeros 4 ++ leBytes 2 p.length ++ [BitVec.ofNat 8 (mbxNo m), 0] ++ leBytes 4 auth ++ p

/-- The AUTHREF that `asks` leaves. -/
def token (b : Block) (m : Mbx) (code scope : Nat) (p : Bytes) : AuthRef :=
  { ref := 7, nonce := [], command := code, slice := mbxNo m, scope := scope, rdigest := rdigest code (mbxNo m) p, issued := b.now
    counted := [0] }

/-- The device with a command of mailbox `m` copied and not yet taken up, and an AUTHREF for it, number 7, that one custodian has met. -/
def asks (b : Block) (m : Mbx) (code auth scope : Nat) (p : Bytes) : Block :=
  (b.modBimor fun y => { y with auths := [token b m code scope p] }).modMbx (mbxNo m)
    fun x => { x with phase := .running, vmaj := 3, vmin := 1, command := request m code auth p }

/-- The checks of R345 but for the digest, which `called_of` compares by form. -/
def passes (s : State) (m : Mbx) (code : Nat) (p : Bytes) : Bool :=
  s.blk.running && mayStart s.blk (mbxNo m) code && (headerCheck (mbxNo m) (s.blk.mbx (mbxNo m))).isNone && !s.blk.pmc.restoring &&
    match cmdRow code with
    | some r => !makesLeaf s.blk r && (admissionCheck s.blk (mbxNo m) r).isNone && (r.cls == .q || r.cls == .o)
        && reqPayload (s.blk.mbx (mbxNo m)) == p
    | none => false

/-- A command that no custodian has to authorise and that passes its checks is called. -/
theorem called_of {s : State} {m : Mbx} {code : Nat} {p : Bytes} (h : passes s m code p = true) : Called s m code p s.blk := by
  unfold passes at h
  cases hr : cmdRow code with
  | none => simp [hr] at h
  | some r =>
    simp only [hr, Bool.and_eq_true, Bool.not_eq_true', Option.isNone_iff_eq_none, Bool.or_eq_true, beq_iff_eq] at h
    obtain ⟨⟨⟨⟨h1, h2⟩, h3⟩, h4⟩, ⟨⟨h5, h6⟩, h7⟩, h8⟩ := h
    have e : entered s.blk m r = s.blk := by simp [entered, h5]
    refine ⟨h1, h2, h3, .inl h4, r, hr, fun q => by simp [h5] at q, by rw [e]; exact h6, ?_, by rw [e]; exact h8⟩
    rw [e]; simp [authorise, h7]

/-- The checks of a command that custodians have authorised. -/
def passesWith (s : State) (m : Mbx) (code scope : Nat) (p : Bytes) : Bool :=
  s.blk.running && mayStart s.blk (mbxNo m) code && (headerCheck (mbxNo m) (s.blk.mbx (mbxNo m))).isNone && !s.blk.pmc.restoring &&
    match cmdRow code with
    | some r => !makesLeaf s.blk r && (admissionCheck s.blk (mbxNo m) r).isNone && !(r.cls == .q || r.cls == .o)
        && reqPayload (s.blk.mbx (mbxNo m)) == p && !noCustodians s.blk.life && reqAuthref (s.blk.mbx (mbxNo m)) == 7
        && r.code == code && reqSlice (s.blk.mbx (mbxNo m)) == mbxNo m && cmdScope r.cls p == scope && (scopeCustodians s.blk scope).k ≤ 1
    | none => false

/-- A command with its AUTHREF is called, and the AUTHREF is gone. -/
theorem called_with {s : State} {m : Mbx} {code scope : Nat} {p : Bytes} (b : Block) (h : passesWith s m code scope p = true)
    (ha : openAuth s.blk 7 = some (token b m code scope p)) : Called s m code p (cancelAuths s.blk fun a => a.ref == 7) := by
  unfold passesWith at h
  cases hr : cmdRow code with
  | none => simp [hr] at h
  | some r =>
    simp only [hr, Bool.and_eq_true, Bool.not_eq_true', Option.isNone_iff_eq_none, beq_iff_eq, decide_eq_true_eq] at h
    obtain ⟨⟨⟨⟨h1, h2⟩, h3⟩, h4⟩, ⟨⟨⟨⟨⟨⟨⟨⟨h5, h6⟩, h7⟩, h8⟩, h9⟩, h10⟩, h11⟩, h12⟩, h13⟩, h14⟩ := h
    have e : entered s.blk m r = s.blk := by simp [entered, h5]
    have hc : r.cls ≠ .q ∧ r.cls ≠ .o := by simpa using h7
    refine ⟨h1, h2, h3, .inl h4, r, hr, fun q => by simp [h5] at q, by rw [e]; exact h6, ?_, by rw [e]; exact h8⟩
    rw [e]; simp [authorise, hc, h9, h10, ha, h8, h11, h12, h13, h14, token]

/-- The device after a step, where there is one. -/
def after (i : Instr) (s : State) : Option Block := match exec i s with
  | .next t => some t.blk
  | _ => none

/-- A work item of chamber 0, dispatched. -/
def item (cls : Cls) (core : Option Nat) (j : Job) : Item :=
  { chamber := 0, group := 0, index := 0, cq := 0, desc := zeros 64, residence := 0, st := .dispatched, cls := cls, pipe := 0, ahead := false
    needCount := false, needMiss := [], waited := none, done := false, written := none, mute := false, core := core, job := j
    leaf := .none, step := 0, flushTo := none }

/-- The device with a core that runs a recipe of 16 instructions. -/
def core (f : Core → Core) : Block :=
  { up with
    chisel := { Chisel.reset with cores := [(0, f { Core.reset with st := .running, sp := 0x8000, item := some 1, len := 16, maxcyc := 1, recipe := 0x1000 })] }
    chuck := { Chuck.reset with nextItem := 2, items := [(1, item .chs (some 0) Job.none)] } }

/-- A direct item's job at work. -/
def working (j : Job) : Block := { core id with chuck := { (core id).chuck with items := [(1, item .spa none j)] } }

/-- An operation of that item is ready. -/
theorem ready_of (j : Job) (op : Nat) (hp : j.phase = .ready) (ho : j.opcode = op) : Ready (st (working j)) (.item 1) j op :=
  ⟨rfl, rfl, hp, ho, rfl, by intro n h; cases h; rfl⟩

/-- A key of an ALG, USAGE, MODE and EXPORT, resolved. -/
def key (alg : Nat) (usage : String) (mode exp : Byte) (material : Bytes) : Resolved :=
  { handle := 2 ^ 62, gidx := 70000, drawn := none, material := material, companion := []
    head := zeros 32 ++ [BitVec.ofNat 8 alg] ++ leBytes 2 (8 * material.length) ++ ascii usage ++ [mode, exp] ++ zeros 25 }

/-- A job ready to run. -/
def job (op flags ext : Nat) (operands : Bytes) (kin : Option Resolved) : Job :=
  { Job.none with opcode := op, phase := .ready, flags := flags, ext := ext, operands := fit 40 operands, rIn := kin }

/-- A write of one line. -/
def writes (gidx : Nat) (line : Bytes) : NewRecord := { gidx := gidx, lines := [line], newClass := none }

/-- A commit of these requests in progress. -/
def committing (l : List SumpReq) (b : Block) : Block :=
  b.modSump fun x => { x with commit := some { reqs := l, entries := [], rootv := x.rootv + 1, jmac := x.jmac, mode := .off, releaseAt := none } }

/-- The device with so many bytes in Lantern's central buffer. -/
def drawing (n : Nat) (b : Block) : Block := { b with lantern := { b.lantern with central := (List.range n).map fun i => BitVec.ofNat 8 (i + 1) } }

/-- The device with a Lantern that has failed. -/
def mute (b : Block) : Block := { b with lantern := { b.lantern with st := .failed } }

/-- Bytes that are not all alike. -/
def bytes (n : Nat) : Bytes := (List.range n).map fun x => BitVec.ofNat 8 (5 * x + 1)

/-- A job with an operand buffer that holds an input. -/
def bufJob (op : Nat) (operands input : Bytes) (kin : Option Resolved) : Job := { job op 0 64 operands kin with input := input, inLen := input.length }

/-- A job with a second key. -/
def withOut (j : Job) (k : Resolved) : Job := { j with rOut := some k }

/-- A job of chamber 0 runs for the device `b`: the item is ready for step 4, and its operands are of the form the opcode asks for. -/
def runs (j : Job) (op : Nat) (form : Bool) : Prop := Ready (st (working j)) (.item 1) j op ∧ form = true

theorem runs_of (j : Job) (op : Nat) (form : Bool) (hp : j.phase = .ready) (ho : j.opcode = op) (hf : form = true) : runs j op form :=
  ⟨ready_of j op hp ho, hf⟩


/-! ### Ill-formed operands -/

/-- A line of a record that does not hold 64 bytes. -/
def badLine : DdrReturn := .altered [(.record 3, [0])]

theorem smoke_keyCacheFill : wfInstr (.keyCacheFill 0 badLine) = false := by decide
theorem smoke_ferruleCommit : wfInstr (.ferruleCommit 0 (List.replicate 17 ⟨0, 0, true, false, false, 0, true⟩)) = false := by decide
theorem smoke_evidenceWrite : wfInstr (.evidenceWrite [[0]]) = false := by decide
theorem smoke_sumpCommit : wfInstr (.sumpCommit badLine) = false := by decide
theorem smoke_sumpStart : wfInstr (.sumpStart true badLine) = false := by decide
theorem smoke_keyDelete : wfInstr (.keyDelete .so badLine) = false := by decide
theorem smoke_keyInfo : wfInstr (.keyInfo .pf badLine) = false := by decide
theorem smoke_keyList : wfInstr (.keyList .pf badLine) = false := by decide
theorem smoke_sumpRestore : wfInstr (.sumpRestore .so [0] [] [] []) = false := by decide
theorem smoke_mbxReq : wfInstr (.mbxReq [0, 0] 0) = false := by decide
theorem smoke_registerWrite : wfInstr (.registerWrite (.pf none (2 ^ 25) .word 0)) = false := by decide
theorem smoke_registerWrite_vector : wfInstr (.registerWrite (.vector 65 0 0 0)) = false := by decide
theorem smoke_doeDiscovery : wfInstr (.doeDiscovery 256) = false := by decide
theorem smoke_warmingEnd : wfInstr (.warmingEnd 19 badLine) = false := by decide
theorem smoke_boot : wfInstr (.boot (some ([], [], [], [])) false false false none) = false := by decide
theorem smoke_mirror : wfInstr (.mirror .ka [] [] [.noChamber 64] false) = false := by decide
theorem smoke_resyncCopy : wfInstr (.resyncCopy badLine) = false := by decide

/-- An ill-formed command stops. -/
theorem test_malformed : exec (.doeDiscovery 256) State.reset = .fault .malformed := rfl

/-! ### Words of the Chisel set, from the layouts of R286 to R292 -/

/-- R282: NOP under NEVER, what a denied fetch returns. -/
theorem test_word_never : decodeChisel 0 0xF00000 = some (.nopInstr 0 15) := by decide
/-- R290: BR under EQ, displacement -2. -/
theorem test_word_br : decodeChisel 3 0b0001_000001_11111111111110 = some (.br 3 1 0x3FFE) := by decide
/-- R290: CALL, displacement 5. -/
theorem test_word_call : decodeChisel 0 0b0000_000010_00000000000101 = some (.call 0 0 5) := by decide
/-- R291: ADC W1, W2. -/
theorem test_word_adc : decodeChisel 0 0b0000_001100_00010010000000 = some (.adc 0 0 1 2) := by decide
/-- R291: SUBI W15, 0x80. -/
theorem test_word_subi : decodeChisel 0 0b0000_001110_11110010000000 = some (.subi 0 0 15 0x80) := by decide
/-- R291: MUL P1, W2, W3. -/
theorem test_word_mul : decodeChisel 0 0b0000_011010_00100100011000 = some (.mul 0 0 1 2 3) := by decide
/-- R292: LPI X, high half, 0x12. -/
theorem test_word_lpi : decodeChisel 0 0b0000_011101_10001000010010 = some (.lpi 0 0 .x true 0x12) := by decide
/-- R288: ST W4 at Y with displacement -1, no increment. -/
theorem test_word_st : decodeChisel 0 0b0000_100001_01001011111111 = some (.st 0 0 4 .y false 0xFF) := by decide
/-- R293: POPW P7. -/
theorem test_word_popw : decodeChisel 0 0b0000_101001_01110000000000 = some (.popw 0 0 7) := by decide
/-- R310: CX 7 with operand 0x3FFF. -/
theorem test_word_cx : decodeChisel 0 0b0000_111111_11111111111111 = some (.cx 0 0 7 0x3FFF) := by decide
/-- R285: a reserved bit of format N is set. -/
theorem test_word_reserved : decodeChisel 0 0b0000_101111_10000000000000 = none := by decide
/-- The table gives no row bits. -/
theorem test_table_word : decodeTableWord 32 5 = none := by decide

/-! ### Single steps -/

/-- R289: 0x7F + 1 overflows. -/
theorem test_add : (after (.add 0 0 1 2) (st (core fun c => { c with w := [(1, 0x7F), (2, 1)] }))).map (fun b =>
    ((b.core 0).reg 1, (b.core 0).flags.v, (b.core 0).flags.n, (b.core 0).flags.c, (b.core 0).pc)) =
    some (0x80, true, true, false, 1) := by decide
/-- R289: 3 - 3 with C clear borrows. -/
theorem test_sbc : (after (.sbc 0 0 1 2) (st (core fun c => { c with w := [(1, 3), (2, 3)] }))).map (fun b =>
    ((b.core 0).reg 1, (b.core 0).flags.c, (b.core 0).flags.n)) = some (0xFF, false, true) := by decide
/-- R283: an instruction under EQ is skipped while Z is clear. -/
theorem test_skip : (after (.movi 0 1 1 9) (st (core id))).map (fun b => ((b.core 0).reg 1, (b.core 0).pc)) = some (0, 1) := by decide
/-- R294: a division by zero. -/
theorem test_divu : (after (.divu 0 0 0 2) (st (core id))).map (fun b => ((b.core 0).pair 0, (b.core 0).flags.v)) =
    some (0xFFFF, true) := by decide
/-- R290: a branch is taken relative to the next instruction. -/
theorem test_br : (after (.br 0 0 0x3FFE) (st (core fun c => { c with pc := 8 }))).map (fun b => (b.core 0).pc) = some 7 := by decide
/-- R293: PUSH goes below SP. -/
theorem test_push : (after (.push 0 0 1) (st (core fun c => { c with w := [(1, 0xAB)] }))).map (fun b =>
    ((b.core 0).sp, Memory.read (b.core 0).scratch 0x7FFF)) = some (0x7FFF, 0xAB) := by decide
/-- R302: a RET without a frame runs beyond the stack. -/
theorem test_ret : (after (.ret 0 0) (st (core id))).map (fun b => (b.chamber 0).lastFault.toNat % 16) =
    some (FaultKind.code .stack) := by decide +kernel
/-- R57: a tail beyond the queue's depth sets the error bit TAIL_RANGE and nothing else. -/
theorem test_sqDoorbell : (after (.sqDoorbell 0 0 .word 16)
    (st { up with ch := [(0, { Chamber.absent with st := .active, sqs := [(0, { Sq.reset with en := true, depthLog2 := 4 })] })] })).map
    (fun b => ((b.sq 0 0).tail, (b.chamber 0).qerr)) = some (0, 1) := by decide
/-- R343: HELLO with major version 2. -/
theorem test_hello : (after (.hello .pf) (st (asks up .pf 1 0 0 [2, 9, 0, 0]))).map (fun b => ((b.mbx 0).vmaj, (b.mbx 0).vmin)) =
    some (2, 3) := by decide
/-- R545: the debug port's instruction becomes BYPASS in COMMISSIONED with the default policy. -/
theorem test_dap : (after .dap (st { up with life := 2 })).map (fun b => b.io.ir) = some .bypass := by decide
/-- R508: a wake of Auger's domain is queued while a message waits there. -/
theorem test_wakeRequest : (after (.wakeRequest 17) (st { up with
    pmc := { up.pmc with on := 0x940003 }, auger := { Auger.reset with msgs := [⟨0, none, .headstock, 12, 1, none, 0⟩] } })).map (fun b =>
    (b.pmc.queue.map (·.1), b.pmc.warming)) = some ([17], 0x20000) := by decide
/-- A command at the front of the queue is carried out; what waits behind it stays. -/
theorem test_step : (match step { blk := Block.reset, pending := [.bypass, .tapReset] } with
    | .next t => some (t.blk.io.ir, t.pending)
    | _ => none) = some (.bypass, [.tapReset]) := rfl
/-- An empty queue is a cycle of the clock. -/
theorem test_idle : (match step State.reset with
    | .next t => some t.blk.cyc
    | _ => none) = some 1 := by decide +kernel
/-- The host's interface for words spells no command. -/
theorem test_withFetchWord : State.reset.withFetchWord 32 7 = State.reset := rfl


/-! ### Witnesses: states and operands that meet the hypotheses of the statements -/

theorem witness_StepRunsFrontCommand : ({ blk := Block.reset, pending := [.tapReset] } : State).pending = .tapReset :: [] := rfl

/-- A powered device between two microseconds, at the last cycle of one, and in a warm reset; a core that is busy, one whose fetch its Ferrule admits,
and one without a fetch region. -/
theorem witness_IdleCycle :
    (st up).pending = [] ∧ up.pmc.powerGood = true ∧ (up.cyc + 1) % 1250 ≠ 0 ∧
    (({ up with cyc := 1249 } : Block).cyc + 1) % 1250 = 0 ∧ { up.pmc with warm := some 1 }.warm ≠ none ∧
    { up.pmc with powerGood := false }.powerGood = false ∧
    ((core fun c => { c with busy := 2 }).core 0).busy ≠ 0 ∧ ((core fun c => { c with pc := 1 }).core 0).st = .running ∧ ((core fun c => { c with pc := 1 }).core 0).busy = 0 ∧
    (((core id).modFerrule 0 fun f => { f with fetch := some (0, 15) }).ferrule 0).fetch = some (0, 15) ∧
    decodeChisel 0 (Tab.get up.chisel.store 0 1) = some (.nopInstr 0 0) ∧ ((core id).ferrule 0).fetch = none ∧ (up.core 0).st ≠ .running := by
  decide +kernel

theorem witness_EveryCommandRuns : wfInstr .tapReset = true ∧ wfInstr (.doeDiscovery 256) = false ∧ wfInstr (.doeDiscovery 255) = true ∧
    QueueOk { blk := Block.reset, pending := [.tapReset, .bypass] } :=
  ⟨rfl, rfl, rfl, by intro c h; simp at h; rcases h with rfl | rfl <;> rfl⟩

theorem witness_ChiselRoundTrip : encodeChisel (.cx 63 15 7 0x3FFF) = some 0xFFFFFF := by decide

/-- An instruction issues: of arithmetic, logic, memory, control and calls alike. -/
theorem witness_Issues : Issues (st (core id)) 0 0 := ⟨by decide, by decide, by decide, by decide⟩

/-- Loads that answer at the ends of scratch and of the control region, and one that waits for its page; an empty port and one with a byte; a chamber
that may read its counters. -/
theorem witness_MemoryInstructions :
    (∃ d b1, coreLoad (decoded (core fun c => { c with x := 0x7FFF }) 0) 0 (mAddr (core fun c => { c with x := 0x7FFF }) 0 .x 0) 1 = .ok (d, b1)) ∧
    (∃ d b1, coreLoad (decoded (core fun c => { c with x := 0xFFFF }) 0) 0 0xFFFF 2 = .ok (d, b1)) ∧
    (let b := (core id).modItem 1 fun i => { i with job := { i.job with headerOk := true } }
     coreLoad (decoded b 0) 0 0xBFFF 1 = .error 3 ∧ windowLoads b 0 = true ∧ (b.core 0).loaded.testBit 3 = false) ∧
    (let b := (core id).modFerrule 0 fun f => { f with active := coreRules }
     rulesAdmit (b.ferrule 0).active 0 .read = true ∧ fieldAdmits 0 .read = true ∧ fieldAdmits 0x7FFF .write = true ∧
     rulesAdmit (b.ferrule 0).active 0xBF .read = true ∧ fieldAdmits 0xBFFF .read = true ∧ windowLoads b 0 = false ∧
     rulesAdmit (b.ferrule 0).active 0xC1 .read = true ∧ fieldAdmits 0xC1FF .read = true ∧ (b.ticket 0 15).st ≠ .outstanding ∧
     rulesAdmit (b.ferrule 0).active 0xE0 .read = true ∧ fieldAdmits 0xE000 .read = true ∧
     rulesAdmit (b.ferrule 0).active 0xE0 .write = true ∧ fieldAdmits 0xE080 .write = true ∧
     rulesAdmit (b.ferrule 0).active 0xF3 .write = true ∧ rulesAdmit (b.ferrule 0).active 0xF2 .read = true ∧
     rulesAdmit (b.ferrule 0).active 0xF1 .read = true ∧ pageMissing b 0 0 = none ∧ coreChamber b 0 = some 0) ∧
    rulesAdmit (Ferrule.reset).active 0xF3 .write = false := by
  refine ⟨⟨_, _, rfl⟩, ⟨_, _, rfl⟩, ?_, ?_, ?_⟩ <;> decide +kernel

/-- Room at the foot of scratch and none below its start or beyond its end; a call at a loop's end; a frame to return to. -/
theorem witness_StackInstructions :
    ((0x8000 : BitVec 16) - BitVec.ofNat 16 3).toNat + 3 ≤ 0x8000 ∧ ¬ ((0 : BitVec 16) - BitVec.ofNat 16 1).toNat + 1 ≤ 0x8000 ∧
    ¬ ((1 : BitVec 16) - BitVec.ofNat 16 2).toNat + 2 ≤ 0x8000 ∧ (0x7FFF : BitVec 16).toNat + 1 ≤ 0x8000 ∧
    0x8000 < (0x8000 : BitVec 16).toNat + 1 ∧ (0x7FFE : BitVec 16).toNat + 2 ≤ 0x8000 ∧ 0x8000 < (0x7FFF : BitVec 16).toNat + 2 ∧
    ((core id).core 0).atLoopEnd = false ∧
    ((core fun c => { c with depth := 1, le := [(0, 0)], lc := [(0, 2)] }).core 0).atLoopEnd = true ∧
    (let c := (core fun c => { c with sp := 0x7FFD }).core 0
     c.depth ≤ c.base ∧ c.sp.toNat + 3 ≤ 0x8000 ∧ (Memory.read c.scratch (c.sp.toNat + 2)).toNat ≤ c.depth) ∧
    (let c := (core fun c => { c with sp := 0x7FFD, scratch := [(0x7FFF, 1)] }).core 0
     c.depth ≤ c.base ∧ c.depth < (Memory.read c.scratch (c.sp.toNat + 2)).toNat) := by decide +kernel

/-- A loop that opens, one of no pass, and the loops that are faults; NOP away from a loop's end, at it with passes left, and at its last pass. -/
theorem witness_ControlInstructions :
    (let c := (core id).core 0
     c.entry ≤ (c.pc + BitVec.ofNat 16 15).toNat ∧ (c.pc + BitVec.ofNat 16 15).toNat < c.entry + c.len ∧
     ¬ (c.pc + BitVec.ofNat 16 16).toNat < c.entry + c.len ∧ c.depth < 4 ∧ c.base = c.depth ∧ c.atLoopEnd = false) ∧
    (let c := (core fun c => { c with depth := 1, le := [(0, 0)], lc := [(0, 2)] }).core 0
     c.base < c.depth ∧ Tab.get c.le 0 0 = c.pc ∧ Tab.get c.lc 0 0 ≠ 1 ∧ c.atLoopEnd = true) ∧
    (let c := (core fun c => { c with depth := 1, le := [(0, 0)], lc := [(0, 1)] }).core 0
     c.base < c.depth ∧ Tab.get c.le 0 0 = c.pc ∧ Tab.get c.lc 0 0 = 1 ∧ ¬ c.base < c.depth - 1) ∧
    (let c := (core fun c => { c with depth := 4 }).core 0
     4 ≤ c.depth) := by decide +kernel

theorem witness_Conditions : (st (core id)).blk.running = true ∧ (st (core id)).blk.domainOn (ccDomain 0) = true ∧
    ((core id).core 0).st = .running ∧ condHolds 15 ((core id).core 0).flags = false ∧ condHolds 1 ((core id).core 0).flags = false := by
  decide +kernel

theorem witness_LoopLevelsStayLegal :
    ((core id).core 0).base ≤ ((core id).core 0).depth ∧ ((core id).core 0).depth ≤ 4 ∧
    ((core fun c => { c with depth := 4, base := 4 }).core 0).depth ≤ 4 ∧ (after (.nopInstr 0 0) (st (core id))).isSome = true := by
  decide +kernel

/-- A call block at the end of scratch and beyond it; sixteen tickets in use and one free; a call well-formed with room (HASH of inline bytes), one that
waits for room, one that waits for a leaf entry; tickets collected and waited for; DONE with and without output; OUTPUT within and beyond OUT_CAP. -/
def hashCall : Core → Core := fun c =>
  { c with x := 0x7FB0, scratch := Memory.writeBytes [] 0x7FB0 ([0x00, 0x06, 2, 0xFF, 0xFF] ++ zeros 75) }

theorem witness_EngineCalls_ecall :
    Issues (st (core hashCall)) 0 0 ∧
    (let b := decoded (core hashCall) 0
     let c := b.core 0
     let x := callBlock (Memory.readBytes c.scratch c.x.toNat 80)
     c.x.toNat + 80 ≤ 0x8000 ∧ freeTicket b 0 = some 0 ∧ coreChamber b 0 = some 0 ∧ x.inline_ = true ∧ x.opcode = 0x0600 ∧
     callMalformed x { Job.none with opcode := x.opcode, keyIn := slotHandle c x.hin, keyOut := slotHandle c x.hout } = false ∧
     callRoom b 0 x.opcode = true ∧ entryCheck b (.chamber 0) = .wait) ∧
    0x8000 < (0x7FB1 : BitVec 16).toNat + 80 ∧
    freeTicket (core fun c => { c with tickets := (List.range 16).map fun t => (t, { Ticket.reset with st := .complete }) }) 0 = none := by
  refine ⟨⟨by decide, by decide, by decide, by decide⟩, ?_⟩; decide +kernel

theorem witness_EngineCalls_rest :
    (let b := core fun c => { c with w := [(1, 15)], tickets := [(15, { Ticket.reset with st := .outstanding })] }
     ((b.core 0).reg 1).toNat < 16 ∧ (b.ticket 0 15).st = .outstanding) ∧
    (let b := core fun c => { c with tickets := [(0, { Ticket.reset with st := .complete })] }
     ((b.core 0).reg 1).toNat < 16 ∧ (b.ticket 0 0).st = .complete) ∧
    16 ≤ ((core fun c => { c with w := [(1, 16)] }).core 0 |>.reg 1).toNat ∧
    (let b := core id
     (∀ t < 16, (b.ticket 0 t).st ≠ .outstanding) ∧ ofLe (Memory.readBytes (b.core 0).context 0xE080 2) ∈ doneStatuses ∧
     (b.core 0).item = some 1 ∧ (b.item? 1).isSome = true ∧ (b.core 0).outReq = 0 ∧ (b.core 0).outDone = 0 ∧ (b.core 0).outOver = false ∧
     b.bme 1 = true ∧ b.kerard.egressClosed = false) ∧
    (let b := core fun c => { c with outReq := 4, outDone := 4 }
     (b.core 0).outReq ≠ 0 ∧ (b.core 0).outDone = (b.core 0).outReq) ∧
    0xFFFF ∉ doneStatuses ∧
    (let b := (core fun c => { c with tickets := [(0, { Ticket.reset with
        st := .outstanding, job := { Job.none with opcode := 0x0E00, phase := .ready, input := [1, 2], operands := zeros 40 } })] }).modItem 1
          fun i => { i with job := { i.job with outCap := 2 } }
     let x := b.ticket 0 0
     x.st = .outstanding ∧ x.job.opcode = 0x0E00 ∧ x.job.phase = .ready ∧ (b.core 0).item = some 1 ∧
     (b.item? 1).map (·.job.outCap) = some (leField x.job.operands 0 4 + x.job.input.length)) := by decide +kernel

theorem witness_CoreLife :
    (let b : Block := { core id with chisel := Chisel.reset }
     b.running = true ∧ b.domainOn (ccDomain 0) = true ∧ (b.core 0).st = .idle) ∧
    (let b := core fun c => { c with st := .clearing }
     (b.core 0).st = .clearing ∧ abortPending b 0 = false) ∧
    (let c := (core fun c => { c with cycles := 1025 }).core 0
     c.st = .running ∧ c.maxcyc * 1024 < c.cycles) ∧
    (let c := (core fun c => { c with cycles := 1024 }).core 0
     c.st = .running ∧ c.cycles ≤ c.maxcyc * 1024) ∧
    ((core id).core 0).item = some 1 ∧ ((core id).item? 1).isSome = true ∧ cxEntry (core id) 0 7 = none ∧
    (let e : DecodeEntry := { valid := true, start := 0, len := 1, mask := 1 }
     let b : Block := { core id with chisel := { (core id).chisel with decode := [(0, e)] } }
     cxEntry b 0 0 = some e) := by decide +kernel


theorem witness_DoorbellsAndFetch :
    (st up).blk.vfOn 0 = true ∧ (up.sq 0 0).en = false ∧ (up.cq 0 0).en = false ∧
    (let b := up.modCh 0 fun h => { h with
      sqs := [(7, { Sq.reset with en := true, depthLog2 := 4 })], cqs := [(7, { Cq.reset with en := true, depthLog2 := 4, tail := 3 })] }
     b.vfOn 0 = true ∧ (b.sq 0 7).en = true ∧ 15 < 2 ^ (b.sq 0 7).depthLog2 ∧ 2 ^ (b.sq 0 7).depthLog2 ≤ 16 ∧ (b.cq 0 7).en = true ∧
     ((b.cq 0 7).tail + 16 - (b.cq 0 7).head) % 16 < (4 + 16 - (b.cq 0 7).head) % 16 ∧
     (3 + 16 - (b.cq 0 7).head) % 16 ≤ ((b.cq 0 7).tail + 16 - (b.cq 0 7).head) % 16) ∧
    up.hostOn = true ∧ engineReads up 0 < 256 ∧ engineChoice up 0 = none ∧
    (∀ i ∈ engineQueues up 0, queueWants up (i / 8) (i % 8) = false) ∧
    (let b := up.modCh 0 fun h => { h with
      credit := 4, sqs := [(0, { Sq.reset with en := true, depthLog2 := 4, tail := 1 })], cqs := [(0, { Cq.reset with en := true, depthLog2 := 4 })] }
     engineChoice b 0 = some (0, true)) ∧
    (let b := up.modCh 0 fun h => { h with
      sqs := [(0, { Sq.reset with en := true, depthLog2 := 4, tail := 1 })], cqs := [(0, { Cq.reset with en := true, depthLog2 := 4 })] }
     engineChoice b 0 = none ∧ ∃ i ∈ engineQueues b 0, queueWants b (i / 8) (i % 8) = true) ∧
    (let b := up.modCh 0 fun h => { h with sqs := [(0, { Sq.reset with en := true, depthLog2 := 4, tail := 1, issued := 1, reads := [(0, 1)] })] }
     (b.sq 0 0).reads.find? (fun r => r.1 == 0) = some (0, 1)) := by decide +kernel

/-- A descriptor of HASH, direct, with an operand buffer, and ones that fail step 1. -/
theorem witness_DescriptorChecks :
    (let d : Bytes := fit 64 ([0x00, 0x06, 0, 0x10])
     let j := jobOf 0 d
     stepOneOk (dGroup d) d j = true ∧ isQueueControl j.opcode = false ∧ entryChecks up j = none) ∧
    (let d : Bytes := fit 64 ([0xFF, 0xFF, 0, 0])
     opDefined (jobOf 0 d).opcode = false) ∧
    (let d : Bytes := fit 64 [0x00, 0x08, 0, 0]
     stepOneOk (dGroup d) d (jobOf 0 d) = true ∧ entryChecks up (jobOf 0 d) = some 0x20) ∧
    (let b := working { job 0x0600 0 64 [1] none with phase := .buffer }
     b.running = true ∧ (b.item? 1).map (fun i => (i.job.phase, i.core)) = some (.buffer, none) ∧
     leField ([0xF0, 0xFF, 0x0F, 0] ++ zeros 12) 0 4 ≤ 1048560 ∧ 1048560 < leField ([0xF1, 0xFF, 0x0F, 0] ++ zeros 12) 0 4 ∧
     allZero ((([0xF0, 0xFF, 0x0F, 0] ++ zeros 12 : Bytes).take 16).drop 12) = true) := by decide +kernel

theorem witness_DispatchAndCompletion :
    (let b := (working (job 0x0600 0 64 [1] none)).modItem 1 fun i => { i with st := .ready }
     b.running = true ∧ b.domainOn 1 = true ∧ (refreshHolds b).kerard.egressClosed = false ∧
     (chooseItem (refreshHolds b)).map (fun x => (x.1, x.2.1)) = some (.spa, 1)) ∧
    chooseItem (refreshHolds up) = none ∧
    (let b := ((working (job 0x0800 0 0 [0, 0x10] none)).modItem 1 fun i => { i with st := .ready, cls := .chs }).modChuck fun x => { x with take := [9] }
     (chooseItem b).map (fun x => (x.1, x.2.1)) = some (.chs, 1) ∧ chooseCore b = some 9 ∧
     (b.item? 1).map (fun i => isRecipeRun i.job.opcode) = some true) ∧
    (let b := (working { job 0x0600 0 64 [1] none with outcome := some { status := 0, result := zeros 16, output := none } }).modItem 1
      fun i => { i with st := .closing }
     (b.item? 1).isSome = true ∧ (b.item? 1).bind (·.job.outcome) = some { status := 0, result := zeros 16, output := none } ∧
     (b.item? 1).map (mayComplete b 1) = some true ∧ b.bme 1 = true ∧ (b.chamber 0).fence ≠ some 1) ∧
    (let b := (up.modCh 0 fun h => { h with cqs := [(0, { Cq.reset with en := true, vecEn := true, unsignalled := 1 })] })
     (b.cq 0 0).vecEn = true ∧ 0 < (b.cq 0 0).unsignalled) ∧
    functionOn up 0 = true ∧ (63 : Nat) < vectorsOf 0 ∧ functionOn up 4 = true ∧ (7 : Nat) < vectorsOf 4 ∧
    0 ∈ { up.pcie with pendingMsix := [0], msixEn := [(0, true)] }.pendingMsix := by decide +kernel

/-- A lookup of no key, of a key that is not there, and of a handle that is refused; a fill; a slot whose count block is due. -/
theorem witness_KeyCache :
    (let b := working { job 0x0600 0 64 [1] none with phase := .keys }
     (b.item? 1).map (·.job.phase) = some .keys ∧ (opRow 0x0600).isSome = true ∧ waitsForFill b (.item 1) = false ∧
     lookupField b 0 0 .none = .skip) ∧
    (∃ x, lookupField up 0 0 .any = .refused x) ∧
    up.domainOn 19 = true ∧ wfDdr .faithful = true ∧ up.sump.st = .ready ∧
    (let b := up.modKeys fun k => { k with misses := [{ gidx := 70000, payer := 0, waiters := [], pinFor := [], refetch := false }] }
     (b.keys.misses.find? fun m => m.gidx == 70000).isSome = true) ∧
    (let s : Slot := { Slot.none with gidx := 4096, line := zeros 39 ++ [1] ++ zeros 24, nextCount := 3072 }
     let b := up.modKeys fun k => { k with sysCache := [s] }
     (findSlot b 4096).isSome = true ∧ recCounted s.line = true ∧ recRetired s.line = false ∧
     (recMark s.line).2 ≤ s.nextCount + 1024 ∧ (recMark s.line).2 + 4096 ≤ 2 ^ 48 ∧ 4096 ∉ b.keys.reserving) ∧
    (let s : Slot := { Slot.none with gidx := 4096, line := patch (zeros 39 ++ [1] ++ zeros 24) 52 (leBytes 6 1025) }
     s.nextCount + 1024 < (recMark s.line).2) ∧
    (let b := up.modKeys fun k => { k with refetching := true, pins := [(4096, 1)] }
     b.keys.pins.find? (fun p => !b.keys.holds p.1 p.2 && !underBad b p.1 && !b.keys.misses.any (fun m => m.gidx == p.1)) = some (4096, 1)) ∧
    beingWritten up 70000 = false ∧
    beingWritten (committing [{ writes := [writes 70000 (zeros 64)], range := none, waiter := .nobody }] up) 70000 = true := by
  refine ⟨?_, ⟨0x10, ?_⟩, ?_⟩ <;> decide +kernel

/-! ### Witnesses: the payment opcodes -/

/-- A queue-control item that waits for its end. -/
def control (op : Nat) : Block := (working (job op 0 0 [] none)).modItem 1 fun i => { i with st := .closing, flushTo := some 3 }

def macJob : Job := job 0x0200 4 0 [8, 0, 3] (some (key 4 "M6" 0x47 0x4E (zeros 16)))
def hmacJob : Job := bufJob 0x0201 [16, 0, 0] [1, 2] (some (key 6 "M7" 0x47 0x4E (zeros 32)))
def ksn : Bytes := [0xFF, 0xFF, 0x98, 0x76, 0x54, 0x32, 0x10, 0xE0, 0, 1, 0, 0]
def baseKey : Resolved := key 1 "B0" 0x58 0x4E (bytes 16)
def dukptJob (op : Nat) : Job := bufJob op ([8, 1, 0, 0] ++ zeros 16 ++ ksn) [1, 2, 3] (some baseKey)
def pan12 : Bytes := [0x12, 0x34, 0x56, 0x78, 0x90, 0x12, 0xFF, 0xFF, 0xFF, 0xFF]
def pan12Digits : List Nat := [1, 2, 3, 4, 5, 6, 7, 8, 9, 0, 1, 2]
def emvJob (arqc : Bytes) : Job :=
  bufJob 0x0300 (pan12 ++ [1, 1, 0, 7] ++ arqc ++ [1, 2, 0, 0, 0]) [1, 2, 3, 4] (some (key 1 "E0" 0x58 0x4E (bytes 16)))
def cvcJob (op : Nat) (code : Bytes) : Job := job op 4 0 (pan12 ++ [0x25, 0x12, 0xF1, 0x01] ++ code) (some (key 1 "C0" 0x47 0x4E (bytes 16)))

/-- Items of NOP, FENCE and AUDIT_FLUSH at their end; an inline MAC, a MAC under an M7 key with room and at a full intake of Auger, MACs under a DUKPT
key; whatever eight bytes are the card's cryptogram, those and any others; a card verification code to make and one to check. -/
theorem witness_QueueControlAndMacs :
    ((∀ op ∈ [0x0F00, 0x0F01, 0x0F02], ((control op).item? 1).map (fun i => (i.st, i.job.outcome, i.job.opcode, i.flushTo)) =
        some (.closing, none, op, some 3)) ∧
      (∀ p ∈ (control 0x0F01).itemsOf 0, 1 ≤ p.1) ∧
      runs macJob 0x0200 (formD (.item 1) macJob && macParams 4 (ascii "M6") 8 0 && macOperandOk macJob 8 false) ∧
      runs hmacJob 0x0201 (formD (.item 1) hmacJob && macParams 6 (ascii "M7") 16 0 && macOperandOk hmacJob 16 true) ∧
      intakeFull (working hmacJob) (.item 1) hmacJob (.auger 16 3) = false) ∧
    intakeFull { working hmacJob with
      auger := { Auger.reset with msgs := (List.range 16).map fun k => ⟨k, some (.item 1), .direct, 12, 1, none, 0⟩ } } (.item 1) hmacJob (.auger 16 3) = true ∧
    runs (dukptJob 0x0202) 0x0202 (formC (.item 1) (dukptJob 0x0202) && dukptSyntax 0 ksn && kindSuits 0 1) ∧
    runs (dukptJob 0x0203) 0x0203 (formC (.item 1) (dukptJob 0x0203)) ∧
    panDigits pan12 = some pan12Digits ∧
    (∀ x0 x1 x2 x3 x4 x5 x6 x7, runs (emvJob [x0, x1, x2, x3, x4, x5, x6, x7]) 0x0300
        (formC (.item 1) (emvJob [x0, x1, x2, x3, x4, x5, x6, x7])) ∧
      (emvJob [x0, x1, x2, x3, x4, x5, x6, x7]).op 14 8 = [x0, x1, x2, x3, x4, x5, x6, x7]) ∧
    runs (cvcJob 0x0310 []) 0x0310 (formA (cvcJob 0x0310 []) && (cvcJob 0x0310 []).zero 14 31) ∧
    runs (cvcJob 0x0311 [0xF1, 0x23]) 0x0311 (formA (cvcJob 0x0311 [0xF1, 0x23]) && (cvcJob 0x0311 [0xF1, 0x23]).zero 16 31) := by
  refine ⟨⟨?_, ?_, runs_of _ _ _ rfl rfl ?_, runs_of _ _ _ rfl rfl ?_, ?_⟩, ?_, runs_of _ _ _ rfl rfl ?_, runs_of _ _ _ rfl rfl ?_, ?_,
    fun _ _ _ _ _ _ _ _ => ⟨runs_of _ _ _ rfl rfl (by simp [formC, emvJob, bufJob, job, isCall, Job.inline_]), rfl⟩, runs_of _ _ _ rfl rfl ?_, runs_of _ _ _ rfl rfl ?_⟩ <;> decide +kernel

def pinKey : Resolved := key 1 "P0" 0x42 0x4E (bytes 16)
def pinKeyAes : Resolved := { key 3 "P0" 0x42 0x4E (bytes 16) with gidx := 70001 }
/-- Under a policy that takes PINs of 4 to 12 digits. -/
def policed (j : Job) : Job := { j with pinpol := 0xC40, decTabs := [(2, bytes 8)] }
def translateJob (field : Bytes) (formats : Byte) : Job := policed (withOut (job 0x0100 4 0 (field ++ zeros 8 ++ pan12 ++ [formats]) (some pinKey)) pinKeyAes)
def translateDukptJob : Job := policed (withOut (job 0x0101 4 0 (bytes 8 ++ zeros 8 ++ pan12 ++ [0x40, 0] ++ ksn) (some baseKey)) pinKeyAes)
def offsetJob : Job := policed (withOut (job 0x0110 4 0 ((bytes 16) ++ pan12 ++ [0x04, 0x42] ++ bytes 8 ++ [0x12, 0x34, 0xFF, 0xFF]) (some pinKeyAes)) pinKey)
def pvvJob : Job := policed (withOut (job 0x0111 0 0 ((bytes 8) ++ zeros 8 ++ pan12 ++ [0, 6, 0x12, 0x34]) (some pinKey)) pinKey)
def compareJob : Job := policed (withOut (bufJob 0x0112 ((bytes 16) ++ pan12 ++ [4]) (bytes 8) (some pinKeyAes)) pinKey)

/-- A translation that the policy does not admit, one without random bytes and one with them, of whatever PIN the block holds, and one under a DUKPT key; the
three verifications, of the longest PAN field and the last table that is there. -/
theorem witness_PinOperations :
    panOperand (translateJob (bytes 8) 0x40) 16 true = some pan12Digits ∧
    runs (translateJob (bytes 8) 0x10) 0x0100 (formA (translateJob (bytes 8) 0x10) && !translationPermitted 0xC40 0 1) ∧
    runs (translateJob (bytes 8) 0x40) 0x0100 (formA (translateJob (bytes 8) 0x40) && translationPermitted 0xC40 0 4) ∧
    (mute (working (translateJob (bytes 8) 0x40))).draw 8 = none ∧ ((drawing 64 (working (translateJob (bytes 8) 0x40))).draw 8).isSome = true ∧
    runs translateDukptJob 0x0101 (formB translateDukptJob && dukptSyntax 0 ksn && kindSuits 0 1) ∧
    runs offsetJob 0x0110 (formB offsetJob && decide (Tab.get? offsetJob.decTabs 2 = some (bytes 8)) && verifyFormat 4 && pinFieldOk offsetJob 4) ∧
    runs pvvJob 0x0111 (formA pvvJob && pvvJob.zero 30 31 && verifyFormat 0 && pinFieldOk pvvJob 0) ∧
    runs compareJob 0x0112 (formC (.item 1) compareJob && compareJob.zero 27 31 && decide (compareJob.inLen = 8)) := by
  refine ⟨?_, runs_of _ _ _ rfl rfl ?_, runs_of _ _ _ rfl rfl ?_, ?_, ?_, runs_of _ _ _ rfl rfl ?_, runs_of _ _ _ rfl rfl ?_,
    runs_of _ _ _ rfl rfl ?_, runs_of _ _ _ rfl rfl ?_⟩ <;> decide +kernel

theorem witness_PinFieldRoundTrip :
    (∀ d ∈ pan12Digits, d < 10) ∧ pan12Digits.length = 12 ∧ (zeros 40).length = pinDraw 3 ∧ (zeros 8).length = pinDraw 4 ∧
    (zeros 5).length = pinDraw 1 := by decide

def wrapKey : Resolved := key 3 "K1" 0x44 0x4E (bytes 16)
/-- A key block of version D with an AES key, what `tr31Wrap` makes of it under the wrapping key. -/
def blockD : Bytes :=
  ascii "D0112P0AE00N000044D7030465BB49C8B198C7F34B8059BE3A3329C9B9EA7E1A0E0FB04CD0DE2DB034D184AA4B5BBAA73108277020B2C3A7"
def importJob (block : Bytes) : Job := bufJob 0x0700 ([0xFF, 0xFF, 0xFF, 0xFF] ++ zeros 28) block (some wrapKey)
def exportJob (exp : Byte) : Job := withOut (bufJob 0x0701 [0x44, 3] [] (some wrapKey)) { key 3 "P0" 0x42 exp (bytes 16) with handle := 0 }
def ikJob : Job := withOut (bufJob 0x0702 ([0x44, 1, 0, 0] ++ bytes 8 ++ zeros 4) [] (some wrapKey)) (key 3 "B0" 0x58 0x4E (bytes 16))
def keygenJob (scheme halg bits e : Nat) (usage : String) (ctx : Byte) : Job :=
  bufJob 0x0403 ([BitVec.ofNat 8 scheme, 0, ctx, BitVec.ofNat 8 halg] ++ leBytes 2 bits ++ [0, 0, 0] ++ ascii usage ++ [0x53, 0x4E] ++ ascii "00" ++ [0]
    ++ zeros 4 ++ leBytes 4 e) [] none

/-- A key block to import, whatever its MAC proves to be; a key that may be exported and one that may not; an initial key; a key pair to generate, of
Ed448 with and without random bytes and of RSA, one of a usage that does not suit, and one whose input is short of its context. -/
theorem witness_KeyBlocks :
    runs (importJob blockD) 0x0700 (formC (.item 1) (importJob blockD) && (importJob blockD).zero 9 31) ∧
    ((tr31Parse blockD).any fun t => t.enc.length == 32 && t.mac.length == 16 && tr31AlgOf t.alg 16 == some 3 && t.options.isEmpty
      && symmetricUse 3 t.usage t.mode) = true ∧
    importSlot (working (importJob blockD)) 0 0xFFFFFFFF false = .ok 65536 ∧
    runs (exportJob 0x45) 0x0701 (formC (.item 1) (exportJob 0x45) && !wrapRefused wrapKey 0x44 3 16) ∧
    runs (exportJob 0x4E) 0x0701 (formC (.item 1) (exportJob 0x4E) && (exportJob 0x4E).zero 2 31) ∧
    ((drawing 64 (working (exportJob 0x45))).draw (tr31PadLen 16 16)).isSome = true ∧
    runs ikJob 0x0702 (formC (.item 1) ikJob && ikJob.zero 12 15 && kindSuits 1 3) ∧
    runs (keygenJob 1 0 0 0 "S0" 0) 0x0403 (pkSyntax (.item 1) (keygenJob 1 0 0 0 "S0" 0) 3
      && newRecordOk (keygenJob 1 0 0 0 "S0" 0) true && keygenUse (keygenJob 1 0 0 0 "S0" 0)) ∧
    runs (keygenJob 1 0 0 0 "P0" 0) 0x0403 (pkSyntax (.item 1) (keygenJob 1 0 0 0 "P0" 0) 3
      && newRecordOk (keygenJob 1 0 0 0 "P0" 0) true && !keygenUse (keygenJob 1 0 0 0 "P0" 0)) ∧
    lowestRun (working (keygenJob 1 0 0 0 "S0" 0)) 0 2 = some 65536 ∧
    (mute (working (keygenJob 1 0 0 0 "S0" 0))).draw 57 = none ∧ ((drawing 64 (working (keygenJob 1 0 0 0 "S0" 0))).draw 57).isSome = true ∧
    runs (keygenJob 6 1 2048 65537 "S0" 0) 0x0403 (pkSyntax (.item 1) (keygenJob 6 1 2048 65537 "S0" 0) 3
      && newRecordOk (keygenJob 6 1 2048 65537 "S0" 0) true && schemeRsa 6) ∧
    runs (keygenJob 1 0 0 0 "S0" 5) 0x0403 (decide ((keygenJob 1 0 0 0 "S0" 5).input.length < 5)) := by
  refine ⟨runs_of _ _ _ rfl rfl ?_, ?_, ?_, runs_of _ _ _ rfl rfl ?_, runs_of _ _ _ rfl rfl ?_, ?_, runs_of _ _ _ rfl rfl ?_,
    runs_of _ _ _ rfl rfl ?_, runs_of _ _ _ rfl rfl ?_, ?_, ?_, ?_, runs_of _ _ _ rfl rfl ?_, runs_of _ _ _ rfl rfl ?_⟩ <;> decide +kernel

/-! ### Witnesses: ciphers, hashes, public keys -/

def cipherJob (mode src : Nat) (encrypt : Bool) (tag aad : Nat) (iv input : Bytes) : Job :=
  bufJob (if encrypt then 0x0500 else 0x0501) ([BitVec.ofNat 8 mode, BitVec.ofNat 8 src, BitVec.ofNat 8 tag, 0] ++ leBytes 4 aad ++ fit 16 iv) input
    (some (key 3 "D0" 0x42 0x4E (bytes 16)))

/-- The checks of R143 to R147 on a cipher's operands. -/
def cipherOk (encrypt : Bool) (mode src tag aad : Nat) (j : Job) : Bool :=
  formC (.item 1) j && ivsrcOk encrypt mode src && j.zero 24 31 && ivFieldOk j mode src 3 && cipherLenOk encrypt mode 3 j.inLen tag aad
    && cipherKeysOk j mode src

/-- Two keys of XTS with different check values. -/
def xtsJob : Job :=
  { withOut (cipherJob 4 0 true 0 0 (bytes 16) (bytes 36))
      { key 3 "D0" 0x42 0x4E (bytes 16) with gidx := 9, head := patch (key 3 "D0" 0x42 0x4E (bytes 16)).head 48 [1, 2, 3] } with keyOut := 5 }

/-- A counted key in the cache, with counts left. -/
def counted (b : Block) : Block :=
  { b with keys := { b.keys with cache := [(16 * setOf b 70000, { Slot.none with gidx := 70000, line := patch (zeros 64) 52 (leBytes 6 4096), nextCount := 9 })] } }

def hashJob (halg outlen : Nat) : Job := bufJob 0x0600 ([BitVec.ofNat 8 halg, 0] ++ leBytes 2 outlen) (bytes 150) none

/-- Every mode in both directions, with an IV given and with one drawn from a key's count or from Lantern; both reads of a GCM decryption; XTS with a
partial final block; and every hash. -/
theorem witness_CipherAndHash :
    (let j := cipherJob 0 0 true 0 0 [] (bytes 32)
     runs j 0x0500 (cipherOk true 0 0 0 0 j)) ∧
    (let j := cipherJob 1 0 true 0 0 (bytes 16) (bytes 32)
     runs j 0x0500 (cipherOk true 1 0 0 0 j)) ∧
    (let j := cipherJob 1 1 true 0 0 [] (bytes 32)
     runs j 0x0500 (cipherOk true 1 1 0 0 j) ∧ (drawCount (counted (working j)) j.kIn).1 = .drawn 0 9) ∧
    (let j := cipherJob 1 0 false 0 0 (bytes 16) (bytes 32)
     runs j 0x0501 (cipherOk false 1 0 0 0 j)) ∧
    (let j := cipherJob 2 1 true 0 0 [] (bytes 20)
     runs j 0x0500 (cipherOk true 2 1 0 0 j) ∧ (drawCount (counted (working j)) j.kIn).1 = .drawn 0 9 ∧ ctrOverflows (beBytes 12 9 ++ zeros 4) 20 = false) ∧
    (let j := cipherJob 2 0 false 0 0 (bytes 16) (bytes 20)
     runs j 0x0501 (cipherOk false 2 0 0 0 j) ∧ ctrOverflows (bytes 16) 20 = false) ∧
    (let j := cipherJob 3 2 true 16 4 [] (bytes 20)
     runs j 0x0500 (cipherOk true 3 2 16 4 j) ∧ ((drawing 64 (working j)).draw 12).isSome = true ∧ (mute (working j)).draw 12 = none) ∧
    (let j := cipherJob 3 0 false 16 4 (bytes 12) (bytes 40)
     runs j 0x0501 (cipherOk false 3 0 16 4 j) ∧ j.again = none ∧ { j with again := some j.input }.again = some (bytes 40)) ∧
    runs xtsJob 0x0500 (cipherOk true 4 0 0 0 xtsJob) ∧
    (∀ h ∈ [0x01, 0x02, 0x03, 0x11, 0x12, 0x23], (hashJob h 0).opN 0 = h ∧ formC (.item 1) (hashJob h 0) = true) ∧
    (∀ h ∈ [0x21, 0x22], (hashJob h 200).opN 0 = h ∧ ofLe ((hashJob h 200).op 2 2) = 200 ∧ (hashJob h 200).zero 4 31 = true) := by
  refine ⟨runs_of _ _ _ rfl rfl ?_, runs_of _ _ _ rfl rfl ?_, ⟨runs_of _ _ _ rfl rfl ?_, ?_⟩, runs_of _ _ _ rfl rfl ?_, ⟨runs_of _ _ _ rfl rfl ?_, ?_, ?_⟩,
    ⟨runs_of _ _ _ rfl rfl ?_, ?_⟩, ⟨runs_of _ _ _ rfl rfl ?_, ?_, ?_⟩, ⟨runs_of _ _ _ rfl rfl ?_, rfl, rfl⟩, runs_of _ _ _ rfl rfl ?_, ?_, ?_⟩ <;> decide +kernel

def edPublic : Resolved := key 0x10 "S0" 0x56 0x45 (bytes 57)
def signJob (scheme halg alg : Nat) : Job := bufJob 0x0400 [BitVec.ofNat 8 scheme, 0, 0, BitVec.ofNat 8 halg] [1, 2, 3] (some (key alg "S0" 0x53 0x4E (bytes 57)))
def verifyJob : Job := bufJob 0x0401 [1] (zeros 114 ++ [1, 2, 3]) (some edPublic)
/-- Two items of a batch under a key in the buffer, and one under a record's key. -/
def batchJob : Job :=
  bufJob 0x0402 [1, 0, 0, 0, 0, 0, 0, 0, 2] (((List.range 2).flatMap fun _ => zeros 8 ++ leBytes 4 48 ++ leBytes 4 105 ++ leBytes 4 219 ++ leBytes 4 3)
    ++ bytes 57 ++ zeros 114 ++ [1, 2, 3]) none

/-- A signature of Ed448, which draws nothing, and of RSA with and without random bytes; a key of another scheme; a verification, whatever the
signature proves to be; a batch with random bytes and without, and items that the core could not check. -/
theorem witness_Signatures :
    (let p : PkInput := { ctx := [], pk := [], label := [], part := [], rest := [1, 2, 3] }
     runs (signJob 1 0 0x10) 0x0400 (pkSyntax (.item 1) (signJob 1 0 0x10) 0 && keyMatches (signJob 1 0 0x10) p && prehashOk (signJob 1 0 0x10) p.rest) ∧
     pkParts (signJob 1 0 0x10) false .absent = some p ∧ (working (signJob 1 0 0x10)).draw 0 = some ([], working (signJob 1 0 0x10)) ∧
     runs (signJob 3 0 0x10) 0x0400 (pkSyntax (.item 1) (signJob 3 0 0x10) 0 && !keyMatches (signJob 3 0 0x10) p) ∧
     runs (signJob 6 1 0x16) 0x0400 (pkSyntax (.item 1) (signJob 6 1 0x16) 0 && keyMatches (signJob 6 1 0x16) p) ∧
     (mute (working (signJob 6 1 0x16))).draw 16 = none ∧ ((drawing 64 (working (signJob 6 1 0x16))).draw 16).isSome = true) ∧
    (runs verifyJob 0x0401 (pkSyntax (.item 1) verifyJob 1 && verifyJob.zero 8 31) ∧
     pkParts verifyJob false .signature = some { ctx := [], pk := [], label := [], part := zeros 114, rest := [1, 2, 3] }) ∧
    (runs batchJob 0x0402 (pkSyntax (.item 1) batchJob 2 && (batchItems batchJob).all (batchItemOk batchJob)) ∧
     (mute (working batchJob)).draw 32 = none ∧ ((drawing 64 (working batchJob)).draw 32).isSome = true ∧
     batchJob.ctxLen + 24 * batchJob.opN 8 ≤ batchJob.input.length) := by
  refine ⟨⟨runs_of _ _ _ rfl rfl ?_, rfl, rfl, runs_of _ _ _ rfl rfl ?_, runs_of _ _ _ rfl rfl ?_, ?_, ?_⟩, ⟨runs_of _ _ _ rfl rfl ?_, rfl⟩,
    ⟨runs_of _ _ _ rfl rfl ?_, ?_, ?_, ?_⟩⟩ <;> decide +kernel

/-- Operands of a key to derive: AES-128 for PIN encryption. -/
def deriveJob (op : Nat) (scheme flags : Byte) (input : Bytes) (k : Option Resolved) : Job :=
  bufJob op ([scheme, flags, 0, 0, 0, 0, 0, 0, 3] ++ ascii "P0" ++ [0x42, 0x4E] ++ ascii "00" ++ zeros 9) input k
def agreeJob (peer : Bytes) : Job := deriveJob 0x0404 0x10 0 (peer ++ [7]) (some (key 0x12 "K2" 0x58 0x4E (bytes 56)))
def encapsJob : Job := deriveJob 0x0405 0x14 2 (zeros 1568) none
def decapsJob : Job := deriveJob 0x0406 0x14 0 (zeros 1568) (some (key 0x1A "K2" 0x42 0x4E (bytes 64)))
def rsaEncryptJob (scheme halg : Byte) (n : Nat) : Job :=
  bufJob 0x0407 ([scheme, 2, 0, halg] ++ leBytes 2 2048) (beBytes 256 n ++ beBytes 4 65537 ++ [1, 2, 3]) none
/-- A private key of 2,048 bits from two primes. -/
def rsaPrivateKey : Resolved :=
  { key 0x16 "S0" 0x53 0x4E (rsaStore 256 ⟨2 ^ 1024 - 105, 2 ^ 1024 - 179, 65537⟩) with
    head := zeros 32 ++ [0x16] ++ leBytes 2 2048 ++ ascii "S0" ++ [0x53, 0x4E] ++ zeros 25 }
def rsaDecryptJob (c : Nat) : Job := bufJob 0x0408 [0x18, 0, 0, 1] (beBytes 256 c) (some rsaPrivateKey)

/-- Agreements with any peer's key, encapsulation to any key, decapsulation; RSA under a key that passes validation and one that does not; a ciphertext
in range and those just outside it. -/
theorem witness_KeyAgreement :
    (runs (agreeJob (zeros 56)) 0x0404 (pkSyntax (.item 1) (agreeJob (zeros 56)) 4 && newRecordOk (agreeJob (zeros 56)) false && derivedUse (agreeJob (zeros 56))) ∧
     (pkParts (agreeJob (zeros 56)) false .peer).any (fun p => p.part == zeros 56 && p.rest == [7] && keyMatches (agreeJob (zeros 56)) p) = true ∧
     lowestRun (working (agreeJob (zeros 56))) 0 1 = some 65536) ∧
    (runs encapsJob 0x0405 (pkSyntax (.item 1) encapsJob 5 && newRecordOk encapsJob false && derivedUse encapsJob) ∧
     (pkParts encapsJob true .absent).any (fun p => p.rest.isEmpty && keyMatches encapsJob p) = true ∧ ((drawing 64 (working encapsJob)).draw 32).isSome = true) ∧
    (runs decapsJob 0x0406 (pkSyntax (.item 1) decapsJob 6 && newRecordOk decapsJob false && derivedUse decapsJob) ∧
     (pkParts decapsJob false .signature).any (fun p => p.part == zeros 1568 && keyMatches decapsJob p) = true) ∧
    (let n := (2 ^ 1024 - 105) * (2 ^ 1024 - 179)
     runs (rsaEncryptJob 0x18 1 n) 0x0407 (pkSyntax (.item 1) (rsaEncryptJob 0x18 1 n) 7 && rsaKeyValid (rsaEncryptJob 0x18 1 n) n 65537) ∧
     runs (rsaEncryptJob 0x18 1 (n - 1)) 0x0407 (pkSyntax (.item 1) (rsaEncryptJob 0x18 1 (n - 1)) 7 && !rsaKeyValid (rsaEncryptJob 0x18 1 (n - 1)) (n - 1) 65537) ∧
     runs (rsaEncryptJob 0x19 0 n) 0x0407 (pkSyntax (.item 1) (rsaEncryptJob 0x19 0 n) 7 && rsaKeyValid (rsaEncryptJob 0x19 0 n) n 65537) ∧
     ((drawing 250 (working (rsaEncryptJob 0x19 0 n))).draw 250).isSome = true ∧
     (∀ c ∈ [0, 1, n - 1, n], (rsaDecryptJob c).zero 8 31 = true ∧ pkSyntax (.item 1) (rsaDecryptJob c) 8 = true) ∧
     (let k := rsaStored 256 rsaPrivateKey.material
      k.p * k.q = n) ∧ ((drawing 300 (working (rsaDecryptJob 1))).draw 272).isSome = true) := by
  refine ⟨⟨runs_of _ _ _ rfl rfl ?_, ?_, ?_⟩, ⟨runs_of _ _ _ rfl rfl ?_, ?_, ?_⟩, ⟨runs_of _ _ _ rfl rfl ?_, ?_⟩, runs_of _ _ _ rfl rfl ?_,
    runs_of _ _ _ rfl rfl ?_, runs_of _ _ _ rfl rfl ?_, ?_, ?_, ?_, ?_⟩ <;> decide +kernel

end Sys2Proof.Tests
end

section
/-! PROOFS. What an access of the host to a register comes to, said once for each kind of request and each block, and with it the statement on
registers (R4, R234, R254, R255, R327, R328, R337, R406, R421, R499, R519, R528, R529, R535 to R539). -/
namespace Sys2Proof.Machine

variable {b : Block} {s : State}

/-! ### Requests that reach their block, and those that do not (R327, R328) -/

/-- The PF's own request to a block that it reaches is carried out. -/
theorem pfRequest_admitted (hon : b.hostOn = true) {r : PfBlock} (hr : admits .pf r = true) (read : Bool) (f : Block → Block) :
    pfRequest b none r read f = f b := by
  simp [pfRequest, hon, askerOf, hr]

theorem pfRequest_refused (hon : b.hostOn = true) {pasid : Option Nat} {r : PfBlock} (hr : admits (askerOf b pasid) r = false) (read : Bool)
    (f : Block → Block) : pfRequest b pasid r read f = pfReject b read := by
  simp [pfRequest, hon, hr]

theorem pfReject_read (b : Block) : pfReject b true = ((b.emit (.aer 0 "Unsupported Request")).tally 153).emit .unsupportedRead := by
  simp [pfReject, Block.aer]

theorem pfReject_write (b : Block) : pfReject b false = (b.emit (.aer 0 "Unsupported Request")).tally 153 := by
  simp [pfReject, Block.aer]

theorem askerOf_unbound (h : b.bimor.binds = []) (p : Nat) : askerOf b (some p) = .unknown := by
  simp [askerOf, h]

theorem vfRequest_on {c : Nat} (h : b.vfOn c = true) (f : Block → Block) : vfRequest b c f = f b := by
  simp [vfRequest, h]

/-- A row for the PF window, asked for by the PF itself, has the effect of its function. -/
theorem completes_pfRequest {i : Instr} {r : PfBlock} {read : Bool} {f : Block → Block} {t : Block}
    (hi : exec i s = run s fun b => pfRequest b none r read f) (hon : s.blk.hostOn = true) (hr : admits .pf r = true) (ht : f s.blk = t) :
    Completes i s t := by
  rw [Completes, hi, run, pfRequest_admitted hon hr, ht]

/-- A row for the PF window that its requester does not reach is rejected. -/
theorem completes_pfReject {i : Instr} {pasid : Option Nat} {r : PfBlock} {read : Bool} {f : Block → Block}
    (hi : exec i s = run s fun b => pfRequest b pasid r read f) (hon : s.blk.hostOn = true) (hr : admits (askerOf s.blk pasid) r = false)
    {t : Block} (ht : pfReject s.blk read = t) : Completes i s t := by
  rw [Completes, hi, run, pfRequest_refused hon hr, ht]

/-- A row for a VF window that answers has the effect of its function. -/
theorem completes_vfRequest {i : Instr} {c : Nat} {f : Block → Block} {t : Block} (hi : exec i s = run s fun b => vfRequest b c f)
    (hv : s.blk.vfOn c = true) (ht : f s.blk = t) : Completes i s t := by
  rw [Completes, hi, run, vfRequest_on hv, ht]

/-- A well-formed access without a row of its own has its effect, and whatever waited for it goes on. -/
theorem completes_hostWrite {w : HostWrite} {t : Block} (ht : hostWrite s.blk w = t) (hw : wfHostWrite w = true) :
    Completes (.registerWrite w) s (settle t) := by
  simp [Completes, exec, execRegisterWrite, act, run, hw, ht]

theorem completes_readPf {off : Nat} {z : WSize} {r : PfBlock} {t : Block} (hon : s.blk.hostOn = true) (hr : regionOf off = r)
    (ha : admits .pf r = true) (ht : pfRead s.blk off z = t) (hw : wfHostWrite (.readPf none off z) = true) :
    Completes (.registerWrite (.readPf none off z)) s (settle t) :=
  completes_hostWrite (by rw [hostWrite, pfRequest_admitted hon (hr ▸ ha), ht]) hw

theorem completes_writePf {off : Nat} {z : WSize} {v : BitVec 64} {r : PfBlock} {t : Block} (hon : s.blk.hostOn = true) (hr : regionOf off = r)
    (ha : admits .pf r = true) (ht : pfWrite s.blk off z v = t) (hw : wfHostWrite (.pf none off z v) = true) :
    Completes (.registerWrite (.pf none off z v)) s (settle t) :=
  completes_hostWrite (by rw [hostWrite, pfRequest_admitted hon (hr ▸ ha), ht]) hw

theorem completes_readVf {c off : Nat} {z : WSize} {t : Block} (ht : vfRead s.blk c off z = t) (hv : s.blk.vfOn c = true)
    (hw : wfHostWrite (.readVf c off z) = true) : Completes (.registerWrite (.readVf c off z)) s (settle t) :=
  completes_hostWrite (by rw [hostWrite, vfRequest_on hv, ht]) hw

theorem completes_writeVf {c off : Nat} {z : WSize} {v : BitVec 64} {t : Block} (ht : vfWrite s.blk c off z v = t) (hv : s.blk.vfOn c = true)
    (hw : wfHostWrite (.vf c off z v) = true) : Completes (.registerWrite (.vf c off z v)) s (settle t) :=
  completes_hostWrite (by rw [hostWrite, vfRequest_on hv, ht]) hw

/-- The PF reads no block of a slice, and writes to none. -/
theorem completes_readSlice {off : Nat} (hon : s.blk.hostOn = true) (h : ∃ k, regionOf off = .slc k) (z : WSize)
    (hw : wfHostWrite (.readPf none off z) = true) : Completes (.registerWrite (.readPf none off z)) s
      (settle (((s.blk.emit (.aer 0 "Unsupported Request")).tally 153).emit .unsupportedRead)) := by
  obtain ⟨k, hk⟩ := h
  exact completes_hostWrite (by rw [hostWrite, hk, pfRequest_refused hon rfl, pfReject_read]) hw

theorem completes_writeSlice {off : Nat} {v : BitVec 64} (hon : s.blk.hostOn = true) (h : ∃ k, regionOf off = .slc k) (z : WSize)
    (hw : wfHostWrite (.pf none off z v) = true) : Completes (.registerWrite (.pf none off z v)) s
      (settle ((s.blk.emit (.aer 0 "Unsupported Request")).tally 153)) := by
  obtain ⟨k, hk⟩ := h
  exact completes_hostWrite (by rw [hostWrite, hk, pfRequest_refused hon rfl, pfReject_write]) hw

theorem functionOn_of (hon : b.hostOn = true) {fn : Nat} (h : fn = 0 ∨ (b.pcie.vfEnable = true ∧ fn ≤ b.n)) : functionOn b fn = true := by
  simpa [functionOn, hon] using h

/-! ### Fields of a word -/

theorem bits_eq (v hi lo : Nat) : bits v hi lo = v / 2 ^ lo % 2 ^ (hi + 1 - lo) := by
  rw [bits, Nat.shiftRight_eq_div_pow]

theorem mul_b2n (k : Nat) (x : Bool) : k * b2n x = if x then k else 0 := by
  cases x <;> simp [b2n]

theorem accessOf_word {off : Nat} (h : off % 4 = 0) : accessOf off .word = .word := by
  simp [accessOf, h]

/-! ### Settings with a range, and the chambers' counter slots (R510, R519, R528) -/

theorem pmcRail_refused {r : Nat} {w : BitVec 32} (h : w.toNat % 4096 < railFloor r ∨ w.toNat / 4096 % 4096 = 0) :
    pmcRail b r .word w = b.modPmc fun p => { p with err := p.err ||| 4 } := by
  simp [pmcRail, bits_eq, h]

theorem pmcRail_pending {r : Nat} {w : BitVec 32} (hc : railFloor r ≤ w.toNat % 4096) (hf : w.toNat / 4096 % 4096 ≠ 0) :
    pmcRail b r .word w = b.modPmc fun p =>
      { p with pendingRail := p.pendingRail.filter (fun x => x.1 != r) ++ [(r, w.toNat % 4096, w.toNat / 4096 % 4096)] } := by
  simp [pmcRail, bits_eq, Nat.not_lt.mpr hc, hf]

theorem chkClrmax_set {v : Nat} (h : v.testBit 0 = true) :
    chkClrmax b .word v =
      { b with ch := Tab.mapVals b.ch fun _ h => { h with groups := Tab.mapVals h.groups fun _ g => { g with wmax := 0 } } } := by
  simp [chkClrmax, h]

/-- The slot that a write of `VFE_CFG` asks for, not yet bound (R528). -/
def vfeAsked (old : VfeSlot) (w : Nat) : VfeSlot :=
  { event := w % 1024, level := w.testBit 10, chain := w.testBit 11, en := w.testBit 12, counter := w / 2 ^ 13 % 8
    unit := w / 2 ^ 16 % 128, bound := false, refused := old.refused && !w.testBit 25 }

theorem vfeRelease_unbound {c i : Nat} (h : (b.vfe c i).bound = false) : vfeRelease b c i = b := by
  simp [vfeRelease, h]

/-- What a write to an unbound slot does, by what it asks for. -/
theorem vfeCfg_unbound {c i : Nat} (h : (b.vfe c i).bound = false) (w : Nat) :
    vfeCfg b c i .word w =
      let want := vfeAsked (b.vfe c i) w
      if want.en then
        if vfePermitted want.unit want.counter && (b.ctr want.unit want.counter).owner == .free &&
            ctrAdmitted b want.unit want.counter want.event want.level want.chain (.chamber c) then
          (ctrTake b want.unit want.counter want.event want.level want.chain (.chamber c)).setVfe c i { want with bound := true }
        else b.setVfe c i { want with refused := true }
      else b.setVfe c i want := by
  simp [vfeCfg, vfeAsked, bits_eq, bit, vfeRelease_unbound h, h]

theorem vfeCfg_off {c i w : Nat} (h : (b.vfe c i).bound = false) (hen : (vfeAsked (b.vfe c i) w).en = false) :
    vfeCfg b c i .word w = b.setVfe c i (vfeAsked (b.vfe c i) w) := by
  simp [vfeCfg_unbound h, hen]

theorem vfeCfg_binds {c i w : Nat} {want : VfeSlot} (hw : vfeAsked (b.vfe c i) w = want) (h : (b.vfe c i).bound = false) (hen : want.en = true)
    (hp : vfePermitted want.unit want.counter = true) (ho : (b.ctr want.unit want.counter).owner = .free)
    (ha : ctrAdmitted b want.unit want.counter want.event want.level want.chain (.chamber c) = true) :
    vfeCfg b c i .word w =
      (ctrTake b want.unit want.counter want.event want.level want.chain (.chamber c)).setVfe c i { want with bound := true } := by
  simp [vfeCfg_unbound h, hw, hen, hp, ho, ha]

theorem vfeCfg_refuses {c i w : Nat} {want : VfeSlot} (hw : vfeAsked (b.vfe c i) w = want) (h : (b.vfe c i).bound = false) (hen : want.en = true)
    (hn : vfePermitted want.unit want.counter = false ∨ (b.ctr want.unit want.counter).owner ≠ .free) :
    vfeCfg b c i .word w = b.setVfe c i { want with refused := true } := by
  rcases hn with hn | hn <;> simp [vfeCfg_unbound h, hw, hen, hn]

/-! ### Mailboxes (R336, R337) -/

theorem pfRead_mbx {off : Nat} (h : off < 0x10000) (z : WSize) : pfRead b off z = mbxRead b .pf off z := by
  simp [pfRead, regionOf, Nat.div_eq_of_lt h, Nat.mod_eq_of_lt h]

theorem pfWrite_mbx {off : Nat} (h : off < 0x10000) (z : WSize) (v : BitVec 64) : pfWrite b off z v = mbxWrite b .pf off z v := by
  simp [pfWrite, regionOf, Nat.div_eq_of_lt h, Nat.mod_eq_of_lt h]

theorem regionOf_mbx {off : Nat} (h : off < 0x10000) : regionOf off = .mbx := by
  simp [regionOf, Nat.div_eq_of_lt h]

theorem mbxRead_register (m : Mbx) {off : Nat} (h : 0x2000 ≤ off) (ha : off % 4 = 0) :
    mbxRead b m off .word = b.answer (mbxReg b (mbxNo m) off) := by
  simp [mbxRead, ha, show ¬ off < 0x1000 by omega, show ¬ off < 0x2000 by omega]

theorem mbxReg_status (i : Nat) :
    mbxReg b i 0x2004 = (if (b.mbx i).busy then 1 else 0) + (if (b.mbx i).done then 2 else 0) + (if b.pmc.ready then 4 else 0) +
      256 * ((b.mbx i).vmaj % 16) + 4096 * ((b.mbx i).vmin % 16) := by
  simp only [← mul_b2n]
  simp [mbxReg, mbxStatus]

theorem mbxReg_irq (i : Nat) : mbxReg b i 0x2008 = (if (b.mbx i).irqEn then 1 else 0) + 2 * ((b.mbx i).vector % 64) := rfl

theorem mbxRead_request (m : Mbx) {off : Nat} (h : off < 0x1000) (ha : off % 4 = 0) :
    mbxRead b m off .word = b.answer (ofLe ((b.mbx (mbxNo m)).req.readBytes off 4)) := by
  simp [mbxRead, ha, h]

theorem mbxRead_request64 (m : Mbx) {off : Nat} (h : off < 0x1000) (ha : off % 8 = 0) :
    mbxRead b m off .dword = b.answer (ofLe ((b.mbx (mbxNo m)).req.readBytes off 8)) := by
  simp [mbxRead, ha, h, show ¬ 0x2000 ≤ off by omega]

theorem mbxRead_response (m : Mbx) {off : Nat} (h : off < 0x1000) (ha : off % 4 = 0) :
    mbxRead b m (off + 0x1000) .word = b.answer (ofLe ((b.mbx (mbxNo m)).rsp.readBytes off 4)) := by
  simp [mbxRead, show (off + 0x1000) % 4 = 0 by omega, show off + 0x1000 < 0x2000 by omega]

theorem mbxRead_misaligned (m : Mbx) {off : Nat} (ha : off % 4 ≠ 0) :
    mbxRead b m off .word = (b.modMbx (mbxNo m) fun x => { x with err := x.err ||| 4 }).answer 0 := by
  simp [mbxRead, ha]

theorem mbxWrite_request (m : Mbx) {off : Nat} (v : BitVec 64) (h : off < 0x1000) (ha : off % 4 = 0) (hb : (b.mbx (mbxNo m)).busy = false) :
    mbxWrite b m off .word v = b.modMbx (mbxNo m) fun x => { x with req := x.req.writeBytes off (leBytes 4 v.toNat) } := by
  simp [mbxWrite, h, accessOf_word ha, hb]

theorem mbxWrite_busy (m : Mbx) {off : Nat} (v : BitVec 64) (h : off < 0x1000) (ha : off % 4 = 0) (hb : (b.mbx (mbxNo m)).busy = true) :
    mbxWrite b m off .word v = b.modMbx (mbxNo m) fun x => { x with err := x.err ||| 2 } := by
  simp [mbxWrite, h, accessOf_word ha, hb]

theorem mbxWrite_go (m : Mbx) {v : BitVec 64} (h : (v.toNat % 2 ^ 32).testBit 0 = true) : mbxWrite b m 0x2000 .word v = mbxGo b m := by
  simp only [mbxWrite, h]
  simp [accessOf]

theorem mbxWrite_status (m : Mbx) (v : BitVec 64) :
    mbxWrite b m 0x2004 .word v = b.modMbx (mbxNo m) fun x => { x with done := x.done && !(v.toNat % 2 ^ 32).testBit 1 } := by
  simp [mbxWrite, accessOf]

/-! ### Reads of the other blocks of the PF window -/

section
variable {off o : Nat}

/-- A word of the CHK block. -/
theorem pfRead_chk (hr : regionOf off = .chk) (ho : off % 65536 = o) (ha : o % 4 = 0) : pfRead b off .word = b.answer (chkReg b o) := by
  simp [pfRead, hr, ho, accessOf_word ha]

/-- A word of the PMC block. -/
theorem pfRead_pmc (hr : regionOf off = .pmc) (ho : off % 65536 = o) (ha : o % 4 = 0) : pfRead b off .word = b.answer (pmcReg b o) := by
  simp [pfRead, hr, ho, accessOf_word ha]

/-- A word of the SMP block, but for the low word of ROOTV, whose read latches the high one. -/
theorem pfRead_smp (hr : regionOf off = .smp) (ho : off % 65536 = o) (ha : o % 4 = 0) (hl : o ≠ 0xC) :
    pfRead b off .word = b.answer (smpReg b o) := by
  simp [pfRead, hr, ho, accessOf_word ha, hl]

/-- A word of the BLY block, but for `BLY_FLAST0`, whose read latches. -/
theorem pfRead_bly (hr : regionOf off = .bly) (ho : off % 65536 = o) (ha : o % 4 = 0) (hl : o ≠ 0x1000) :
    pfRead b off .word = b.answer (blyReg b o) := by
  simp [pfRead, hr, ho, accessOf_word ha, hl]

theorem pfRead_reserved (hr : regionOf off = .reserved) (z : WSize) : pfRead b off z = b.answer 0 := by
  simp [pfRead, hr]

/-! ### Writes to them -/

theorem pfWrite_chk (hr : regionOf off = .chk) (ho : off % 65536 = o) (ha : o % 4 = 0) (v : BitVec 64) :
    pfWrite b off .word v = chkWrite b o .word (v.toNat % 2 ^ 32) := by
  simp [pfWrite, hr, ho, accessOf_word ha]

theorem pfWrite_tly (hr : regionOf off = .tly) (ho : off % 65536 = o) (ha : o % 4 = 0) (v : BitVec 64) :
    pfWrite b off .word v = tlyWrite b o .word (v.toNat % 2 ^ 32) := by
  simp [pfWrite, hr, ho, accessOf_word ha]

theorem pfWrite_pmc (hr : regionOf off = .pmc) (ho : off % 65536 = o) (ha : o % 4 = 0) (v : BitVec 64) :
    pfWrite b off .word v = pmcWrite b o .word (v.toNat % 2 ^ 32) := by
  simp [pfWrite, hr, ho, accessOf_word ha]

theorem pfWrite_bly (hr : regionOf off = .bly) (ho : off % 65536 = o) (ha : o % 4 = 0) (v : BitVec 64) :
    pfWrite b off .word v = blyWrite b o .word (v.toNat % 2 ^ 32) := by
  simp [pfWrite, hr, ho, accessOf_word ha]

theorem pfWrite_krd (hr : regionOf off = .krd) (ho : off % 65536 = o) (ha : o % 4 = 0) (v : BitVec 64) :
    pfWrite b off .word v = krdWrite b o .word (v.toNat % 2 ^ 32) := by
  simp [pfWrite, hr, ho, accessOf_word ha]

theorem pfWrite_smp (hr : regionOf off = .smp) (ho : off % 65536 = o) (ha : o % 4 = 0) (v : BitVec 64) :
    pfWrite b off .word v = smpWrite b o .word (v.toNat % 2 ^ 32) := by
  simp [pfWrite, hr, ho, accessOf_word ha]

theorem pfWrite_lan (hr : regionOf off = .lan) (ho : off % 65536 = o) (ha : o % 4 = 0) (v : BitVec 64) :
    pfWrite b off .word v = lanWrite b o .word (v.toNat % 2 ^ 32) := by
  simp [pfWrite, hr, ho, accessOf_word ha]

theorem pfWrite_flw (hr : regionOf off = .flw) (ho : off % 65536 = o) (ha : o % 4 = 0) (hl : o < 0x1C) (v : BitVec 64) :
    pfWrite b off .word v = ringRegWrite b .system o .word (v.toNat % 2 ^ 32) := by
  simp [pfWrite, hr, ho, accessOf_word ha, hl]

end

/-! ### The registers of these blocks -/

theorem chkReg_held {k : Nat} {hold : Hold} (hk : k < 6) (h : heldReasons[k]? = some hold) :
    chkReg b (0x20 + 4 * k) = (b.chuck.items.filter fun p => p.2.st == .held hold).length := by
  have i : (0x20 + 4 * k - 0x20) / 4 = k := by omega
  have e : chkReg b (0x20 + 4 * k) = chkHeld b k := by simp (disch := omega) only [chkReg, if_neg, if_pos, i]
  rw [e, chkHeld, h]

theorem blyReg_viol {k : Nat} (hk : k < 64) : blyReg b (0x1100 + 4 * k) = (b.ferrule k).viol := by
  have i : (0x1100 + 4 * k - 0x1100) / 4 = k := by omega
  simp (disch := omega) only [blyReg, if_neg, if_pos, i]

theorem chkWrite_cfg (v : Nat) :
    chkWrite b 4 .word v = b.modChuck fun x =>
      { x with ewmaShift := if 1 ≤ v % 16 ∧ v % 16 ≤ 8 then v % 16 else x.ewmaShift
               busyWin := if v / 16 % 16 ≤ 8 then v / 16 % 16 else x.busyWin } := by
  simp [chkWrite, bits_eq]

theorem krdWrite_cfg {v : Nat} (h1 : 1 ≤ v / 256 % 128) (h2 : v / 256 % 128 ≤ 100) :
    krdWrite b 0x20 .word v = b.modKerard fun k =>
      { k with gen1 := v.testBit 0, vecEn := v.testBit 1, vector := v / 4 % 64, hostTimeout := v / 256 % 128 } := by
  simp [krdWrite, bits_eq, h1, h2]

/-! ### The VF window (R56, R57, R255, R330, R406, R528) -/

section
variable {c off : Nat}

/-- A word of the queue block. -/
theorem vfRead_vfq (h : off < 0x1000) (ha : off % 4 = 0) : vfRead b c off .word = b.answer (vfqReg b c off) := by
  simp [vfRead, accessOf_word ha, h, show ¬ 0x4000 ≤ off by omega, show ¬ 0x2000 ≤ off by omega]

/-- A word of the block at 0x1000. -/
theorem vfRead_vfc (h : 0x1000 ≤ off) (h' : off < 0x2000) (ha : off % 4 = 0) : vfRead b c off .word = b.answer (vfcReg b c off) := by
  simp [vfRead, accessOf_word ha, h', show ¬ 0x4000 ≤ off by omega, show ¬ 0x2000 ≤ off by omega, show ¬ off < 0x1000 by omega]

/-- The doorbells are only written. -/
theorem vfqReg_doorbell (h : off < 0x40) : vfqReg b c off = 0 := by
  simp (disch := omega) only [vfqReg, if_neg]

end

section
variable {c n : Nat}

theorem vfqReg_head (hn : n < 8) : vfqReg b c (0x40 + 4 * n) = (b.sq c n).head := by
  have i : (0x40 + 4 * n) % 32 / 4 = n := by omega
  simp (disch := omega) only [vfqReg, if_pos, i]

theorem vfqReg_tail (hn : n < 8) : vfqReg b c (0xC0 + 4 * n) = (b.cq c n).tail + if (b.cq c n).phase then 2 ^ 16 else 0 := by
  have i : (0xC0 + 4 * n) % 32 / 4 = n := by omega
  simp (disch := omega) only [vfqReg, if_neg, if_pos, i, mul_b2n]

theorem vfcReg_depth (hn : n < 8) : vfcReg b c (0x1100 + 4 * n) = chkGdepth b c n := by
  have i : (0x1100 + 4 * n) % 32 / 4 = n := by omega
  simp (disch := omega) only [vfcReg, if_neg, if_pos, i]

theorem vfcReg_wmax (hn : n < 8) : vfcReg b c (0x1120 + 4 * n) = (b.group c n).wmax := by
  have i : (0x1120 + 4 * n) % 32 / 4 = n := by omega
  simp (disch := omega) only [vfcReg, if_neg, if_pos, i, chkGwmax]

theorem vfcReg_wavg (hn : n < 8) : vfcReg b c (0x1140 + 4 * n) = (b.group c n).wavg / 256 := by
  have i : (0x1140 + 4 * n) % 32 / 4 = n := by omega
  simp (disch := omega) only [vfcReg, if_neg, if_pos, i, chkGwavg]

theorem vfcReg_count (hn : n < 16) : vfcReg b c (0x1240 + 4 * n) = vfeCount b c n := by
  have i : (0x1240 + 4 * n - 0x1240) / 4 = n := by omega
  simp (disch := omega) only [vfcReg, if_neg, if_pos, i]

end

/-- The items of a list that satisfy two conditions, counted in a field that has room for those of the first. -/
theorem length_filter_mod {α : Type} {l : List α} {p : α → Bool} {m : Nat} (h : (l.filter p).length < m) (q : α → Bool) :
    ((l.filter p).filter q).length % m = (l.filter fun x => p x && q x).length := by
  rw [Nat.mod_eq_of_lt (Nat.lt_of_le_of_lt (List.length_filter_le q _) h), List.filter_filter]
  simp only [Bool.and_comm]

/-- An item is held, whatever the reason (R247). -/
def Item.isHeld (i : Item) : Bool :=
  match i.st with
  | .held _ => true
  | _ => false

/-- An item of a chamber's group. -/
def Item.ofGroup (c g : Nat) (i : Item) : Bool := i.chamber == c && i.group == g

theorem chkGdepth_eq {c g : Nat} (h : (b.chuck.items.filter fun p => p.2.ofGroup c g).length < 65536) :
    chkGdepth b c g = (b.chuck.items.filter fun p => p.2.ofGroup c g && p.2.st == .ready).length +
      2 ^ 16 * (b.chuck.items.filter fun p => p.2.ofGroup c g && p.2.isHeld).length := by
  have mine : (b.itemsOf c).filter (fun p => p.2.group == g) = b.chuck.items.filter fun p => p.2.ofGroup c g := by
    simp only [Block.itemsOf, List.filter_filter, Item.ofGroup, Bool.and_comm]
  rw [← length_filter_mod h, ← length_filter_mod h, ← mine]
  rfl

theorem vfWrite_qerr (c : Nat) (v : BitVec 64) :
    vfWrite b c 0x184 .word v = b.modCh c fun h => { h with qerr := clearBits h.qerr (v.toNat % 2 ^ 32) } := by
  simp [vfWrite, accessOf]

theorem vfWrite_lan (c : Nat) (v : BitVec 64) :
    vfWrite b c 0x2000 .word v = b.modLanPort (lanPortVf c) fun p => { p with err := p.err && !(v.toNat % 2 ^ 32).testBit 1 } := by
  simp [vfWrite, accessOf]

/-! ### The statement -/

/-- Settles O52: each row and each operand of REGISTER_WRITE reaches its block, and the register there answers or changes as the lemmas above say. -/
theorem registers : Obligations.Registers := by
  unfold Obligations.Registers
  refine ⟨fun s c slot r u n k core v => ?_, fun s off c k g n hold hon => ?_, fun s off fn vec addr data v c on hon => ?_⟩
  · intro b cap refill ctr held badTly latched high cycles old w want target
    refine ⟨fun hon => ?_, fun hv => ?_, fun hon p hb => completes_pfReject rfl hon (by rw [askerOf_unbound hb p]; rfl) (pfReject_read _)⟩
    · have row {i : Instr} {r : PfBlock} {read : Bool} {f : Block → Block} {t : Block} (hi : exec i s = run s fun b => pfRequest b none r read f)
          (hr : admits .pf r = true) (ht : f b = t) : Completes i s t := completes_pfRequest hi hon hr ht
      refine ⟨fun h => row rfl rfl (chkClrmax_set h), row rfl rfl rfl, fun h => row rfl rfl (pmcRail_refused h),
        fun hc hf => row rfl rfl (pmcRail_pending hc hf), ?_⟩
      -- the reads that latch, and those of another size: each is a case of its row's function
      exact ⟨row rfl rfl rfl, row rfl rfl rfl, row rfl rfl rfl,
        row rfl rfl rfl, row rfl rfl rfl, row rfl rfl rfl, row rfl rfl rfl, row rfl rfl rfl⟩
    · exact ⟨completes_vfRequest rfl hv rfl, completes_vfRequest rfl hv rfl,
        fun hb hen => completes_vfRequest rfl hv (vfeCfg_off hb hen),
        fun hb hen => ⟨fun hp ho ha => completes_vfRequest rfl hv (vfeCfg_binds rfl hb hen hp ho ha),
          fun hn => completes_vfRequest rfl hv (vfeCfg_refuses rfl hb hen hn)⟩⟩
  · intro b x h bit_ pf vf held inGroup
    have mbx {o : Nat} {z : WSize} {t : Block} (ho : o < 0x10000) (e : mbxRead b .pf o z = t) : pf o z t :=
      completes_readPf hon (regionOf_mbx ho) rfl ((pfRead_mbx ho z).trans e)
    have vfq {o v : Nat} (ho : o < 0x1000) (ha : o % 4 = 0) (e : vfqReg b c o = v) : vf o v :=
      completes_readVf ((vfRead_vfq ho ha).trans (congrArg b.answer e))
    have vfc {o v : Nat} (ho : 0x1000 ≤ o) (ho' : o < 0x2000) (ha : o % 4 = 0) (e : vfcReg b c o = v) : vf o v :=
      completes_readVf ((vfRead_vfc ho ho' ha).trans (congrArg b.answer e))
    refine ⟨?_, ?_, ?_, ?_, ?_, ?_, ?_, ?_, ?_, ?_, ?_, ?_, ?_, ?_, ?_, ?_, ?_, ?_, ?_, ?_⟩
    · exact mbx (by decide) ((mbxRead_register .pf (by decide) rfl).trans (congrArg b.answer (mbxReg_status 0)))
    · exact mbx (by decide) (mbxRead_register .pf (by decide) rfl)
    · exact mbx (by decide) ((mbxRead_register .pf (by decide) rfl).trans (congrArg b.answer (mbxReg_irq 0)))
    · exact fun ho ha => ⟨mbx (by omega) (mbxRead_request .pf ho ha), mbx (by omega) (mbxRead_response .pf ho ha)⟩
    · exact fun ho ha => mbx (by omega) (mbxRead_request64 .pf ho ha)
    · exact fun ho ha => mbx (by omega) (mbxRead_misaligned .pf ha)
    -- the other blocks of the PF window
    · exact fun hr z => completes_readPf hon hr rfl (pfRead_reserved hr z)
    · exact fun hr hk ho hh => completes_readPf hon hr rfl ((pfRead_chk hr ho (by omega)).trans (congrArg b.answer (chkReg_held hk hh)))
    · exact fun hr ho => completes_readPf hon hr rfl (pfRead_pmc hr ho rfl)
    · exact fun hr ho => completes_readPf hon hr rfl (pfRead_pmc hr ho rfl)
    · exact fun hr ho => completes_readPf hon hr rfl (pfRead_smp hr ho rfl (by decide))
    · exact fun hr ho => completes_readPf hon hr rfl (pfRead_smp hr ho rfl (by decide))
    · exact fun hr hk ho => completes_readPf hon hr rfl
        ((pfRead_bly hr ho (by omega) (by omega)).trans (congrArg b.answer (blyReg_viol hk)))
    · exact completes_readSlice hon
    -- the VF window
    · exact fun ho ha => vfq (by omega) ha (vfqReg_doorbell ho)
    · exact fun hn => ⟨vfq (by omega) (by omega) (vfqReg_head hn), vfq (by omega) (by omega) (vfqReg_tail hn)⟩
    · exact vfq (by decide) rfl rfl
    · exact vfc (by decide) (by decide) rfl rfl
    · exact vfc (by decide) (by decide) rfl rfl
    · refine ⟨fun hg => ⟨?_, ?_, fun hd => ?_⟩, fun hn hb => ?_, fun hn hb => ?_⟩
      · exact vfc (by omega) (by omega) (by omega) (vfcReg_wmax hg)
      · exact vfc (by omega) (by omega) (by omega) (vfcReg_wavg hg)
      · exact vfc (by omega) (by omega) (by omega) ((vfcReg_depth hg).trans (chkGdepth_eq hd))
      · exact vfc (by omega) (by omega) (by omega) ((vfcReg_count hn).trans (if_neg (by simp [hb])))
      · exact vfc (by omega) (by omega) (by omega) ((vfcReg_count hn).trans (if_pos hb))
  · intro b w W x pf vf put shift window timeout has cfg
    have mbx {o : Nat} {t : Block} (ho : o < 0x10000) (e : mbxWrite b .pf o .word v = t) : pf o .word t :=
      completes_writePf hon (regionOf_mbx ho) rfl ((pfWrite_mbx ho .word v).trans e)
    refine ⟨?_, ?_, ?_, ?_, ?_, ?_, ?_, ?_, ?_, ?_, ?_, ?_, ?_, ?_, ?_, ?_, ?_, ?_, ?_, ?_, ?_, ?_, ?_⟩
    · exact fun h => mbx (by decide) (mbxWrite_go .pf h)
    · exact fun ho ha hb => mbx (by omega) (mbxWrite_request .pf v ho ha hb)
    · exact fun ho ha hb => mbx (by omega) (mbxWrite_busy .pf v ho ha hb)
    · exact mbx (by decide) (mbxWrite_status .pf v)
    -- the other blocks of the PF window
    · exact fun hr ho => completes_writePf hon hr rfl ((pfWrite_chk hr ho rfl v).trans (chkWrite_cfg w))
    · exact fun hr ho => completes_writePf hon hr rfl (pfWrite_chk hr ho rfl v)
    · exact fun hr ho => completes_writePf hon hr rfl (pfWrite_pmc hr ho rfl v)
    · exact fun hr ho => completes_writePf hon hr rfl (pfWrite_pmc hr ho rfl v)
    · exact fun hr ho h1 h2 => completes_writePf hon hr rfl ((pfWrite_krd hr ho rfl v).trans (krdWrite_cfg h1 h2))
    · exact fun hr ho => completes_writePf hon hr rfl (pfWrite_smp hr ho rfl v)
    · exact fun hr ho => completes_writePf hon hr rfl (pfWrite_lan hr ho rfl v)
    · exact fun hr ho => completes_writePf hon hr rfl (pfWrite_bly hr ho rfl v)
    · exact fun hr ho => completes_writePf hon hr rfl (pfWrite_tly hr ho rfl v)
    · exact fun hr ho => completes_writePf hon hr rfl (pfWrite_flw hr ho rfl (by decide) v)
    · exact completes_writeSlice hon
    -- the VF window
    · exact fun hv => completes_writeVf (vfWrite_qerr c v) hv
    · exact fun hv => completes_writeVf (vfWrite_lan c v) hv
    -- the functions' configuration
    · exact fun hf hn => completes_hostWrite (if_pos ⟨functionOn_of hon hf, hn⟩)
    · exact fun hf => completes_hostWrite (if_pos (functionOn_of hon hf))
    · exact fun hf => completes_hostWrite (if_pos (functionOn_of hon hf))
    · exact completes_hostWrite (if_pos hon)
    · exact completes_hostWrite (if_pos hon)
    · exact fun hf => completes_hostWrite (if_pos (functionOn_of hon hf))

end Sys2Proof.Machine
end

section
/-! PROOFS. The fill of the key cache that waits for a way (R47), and with it the statement on the key cache. -/
namespace Sys2Proof.Machine

variable {b b0 b1 : Block} {s : State} {gidx : Nat} {ret ret' : DdrReturn}

/-! ### What a fill comes to (R219) -/

/-- A command leaves one device. -/
theorem Completes.unique {i : Instr} {t u : Block} (ht : Completes i s t) (hu : Completes i s u) : t = u := by
  have h : Host.Outcome.next { s with blk := t } = Host.Outcome.next { s with blk := u } := ht.symm.trans hu
  injection h with h
  injection h

/-- KEY_CACHE_FILL has its effect while the Sump controller's domain is on, and whatever waited for it goes on. -/
theorem completes_keyCacheFill {t : Block} (ht : keyCacheFill s.blk gidx ret = t) (hr : s.blk.running = true) (hd : s.blk.domainOn 19 = true)
    (hw : wfDdr ret = true) : Completes (.keyCacheFill gidx ret) s (settle t) := by
  simp [Completes, exec, execKeyCacheFill, act, run, awakeSettle, hw, hr, hd, ht]

/-- A fill for which no way is free keeps what its reads have done: the passes that unsealed the record, the blocks verified and the errors
counted. -/
theorem keyCacheFill_waits {m : Miss} {lines : List (Bytes × Nat)} (hm : b.keys.misses.find? (fun m => m.gidx == gidx) = some m)
    (hs : b.sump.st = .ready) (hc : beingWritten b gidx = false) (hd : ddrRead b ret = (ret', b0)) (hr : readWhole b0 ret' gidx = (.ok lines, b1))
    (hf : fillRecord b1 gidx lines = none) : keyCacheFill b gidx ret = b1 := by
  simp [keyCacheFill, hm, hs, hc, hd, hr, hf]

/-! ### A set whose ways are all referenced -/

/-- An item of chamber 0 that is held for the fill of its key. -/
def itemOnMiss : Item :=
  { chamber := 0, group := 0, index := 0, cq := 0, desc := zeros 64, residence := 0, st := .held .miss, cls := .spa, pipe := 0, ahead := false
    needCount := false, needMiss := [], waited := none, done := false, written := none, mute := false, core := none
    job := { Job.none with opcode := 0x0600 }, leaf := .none, step := 0, flushTo := none }

/-- The miss on record 65536, the first of chamber 0, that the item waits for. -/
def missOfFirst : Miss := { gidx := 65536, payer := 0, waiters := [.item 1], pinFor := [], refetch := false }

/-- The sixteen ways of set 0, each with another record of that set (R44) that an engine operation uses. -/
def waysInUse : Tab Slot :=
  (List.range 16).map fun w =>
    let g := 65536 + 16385 * (w + 1)
    (w, { Slot.none with gidx := g, line := zeros 64, refs := 1, head := g })

/-- A device that serves, with one chamber, the full set and the miss. -/
def fullSet : Block :=
  { Block.reset with
    life := 3, pmc := { Pmc.reset with on := 0xFFFFFF, booted := true, ready := true, perstN := false }
    ch := [(0, { Chamber.absent with st := .active })], sump := { Sump.reset with st := .ready }, ferrules := bootFerrules
    keys := { Keys.reset with cache := waysInUse, misses := [missOfFirst] }
    chuck := { Chuck.reset with nextItem := 2, items := [(1, itemOnMiss)] } }

/-- The full set's device once the record is read and unsealed. -/
def fullSetRead : Block := (readWhole fullSet .faithful 65536).2

/-- The Sump engine's Ferrule admits the read, and nothing is counted. -/
theorem fullSet_ddrRead : ddrRead fullSet .faithful = (.faithful, fullSet) := by decide +kernel

/-- The record was never written, and reads as zero (R216). -/
theorem fullSet_readWhole : readWhole fullSet .faithful 65536 = (.ok [(zeros 64, 0)], fullSetRead) :=
  Prod.ext (by decide +kernel) rfl

theorem fullSetRead_noWay : fillRecord fullSetRead 65536 [(zeros 64, 0)] = none := by decide +kernel

theorem fullSet_keyCacheFill : keyCacheFill fullSet 65536 .faithful = fullSetRead :=
  keyCacheFill_waits (m := missOfFirst) rfl rfl rfl fullSet_ddrRead fullSet_readWhole fullSetRead_noWay

/-- The passes of the unsealing stand in Spindle's queue, whatever else goes on. -/
theorem fullSetRead_passes : (settle fullSet).spindle.nextId = 0 ∧ (settle fullSetRead).spindle.nextId = 1 := by decide +kernel

/-! ### The key cache (R39 to R51) -/

/-- Refutes O20: a fill that waits for a way (R47) is said to leave the device as it was, but the record has been read and unsealed by then (R137,
R219), and its passes stay queued at Spindle: with every way of set 0 referenced, the next request of Spindle is number 1, not 0. -/
theorem not_keyCache : ¬ Obligations.KeyCache := by
  unfold Obligations.KeyCache
  intro h
  obtain ⟨-, fill, -⟩ := h { blk := fullSet, pending := [] } 1 65536 itemOnMiss ((opRow 0x0600).get (by decide))
    { handle := 0, head := [], material := [], gidx := 65536, drawn := none, companion := [] } missOfFirst .faithful .faithful 0 0 [(zeros 64, 0)]
    fullSet fullSetRead fullSet (0, 0) (by decide)
  obtain ⟨-, -, reads⟩ := fill (by decide) rfl rfl
  obtain ⟨-, waits, -⟩ := reads rfl rfl fullSet_ddrRead
  have claimed := waits fullSet_readWhole fullSetRead_noWay
  have actual := completes_keyCacheFill (s := { blk := fullSet, pending := [] }) fullSet_keyCacheFill (by decide) (by decide) rfl
  have same : settle fullSet = settle fullSetRead := claimed.unique actual
  have ids := congrArg (fun b => b.spindle.nextId) same
  simp [fullSetRead_passes] at ids

end Sys2Proof.Machine
end

section
/-! PROOFS. What a row does under the condition it stands under, and the course of a mailbox's command, said once for every row (R346, R502, R514). -/
namespace Sys2Proof.Machine

variable {b t : Block} {s : State}

/-! ### Rows by their condition (R502, R514) -/

section
variable {i : Instr} {f : Block → Block}

/-- A row of a device that runs. -/
theorem completes_live (hi : exec i s = run s (live f)) (hr : s.blk.running = true) (ht : f s.blk = t) : Completes i s t := by
  simp [Completes, hi, run, live, hr, ht]

/-- As `completes_live`, and whatever waited for it goes on. -/
theorem completes_liveSettle (hi : exec i s = run s (liveSettle f)) (hr : s.blk.running = true) (ht : f s.blk = t) :
    Completes i s (settle t) := by
  simp [Completes, hi, run, liveSettle, hr, ht]

/-- As `completes_liveSettle`, of a part of the device whose domain is on. -/
theorem completes_awakeSettle {d : Nat} (hi : exec i s = run s (awakeSettle d f)) (hr : s.blk.running = true) (hd : s.blk.domainOn d = true)
    (ht : f s.blk = t) : Completes i s (settle t) := by
  simp [Completes, hi, run, awakeSettle, hr, hd, ht]

end

/-! ### The course of a command (R346) -/

section
variable {m : Mbx} {p : Bytes} {hold : List Bytes}

/-- A row of the mailboxes whose command is called and answers at once. -/
theorem completes_answers {i : Instr} {code st : Nat} {f : Block → Bytes → Res} {pay : Bytes} (h : Called s m code p b)
    (hi : exec i s = run s (liveSettle fun b => startCommand b m code f)) (hf : f b p = .reply t st 0 pay) (hs : st ≠ 0x0101) :
    Completes i s (answered t m st pay) := by
  rw [Completes, hi, run, called_answers h f t st pay hf hs]

/-- A row of the mailboxes whose command is called and goes on in a further stage. -/
theorem completes_waits {i : Instr} {code : Nat} {f : Block → Bytes → Res} (h : Called s m code p b)
    (hi : exec i s = run s (liveSettle fun b => startCommand b m code f)) (hf : f b p = .wait t hold) : Completes i s (staged t m hold) := by
  rw [Completes, hi, run, called_waits h f t hold hf]

/-- A command that is called and answers with a DETAIL. -/
theorem completes_detail {i : Instr} {code st d : Nat} {f : Block → Bytes → Res} (h : Called s m code p b)
    (hi : exec i s = run s (liveSettle fun b => startCommand b m code f)) (hf : f b p = .reply t st d []) (hs : st ≠ 0x0101) :
    Completes i s (settle (finishCommand t m st d [] 0xFE)) := by
  obtain ⟨scope, e⟩ := called_run h f
  rw [Completes, hi, run, liveSettle, if_pos h.live, e, hf, settleRes, finish_scope t m st d [] scope 0xFE hs]

/-- What a further stage of a command comes to, by its code. -/
def stageOf (m : Mbx) (b : Block) (code k : Nat) (p : Bytes) (hold : List Bytes) : Res :=
  (continueChamber m b code k p hold).getD ((continueKeys m b code p hold).getD (continueDevice m b code k p hold))

theorem settleMailbox_goesOn {code k : Nat} (h : GoesOn b m code k p hold) (hk : k ≠ 0) :
    settleMailbox b m = settleRes m 0xFE (stageOf m (resumed b m) code k p hold) := by
  have on : mayGoOn b (mbxNo m) = true := by simp [mayGoOn, h.phase, h.commits, h.arrived]
  simp [settleMailbox, on, h.failed, continueCommand, h.stage, hk, h.code, h.payload, h.held, stageOf, resumed]

/-- A stage that is the last ends its command. -/
theorem settleMailbox_ends {code k : Nat} {out : Bytes} (h : GoesOn b m code k p hold) (hk : k ≠ 0)
    (hs : stageOf m (resumed b m) code k p hold = .reply t 0 0 out) : settleMailbox b m = finishCommand t m 0 0 out 0xFE := by
  rw [settleMailbox_goesOn h hk, hs]; rfl

end

end Sys2Proof.Machine
end

section
/-! PROOFS. The doorbells of a queue and the fetch of its descriptors: what each can come to, and with it the statement on them (R57, R58, R65, R71,
R79, R235, R237 to R240, R416, R539, R576). -/
namespace Sys2Proof.Machine

variable {b : Block} {s : State} {c g e i : Nat}

/-! ### Doorbells (R57, R58, R65) -/

theorem sqDoorbell_disabled (h : (b.sq c g).en = false) (v : Nat) : sqDoorbell b c g .word v = queueError b c 1 := by
  simp [sqDoorbell, h]

theorem sqDoorbell_outOfRange {v : Nat} (h : (b.sq c g).en = true) (hv : 2 ^ (b.sq c g).depthLog2 ≤ v % 65536) :
    sqDoorbell b c g .word v = queueError b c 0 := by
  simp [sqDoorbell, h, Sq.depth, hv]

theorem sqDoorbell_inRange {v : Nat} (h : (b.sq c g).en = true) (hv : v % 65536 < 2 ^ (b.sq c g).depthLog2) :
    sqDoorbell b c g .word v = b.modSq c g fun q => { q with tail := v % 65536 } := by
  simp [sqDoorbell, h, Sq.depth, Nat.not_le.mpr hv]

theorem cqDoorbell_disabled (h : (b.cq c g).en = false) (v : Nat) : cqDoorbell b c g .word v = queueError b c 1 := by
  simp [cqDoorbell, h]

theorem cqDoorbell_outOfRange {v : Nat} (h : (b.cq c g).en = true) (hv : 2 ^ (b.cq c g).depthLog2 ≤ v % 65536) :
    cqDoorbell b c g .word v = queueError b c 0 := by
  simp [cqDoorbell, h, Cq.depth, hv]

/-- A head beyond the entries that the device has written. -/
theorem cqDoorbell_ahead {v : Nat} (h : (b.cq c g).en = true) (hv : v % 65536 < 2 ^ (b.cq c g).depthLog2)
    (ha : (b.cq c g).unreleased < (v % 65536 + (b.cq c g).depth - (b.cq c g).head) % (b.cq c g).depth) :
    cqDoorbell b c g .word v = queueError b c 3 := by
  have hr : ¬ (b.cq c g).depth ≤ v % 65536 := Nat.not_le.mpr hv
  simp [cqDoorbell, h, hr, ha]

theorem cqDoorbell_releases {v : Nat} (h : (b.cq c g).en = true) (hv : v % 65536 < 2 ^ (b.cq c g).depthLog2)
    (ha : (v % 65536 + (b.cq c g).depth - (b.cq c g).head) % (b.cq c g).depth ≤ (b.cq c g).unreleased) :
    cqDoorbell b c g .word v = b.modCq c g fun q => { q with head := v % 65536 } := by
  have hr : ¬ (b.cq c g).depth ≤ v % 65536 := Nat.not_le.mpr hv
  simp [cqDoorbell, h, hr, Nat.not_lt.mpr ha]

/-! ### The issue of a fetch (R71, R79, R237 to R240) -/

/-- The descriptors of the next fetch from a queue: bounded by 64, the entries waiting, the wrap, the page, the group's room, the completion
queue's room and the chamber's credit, where it pays. -/
def fetchSize (b : Block) (c g : Nat) (pays : Bool) : Nat :=
  let q := b.sq c g
  [64, (q.tail + q.depth - q.issued) % q.depth, q.depth - q.issued, 64 - q.issued % 64, groupRoom b c g, (b.cq c q.cq).free].foldl min
    (if pays then fetchCredit b c else 64)

/-- The read of `n` descriptors issued, with their completions' entries reserved. -/
def fetchRead (b : Block) (c g n : Nat) : Block :=
  let q := b.sq c g
  ((b.emit (.readRequest (c + 1) (q.base + 64 * q.issued) (64 * n))).modSq c g fun q =>
    { q with issued := (q.issued + n) % q.depth, reads := q.reads ++ [(q.issued, n)] }).modCq c q.cq fun x => { x with reserved := x.reserved + n }

/-- The fetch of `n` descriptors charged to the chamber's credit. -/
def fetchCharged (b : Block) (c n : Nat) (pays : Bool) : Block := if pays then b.modCh c fun h => { h with credit := h.credit - n * b.n } else b

theorem fetchIssue_full (h : 256 ≤ engineReads b e) : fetchIssue b e = b := by simp [fetchIssue, h]

theorem fetchIssue_reads {pays : Bool} (h : engineReads b e < 256) (hc : engineChoice b e = some (i, pays)) (hb : b.bme (i / 8 + 1) = true) :
    fetchIssue b e = (fetchCharged (fetchRead b (i / 8) (i % 8) (fetchSize b (i / 8) (i % 8) pays)) (i / 8) (fetchSize b (i / 8) (i % 8) pays)
      pays).modChuck fun x => { x with lastQueue := Tab.set x.lastQueue e i } := by
  simp [fetchIssue, Nat.not_le.mpr h, hc, hb, fetchCharged, fetchRead, fetchSize]

theorem fetchIssue_noBme {pays : Bool} (h : engineReads b e < 256) (hc : engineChoice b e = some (i, pays)) (hb : b.bme (i / 8 + 1) = false) :
    fetchIssue b e = quiesceChamber b (i / 8) qBme none := by
  simp [fetchIssue, Nat.not_le.mpr h, hc, hb]

theorem fetchIssue_idle (h : engineReads b e < 256) (hc : engineChoice b e = none)
    (hw : (engineQueues b e).filter (fun i => queueWants b (i / 8) (i % 8)) = []) : fetchIssue b e = b := by
  simp [fetchIssue, Nat.not_le.mpr h, hc, hw]

theorem fetchIssue_noCredit (h : engineReads b e < 256) (hc : engineChoice b e = none)
    (hw : (engineQueues b e).filter (fun i => queueWants b (i / 8) (i % 8)) ≠ []) :
    fetchIssue b e = b.events 72 0x00B (((engineQueues b e).filter fun i => queueWants b (i / 8) (i % 8)).map (· / 8)) := by
  simp only [fetchIssue, Nat.not_le.mpr h, hc, if_false, List.map_eq_nil_iff, hw]

/-! ### The arrival of descriptors (R71, R235, R416, R539, R576) -/

theorem descriptorFetch_unknown (x : DmaRead) (h : (b.sq c g).reads.find? (fun r => r.1 == e) = none) : descriptorFetch b c g e x = b := by
  simp [descriptorFetch, h]

/-- The entries of a read that returned data are at hand, as the Ferrule lets them in, and the queue goes on. -/
theorem descriptorFetch_data {r : Nat × Nat} (h : (b.sq c g).reads.find? (fun r => r.1 == e) = some r) (d : Bytes) :
    descriptorFetch b c g e (.data d) =
      issueBuffers (advanceQueue c g (b.sq c g).depth ((dmaIn b (hostMaster c) (some c) d).2.modSq c g fun q =>
        { q with reads := q.reads.filter (· != r)
                 arrived := (List.range r.2).foldl (fun t k => Tab.set t ((e + k) % (b.sq c g).depth)
                   (fit 64 (slice (dmaIn b (hostMaster c) (some c) d).1 (64 * k) 64))) q.arrived })) (c % 8) := by
  simp [descriptorFetch, h, dmaRead]

/-- A read that returns no data leaves the device as it was. -/
theorem dmaRead_failed {x : DmaRead} (hx : ∀ d, x ≠ .data d) : dmaRead b c x = (x, b) := by
  cases x with
  | data d => exact absurd rfl (hx d)
  | unsupportedRequest | completerAbort | timeout | poisoned => rfl

theorem descriptorFetch_failed {r : Nat × Nat} {x : DmaRead} (h : (b.sq c g).reads.find? (fun r => r.1 == e) = some r)
    (hx : ∀ d, x ≠ .data d) : descriptorFetch b c g e x = quiesceChamber (queueReadFault b (c + 1) x) c qDmaRead none := by
  cases x with
  | data d => exact absurd rfl (hx d)
  | unsupportedRequest | completerAbort | timeout | poisoned => simp only [descriptorFetch, h, dmaRead_failed hx]

theorem dmaIn_open {m : Nat} (h : DmaOpen b m .write) (who : Option Nat) (d : Bytes) : dmaIn b m who d = (d, b) := by
  simp [dmaIn, access_open h]

/-! ### The statement -/

/-- Settles O17: each doorbell, issue and arrival takes the branch that its conditions name. -/
theorem doorbellsAndFetch : Obligations.DoorbellsAndFetch := by
  unfold Obligations.DoorbellsAndFetch
  refine ⟨fun s c g v hv => ?_, fun s e i pays hon hr => ?_, fun s c g first r d x hr => ?_⟩
  · intro b x sq cq gone asked err
    have sqRow {a : Access} {t : Block} (ht : sqDoorbell b c g a v.toNat = t) : Completes (.sqDoorbell c g a v) s t :=
      completes_vfRequest rfl hv ht
    have cqRow {a : Access} {t : Block} (ht : cqDoorbell b c g a v.toNat = t) : Completes (.cqDoorbell c g a v) s (settle t) :=
      completes_vfRequest rfl hv (congrArg settle ht)
    exact ⟨sqRow rfl, fun h => sqRow (sqDoorbell_disabled h _), fun h hx => sqRow (sqDoorbell_outOfRange h hx),
      fun h hx => sqRow (sqDoorbell_inRange h hx), cqRow rfl, fun h => cqRow (cqDoorbell_disabled h _),
      fun h hx => cqRow (cqDoorbell_outOfRange h hx), fun h hx ha => cqRow (cqDoorbell_ahead h hx ha),
      fun h hx ha => cqRow (cqDoorbell_releases h hx ha)⟩
  · have row {t : Block} (ht : fetchIssue s.blk e = t) : Completes (.fetchIssue e) s t := by
      simp [Completes, exec, execFetchIssue, run, live, hon, hr, ht]
    exact ⟨fun h => row (fetchIssue_full h), fun h => ⟨fun hc hb => row (fetchIssue_reads h hc hb), fun hc hb => row (fetchIssue_noBme h hc hb),
      fun hc hw => row (fetchIssue_idle h hc hw), fun hc hw => row (fetchIssue_noCredit h hc hw)⟩⟩
  · intro b q hf into arrived
    exact ⟨completes_liveSettle rfl hr (descriptorFetch_data hf d), fun h => dmaIn_open h _ d,
      fun hx => completes_liveSettle rfl hr (descriptorFetch_failed hf fun d hd => by simp [hd] at hx),
      fun e he => completes_liveSettle rfl hr (descriptorFetch_unknown x he)⟩

end Sys2Proof.Machine
end

section
/-! PROOFS. The entry of a descriptor into Chuck's buffer and the read of its operand buffer, one lemma for each course they can take, and with
them the statement on them (R62, R69 to R71, R136, R236, R240, R241, R243). -/
namespace Sys2Proof.Machine

variable {b : Block} {s : State} {c g idx n : Nat} {d : Bytes} {i : Item}

/-! ### Entry (R69, R70, R236, R241, R243) -/

/-- The work item that a descriptor becomes, before its checks. -/
def enteredItem (b : Block) (c g idx : Nat) (d : Bytes) : Item :=
  { chamber := c, group := g, index := idx, cq := (b.sq c g).cq, desc := d, residence := b.cyc, st := .closing, cls := itemClass d
    pipe := 0, ahead := false, needCount := false, needMiss := [], waited := none, done := false, written := none, mute := false, core := none
    job := jobOf c d, leaf := if (dFlags d).testBit 0 && stepOneOk g d (jobOf c d) then .wanted else .none, step := 0, flushTo := none }

/-- The device with that item in Chuck's buffer, and its event counted. -/
def withEntered (b : Block) (c g idx : Nat) (d : Bytes) : Block :=
  ((b.setItem b.chuck.nextItem (enteredItem b c g idx d)).modChuck fun x => { x with nextItem := b.chuck.nextItem + 1 }).event 72 0x002 (some c)

/-- Step 1 of R70 fails for another group's descriptor, a reserved flag, an undefined opcode and an unaligned buffer. -/
theorem stepOneOk_false {j : Job} (h : dGroup d ≠ g ∨ 32 ≤ dFlags d ∨ opDefined j.opcode = false ∨ j.ext % 64 ≠ 0) : stepOneOk g d j = false := by
  rcases h with h | h | h | h <;> simp [stepOneOk, h]

theorem enterItem_malformed (h : stepOneOk g d (jobOf c d) = false) :
    enterItem b c g idx d = closeItem (withEntered b c g idx d) b.chuck.nextItem (justStatus 0x0020) := by
  simp [enterItem, withEntered, enteredItem, h]

theorem enterItem_refused {st : Nat} (h : stepOneOk g d (jobOf c d) = true) (hc : entryChecks (withEntered b c g idx d) (jobOf c d) = some st) :
    enterItem b c g idx d = if st = 0x0020 then refuseRecipe (withEntered b c g idx d) b.chuck.nextItem (enteredItem b c g idx d)
      else closeItem (withEntered b c g idx d) b.chuck.nextItem (justStatus st) := by
  simp only [withEntered, enteredItem, h, Bool.and_true] at hc
  simp only [enterItem, withEntered, enteredItem, h, Bool.and_true, and_true, hc]
  simp

theorem enterItem_settles (h : stepOneOk g d (jobOf c d) = true) (hq : isQueueControl (jobOf c d).opcode = false)
    (hc : entryChecks (withEntered b c g idx d) (jobOf c d) = none) :
    enterItem b c g idx d = settleItem (withEntered b c g idx d) b.chuck.nextItem (enteredItem b c g idx d) := by
  have hq' : ((jobOf c d).opcode ≠ 0x0F00 ∧ (jobOf c d).opcode ≠ 0x0F01) ∧ (jobOf c d).opcode ≠ 0x0F02 := by simpa [isQueueControl] using hq
  simp only [withEntered, enteredItem, h, Bool.and_true] at hc
  simp only [enterItem, withEntered, enteredItem, h, Bool.and_true, and_true, hc]
  simp [hq, hq']

theorem settleItem_ready (hs : i.st ≠ .ready) (h : holdReason b n (assignItem b i) = none) :
    settleItem b n i = b.setItem n { assignItem b i with st := .ready } := by
  simp [settleItem, hs, h]

/-! ### The operand buffer's read (R62, R71, R136, R240) -/

/-- The header of an operand buffer is made whole where less than 16 bytes came; nothing is added to 16 or more. -/
theorem fit_header (h : 16 ≤ d.length) : fit 16 (d.take 16) ++ d.drop 16 = d := by
  simp [fit, h, List.take_take, zeros]

theorem bufferHeaderOk_iff : bufferHeaderOk d = true ↔ leField d 0 4 ≤ 1048560 ∧ allZero ((d.take 16).drop 12) = true := by
  rw [bufferHeaderOk, Bool.and_eq_true, decide_eq_true_iff, slice, List.drop_take]; rfl

section
variable (hi : b.item? n = some i) (hs : i.st = .dispatched) (ha : i.job.asked = true)
include hi hs ha

/-- Data for the buffer of a direct item: its header decides. -/
theorem operandBufferRead_header (hk : i.core = none) (hp : i.job.phase = .buffer) (hd : 16 ≤ d.length) (ho : DmaOpen b (hostMaster i.chamber) .write) :
    operandBufferRead b n (.data d) =
      let b := b.modItem n fun i => { i with job := { i.job with asked := false } }
      issueBuffers (if bufferHeaderOk d then b.modItem n fun i =>
          { i with job := { i.job with phase := .ready, headerOk := true, inLen := leField d 0 4, outCap := leField d 4 4
                                       input := fit (leField d 0 4) (d.drop 16) } }
        else closeItem b n (justStatus 0x0020)) (i.chamber % 8) := by
  simp [operandBufferRead, hi, Item.reads, hs, hk, ha, hp, dmaRead_open ho, fit_header hd, Block.modJob, refuseJob, endJob, justStatus]

/-- The second read of a GCM decryption. -/
theorem operandBufferRead_again (hp : i.job.phase = .reread) (hd : 16 ≤ d.length) (ho : DmaOpen b (hostMaster i.chamber) .write) :
    operandBufferRead b n (.data d) =
      issueBuffers ((b.modItem n fun i => { i with job := { i.job with asked := false } }).modItem n fun i =>
        { i with job := { i.job with phase := .ready, again := some (fit i.job.inLen (d.drop 16)) } }) (i.chamber % 8) := by
  simp [operandBufferRead, hi, Item.reads, hs, ha, hp, dmaRead_open ho, fit_header hd, Block.modJob]

theorem operandBufferRead_failed {x : DmaRead} (hk : i.core = none) (hp : i.job.phase = .buffer ∨ i.job.phase = .reread)
    (hx : ∀ d, x ≠ .data d) :
    operandBufferRead b n x =
      issueBuffers (closeItem ((bufferReadFault (b.modItem n fun i => { i with job := { i.job with asked := false } }) (i.job.chamber + 1) x).modItem n
        fun i => { i with job := { i.job with input := [] } }) n (justStatus 0x0022)) (i.chamber % 8) := by
  cases x with
  | data d => exact absurd rfl (hx d)
  | unsupportedRequest | completerAbort | timeout | poisoned =>
    rcases hp with hp | hp <;>
      simp [operandBufferRead, hi, Item.reads, hs, hk, ha, hp, dmaRead, Block.modJob, refuseJob, endJob, justStatus]

end

/-! ### The statement -/

/-- Settles O18: an entering descriptor and a buffer that is read take the course that their checks name. -/
theorem descriptorChecks : Obligations.DescriptorChecks := by
  unfold Obligations.DescriptorChecks
  refine ⟨fun b c g idx d => ?_, fun s n i d x hr hi hs hk ha hd ho => ?_⟩
  · intro j n wants i b1
    exact ⟨fun h => enterItem_malformed (stepOneOk_false h), fun h hq hc => enterItem_settles h hq hc,
      fun st h hc hst => (enterItem_refused h hc).trans (if_neg hst), fun h hc => (enterItem_refused h hc).trans (if_pos rfl),
      settleItem_ready (by simp [i])⟩
  · intro b len held goes
    refine ⟨fun hp hl hz => ?_, fun hp hbad => ?_, fun hp => ?_, fun hp hx => ?_⟩
    · refine completes_liveSettle rfl hr ((operandBufferRead_header hi hs ha hk hp hd ho).trans ?_)
      exact congrArg (issueBuffers · _) (if_pos (bufferHeaderOk_iff.mpr ⟨hl, hz⟩))
    · refine completes_liveSettle rfl hr ((operandBufferRead_header hi hs ha hk hp hd ho).trans ?_)
      refine congrArg (issueBuffers · _) (if_neg fun h => ?_)
      obtain ⟨hl, hz⟩ := bufferHeaderOk_iff.mp h
      rcases hbad with hbad | hbad
      · exact absurd hl (Nat.not_le.mpr hbad)
      · exact absurd hz (by simp [held, hbad])
    · exact completes_liveSettle rfl hr (operandBufferRead_again hi hs ha hp hd ho)
    · exact completes_liveSettle rfl hr (operandBufferRead_failed hi hs ha hk hp fun d hd => by simp [hd] at hx)

end Sys2Proof.Machine
end

section
/-! PROOFS. Queue control, the MAC operations and the card operations: what step 4 decides on each, and with it the statement on them (R69, R76,
R105 to R111, R132, R133, R151, R242). -/
namespace Sys2Proof.Machine

variable {b : Block} {s : State} {r : Requester} {j : Job} {i : Item} {n : Nat}

/-! ### Queue control (R69, R76) -/

section
variable (hi : b.item? n = some i) (hs : i.st = .closing) (ho : i.job.outcome = none)
include hi hs ho

/-- An item of a queue-control opcode whose outcome is not there yet. -/
theorem controlItem_eq {op : Nat} (h : i.job.opcode = op) : controlItem b (.item n) op = some (n, i) := by
  simp [controlItem, hi, hs, ho, h]

theorem opNop_closes (h : i.job.opcode = 0x0F00) : opNop b (.item n) = closeItem b n (okWith []) := by
  simp only [opNop, controlItem_eq hi hs ho h]; rfl

theorem opFence_closes (h : i.job.opcode = 0x0F01) (he : ∀ p ∈ b.itemsOf i.chamber, n ≤ p.1) :
    opFence b (.item n) = closeItem b n (okWith []) := by
  have none : ((b.itemsOf i.chamber).any fun p => decide (p.1 < n)) = false := by simpa using he
  simp only [opFence, controlItem_eq hi hs ho h, none]; rfl

theorem opFence_waits (h : i.job.opcode = 0x0F01) (he : ∃ p ∈ b.itemsOf i.chamber, p.1 < n) : opFence b (.item n) = b := by
  have some : ((b.itemsOf i.chamber).any fun p => decide (p.1 < n)) = true := by simpa using he
  simp only [opFence, controlItem_eq hi hs ho h, some]; rfl

theorem opAuditFlush_eq {batch : Nat} {o : Outcome} (h : i.job.opcode = 0x0F02) (hf : i.flushTo = some batch) (hh : i.job.held = some o) :
    opAuditFlush b (.item n) = if flushedTo b (.chamber i.chamber) batch then closeItem b n o else b := by
  simp [opAuditFlush, controlItem_eq hi hs ho h, hf, hh]

end

/-! ### Work that an operation hands to an engine (R70, R242) -/

section
variable {ins : Instr} {op : Nat} {row : OpRow} {w : Work} {o : Outcome} (h : Ready s r j op) (hi : exec ins s = run s (liveSettle (opRun · op r)))
  (hr : opRow op = some row) (hv : row.run (begun s r j) r j = (.run w o [], begun s r j))
include h hi hr hv

theorem completes_works (hf : intakeFull (begun s r j) r j w = false) : Completes ins s (works (begun s r j) r j w o) := by
  simp [Completes, hi, run, opRun_eq h row hr, hv, verdictOf, hf, works]

/-- A full intake takes nothing, and the device stays as it was. -/
theorem completes_full (hf : intakeFull (begun s r j) r j w = true) : Completes ins s (settle s.blk) := by
  simp [Completes, hi, run, opRun_eq h row hr, hv, verdictOf, hf]

end

/-- A verification compares the MAC's first bytes with the MAC given. -/
theorem macOutcome_verify (j : Job) (n : Nat) (mac : Bytes) :
    macOutcome j n true mac = onlyStatus (if mac.take n = slice j.operands 4 n then 0 else 2) := by
  simp [macOutcome, verified, justStatus, onlyStatus]

/-! ### MACs (R105 to R107, R132, R133, R151) -/

/-- The algorithms of the usages (R105). -/
theorem macOf_cmac (alg : Nat) (k : Bytes) (pad hash : Nat) (msg : Bytes) : macOf alg (ascii "M6") k pad hash msg = aesCmac k msg := by
  simp only [macOf, show ascii "M6" ≠ ascii "M1" by decide, show ascii "M6" ≠ ascii "M3" by decide, if_false, if_true]

theorem macOf_retail (alg : Nat) (k : Bytes) (pad hash : Nat) (msg : Bytes) :
    macOf alg (ascii "M3") k pad hash msg = macAlg3 k (isoPad pad 8 msg) := by
  simp only [macOf, show ascii "M3" ≠ ascii "M1" by decide, if_false, if_true]

theorem macOf_hmac (alg : Nat) (k : Bytes) (pad : Nat) (msg : Bytes) : macOf alg (ascii "M7") k pad 0 msg = hmacSha256 k msg := by
  simp only [macOf, show ascii "M7" ≠ ascii "M1" by decide, show ascii "M7" ≠ ascii "M3" by decide, show ascii "M7" ≠ ascii "M6" by decide,
    if_false, if_true]

/-- The operands of a MAC operation, but for its MAC field, are of their form (R106). -/
def MacForm (r : Requester) (j : Job) : Prop :=
  formD r j = true ∧ j.opN 3 = 0 ∧ macParams j.kIn.alg j.kIn.usage (j.opN 0) (j.opN 1) = true ∧
    (if j.inline_ then j.opN 2 ≤ 20 ∧ allZero (slice j.operands (20 + j.opN 2) (20 - j.opN 2)) = true else j.opN 2 = 0 ∧ j.zero 20 31 = true)

/-- The whole MAC of a MAC operation. -/
def macWhole (j : Job) : Bytes := macOf j.kIn.alg j.kIn.usage j.kIn.material (j.opN 1 % 4) (j.opN 1 / 4 % 4) (macMessage j)

/-- The work of a MAC operation: compressions at Auger for an M7 key, and passes of Spindle for another (R242). -/
def macWork (j : Job) : Work :=
  if j.kIn.usage = ascii "M7" then
    .auger (if j.opN 1 / 4 % 4 = 0 then 16 else 20) (hmacSlots (j.opN 1 / 4 % 4) (macMessage j).length)
  else .spindle .none (macPace j.kIn.alg j.kIn.usage (j.opN 1 % 4) (macMessage j).length) 0

theorem opMac_run {verify : Bool} (h : MacForm r j) (hm : macOperandOk j (j.opN 0) verify = true) :
    opMac verify b r j = (.run (macWork j) (macOutcome j (j.opN 0) verify (macWhole j)) [], b) := by
  obtain ⟨hf, hz, hp, hmsg⟩ := h
  have msgOk : (if j.inline_ then decide (j.opN 2 ≤ 20) && allZero (slice j.operands (20 + j.opN 2) (20 - j.opN 2))
      else j.opN 2 == 0 && j.zero 20 31) = true := by
    split at hmsg <;> simp [*]
  simp only [opMac, hf, hz, hp, hm, msgOk]
  simp [macWork, macWhole]

/-- Only a MAC under an M7 key waits for Auger's intake. -/
theorem macWork_full (h : intakeFull b r j (macWork j) = true) : j.kIn.usage = ascii "M7" := by
  by_contra hu
  simp [macWork, hu, intakeFull] at h

/-- The operands of a MAC operation under a DUKPT transaction key, but for its MAC field, are of their form, and its kind suits the key (R107). -/
def DukptMacForm (r : Requester) (j : Job) : Prop :=
  formC r j = true ∧ dukptSyntax (j.opN 3) (j.op 20 12) = true ∧ (j.opN 3 % 4 = 1 → j.opN 3 / 4 % 8 ≤ 2) ∧ 4 ≤ j.opN 0 ∧
    j.opN 0 ≤ (if (j.opN 3 % 4 == 0) = true then 8 else 16) ∧
    (if (j.opN 3 % 4 == 0) = true then j.opN 1 % 4 = 1 ∨ j.opN 1 % 4 = 2 else j.opN 1 % 4 = 0) ∧ j.opN 1 / 4 = 0 ∧ j.opN 2 = 0 ∧
    kindSuits (j.opN 3 % 4) j.kIn.alg = true

/-- The usage whose MAC a transaction key makes. -/
def dukptMacUsage (j : Job) : Bytes := if (j.opN 3 % 4 == 0) = true then ascii "M3" else ascii "M6"

/-- The whole MAC under a transaction key. -/
def dukptMacWhole (j : Job) (t : Nat × Bytes × Nat) : Bytes := macOf t.1 (dukptMacUsage j) t.2.1 (j.opN 1 % 4) 0 j.input

/-- The passes of the key's derivation and of the MAC (R100, R132, R133). -/
def dukptMacWork (j : Job) (t : Nat × Bytes × Nat) : Work :=
  .spindle .none ((t.2.2, true) :: macPace t.1 (dukptMacUsage j) (j.opN 1 % 4) j.input.length) 0

theorem opMacDukpt_run {verify : Bool} (h : DukptMacForm r j) (hm : macOperandOk j (j.opN 0) verify = true) :
    opMacDukpt verify b r j =
      let t := dukptKey j.kIn (j.opN 3) (j.op 20 12) (if verify then 0xFF00 else 0xFF000000) (if verify then 0x2001 else 0x2000)
      (.run (dukptMacWork j t) (macOutcome j (j.opN 0) verify (dukptMacWhole j t)) [], b) := by
  obtain ⟨hf, hsyn, hwk, hlo, hhi, hpad, hmf, hz, hk⟩ := h
  have padOk : (if j.opN 3 % 4 = 0 then j.opN 1 % 4 == 1 || j.opN 1 % 4 == 2 else j.opN 1 % 4 == 0) = true := by
    split at hpad <;> simp_all
  have wkOk : ¬ (j.opN 3 % 4 = 1 ∧ 2 < j.opN 3 / 4 % 8) := fun hb => Nat.not_lt.mpr (hwk hb.1) hb.2
  simp only [beq_iff_eq] at hhi
  simp only [opMacDukpt, hf, hsyn, wkOk, hlo, hhi, padOk, hmf, hz, hk, hm]
  simp [dukptMacWork, dukptMacWhole, dukptMacUsage, chained, variantMacRequest, variantMacResponse]

/-! ### EMV and card verification codes (R108 to R111) -/

/-- The operands and the input of EMV_ARQC_VERIFY are of their form (R109). -/
def EmvForm (r : Requester) (j : Job) : Prop :=
  formC r j = true ∧ allDigits (nibbles (j.op 10 1)) = true ∧ j.zero 27 31 = true ∧ 1 + j.opN 26 ≤ j.inLen ∧ j.inLen ≤ 1024 + j.opN 26 ∧
    ((j.opN 11 = 0 ∧ j.zero 22 25 = true) ∨ (j.opN 11 = 1 ∧ j.zero 24 25 = true) ∨ j.opN 11 = 2) ∧
    (if j.opN 11 = 2 then j.opN 26 ≤ 8 else j.opN 26 = 0)

/-- The transaction data, without the padding. -/
def emvData (j : Job) : Bytes := j.input.take (j.inLen - j.opN 26)

/-- The session key of a card. -/
def emvKey (j : Job) (pan : List Nat) : Bytes :=
  emvSession j.kIn.alg (emvMaster j.kIn.alg j.kIn.material pan (byteAt j.operands 10)) (j.op 12 2)

/-- The cryptogram that the card should have sent. -/
def emvExpected (j : Job) (pan : List Nat) : Bytes := (emvMac j.kIn.alg (emvKey j pan) (emvData j)).take 8

/-- The passes of the derivations and of the cryptogram, and those of the response after them (log entry 100). -/
def emvWork (j : Job) (arpc : Pace) : Work :=
  .spindle .none ((emvKeyPasses j.kIn.alg, true) ::
    macPace j.kIn.alg (if isAes j.kIn.alg then ascii "M6" else ascii "M3") 2 (emvData j).length ++ arpc) 0

section
variable {pan : List Nat} (h : EmvForm r j) (hp : panDigits (j.op 0 10) = some pan)
include h hp

/-- A cryptogram that passes EMV_ARQC_VERIFY's form is compared, and where it agrees the response asked for is made. -/
theorem opEmvArqcVerify_compares {w : Work} {o : Outcome}
    (hw : emvWork j (if emvExpected j pan ≠ j.op 14 8 ∨ j.opN 11 = 0 then [] else if j.opN 11 = 1 then [(1, true)]
      else macPace j.kIn.alg (if isAes j.kIn.alg then ascii "M6" else ascii "M3") 2 (12 + j.opN 26)) = w)
    (ho : (if emvExpected j pan ≠ j.op 14 8 then onlyStatus 2 else if j.opN 11 = 0 then onlyStatus 0
      else okWith (emvArpc j.kIn.alg (emvKey j pan) (emvExpected j pan) (j.op 22 4) (j.input.drop (j.inLen - j.opN 26)) (j.opN 11))) = o) :
    opEmvArqcVerify b r j = (.run w o [], b) := by
  obtain ⟨hf, hd, hz, hlo, hhi, hin, hpad⟩ := h
  have inOk : (if j.opN 11 = 0 then j.zero 22 25 else if j.opN 11 = 1 then j.zero 24 25 else j.opN 11 == 2) = true := by
    rcases hin with ⟨h1, h2⟩ | ⟨h1, h2⟩ | h1 <;> simp [*]
  have padOk : (if j.opN 11 = 2 then decide (8 < j.opN 26) else j.opN 26 != 0) = false := by
    split at hpad <;> simp_all
  subst hw ho
  simp only [opEmvArqcVerify, hp, hf, hd, hz, inOk, padOk, Nat.not_lt.mpr hlo, Nat.not_lt.mpr hhi, Bool.not_true, Bool.false_eq_true, or_self,
    if_false]
  rfl

theorem opEmvArqcVerify_mismatch (hn : emvExpected j pan ≠ j.op 14 8) :
    opEmvArqcVerify b r j = (.run (emvWork j []) (onlyStatus 2) [], b) :=
  opEmvArqcVerify_compares h hp (by simp [hn]) (by simp [hn])

theorem opEmvArqcVerify_agrees (he : emvExpected j pan = j.op 14 8) (h0 : j.opN 11 = 0) :
    opEmvArqcVerify b r j = (.run (emvWork j []) (onlyStatus 0) [], b) :=
  opEmvArqcVerify_compares h hp (by simp [h0]) (by simp [he, h0])

theorem opEmvArqcVerify_responds (he : emvExpected j pan = j.op 14 8) (h0 : j.opN 11 ≠ 0) :
    opEmvArqcVerify b r j =
      (.run (emvWork j (if j.opN 11 = 1 then [(1, true)]
          else macPace j.kIn.alg (if isAes j.kIn.alg then ascii "M6" else ascii "M3") 2 (12 + j.opN 26)))
        (okWith (emvArpc j.kIn.alg (emvKey j pan) (emvExpected j pan) (j.op 22 4) (j.input.drop (j.inLen - j.opN 26)) (j.opN 11))) [], b) :=
  opEmvArqcVerify_compares h hp (by simp [he, h0]) (by simp [he, h0])

end

/-- The operands of the card verification codes, but for the code, are of their form (R111). -/
def CardForm (j : Job) : Prop :=
  formA j = true ∧ allDigits (nibbles (j.op 10 2)) = true ∧ (nibbles (j.op 12 2)).getD 0 0 = 15 ∧
    allDigits ((nibbles (j.op 12 2)).drop 1) = true ∧ j.zero 16 31 = true

theorem opCvc_generates {pan : List Nat} (h : CardForm j) (hp : panDigits (j.op 0 10) = some pan) (hz : j.zero 14 15 = true) :
    opCvc false b r j = (.run (.spindle .none [(2, true)] 0)
      (okWith (packNibbles (15 :: cvcOf j.kIn.material pan (j.op 10 2) (j.op 12 2)))) [], b) := by
  obtain ⟨hf, hd, h15, hs, hr⟩ := h
  simp only [opCvc, hp, hf, hd, h15, hs, hr, hz]
  simp [chained, okResult, okWith]

theorem opCvc_verifies {pan : List Nat} (h : CardForm j) (hp : panDigits (j.op 0 10) = some pan) (hc : (nibbles (j.op 14 2)).getD 0 0 = 15)
    (hd' : allDigits ((nibbles (j.op 14 2)).drop 1) = true) :
    opCvc true b r j = (.run (.spindle .none [(2, true)] 0)
      (onlyStatus (if (nibbles (j.op 14 2)).drop 1 = cvcOf j.kIn.material pan (j.op 10 2) (j.op 12 2) then 0 else 2)) [], b) := by
  obtain ⟨hf, hd, h15, hs, hr⟩ := h
  simp only [opCvc, hp, hf, hd, h15, hs, hr, hc, hd']
  simp [chained, verified, justStatus, onlyStatus]

/-! ### The statement -/

/-- Settles O21: each operation is worked off as step 4 decides on it. -/
theorem queueControlAndMacs : Obligations.QueueControlAndMacs := by
  unfold Obligations.QueueControlAndMacs
  refine ⟨fun s n i hr hi hs ho => ?_, fun s r j => ?_, fun s r j pan hp => ?_⟩
  · refine ⟨fun h => completes_liveSettle rfl hr (opNop_closes hi hs ho h), fun h he => completes_liveSettle rfl hr (opFence_closes hi hs ho h he),
      fun h he => completes_liveSettle rfl hr (opFence_waits hi hs ho h he), fun batch o h hf hh => ?_⟩
    have flush := opAuditFlush_eq hi hs ho h hf hh
    exact ⟨fun hd => completes_liveSettle rfl hr (flush.trans (if_pos hd)), fun hd => completes_liveSettle rfl hr (flush.trans (if_neg (by simp [hd])))⟩
  · refine ⟨fun h => ?_, fun h => ?_, fun h h0 => ?_, fun h hp hm => ⟨fun hf => ?_, fun hf => ?_⟩, fun h hp hm => ⟨fun hf => ?_, fun hf => ?_⟩,
      fun hf => macWork_full hf, fun h hp hm => ?_, fun h hp hm => ?_⟩
    · simp only [h, macOf_cmac]
    · simp only [h, macOf_retail]
    · simp only [h, h0, macOf_hmac]
    · exact completes_works h rfl rfl (opMac_run (verify := false) hp hm) (Bool.eq_false_iff.mpr hf)
    · exact completes_full h rfl rfl (opMac_run (verify := false) hp hm) hf
    · have row : Completes (.macVerify r) s _ := completes_works h rfl rfl (opMac_run (verify := true) hp hm) (Bool.eq_false_iff.mpr hf)
      rw [macOutcome_verify] at row
      exact row
    · exact completes_full h rfl rfl (opMac_run (verify := true) hp hm) hf
    · exact completes_works h rfl rfl (opMacDukpt_run (verify := false) hp hm) rfl
    · have row : Completes (.macVerifyDukpt r) s _ := completes_works h rfl rfl (opMacDukpt_run (verify := true) hp hm) rfl
      rw [macOutcome_verify] at row
      exact row
  · exact ⟨fun h hf => ⟨fun hn => completes_works h rfl rfl (opEmvArqcVerify_mismatch hf hp hn) rfl,
        fun he h0 => completes_works h rfl rfl (opEmvArqcVerify_agrees hf hp he h0) rfl,
        fun he h0 => completes_works h rfl rfl (opEmvArqcVerify_responds hf hp he h0) rfl⟩,
      fun h hc hz => completes_works h rfl rfl (opCvc_generates (r := r) hc hp hz) rfl,
      fun h hc h15 hd => completes_works h rfl rfl (opCvc_verifies (r := r) hc hp h15 hd) rfl⟩

end Sys2Proof.Machine
end

section
/-! PROOFS. A cycle of Spindle's issue, a block that leaves, the delivery of a result, and Auger's slots and results, and with them the statement
on them (R62, R63, R71, R118, R125 to R129, R148, R150, R160). -/
namespace Sys2Proof.Machine

variable {b : Block} {s : State} {n : Nat}

/-! ### A cycle of issue (R118, R125, R126) -/

theorem spDue_any : ([0, 1, 2, 3].any fun p => spDue b p) = true ↔ ∃ p < 4, spDue b p = true := by
  simp only [List.any_eq_true, List.mem_cons, List.not_mem_nil, or_false]
  constructor
  · rintro ⟨p, h, hd⟩; exact ⟨p, by omega, hd⟩
  · rintro ⟨p, h, hd⟩; exact ⟨p, by omega, hd⟩

/-- The credits' gain of a cycle. -/
def spGained (b : Block) : Block :=
  { b with ch := b.ch.map fun p => (p.1, if p.2.st = .none then p.2 else { p.2 with spCredit := min (256 * b.n : Int) (p.2.spCredit + 4) }) }

theorem spindleIssue_due (h : ∃ p < 4, spDue b p = true) : spindleIssue b = b := by
  simp only [spindleIssue, spDue_any.mpr h, if_true]

/-- The end of a cycle: it is counted, and the registers of the pairs change. -/
def spCycleEnd (b : Block) : Block := { b with spindle := spRegisters { b.spindle with cycle := b.spindle.cycle + 1 } }

/-- With the converters empty, no register holds anything. -/
theorem spCycleEnd_empty (h : b.spindle.converter = []) :
    spCycleEnd b = { b with spindle := { b.spindle with cycle := b.spindle.cycle + 1, outReg := [], converter := [], inReg := [] } } := by
  simp [spCycleEnd, spRegisters, h]

/-- A cycle with no block due and nobody waiting for an entry: the credits gain, and the pipelines choose in order. -/
theorem spindleIssue_passes (h : ∀ p < 4, spDue b p = false) (hw : b.spindle.waiting = []) :
    spindleIssue b = spCycleEnd ([0, 1, 2, 3].foldl spPipe ([], spGained b)).2 := by
  have notDue : ([0, 1, 2, 3].any fun p => spDue b p) = false := by
    rw [Bool.eq_false_iff, ne_eq, spDue_any]
    rintro ⟨p, hp, hd⟩
    simp [h p hp] at hd
  have noWaiting : spAdmit b.spindle = b.spindle := by simp [spAdmit, hw]
  simp only [spindleIssue, notDue, noWaiting]
  rfl

theorem spPipe_asleep (acc : List Nat × Block) {p : Nat} (h : pipeAwake acc.2 p = false) : spPipe acc p = acc := by
  simp [spPipe, h]

/-- A pipeline's idle cycle counted, while its domain is on. -/
def spIdle (b : Block) (p : Nat) : Block := if b.domainOn (15 + p / 2) then b.event (64 + p) 0x005 none else b

theorem spIdle_spindle (b : Block) (p : Nat) : (spIdle b p).spindle = b.spindle := by unfold spIdle; split <;> rfl

theorem spPipe_idle (l : List Nat) (p : Nat) (hq : b.spindle.queue = []) (hr : b.spindle.reserved = []) : spPipe (l, b) p = (l, spIdle b p) := by
  have pick : ∀ sources d, spPick b l [] sources d = (none, d) := by
    intro sources
    induction sources with
    | nil => exact fun _ => rfl
    | cons _ _ ih => exact ih
  by_cases h : pipeAwake b p = true
  · have on : b.domainOn (15 + p / 2) = true := h
    simp [spPipe, h, on, hr, spEligible, spCandidates, hq, pick, spUnit, spIdle]
  · have off : ¬ b.domainOn (15 + p / 2) = true := h
    rw [spPipe_asleep _ (by simpa using h), spIdle, if_neg off]

/-- Without requests every pipeline is idle. -/
theorem spPipe_allIdle (l acc : List Nat) (hq : b.spindle.queue = []) (hr : b.spindle.reserved = []) :
    l.foldl spPipe (acc, b) = (acc, l.foldl spIdle b) := by
  induction l generalizing b with
  | nil => rfl
  | cons p l ih =>
    rw [List.foldl_cons, List.foldl_cons, spPipe_idle acc p hq hr]
    exact ih (by rw [spIdle_spindle]; exact hq) (by rw [spIdle_spindle]; exact hr)

theorem foldl_spIdle_spindle (l : List Nat) (b : Block) : (l.foldl spIdle b).spindle = b.spindle := by
  induction l generalizing b with
  | nil => rfl
  | cons p l ih => rw [List.foldl_cons, ih, spIdle_spindle]

/-- A cycle without requests. -/
theorem spindleIssue_idle (h : ∀ p < 4, spDue b p = false) (hq : b.spindle.queue = []) (hw : b.spindle.waiting = []) (hr : b.spindle.reserved = [])
    (hc : b.spindle.converter = []) :
    spindleIssue b =
      let t := [0, 1, 2, 3].foldl spIdle (spGained b)
      { t with spindle := { t.spindle with cycle := t.spindle.cycle + 1, outReg := [], converter := [], inReg := [] } } := by
  have conv : ([0, 1, 2, 3].foldl spIdle (spGained b)).spindle.converter = [] :=
    (congrArg Spindle.converter (foldl_spIdle_spindle [0, 1, 2, 3] (spGained b))).trans hc
  rw [spindleIssue_passes h hw, spPipe_allIdle (b := spGained b) [0, 1, 2, 3] [] hq hr, spCycleEnd_empty conv]

/-! ### The one request of a pipeline (R118, R125, R126, R130) -/

/-- A chamber's request with a whole credit may issue. -/
theorem spFunded_of {q : SpReq} (h : (b.n : Int) ≤ (b.chamber q.payer).spCredit) : spFunded b q = true := by
  have pos : 0 < b.n := Nat.two_pow_pos _
  unfold spFunded
  split <;> simp only [decide_eq_true_eq] <;> omega

/-- Whichever source issued last, the search comes to the request. -/
theorem spPick_one {q : SpReq} (hf : q.fuse = .none) (l : List Nat) (last : SpSource) : spPick b l [q] (spOrder last) [] = (some q, []) := by
  cases last <;> cases hs : q.source <;> simp [spOrder, spPick, hs, hf]

section
variable {q : SpReq} (hq : b.spindle.queue = [q]) (hr : b.spindle.reserved = []) (hp : q.payer < 64) (hb : q.notBefore ≤ b.spindle.cycle)
  (hc : (b.n : Int) ≤ (b.chamber q.payer).spCredit)
include hq hp hb hc

theorem spEligible_one : spEligible b q.pipe = [q] := by
  have ne : q.payer ≠ 64 := by omega
  have funded : spFunded b q = true := spFunded_of hc
  simp [spEligible, spCandidates, hq, hb, ne, funded]

include hr in
theorem spPipe_one (hf : q.fuse = .none) (ha : b.domainOn (15 + q.pipe / 2) = true) (l : List Nat) :
    spPipe (l, b) q.pipe = (l ++ [q.pipe], spIssueReq b q.pipe q) := by
  have awake : pipeAwake b q.pipe = true := ha
  have cand : spCandidates b q.pipe = [q] := by simp [spCandidates, hq, hb]
  simp [spPipe, awake, hr, spEligible_one hq hp hb hc, cand, spPick_one hf]

end

/-- The pass that enters stage 1. -/
def spPassOf (b : Block) (pipe id payer : Nat) (owner : Option Requester) (source : Option SpSource) : SpPass :=
  { issued := b.spindle.cycle, id := id, owner := owner, payer := payer, lane := passLane b owner (pipe % 2 = 1 && source.isNone) source
    discard := spForgotten b id owner }

/-- The chambers once the payer has been charged one credit, down to the floor; the system pays none. -/
def spCharged (b : Block) (payer : Nat) : Tab Chamber :=
  if payer = 64 then b.ch else (b.modCh payer fun h => { h with spCredit := max (-(1024 * b.n : Int)) (h.spCredit - b.n) }).ch

/-- What a pass that enters changes: it is the youngest in its pipeline, its payer is charged, and events and busy cycles are counted. -/
theorem spEnter_changes (b : Block) (pipe id payer : Nat) (owner : Option Requester) (source : Option SpSource) :
    ∃ counters chuck, spEnter b pipe id payer owner source = { b with
      spindle := { b.spindle with flight := Tab.modify b.spindle.flight [] pipe fun l => l ++ [spPassOf b pipe id payer owner source] }
      ch := spCharged b payer, counters := counters, chuck := chuck } := by
  unfold spEnter spCharged
  cases source with
  | none => split <;> exact ⟨_, _, rfl⟩
  | some x => cases x <;> split <;> exact ⟨_, _, rfl⟩

section
variable (b : Block) (pipe id payer : Nat) (owner : Option Requester) (source : Option SpSource)

theorem spEnter_spindle : (spEnter b pipe id payer owner source).spindle =
    { b.spindle with flight := Tab.modify b.spindle.flight [] pipe fun l => l ++ [spPassOf b pipe id payer owner source] } := by
  obtain ⟨_, _, h⟩ := spEnter_changes b pipe id payer owner source
  rw [h]

theorem spEnter_flight : Tab.get (spEnter b pipe id payer owner source).spindle.flight [] pipe =
    Tab.get b.spindle.flight [] pipe ++ [spPassOf b pipe id payer owner source] := by
  simp [spEnter_spindle]

theorem spEnter_pmc : (spEnter b pipe id payer owner source).pmc = b.pmc := by
  obtain ⟨_, _, h⟩ := spEnter_changes b pipe id payer owner source
  rw [h]

theorem spEnter_credit {payer : Nat} (hp : payer ≠ 64) : ((spEnter b pipe id payer owner source).chamber payer).spCredit =
    max (-(1024 * b.n : Int)) ((b.chamber payer).spCredit - b.n) := by
  obtain ⟨_, _, h⟩ := spEnter_changes b pipe id payer owner source
  have charged : (spEnter b pipe id payer owner source).chamber payer =
      (b.modCh payer fun h => { h with spCredit := max (-(1024 * b.n : Int)) (h.spCredit - b.n) }).chamber payer := by
    rw [h, Block.chamber, spCharged, if_neg hp]; rfl
  rw [charged, chamber_modCh_self]

end

/-- A request leaves the queue as its last pass enters. -/
def spTaken (b : Block) (pipe : Nat) (q : SpReq) : Block :=
  { b with spindle := { b.spindle with queue := [], last := Tab.set b.spindle.last pipe q.source } }

/-- The last pass of the one request that waits. -/
theorem spIssueReq_last {q : SpReq} {c : Bool} (hq : b.spindle.queue = [q]) (hf : q.fuse = .none) (hp : q.pace = [(1, c)]) (pipe : Nat) :
    spIssueReq b pipe q = spEnter (spTaken b pipe q) pipe q.id q.payer q.owner (some q.source) := by
  simp [spIssueReq, spTaken, hf, hp, hq, paceNext]

/-- A cycle in which pipeline 0 has one request, of one pass, and the second pair is off. -/
theorem spindleIssue_one {q : SpReq} {c : Bool} (h : ∀ p < 4, spDue b p = false) (hw : b.spindle.waiting = []) (hq : b.spindle.queue = [q])
    (hr : b.spindle.reserved = []) (h0 : q.pipe = 0) (hf : q.fuse = .none) (hp : q.pace = [(1, c)]) (hpay : q.payer < 64)
    (hb : q.notBefore ≤ b.spindle.cycle) (hon : b.domainOn 15 = true) (hoff : b.domainOn 16 = false)
    (hc : (b.n : Int) ≤ ((spGained b).chamber q.payer).spCredit) :
    spindleIssue b = spCycleEnd ((spEnter (spTaken (spGained b) 0 q) 0 q.id q.payer q.owner (some q.source)).event 65 0x005 none) := by
  let t := spEnter (spTaken (spGained b) 0 q) 0 q.id q.payer q.owner (some q.source)
  have pmc : t.pmc = b.pmc := spEnter_pmc _ _ _ _ _ _
  have domain (d : Nat) : t.domainOn d = b.domainOn d := by rw [Block.domainOn, pmc]; rfl
  have queue : t.spindle.queue = [] := by rw [spEnter_spindle]; rfl
  have reserved : t.spindle.reserved = [] := by rw [spEnter_spindle]; exact hr
  have pipe0 : spPipe ([], spGained b) 0 = ([0], t) := by
    have p := spPipe_one (b := spGained b) hq hr hpay hb hc hf (by rw [h0]; exact hon) []
    rwa [h0, spIssueReq_last (b := spGained b) hq hf hp] at p
  have pipe1 : spPipe ([0], t) 1 = ([0], t.event 65 0x005 none) := by
    rw [spPipe_idle [0] 1 queue reserved, spIdle, if_pos (by rw [domain]; exact hon)]
  have asleep {p : Nat} (hp : p / 2 = 1) : pipeAwake (t.event 65 0x005 none) p = false := by
    rw [pipeAwake, hp]; exact (domain 16).trans hoff
  simp only [spindleIssue_passes h hw, List.foldl_cons, List.foldl_nil, pipe0, pipe1, spPipe_asleep ([0], t.event 65 0x005 none) (asleep (p := 2) rfl),
    spPipe_asleep ([0], t.event 65 0x005 none) (asleep (p := 3) rfl)]
  rfl

/-! ### A block that leaves (R118, R127, R160) -/

section
variable {pipe : Nat} {e : Egress} {p : SpPass} {rest : List SpPass}

/-- The device without the oldest block of a pipeline. -/
def spShifted (b : Block) (pipe : Nat) (rest : List SpPass) : Block :=
  { b with spindle := { b.spindle with flight := Tab.set b.spindle.flight pipe rest } }

variable (hf : Tab.get b.spindle.flight [] pipe = p :: rest)
include hf

theorem passComplete_early (h : b.spindle.cycle < p.issued + 28) : passComplete b pipe e = b := by
  simp [passComplete, hf, h]

variable (h : p.issued + 28 ≤ b.spindle.cycle)
include h

theorem passComplete_discards (hd : p.discard = true) : passComplete b pipe e = spShifted b pipe rest := by
  simp [passComplete, hf, Nat.not_lt.mpr h, hd, spShifted]

variable (hd : p.discard = false)
include hd

theorem passComplete_underWay (hu : spUnderWay (spConvert (spShifted b pipe rest) pipe p).spindle p.id = true) :
    passComplete b pipe e = spConvert (spShifted b pipe rest) pipe p := by
  simp only [spShifted] at hu
  simp [passComplete, hf, Nat.not_lt.mpr h, hd, spShifted, hu]

variable (hu : spUnderWay (spConvert (spShifted b pipe rest) pipe p).spindle p.id = false)
include hu

/-- The last block of a request of Headstock or of Sump's controller. -/
theorem passComplete_unowned (ho : p.owner = none) : passComplete b pipe e = spConvert (spShifted b pipe rest) pipe p := by
  simp only [spShifted] at hu
  simp [passComplete, hf, Nat.not_lt.mpr h, hd, spShifted, hu, ho]

theorem passComplete_delivers {r : Requester} {j : Job} (ho : p.owner = some r)
    (hj : (spConvert (spShifted b pipe rest) pipe p).job? r = some j) (hp : j.phase = .engine) (hi : j.engId = some p.id) :
    passComplete b pipe e = deliver (spConvert (spShifted b pipe rest) pipe p) r e := by
  simp only [spShifted] at hu hj
  simp [passComplete, hf, Nat.not_lt.mpr h, hd, spShifted, hu, ho, hj, hp, hi]

end

/-! ### The delivery of an item's result (R62, R63, R71) -/

/-- A write to the buffer of a job, through its engine's Ferrule. -/
def bufferWrite (b : Block) (j : Job) (a : Nat) (d : Bytes) : Block := b.dmaWrite (hostMaster j.chamber) (some j.chamber) (j.chamber + 1) a d

/-- The length of an output written to its buffer's header. -/
def lengthWrite (b : Block) (j : Job) (d : Bytes) : Block := bufferWrite b j (j.ext + 8) (leBytes 4 d.length)

section
variable {j : Job} {o : Outcome} (hj : b.job? (.item n) = some j) (hh : j.held = some o) (hc : j.creates = [])
include hj hh hc

/-- An item without records to create ends with what its output has come to. -/
theorem deliver_item (e : Egress) :
    deliver b (.item n) e = closeItem (releaseSlots (itemOutput b n j o e).2 j.chamber []) n (itemOutput b n j o e).1 := by
  simp [deliver, hj, hh, hc]

end

section
variable {j : Job} {o : Outcome} {d : Bytes} (ho : o.output = some d) (hs : o.status = 0 ∨ o.status = 2) (hm : b.suppressed n = false)
include ho hs hm

theorem itemOutput_noBme (hb : b.bme (j.chamber + 1) = false) (e : Egress) :
    itemOutput b n j o e = (onlyStatus 0x0022, quiesceChamber b j.chamber 4 (some n)) := by
  rcases hs with hs | hs <;> simp [itemOutput, isFailure, ho, hs, hm, hb, justStatus, onlyStatus]

variable (hb : b.bme (j.chamber + 1) = true)
include hb

theorem itemOutput_lost : itemOutput b n j o .bufferError =
    (onlyStatus 0x0022, quiesceChamber (b.aer (j.chamber + 1) "Uncorrectable Internal Error" false) j.chamber 1 (some n)) := by
  rcases hs with hs | hs <;> simp [itemOutput, isFailure, ho, hs, hm, hb, justStatus, onlyStatus]

/-- An output beyond the buffer's capacity is not written; its length is. -/
theorem itemOutput_beyond (hl : j.outCap < d.length) : itemOutput b n j o .issued = (onlyStatus 0x0020, lengthWrite b j d) := by
  rcases hs with hs | hs <;> simp [itemOutput, isFailure, ho, hs, hm, hb, hl, justStatus, onlyStatus, lengthWrite, bufferWrite]

theorem itemOutput_writes (hd : d ≠ []) (hl : d.length ≤ j.outCap) :
    itemOutput b n j o .issued = (o, lengthWrite (bufferWrite b j (j.ext + 16 + roundUp j.inLen 64) d) j d) := by
  rcases hs with hs | hs <;> simp [itemOutput, isFailure, ho, hs, hm, hb, hd, Nat.not_lt.mpr hl, lengthWrite, bufferWrite]

theorem itemOutput_empty (hd : d = []) : itemOutput b n j o .issued = (o, lengthWrite b j d) := by
  subst hd
  rcases hs with hs | hs <;> simp [itemOutput, isFailure, ho, hs, hm, hb, lengthWrite, bufferWrite]

end

/-! ### Auger (R148, R150) -/

section
variable {u : AugerUnit} {m : AuMsg}

/-- The units' count of cycles as a cycle of unit `u` ends. -/
def auCycled (a : Auger) (u : AugerUnit) : Tab Nat := Tab.set a.cycles (auUnit u) (Tab.get a.cycles 0 (auUnit u) + 1)

/-- The slot of a cycle granted to a message. -/
def auGranted (a : Auger) (u : AugerUnit) (m : AuMsg) : List AuMsg :=
  a.msgs.map fun x =>
    if x.id = m.id then { x with left := x.left - 1, place := auPlace a u m, doneAt := Tab.get a.cycles 0 (auUnit u) + m.latency } else x

/-- On which Keccak cores Flowstone had the last slot, after a slot for a message. -/
def auFlowLast (a : Auger) (u : AugerUnit) (m : AuMsg) : Tab Bool :=
  match u with
  | .keccak k => Tab.set a.flowLast k (m.port == .flowstone)
  | .sha2 => a.flowLast

theorem augerIssue_grants (hd : b.domainOn 17 = true) (h : auChoose b.auger u = some m) :
    augerIssue b u = { b with auger := { b.auger with
      cycles := auCycled b.auger u
      msgs := auGranted b.auger u m
      last := if m.port = .flowstone then b.auger.last else m.port
      flowLast := auFlowLast b.auger u m } } := by
  simp only [augerIssue, hd, h]; rfl

theorem augerIssue_idle (hd : b.domainOn 17 = true) (h : auChoose b.auger u = none) :
    augerIssue b u = { b with auger := { b.auger with cycles := auCycled b.auger u } } := by
  simp only [augerIssue, hd, h]; rfl

/-- The message `id` has had its last slot and that is done. -/
def auDone (a : Auger) (id : Nat) (m : AuMsg) : Bool := m.id == id && m.left == 0 && decide (m.doneAt ≤ Tab.get a.cycles 0 (auMsgUnit m))

/-- The device without a message of Auger. -/
def auReleased (b : Block) (id : Nat) : Block := { b with auger := { b.auger with msgs := b.auger.msgs.filter fun x => x.id != id } }

variable {id : Nat} {e : Egress}

theorem augerResult_none (h : b.auger.msgs.find? (auDone b.auger id) = none) : augerResult b id e = b := by
  unfold auDone at h
  simp [augerResult, h]

theorem augerResult_unowned (h : b.auger.msgs.find? (auDone b.auger id) = some m) (ho : m.owner = none) :
    augerResult b id e = auReleased b id := by
  unfold auDone at h
  simp [augerResult, h, ho, auReleased]

theorem augerResult_delivers {r : Requester} {j : Job} (h : b.auger.msgs.find? (auDone b.auger id) = some m) (ho : m.owner = some r)
    (hj : (auReleased b id).job? r = some j) (hp : j.phase = .engine) (hi : j.engId = some id) :
    augerResult b id e = deliver (auReleased b id) r e := by
  unfold auDone at h
  unfold auReleased at hj
  simp [augerResult, h, ho, hj, hp, hi, auReleased]

end

/-! ### The statement -/

/-- Settles O28: each event of the two engines takes the course that its conditions name. -/
theorem spindleAndAuger : Obligations.SpindleAndAuger := by
  unfold Obligations.SpindleAndAuger
  refine ⟨fun s hr => ?_, fun s u m id r e j hr hd => ?_⟩
  · intro b gained idle waited
    refine ⟨fun h => completes_live rfl hr (spindleIssue_due h), fun h hq hw hres hc => completes_live rfl hr (spindleIssue_idle h hq hw hres hc),
      fun q c h hw hq hres h0 hf hp hpay hb hon hoff hc => ?_, fun pipe e p rest hd hf => ?_, fun n j o d hj hh ho hcr hst hm => ?_⟩
    · refine ⟨_, spPassOf (spTaken (spGained b) 0 q) 0 q.id q.payer q.owner (some q.source),
        completes_live rfl hr (spindleIssue_one h hw hq hres h0 hf hp hpay hb hon hoff hc), rfl, ?_, ?_, ?_, rfl, ?_⟩
      · exact congrArg Spindle.queue (spEnter_spindle _ _ _ _ _ _)
      · exact congrArg (·.cycle + 1) (spEnter_spindle _ _ _ _ _ _)
      · exact spEnter_flight _ _ _ _ _ _
      · exact spEnter_credit _ _ _ _ _ (by omega)
    · have row {t : Block} (ht : passComplete b pipe e = t) : Completes (.passComplete pipe e) s (settle t) := completes_awakeSettle rfl hr hd ht
      exact ⟨fun h => row (passComplete_early hf h), fun h hd => row (passComplete_discards hf h hd),
        fun h hd hu => row (passComplete_underWay hf h hd hu), fun h hd hu => ⟨fun ho => row (passComplete_unowned hf h hd hu ho),
          fun r j ho hj hp hi => row (passComplete_delivers hf h hd hu ho hj hp hi)⟩⟩
    · intro write len lost
      have ends {e : Egress} {t : Block} {x : Outcome} (h : itemOutput b n j o e = (x, t)) :
          deliver b (.item n) e = closeItem (releaseSlots t j.chamber []) n x := by rw [deliver_item hj hh hcr, h]
      exact ⟨fun hb => ⟨fun hne hl => ends (itemOutput_writes ho hst hm hb hne hl), fun he => ends (itemOutput_empty ho hst hm hb he),
        fun hl => ends (itemOutput_beyond ho hst hm hb hl), ends (itemOutput_lost ho hst hm hb)⟩, fun hb e => ends (itemOutput_noBme ho hst hm hb e)⟩
  · exact ⟨fun h => completes_live rfl hr (augerIssue_grants hd h), fun h => completes_live rfl hr (augerIssue_idle hd h),
      fun h ho hj hp hi => completes_awakeSettle rfl hr hd (augerResult_delivers h ho hj hp hi),
      fun h ho => completes_awakeSettle rfl hr hd (augerResult_unowned h ho), fun h => completes_awakeSettle rfl hr hd (augerResult_none h)⟩

end Sys2Proof.Machine
end

section
/-! PROOFS. The queue commands of the mailboxes and SLICE_BIND: what each comes to at its start and at its further stages, and with it the
statement on them (R53, R55, R82, R327, R357). -/
namespace Sys2Proof.Machine

variable {b t : Block} {s : State} {m : Mbx} {p : Bytes} {hold : List Bytes}

/-! ### What needs Sump (R224) -/

theorem needSump_ready (h : b.sump.st = .ready) (r : Res) : needSump b r = r := by simp [needSump, h]

theorem needSump_off (h : b.sump.st ≠ .ready) (r : Res) : needSump b r = no b 0x0061 := by simp [needSump, h]

/-! ### Queues (R53, R55, R82, R357) -/

/-- A queue command may run on a chamber. -/
def Usable (b : Block) (c : Nat) : Prop := (b.chamber c).st = .active ∧ (b.chamber c).resetting = false

theorem queueState_usable {c : Nat} (h : Usable b c) : queueState b c = none := by
  obtain ⟨ha, hr⟩ := h
  simp [queueState, ha, hr]

theorem queueState_unusable {c : Nat} (h : ¬ Usable b c) : queueState b c = some 0x0106 := by
  have h : (b.chamber c).st ≠ .active ∨ (b.chamber c).resetting = true := by
    by_contra hn
    exact h ⟨by_contra fun ha => hn (.inl ha), by simpa using fun hr => hn (.inr hr)⟩
  simp [queueState, h]

/-- The chamber, the number, the depth and the base of a queue are in range. -/
def QueuePlaced (b : Block) (p : Bytes) : Prop := pb p 0 < b.n ∧ pb p 1 < 8 ∧ 4 ≤ pb p 2 ∧ pb p 2 ≤ 16 ∧ leField p 4 8 % 4096 = 0

theorem queueShape_iff : queueShape b p = true ↔ QueuePlaced b p := by
  simp [queueShape, QueuePlaced, and_assoc]

/-- The operands of CQ_CREATE are in range. -/
def CqForm (b : Block) (p : Bytes) : Prop :=
  shaped p 16 [(15, 1)] = true ∧ QueuePlaced b p ∧ pb p 12 < 16 ∧ pb p 13 ≠ 0 ∧ (1 < pb p 13 → pb p 14 ≠ 0)

/-- CQ_CREATE's operands decide first. -/
theorem cmdCqCreate_refuses (h : ¬ CqForm b p) : cmdCqCreate m b p = no b 0x0020 := by
  refine if_pos ?_
  by_contra hn
  simp only [not_or, Bool.not_eq_true', Bool.not_eq_false, Nat.not_le, not_and] at hn
  obtain ⟨hs, hq, h12, h13, h14⟩ := hn
  exact h ⟨hs, queueShape_iff.mp hq, h12, h13, h14⟩

theorem cmdCqCreate_form (h : CqForm b p) :
    cmdCqCreate m b p = if pb p 3 = 0 then no b 0x0105 else orElse b (queueState b (pb p 0))
      (if (b.cq (pb p 0) (pb p 1)).en then no b 0x0106 else needSump b (.wait (persist b m []) [])) := by
  obtain ⟨hs, hq, h12, h13, h14⟩ := h
  refine if_neg ?_
  simpa only [hs, queueShape_iff.mpr hq, Bool.not_true, Bool.false_eq_true, false_or, not_or, Nat.not_le, not_and] using ⟨h12, h13, h14⟩

section
variable (hv : pb p 3 ≠ 0) (hu : Usable b (pb p 0))
include hv

theorem cmdCqCreate_unusable (h : CqForm b p) (hu : ¬ Usable b (pb p 0)) : cmdCqCreate m b p = no b 0x0106 := by
  rw [cmdCqCreate_form h, if_neg hv, queueState_unusable hu]; rfl

include hu

theorem cmdCqCreate_exists (h : CqForm b p) (he : (b.cq (pb p 0) (pb p 1)).en = true) : cmdCqCreate m b p = no b 0x0106 := by
  rw [cmdCqCreate_form h, if_neg hv, queueState_usable hu, if_pos he]; rfl

theorem cmdCqCreate_commits (h : CqForm b p) (he : (b.cq (pb p 0) (pb p 1)).en = false) (hs : b.sump.st = .ready) :
    cmdCqCreate m b p = .wait (persist b m []) [] := by
  rw [cmdCqCreate_form h, if_neg hv, queueState_usable hu, if_neg (by simp [he]), needSump_ready hs]; rfl

/-- The operands of SQ_CREATE are in range, and its queue does not exist: its completion queue decides. -/
theorem cmdSqCreate_form (h : shaped p 16 [(13, 3)] = true ∧ QueuePlaced b p ∧ pb p 12 < 8) (he : (b.sq (pb p 0) (pb p 1)).en = false) :
    cmdSqCreate m b p = if (b.cq (pb p 0) (pb p 12)).en then
        if (b.cq (pb p 0) (pb p 12)).fmt ≠ min (pb p 3) 1 then no b 0x0105 else needSump b (.wait (persist b m []) [])
      else no b 0x0020 := by
  obtain ⟨hs, hq, h12⟩ := h
  have inRange : ¬ ((!shaped p 16 [(13, 3)]) = true ∨ (!queueShape b p) = true ∨ 8 ≤ pb p 12) := by
    simpa only [hs, queueShape_iff.mpr hq, Bool.not_true, Bool.false_eq_true, false_or, Nat.not_le] using h12
  simp only [cmdSqCreate, if_neg inRange, if_neg hv, queueState_usable hu, orElse, he]
  cases (b.cq (pb p 0) (pb p 12)).en <;> rfl

end

/-! ### QUEUE_DELETE (R357) -/

section
variable (hs : shaped p 4 [(3, 1)] = true) (hc : pb p 0 < b.n) (hg : pb p 2 < 8) (hu : Usable b (pb p 0)) (hr : b.sump.st = .ready)
include hs hc hg hu hr

theorem cmdQueueDelete_sq (h0 : pb p 1 = 0) :
    cmdQueueDelete m b p = if (b.sq (pb p 0) (pb p 2)).en then
      .wait (awaits (stopQueue b (pb p 0) (pb p 2)) m (.queue (pb p 0) (pb p 2))) [] else no b 0x0106 := by
  cases he : (b.sq (pb p 0) (pb p 2)).en <;>
    simp [cmdQueueDelete, hs, Nat.not_le.mpr hc, Nat.not_le.mpr hg, queueState_usable hu, orElse, needSump_ready hr, h0, he]

theorem cmdQueueDelete_cq (h1 : pb p 1 = 1) (he : (b.cq (pb p 0) (pb p 2)).en = true)
    (hq : ∀ q ∈ (b.chamber (pb p 0)).sqs, ¬ (q.2.en = true ∧ q.2.cq = pb p 2)) : cmdQueueDelete m b p = .wait b [] := by
  have unused : ((b.chamber (pb p 0)).sqs.any fun s => s.2.en && s.2.cq == pb p 2) = false := by
    simpa using hq
  simp [cmdQueueDelete, hs, Nat.not_le.mpr hc, Nat.not_le.mpr hg, queueState_usable hu, orElse, needSump_ready hr, h1, he, unused]

omit hr

/-- A completion queue that a submission queue uses stays. -/
theorem cmdQueueDelete_used (h1 : pb p 1 = 1) (hq : ∃ q ∈ (b.chamber (pb p 0)).sqs, q.2.en = true ∧ q.2.cq = pb p 2) :
    cmdQueueDelete m b p = no b 0x0106 := by
  have used : ((b.chamber (pb p 0)).sqs.any fun s => s.2.en && s.2.cq == pb p 2) = true := by
    simpa using hq
  simp [cmdQueueDelete, hs, Nat.not_le.mpr hc, Nat.not_le.mpr hg, queueState_usable hu, orElse, h1, used]

end

/-! ### SLICE_BIND (R327) -/

/-- Another slice has the PASID. -/
theorem bindTaken_iff {binds : Tab Nat} {k pasid : Nat} :
    (binds.any fun e => e.1 != k && e.2 == pasid) = true ↔ ∃ e ∈ binds, e.1 ≠ k ∧ e.2 = pasid := by
  simp only [List.any_eq_true, Bool.and_eq_true, bne_iff_ne, beq_iff_eq]

section
variable (hs : shaped p 8 [(2, 2)] = true) (h1 : 1 ≤ pb p 0) (h4 : pb p 0 ≤ 4) (hp : leField p 4 4 < 2 ^ 20)
include hs h1 h4 hp

theorem cmdSliceBind_unbinds (h : pb p 1 = 1) :
    cmdSliceBind m b p = ok (b.modBimor fun y => { y with binds := Tab.erase y.binds (pb p 0 - 1) }) [] := by
  simp [cmdSliceBind, hs, show pb p 0 ≠ 0 by omega, show ¬ 4 < pb p 0 by omega, show ¬ 1048576 ≤ leField p 4 4 by omega, h]

theorem cmdSliceBind_binds (h : pb p 1 = 0) :
    cmdSliceBind m b p = if b.bimor.binds.any (fun e => e.1 != pb p 0 - 1 && e.2 == leField p 4 4) then no b 0x0020
      else ok (b.modBimor fun y => { y with binds := Tab.set y.binds (pb p 0 - 1) (leField p 4 4) }) [] := by
  simp [cmdSliceBind, hs, show pb p 0 ≠ 0 by omega, show ¬ 4 < pb p 0 by omega, show ¬ 1048576 ≤ leField p 4 4 by omega, h]

end

/-! ### The statement -/

/-- Settles O45: each command answers, asks for its commit or puts in force what its operands and the state decide. -/
theorem queueCommands : Obligations.QueueCommands := by
  unfold Obligations.QueueCommands
  intro s m p b hold c n cq t placed usable cqOk sqOk fmt ends
  refine ⟨fun h hf => ⟨fun hv => ?_, fun hv hu => ?_, fun hv hu he => ?_, fun hv hu he hr => ?_⟩, fun h hf => ?_,
    fun h hf hv hu he => ⟨fun hq => ?_, fun hq hfmt => ?_, fun hq hfmt hr => ?_⟩,
    fun h hs hc hg hu hr => ⟨fun h0 he => ?_, fun h0 he => ?_, fun h1 hq => ?_, fun h1 he hq => ?_⟩,
    fun h hs h1 h4 hp => ⟨fun hn => ?_, fun hn he => ?_, fun hn he => ?_⟩, fun h => ?_, fun h => ?_, fun h => ?_, fun h hn => ?_, fun h hn => ?_⟩
  · exact completes_answers h rfl ((cmdCqCreate_form hf).trans (if_pos hv)) (by decide)
  · exact completes_answers h rfl (cmdCqCreate_unusable hv hf hu) (by decide)
  · exact completes_answers h rfl (cmdCqCreate_exists hv hu hf he) (by decide)
  · exact completes_waits h rfl (cmdCqCreate_commits hv hu hf he hr)
  · exact completes_answers h rfl (cmdCqCreate_refuses hf) (by decide)
  -- SQ_CREATE, by its completion queue
  · exact completes_answers h rfl ((cmdSqCreate_form hv hu hf he).trans (if_neg (Bool.eq_false_iff.mp hq))) (by decide)
  · exact completes_answers h rfl ((cmdSqCreate_form hv hu hf he).trans ((if_pos hq).trans (if_pos hfmt))) (by decide)
  · exact completes_waits h rfl ((cmdSqCreate_form hv hu hf he).trans
      ((if_pos hq).trans ((if_neg (not_not.mpr hfmt)).trans (needSump_ready hr _))))
  -- QUEUE_DELETE, of a submission queue and of a completion queue
  · exact completes_waits h rfl ((cmdQueueDelete_sq hs hc hg hu hr h0).trans (if_pos he))
  · exact completes_answers h rfl ((cmdQueueDelete_sq hs hc hg hu hr h0).trans (if_neg (Bool.eq_false_iff.mp he))) (by decide)
  · exact completes_answers h rfl (cmdQueueDelete_used hs hc hg hu h1 hq) (by decide)
  · exact completes_waits h rfl (cmdQueueDelete_cq hs hc hg hu hr h1 he hq)
  -- SLICE_BIND
  · exact completes_answers h rfl (cmdSliceBind_unbinds hs h1 h4 hp hn) (by decide)
  · exact completes_answers h rfl ((cmdSliceBind_binds hs h1 h4 hp hn).trans (if_pos (bindTaken_iff.mpr he))) (by decide)
  · exact completes_answers h rfl ((cmdSliceBind_binds hs h1 h4 hp hn).trans (if_neg fun ht => by
      obtain ⟨e, hm, hx⟩ := bindTaken_iff.mp ht
      exact he e hm hx)) (by decide)
  -- the further stages
  · exact settleMailbox_ends h one_ne_zero rfl
  · exact settleMailbox_ends h one_ne_zero rfl
  · exact settleMailbox_goesOn h one_ne_zero
  · refine settleMailbox_ends h two_ne_zero ?_
    have e : pb p 1 = 0 := hn
    simp [stageOf, continueChamber, cmdQueueDelete3, ok, e, t, c]
  · refine settleMailbox_ends h two_ne_zero ?_
    have e : pb p 1 = 1 := hn
    simp [stageOf, continueChamber, cmdQueueDelete3, ok, e, t, c]

end Sys2Proof.Machine
end

section
/-! PROOFS. CUSTODIAN_SET and the audit, recipe and decode-table commands of the mailboxes: what each comes to at its start and at its commit, and
with it the statement on them (R69, R207, R266 to R269, R315 to R317, R353, R358, R360, R361). -/
namespace Sys2Proof.Machine

variable {b b1 t : Block} {s : State} {m : Mbx} {p : Bytes} {hold : List Bytes}

/-! ### CUSTODIAN_SET (R353, R358) -/

theorem scopeExists_iff {scope : Nat} : scopeExists b scope = true ↔ scope = 0xFF ∨ (b.chamber scope).st ≠ .none := by
  simp [scopeExists]

theorem cmdCustodianSet_form (hv : scopeValid b (pb p 0) = true) (hk : kOfN (pb p 1) (pb p 2) = true)
    (hs : shaped p (4 + 57 * pb p 2) [(3, 1)] = true) :
    cmdCustodianSet m b p = if scopeExists b (pb p 0) then needSump b (.wait (persist b m []) []) else no b 0x0106 := by
  cases he : scopeExists b (pb p 0) <;> simp [cmdCustodianSet, hv, hk, hs, he]

/-! ### Audit rings (R207, R360) -/

/-- A ring command may run on a scope. -/
def ScopeUsable (b : Block) (scope : Nat) : Prop :=
  if scope = 0xFF then (b.chain .system).present = true else (b.chamber scope).st = .active ∧ (b.chamber scope).resetting = false

theorem ringState_usable {scope : Nat} (h : ScopeUsable b scope) : ringState b scope = none := by
  unfold ScopeUsable at h
  unfold ringState
  split at h <;> rename_i hs
  · simp [hs, h]
  · rw [if_neg hs, queueState_usable h]

theorem ringState_unusable {scope : Nat} (h : ¬ ScopeUsable b scope) : ringState b scope = some 0x0106 := by
  unfold ScopeUsable at h
  unfold ringState
  split at h <;> rename_i hs
  · simp [hs, h]
  · rw [if_neg hs, queueState_unusable h]

/-- The operands of AUDIT_RING_CREATE are in range. -/
def RingForm (b : Block) (p : Bytes) : Prop :=
  p.length = 20 ∧ scopeValid b (pb p 0) = true ∧ 12 ≤ pb p 1 ∧ pb p 1 ≤ 22 ∧ 4 ≤ pb p 2 ∧ pb p 2 ≤ 16 ∧ pb p 3 < 128 ∧
    (pb p 0 = 0xFF ∨ pb p 3 / 2 < 8) ∧ leField p 4 8 % 4096 = 0 ∧ leField p 12 8 % 4096 = 0

theorem cmdAuditRingCreate_form (h : RingForm b p) :
    cmdAuditRingCreate m b p = orElse b (ringState b (pb p 0))
      (if (b.chain (scopeChain (pb p 0))).ring.en then no b 0x0106 else needSump b (.wait (persist b m []) [])) := by
  obtain ⟨hl, hv, h1, h1', h2, h2', h3, hvec, hb, hh⟩ := h
  have vec : ¬ (pb p 0 ≠ 0xFF ∧ 8 ≤ pb p 3 / 2) := by omega
  have len : shaped p 20 [] = true := by simp [shaped, hl]
  refine if_neg ?_
  simp only [len, hv, Bool.not_true, Bool.false_eq_true, Nat.not_lt.mpr h1, Nat.not_lt.mpr h1', Nat.not_lt.mpr h2, Nat.not_lt.mpr h2',
    Nat.not_le.mpr h3, vec, hb, hh, ne_eq, not_true_eq_false, or_self, not_false_eq_true]

theorem cmdAuditRingDelete_form (hs : shaped p 4 [(1, 3)] = true) (hv : scopeValid b (pb p 0) = true) (hu : ScopeUsable b (pb p 0)) :
    cmdAuditRingDelete m b p =
      if (b.chain (scopeChain (pb p 0))).ring.en then needSump b (.wait (persist b m []) []) else no b 0x0106 := by
  simp only [cmdAuditRingDelete, hs, hv, ringState_usable hu, orElse]
  cases (b.chain (scopeChain (pb p 0))).ring.en <;> rfl

/-! ### AUDIT_KEYS and AUDIT_FLUSH_SYSTEM (R69, R360) -/

/-- The audit keys of a chain by its number: the current one's, or those of the one before it. -/
def chainKeys (c : Chain) (n : Nat) : Option (Bytes × Bytes) :=
  if n = c.chainNo then some (c.edPub, c.pqPub)
  else if n + 1 = c.chainNo then c.before.map (fun k => (k.edPub, k.pqPub)) else none

/-- What the identity key signs of a chain's audit keys. -/
def signedKeys (b : Block) (p ed pq : Bytes) : Bytes :=
  ascii "VWAK" ++ [BitVec.ofNat 8 (pb p 0), if (b.chain (scopeChain (pb p 0))).pq then 1 else 0] ++ leBytes 2 (leField p 2 2) ++ fit 8 b.device ++
    fit 57 ed ++ zeros 7 ++ (if (b.chain (scopeChain (pb p 0))).pq then fit 2592 pq else [])

section
variable (hs : shaped p 4 [(1, 1)] = true) (hv : scopeValid b (pb p 0) = true)
include hs hv

theorem cmdAuditKeys_answers {ed pq : Bytes} (hp : (b.chain (scopeChain (pb p 0))).present = true)
    (hk : chainKeys (b.chain (scopeChain (pb p 0))) (leField p 2 2) = some (ed, pq)) :
    cmdAuditKeys m b p = ok b (signedKeys b p ed pq ++ edSign true false (ascii "VWAUDITKEY") b.identity.seed (signedKeys b p ed pq)) := by
  unfold chainKeys at hk
  simp only [cmdAuditKeys, hs, hv, hp, hk, Bool.not_true, Bool.false_eq_true, or_self, if_false]
  cases hpq : (b.chain (scopeChain (pb p 0))).pq <;> simp only [signedKeys, hpq] <;> rfl

theorem cmdAuditKeys_refuses (h : (b.chain (scopeChain (pb p 0))).present = false ∨
    chainKeys (b.chain (scopeChain (pb p 0))) (leField p 2 2) = none) : cmdAuditKeys m b p = no b 0x0106 := by
  have keys : (if (!(b.chain (scopeChain (pb p 0))).present) = true then none
      else chainKeys (b.chain (scopeChain (pb p 0))) (leField p 2 2)) = none := by
    rcases h with h | h <;> simp [h]
  unfold chainKeys at keys
  simp only [cmdAuditKeys, hs, hv, keys, Bool.not_true, Bool.false_eq_true, or_self, if_false]

end

/-- The header that a flush waits for: that of the open batch, else the last one that holds a leaf. -/
def flushWait (c : Chain) : Option Nat := if c.batch.isSome then some c.nextPos else lastLeafHeader c

theorem flushWait_open {c : Chain} (h : c.batch.isSome = true) : flushWait c = some c.nextPos := if_pos h

theorem flushWait_closed {c : Chain} (h : c.batch = none) : flushWait c = lastLeafHeader c := if_neg (by simp [h])

section
variable (hp : p = [])
include hp

theorem cmdAuditFlushSystem_answers (h : flushWait ((closeBatch b .system 2).chain .system) = none) :
    cmdAuditFlushSystem m b p = ok (closeBatch b .system 2) (flushResult (b.chain .system)) := by
  unfold flushWait at h
  simp only [cmdAuditFlushSystem, hp, h, ne_eq, not_true_eq_false, if_false]

theorem cmdAuditFlushSystem_waits {n : Nat} (h : flushWait ((closeBatch b .system 2).chain .system) = some n) :
    cmdAuditFlushSystem m b p = .wait (awaits (closeBatch b .system 2) m (.flush n)) [flushResult (b.chain .system)] := by
  unfold flushWait at h
  simp only [cmdAuditFlushSystem, hp, h, ne_eq, not_true_eq_false, if_false]

end

/-! ### Recipes (R266 to R269, R361) -/

/-- What staging holds of a recipe already. -/
def stagedBefore (b : Block) (id : Nat) : Bytes :=
  match b.bimor.staging with
  | some s => if s.id = id then s.image else []
  | none => []

/-- Staging with the instructions of a request patched in. -/
def stagedAfter (b : Block) (p : Bytes) : Staging :=
  let old := stagedBefore b (leField p 0 2)
  { id := leField p 0 2
    image := patch (fit (max old.length (3 * (leField p 4 4 + leField p 8 2))) old) (3 * leField p 4 4) (p.drop 16) }

theorem cmdRecipeStage_form (h1 : 1 ≤ leField p 8 2) (h2 : leField p 8 2 ≤ 1354)
    (hs : shaped p (16 + 3 * leField p 8 2) [(2, 2), (10, 6)] = true) :
    cmdRecipeStage m b p = if 65535 < leField p 4 4 + leField p 8 2 then no b 0x0107
      else ok (b.modBimor fun y => { y with staging := some (stagedAfter b p) }) [] := by
  have form : ¬ (leField p 8 2 = 0 ∨ 1354 < leField p 8 2 ∨ (!shaped p (16 + 3 * leField p 8 2) [(2, 2), (10, 6)]) = true) := by
    simp only [hs, Bool.not_true, Bool.false_eq_true, or_false]; omega
  exact if_neg form

theorem recipe?_isSome_iff {id : Nat} : (recipe? b id).isSome = true ↔ ∃ r ∈ b.chisel.table, r.id = id := by
  simp [recipe?]

/-- The operands of RECIPE_LOAD are in range, and the image staged has the digest given. -/
def LoadForm (b : Block) (p x : Bytes) : Prop :=
  shaped p 80 [(7, 1)] = true ∧ 0x1000 ≤ leField p 0 2 ∧ leField p 0 2 ≠ 0xFFFF ∧ leField p 2 2 ≠ 0 ∧ leField p 4 2 ≠ 0 ∧ pb p 6 < 2 ∧
    stagedImage b (leField p 0 2) (leField p 4 2) = some x ∧ shake256 x 64 = slice p 16 64

/-- A recipe given a range of the store, and its commit asked for. -/
def placeRecipe (m : Mbx) (b : Block) (len : Nat) (x : Bytes) : Res :=
  match freeRange b len with
  | (none, _) => no b 0x0107
  | (some e, b) => needSump b (.wait (persist b m []) [leBytes 2 e, x])

theorem placeRecipe_full {len : Nat} (x : Bytes) (h : (freeRange b len).1 = none) : placeRecipe m b len x = no b 0x0107 := by
  unfold placeRecipe
  cases hf : freeRange b len with
  | mk e b1 => simp [show e = none by simpa [hf] using h]

theorem placeRecipe_commits {len e : Nat} (x : Bytes) (h : freeRange b len = (some e, b1)) (hr : b1.sump.st = .ready) :
    placeRecipe m b len x = .wait (persist b1 m []) [leBytes 2 e, x] := by
  simp [placeRecipe, h, needSump_ready hr]

/-- A load that passes its form: the table and the store decide. -/
theorem cmdRecipeLoad_form {x : Bytes} (h : LoadForm b p x) :
    cmdRecipeLoad m b p =
      if (recipe? b (leField p 0 2)).isSome = true ∧ pb p 6 = 0 then no b 0x0106
      else if (!(recipe? b (leField p 0 2)).isSome) = true ∧ 512 ≤ b.chisel.table.length then no b 0x0107
      else placeRecipe m b (leField p 4 2) x := by
  obtain ⟨hs, h1, h2, h3, h4, h6, hx, hd⟩ := h
  simp only [cmdRecipeLoad, hs, hx, hd, Nat.not_lt.mpr h1, h2, h3, h4, Nat.not_le.mpr h6, Bool.not_true, Bool.false_eq_true, or_self, if_false,
    ne_eq, not_true_eq_false]
  rfl

section
variable {x : Bytes} (h : LoadForm b p x)
include h

theorem cmdRecipeLoad_exists (hk : ∃ r ∈ b.chisel.table, r.id = leField p 0 2) (h6 : pb p 6 = 0) : cmdRecipeLoad m b p = no b 0x0106 :=
  (cmdRecipeLoad_form h).trans (if_pos ⟨recipe?_isSome_iff.mpr hk, h6⟩)

theorem cmdRecipeLoad_full (hk : ¬ ∃ r ∈ b.chisel.table, r.id = leField p 0 2) (hl : 512 ≤ b.chisel.table.length) :
    cmdRecipeLoad m b p = no b 0x0107 := by
  have new : (recipe? b (leField p 0 2)).isSome = false := Bool.eq_false_iff.mpr (mt recipe?_isSome_iff.mp hk)
  simp [cmdRecipeLoad_form h, new, hl]

/-- A replacement, or a new recipe with an entry free: a range of the store decides. -/
theorem cmdRecipeLoad_places (hk : (∃ r ∈ b.chisel.table, r.id = leField p 0 2) ∧ pb p 6 = 1 ∨
      (¬ ∃ r ∈ b.chisel.table, r.id = leField p 0 2) ∧ b.chisel.table.length < 512) :
    cmdRecipeLoad m b p = placeRecipe m b (leField p 4 2) x := by
  rw [cmdRecipeLoad_form h]
  rcases hk with ⟨hk, h6⟩ | ⟨hk, hl⟩
  · have old : (recipe? b (leField p 0 2)).isSome = true := recipe?_isSome_iff.mpr hk
    simp only [old, h6, Bool.not_true, Bool.false_eq_true, false_and, if_false, one_ne_zero, and_false]
  · have new : (recipe? b (leField p 0 2)).isSome = false := Bool.eq_false_iff.mpr (mt recipe?_isSome_iff.mp hk)
    simp only [new, Nat.not_le.mpr hl, Bool.false_eq_true, false_and, if_false, and_false]

end

theorem cmdRecipeLoad_digest {x : Bytes} (hx : stagedImage b (leField p 0 2) (leField p 4 2) = some x)
    (hd : shake256 x 64 ≠ slice p 16 64) : cmdRecipeLoad m b p = no b 0x0020 := by
  simp only [cmdRecipeLoad, hx, hd, ne_eq, not_false_eq_true, if_true, ite_self]

theorem cmdRecipeMask_form (hs : shaped p 16 [(2, 6)] = true) (h1 : 0x0800 ≤ leField p 0 2) (h2 : leField p 0 2 ≠ 0xFFFF) :
    cmdRecipeMask m b p = if (recipe? b (leField p 0 2)).isSome then needSump b (.wait (persist b m []) []) else no b 0x0106 := by
  cases h : recipe? b (leField p 0 2) <;> simp [cmdRecipeMask, hs, Nat.not_lt.mpr h1, h2, h]

theorem cmdRecipeDelete_standard (h : leField p 0 2 < 0x1000) : cmdRecipeDelete m b p = no b 0x0020 := by
  simp [cmdRecipeDelete, h]

theorem cmdRecipeDelete_commits (hs : shaped p 4 [(2, 2)] = true) (h1 : 0x1000 ≤ leField p 0 2) (h2 : leField p 0 2 ≠ 0xFFFF)
    (hk : ∃ r ∈ b.chisel.table, r.id = leField p 0 2) (hr : b.sump.st = .ready) : cmdRecipeDelete m b p = .wait (persist b m []) [] := by
  obtain ⟨r, h⟩ := Option.isSome_iff_exists.mp (recipe?_isSome_iff.mpr hk)
  simp [cmdRecipeDelete, hs, Nat.not_lt.mpr h1, h2, h, needSump_ready hr]

/-- A list that one response holds. -/
theorem cmdRecipeList_whole (hs : shaped p 4 [(2, 2)] = true) (hl : (b.chisel.table.filter fun r => leField p 0 2 ≤ r.id).length ≤ 169) :
    cmdRecipeList m b p = ok b (leBytes 2 (b.chisel.table.filter fun r => leField p 0 2 ≤ r.id).length ++ leBytes 2 0xFFFF ++
      ((b.chisel.table.filter fun r => leField p 0 2 ≤ r.id).map (recipeEntry b)).flatten) := by
  simp only [cmdRecipeList, hs, recipesPerList, List.take_of_length_le hl, List.drop_of_length_le hl]
  rfl

/-- A number of two bytes is read back. -/
theorem ofLe_leBytes_two {e : Nat} (h : e < 65536) : ofLe (leBytes 2 e) = e := by
  have lo : ofLe (leBytes 2 e) = e % 256 + 256 * (e / 256 % 256) := by
    simp [ofLe, leBytes, List.range_succ, Nat.shiftRight_eq_div_pow]
  omega

theorem cmdRecipeLoad2_places {x : Bytes} {e : Nat} (h : e < 65536) :
    cmdRecipeLoad2 m b p [leBytes 2 e, x] = ok ((installRecipe b
      { id := leField p 0 2, entry := e, len := leField p 4 2, mask := BitVec.ofNat 64 (leField p 8 8), maxcyc := leField p 2 2 }
      (imageInstructions x)).modBimor fun y => { y with staging := none }) (leBytes 2 e ++ zeros 2) := by
  have entry : ofLe ([leBytes 2 e, x].getD 0 []) = e := ofLe_leBytes_two h
  simp only [cmdRecipeLoad2, entry]
  rfl

/-! ### The decode table (R315 to R317, R361) -/

theorem cmdDecodeLoad_breach {d : Nat} (hl : p.length = 3200) (h : imageBreach p = some d) : cmdDecodeLoad m b p = .reply b 0x0020 d [] := by
  simp only [cmdDecodeLoad, hl, h, ne_eq, not_true_eq_false, if_false]

theorem cmdDecodeLoad_commits (hl : p.length = 3200) (h : imageBreach p = none) (hr : b.sump.st = .ready) :
    cmdDecodeLoad m b p = .wait (persist b m []) [] := by
  simp only [cmdDecodeLoad, hl, h, ne_eq, not_true_eq_false, if_false, needSump_ready hr]

theorem cmdDecodeMask_form (hs : shaped p 16 [(1, 7)] = true) (h8 : pb p 0 < 8) :
    cmdDecodeMask m b p =
      if (Tab.get b.chisel.decode DecodeEntry.reset (pb p 0)).valid then needSump b (.wait (persist b m []) []) else no b 0x0106 := by
  cases h : (Tab.get b.chisel.decode DecodeEntry.reset (pb p 0)).valid <;> simp [cmdDecodeMask, hs, Nat.not_le.mpr h8, h]

/-! ### The statement -/

/-- Settles O47: each command answers, asks for its commit or puts in force what its operands and the state decide. -/
theorem auditAndRecipeCommands : Obligations.AuditAndRecipeCommands := by
  unfold Obligations.AuditAndRecipeCommands
  refine ⟨fun s m p b hold n ed pq => ?_, fun s m p b b1 hold x e => ?_⟩
  · intro scope i c y t usable exists_ ringOk putRing set cancelled ends keysOf signed closed
    refine ⟨fun h hv hk hs => ⟨fun he => ?_, fun he hr => ?_, fun he hr => ?_⟩, fun h hscope => ?_, fun h hscope => ?_,
      fun h hf => ⟨fun hu => ?_, fun hu he => ?_, fun hu he hr => ?_⟩, fun h => ?_, fun h hs hv hu => ⟨fun he => ?_, fun he hr => ?_⟩, fun h => ?_,
      fun h hs hv => ⟨fun hp hk => ?_, fun hk => ?_⟩, fun h hp hb hl => ?_, fun h hp hb hl => ?_, fun h hp hb => ?_⟩
    · exact completes_answers h rfl ((cmdCustodianSet_form hv hk hs).trans (if_neg (mt scopeExists_iff.mp he))) (by decide)
    · exact completes_answers h rfl ((cmdCustodianSet_form hv hk hs).trans ((if_pos (scopeExists_iff.mpr he)).trans (needSump_off hr _))) (by decide)
    · exact completes_waits h rfl ((cmdCustodianSet_form hv hk hs).trans ((if_pos (scopeExists_iff.mpr he)).trans (needSump_ready hr _)))
    · exact settleMailbox_ends h one_ne_zero (if_pos hscope)
    · exact settleMailbox_ends h one_ne_zero (if_neg hscope)
    -- audit rings
    · exact completes_answers h rfl ((cmdAuditRingCreate_form hf).trans (congrArg (orElse b · _) (ringState_unusable hu))) (by decide)
    · exact completes_answers h rfl ((cmdAuditRingCreate_form hf).trans ((congrArg (orElse b · _) (ringState_usable hu)).trans (if_pos he)))
        (by decide)
    · exact completes_waits h rfl ((cmdAuditRingCreate_form hf).trans ((congrArg (orElse b · _) (ringState_usable hu)).trans
        ((if_neg (Bool.eq_false_iff.mp he)).trans (needSump_ready hr _))))
    · exact settleMailbox_ends h one_ne_zero rfl
    · exact completes_answers h rfl ((cmdAuditRingDelete_form hs hv hu).trans (if_neg (Bool.eq_false_iff.mp he))) (by decide)
    · exact completes_waits h rfl ((cmdAuditRingDelete_form hs hv hu).trans ((if_pos he).trans (needSump_ready hr _)))
    · exact settleMailbox_ends h one_ne_zero rfl
    -- keys and flush
    · exact completes_answers h rfl (cmdAuditKeys_answers hs hv hp hk) (by decide)
    · exact completes_answers h rfl (cmdAuditKeys_refuses hs hv hk) (by decide)
    · exact completes_answers h rfl (cmdAuditFlushSystem_answers hp ((flushWait_closed hb).trans hl)) (by decide)
    · exact completes_waits h rfl (cmdAuditFlushSystem_waits hp ((flushWait_closed hb).trans hl))
    · exact completes_waits h rfl (cmdAuditFlushSystem_waits hp (flushWait_open hb))
  · intro id first count len t known old image loads table masked from_ ends
    refine ⟨fun h h1 h2 hs => ⟨fun hl => ?_, fun hl => ?_⟩, fun h hf => ⟨fun hk h6 => ?_, fun hk hl => ?_, fun hk hr => ?_, fun hk hr hs => ?_⟩,
      fun h hs hx hd => ?_, fun h he => ?_, fun h hs h1 h2 => ⟨fun hk => ?_, fun hk hr => ?_⟩, fun h => ?_,
      fun h hs => ⟨fun h1 => ?_, fun h1 h2 hk hr => ?_⟩, fun h => ?_, fun h hs hl => ?_, fun h hl => ⟨fun d hd => ?_, fun hd hr => ?_⟩, fun h => ?_,
      fun h hs h8 => ⟨fun hv => ?_, fun hv hr => ?_⟩, fun h => ?_, fun h hp => ?_⟩
    · exact completes_answers h rfl ((cmdRecipeStage_form h1 h2 hs).trans (if_neg (Nat.not_lt.mpr hl))) (by decide)
    · exact completes_answers h rfl ((cmdRecipeStage_form h1 h2 hs).trans (if_pos hl)) (by decide)
    · exact completes_answers h rfl (cmdRecipeLoad_exists hf hk h6) (by decide)
    · exact completes_answers h rfl (cmdRecipeLoad_full hf hk hl) (by decide)
    · exact completes_answers h rfl ((cmdRecipeLoad_places hf hk).trans (placeRecipe_full x hr)) (by decide)
    · exact completes_waits h rfl ((cmdRecipeLoad_places hf hk).trans (placeRecipe_commits x hr hs))
    · exact completes_answers h rfl (cmdRecipeLoad_digest hx hd) (by decide)
    · exact settleMailbox_ends h one_ne_zero (cmdRecipeLoad2_places (m := m) he)
    · exact completes_answers h rfl ((cmdRecipeMask_form hs h1 h2).trans (if_neg (mt recipe?_isSome_iff.mp hk))) (by decide)
    · exact completes_waits h rfl ((cmdRecipeMask_form hs h1 h2).trans ((if_pos (recipe?_isSome_iff.mpr hk)).trans (needSump_ready hr _)))
    · exact settleMailbox_ends h one_ne_zero rfl
    · exact completes_answers h rfl (cmdRecipeDelete_standard h1) (by decide)
    · exact completes_waits h rfl (cmdRecipeDelete_commits hs h1 h2 hk hr)
    · exact settleMailbox_ends h one_ne_zero rfl
    · exact completes_answers h rfl (cmdRecipeList_whole hs hl) (by decide)
    -- the decode table
    · exact completes_detail h rfl (cmdDecodeLoad_breach hl hd) (by decide)
    · exact completes_waits h rfl (cmdDecodeLoad_commits hl hd hr)
    · exact settleMailbox_ends h one_ne_zero rfl
    · exact completes_answers h rfl ((cmdDecodeMask_form hs h8).trans (if_neg (Bool.eq_false_iff.mp hv))) (by decide)
    · exact completes_waits h rfl ((cmdDecodeMask_form hs h8).trans ((if_pos hv).trans (needSump_ready hr _)))
    · exact settleMailbox_ends h one_ne_zero rfl
    · subst hp
      exact completes_answers h rfl rfl (by decide)

end Sys2Proof.Machine
end

section
/-! PROOFS. The PIN field formats: a field's nibbles, and what each format reads back of a field that it built (R88, R89). -/
namespace Sys2Proof.Machine

/-! ### Nibbles -/

theorem nibbles_append (x y : Bytes) : nibbles (x ++ y) = nibbles x ++ nibbles y := by
  simp [nibbles]

theorem length_nibbles (x : Bytes) : (nibbles x).length = 2 * x.length := by
  induction x with
  | nil => rfl
  | cons a x ih => rw [← List.singleton_append, nibbles_append, List.length_append, ih]; simp [nibbles]; omega

/-- An even number of nibbles, packed, reads as it was. -/
theorem nibbles_packNibbles : ∀ l : List Nat, l.length % 2 = 0 → (∀ x ∈ l, x < 16) → nibbles (packNibbles l) = l
  | [], _, _ => rfl
  | [a], he, _ => by simp at he
  | a :: b :: r, he, hx => by
    have ha := hx a (by simp)
    have hb := hx b (by simp)
    have ih := nibbles_packNibbles r (by simp only [List.length_cons] at he; omega) fun x h => hx x (by simp [h])
    have byte : (BitVec.ofNat 8 (16 * a + b)).toNat = 16 * a + b := by rw [BitVec.toNat_ofNat]; omega
    rw [packNibbles, ← List.singleton_append, nibbles_append, ih]
    simp only [nibbles, List.flatMap_singleton, byte, List.cons_append, List.nil_append]
    congr 2 <;> omega

theorem nibbles_lt {x : Bytes} {d : Nat} (h : d ∈ nibbles x) : d < 16 := by
  obtain ⟨y, -, hy⟩ := List.mem_flatMap.mp h
  have := y.isLt
  simp only [List.mem_cons, List.not_mem_nil, or_false] at hy
  omega

/-! ### The fill of a field -/

/-- The fill nibbles that a format has for a field (R89). -/
def pinFill (fmt : Nat) (drawn : Bytes) : List Nat :=
  if fmt = 1 then nibbles drawn
  else if fmt = 3 then (chunks 4 drawn).map fun v => 10 + ofLe v % 6
  else if fmt = 4 then List.replicate 14 10
  else List.replicate 14 15

theorem buildPin_eq (fmt : Nat) (pin : List Nat) (drawn : Bytes) :
    buildPin fmt pin drawn =
      packNibbles ([fmt, pin.length] ++ pin ++ (pinFill fmt drawn).take (14 - pin.length)) ++ (if fmt = 4 then drawn else []) := rfl

/-- A fill that the format accepts (R88). -/
def FillValid (fmt : Nat) (fill : List Nat) : Prop :=
  (fmt = 0 ∨ fmt = 2 → ∀ x ∈ fill, x = 15) ∧ (fmt = 3 → ∀ x ∈ fill, 10 ≤ x) ∧ (fmt = 4 → ∀ x ∈ fill, x = 10)

/-- A field that holds its format, its PIN's length, the PIN and a valid fill up to 16 nibbles gives the PIN. -/
theorem parsePin_of_nibbles {fmt : Nat} {field : Bytes} {pin fill rest : List Nat}
    (hn : nibbles field = fmt :: pin.length :: (pin ++ fill) ++ rest) (hl : pin.length + fill.length = 14) (h4 : 4 ≤ pin.length)
    (h12 : pin.length ≤ 12) (hd : ∀ d ∈ pin, d < 10) (hf : FillValid fmt fill) : parsePin fmt field = some pin := by
  obtain ⟨h02, h3, hf4⟩ := hf
  have read : (pin ++ fill ++ rest).take pin.length = pin := by simp
  have filled : ((pin ++ fill ++ rest).take 14).drop pin.length = fill := by
    rw [List.take_append_of_le_length (by simp [hl]), List.take_of_length_le (by simp [hl])]; simp
  have fillOk : (if fmt = 0 ∨ fmt = 2 then fill.all (· == 15) else if fmt = 3 then fill.all fun x => decide (10 ≤ x)
      else if fmt = 4 then fill.all (· == 10) else true) = true := by
    split_ifs with a b c
    · simpa using h02 a
    · simpa using h3 b
    · simpa using hf4 c
    · rfl
  have digits : allDigits pin = true := by simpa [allDigits] using hd
  have drop : List.drop (2 + pin.length) (fmt :: pin.length :: ((pin ++ fill ++ rest).take 14)) = fill := by
    rw [Nat.add_comm]; simpa using filled
  simp only [parsePin, hn, List.cons_append, List.take_succ_cons, List.getD_cons_zero, List.getD_cons_succ, List.drop_succ_cons, List.drop_zero,
    drop, read, fillOk, digits, h4, h12, and_self, if_true]

theorem length_chunksFuel_four : ∀ (fuel : Nat) (d : Bytes), d.length ≤ fuel → (chunksFuel 4 fuel d).length = (d.length + 3) / 4
  | 0, d, h => by simp [List.length_eq_zero_iff.mp (Nat.le_zero.mp h), chunksFuel]
  | fuel + 1, [], _ => rfl
  | fuel + 1, a :: d, h => by
    have ih := length_chunksFuel_four fuel ((a :: d).drop 4) (by simp at h ⊢; omega)
    simp only [chunksFuel, List.isEmpty_cons, Bool.false_eq_true, if_false, List.length_cons, ih, List.length_drop]
    omega

/-- The bytes drawn give fill for a PIN of four digits or more. -/
theorem length_pinFill {fmt : Nat} {drawn : Bytes} (h : drawn.length = pinDraw fmt) : 10 ≤ (pinFill fmt drawn).length := by
  unfold pinFill
  unfold pinDraw at h
  split_ifs at h ⊢ with h1 h3 h4
  · rw [length_nibbles]; omega
  · rw [List.length_map, chunks, length_chunksFuel_four _ _ le_rfl]; omega
  · simp
  · simp

/-- Every nibble of the fill is one, and the format accepts it. -/
theorem pinFill_valid {fmt : Nat} (drawn : Bytes) : (∀ x ∈ pinFill fmt drawn, x < 16) ∧ FillValid fmt (pinFill fmt drawn) := by
  unfold pinFill FillValid
  split_ifs with h1 h3 h4
  · exact ⟨fun x hx => nibbles_lt hx, by simp [h1]⟩
  · refine ⟨fun x hx => ?_, by simp [h3], fun _ x hx => ?_, by simp [h3]⟩ <;>
      · obtain ⟨v, -, rfl⟩ := List.mem_map.mp hx
        omega
  · simp [h4]
  · simp [h3, h4]

/-- A part of a valid fill is one. -/
theorem FillValid.take {fmt : Nat} {fill : List Nat} (h : FillValid fmt fill) (n : Nat) : FillValid fmt (fill.take n) := by
  obtain ⟨h02, h3, h4⟩ := h
  exact ⟨fun a x hx => h02 a x (List.mem_of_mem_take hx), fun a x hx => h3 a x (List.mem_of_mem_take hx),
    fun a x hx => h4 a x (List.mem_of_mem_take hx)⟩

/-! ### The statement -/

/-- Settles O23: the nibbles of the field that is built are those that the format reads. -/
theorem pinFieldRoundTrip : Obligations.PinFieldRoundTrip := by
  unfold Obligations.PinFieldRoundTrip
  intro fmt pin drawn hfmt h4 h12 hd hdraw
  obtain ⟨small, valid⟩ := pinFill_valid (fmt := fmt) drawn
  have enough := length_pinFill hdraw
  have whole : pin.length + ((pinFill fmt drawn).take (14 - pin.length)).length = 14 := by rw [List.length_take]; omega
  refine parsePin_of_nibbles (rest := nibbles (if fmt = 4 then drawn else [])) ?_ whole h4 h12 hd (valid.take _)
  rw [buildPin_eq, nibbles_append, nibbles_packNibbles]
  · simp
  · simp only [List.length_append, List.length_cons, List.length_nil]; omega
  · intro x hx
    simp only [List.mem_append, List.mem_cons, List.not_mem_nil, or_false] at hx
    rcases hx with (((rfl | rfl) | hp) | hf)
    · omega
    · omega
    · exact Nat.lt_trans (hd x hp) (by decide)
    · exact small x (List.mem_of_mem_take hf)

end Sys2Proof.Machine
end

section
/-! PROOFS. What an operation's row decides and what then becomes of it; the PIN translations and the PIN verifications, and with them the statement
on them (R85 to R90, R93 to R95, R98 to R103). -/
namespace Sys2Proof.Machine

variable {b b1 : Block} {s : State} {r : Requester} {j : Job} {pan pin : List Nat}

/-! ### The verdicts of a row (R70, R166) -/

section
variable {ins : Instr} {op st : Nat} {row : OpRow} {w : Work} {o : Outcome} {l : List NewRecord} (h : Ready s r j op)
  (hi : exec ins s = run s (liveSettle (opRun · op r))) (hr : opRow op = some row)
include h hi hr

/-- An operation that its row refuses ends with the status. -/
theorem completes_refuses (hv : row.run (begun s r j) r j = (.refuse st, b)) : Completes ins s (refuses b r st) := by
  simp only [Completes, hi, run, opRun_eq h row hr, hv]; rfl

/-- An operation that hands work to an engine with room for it is queued there on the device its row leaves. -/
theorem completes_submits (hv : row.run (begun s r j) r j = (.run w o l, b)) (hf : intakeFull b r j w = false) :
    Completes ins s (settle (submit b r j w (some o) l)) := by
  simp [Completes, hi, run, opRun_eq h row hr, hv, verdictOf, hf]

end

/-! ### PIN translation (R86, R88 to R90, R94) -/

/-- The policy admits the formats, and a translation under one record where there is but one (R94). -/
def TranslationAdmitted (j : Job) (inF outF : Nat) : Prop :=
  translationPermitted j.pinpol inF outF = true ∧ (j.kIn.gidx = j.kOut.gidx → j.pinpol.getLsbD 3 = true)

theorem sameKeyRefused_iff : sameKeyRefused j = true ↔ ¬ (j.kIn.gidx = j.kOut.gidx → j.pinpol.getLsbD 3 = true) := by
  simp [sameKeyRefused]

/-- The work of a translation: the passes of the inbound side after those of a derivation, and those of the outbound side. -/
def translateWork (inF outF extra : Nat) : Work := .spindle .after32 (chained (extra + sidePasses inF)) (sidePasses outF)

section
variable {alg inF outF extra : Nat} {key drawn : Bytes}

theorem translate_forbidden (h : ¬ TranslationAdmitted j inF outF) : translate b j alg key pan inF outF extra = (.refuse 0x0021, b) := by
  have refused : (!translationPermitted j.pinpol inF outF) = true ∨ sameKeyRefused j = true := by
    rw [sameKeyRefused_iff, Bool.not_eq_true', ← Bool.not_eq_true]
    exact not_and_or.mp h
  simp only [translate, refused, if_true]; rfl

section
variable (h : TranslationAdmitted j inF outF)
include h

/-- A translation that the policy admits draws its fill first. -/
theorem translate_admitted : translate b j alg key pan inF outF extra =
    match b.draw (pinDraw outF) with
    | none => (.refuse 0x0040, b)
    | some (drawn, b) => (.run (translateWork inF outF extra)
        (match pinOf j.pinpol inF alg key (j.op 0 16) pan with
          | some pin => okWith (sealBlock outF j.kOut.alg j.kOut.material (buildPin outF pin drawn) pan)
          | none => onlyStatus 0x0023) [], b) := by
  obtain ⟨hp, hk⟩ := h
  have admitted : ¬ ((!translationPermitted j.pinpol inF outF) = true ∨ sameKeyRefused j = true) := by
    rw [sameKeyRefused_iff, not_or, not_not]
    exact ⟨by simp [hp], hk⟩
  simp only [translate, admitted, if_false]
  rfl

theorem translate_noBytes (hd : b.draw (pinDraw outF) = none) : translate b j alg key pan inF outF extra = (.refuse 0x0040, b) := by
  rw [translate_admitted h, hd]

theorem translate_invalid (hd : b.draw (pinDraw outF) = some (drawn, b1)) (hp : pinOf j.pinpol inF alg key (j.op 0 16) pan = none) :
    translate b j alg key pan inF outF extra = (.run (translateWork inF outF extra) (onlyStatus 0x0023) [], b1) := by
  rw [translate_admitted h, hd, hp]

theorem translate_seals (hd : b.draw (pinDraw outF) = some (drawn, b1)) (hp : pinOf j.pinpol inF alg key (j.op 0 16) pan = some pin) :
    translate b j alg key pan inF outF extra = (.run (translateWork inF outF extra)
      (okWith (sealBlock outF j.kOut.alg j.kOut.material (buildPin outF pin drawn) pan)) [], b1) := by
  rw [translate_admitted h, hd, hp]

end

/-- A row that comes to a translation has one of its four courses. -/
theorem completes_translation {ins : Instr} {op : Nat} {row : OpRow} (h : Ready s r j op) (hi : exec ins s = run s (liveSettle (opRun · op r)))
    (hr : opRow op = some row) (hv : row.run (begun s r j) r j = translate (begun s r j) j alg key pan inF outF extra) :
    (¬ TranslationAdmitted j inF outF → Completes ins s (refuses (begun s r j) r 0x0021)) ∧
    (TranslationAdmitted j inF outF → (begun s r j).draw (pinDraw outF) = none → Completes ins s (refuses (begun s r j) r 0x0040)) ∧
    (TranslationAdmitted j inF outF → (begun s r j).draw (pinDraw outF) = some (drawn, b1) →
      (pinOf j.pinpol inF alg key (j.op 0 16) pan = none →
        Completes ins s (works b1 r j (translateWork inF outF extra) (onlyStatus 0x0023))) ∧
      (pinOf j.pinpol inF alg key (j.op 0 16) pan = some pin → Completes ins s (works b1 r j (translateWork inF outF extra)
        (okWith (sealBlock outF j.kOut.alg j.kOut.material (buildPin outF pin drawn) pan))))) :=
  ⟨fun hn => completes_refuses h hi hr (hv.trans (translate_forbidden hn)),
    fun ha hd => completes_refuses h hi hr (hv.trans (translate_noBytes ha hd)),
    fun ha hd => ⟨fun hp => completes_submits h hi hr (hv.trans (translate_invalid ha hd hp)) rfl,
      fun hp => completes_submits h hi hr (hv.trans (translate_seals ha hd hp)) rfl⟩⟩

end

/-- What the two translations ask of their formats and of the outbound key (R85, R95). -/
def TranslateForm (j : Job) (pan : List Nat) : Prop :=
  panOperand j 16 (formatBinds (j.opN 26 % 16) || formatBinds (j.opN 26 / 16)) = some pan ∧ j.opN 26 % 16 ≤ 4 ∧ j.opN 26 / 16 ≤ 4 ∧
    pinFieldOk j (j.opN 26 % 16) = true ∧ formatSuits (j.opN 26 / 16) j.kOut.alg = true

theorem opPinTranslate_translates (h : TranslateForm j pan) (hf : formA j = true) (hz : j.zero 27 31 = true)
    (hk : formatSuits (j.opN 26 % 16) j.kIn.alg = true) :
    opPinTranslate b r j = translate b j j.kIn.alg j.kIn.material pan (j.opN 26 % 16) (j.opN 26 / 16) 0 := by
  obtain ⟨hpan, hin, hout, hfield, hsuits⟩ := h
  simp only [opPinTranslate, hpan, hf, hz, hfield, hk, hsuits, Nat.not_lt.mpr hin, Nat.not_lt.mpr hout, Bool.not_true, Bool.false_eq_true,
    or_self, if_false]

/-- A translation under the transaction key `t` (R98, R99). -/
theorem opPinTranslateDukpt_translates {t : Nat × Bytes × Nat} (ht : dukptKey j.kIn (j.opN 27) (j.op 28 12) variantPin 0x1000 = t)
    (h : TranslateForm j pan) (hf : formB j = true) (hs : dukptSyntax (j.opN 27) (j.op 28 12) = true)
    (hk : kindSuits (j.opN 27 % 4) j.kIn.alg = true)
    (ha : if isAes t.1 then j.opN 26 % 16 = 4 else j.opN 26 % 16 = 0 ∨ j.opN 26 % 16 = 1 ∨ j.opN 26 % 16 = 3) :
    opPinTranslateDukpt b r j = translate b j t.1 t.2.1 pan (j.opN 26 % 16) (j.opN 26 / 16) t.2.2 := by
  obtain ⟨hpan, hin, hout, hfield, hsuits⟩ := h
  have inOk : (if isAes t.1 then j.opN 26 % 16 == 4 else j.opN 26 % 16 == 0 || j.opN 26 % 16 == 1 || j.opN 26 % 16 == 3) = true := by
    split at ha <;> simp [*, or_assoc]
  subst ht
  simp only [opPinTranslateDukpt, hpan, hf, hs, hfield, hk, hsuits, inOk, Nat.not_lt.mpr hin, Nat.not_lt.mpr hout, Bool.not_true,
    Bool.false_eq_true, or_self, if_false]

/-! ### PIN verification (R101 to R103) -/

/-- How a verification ends: by the test of the block's PIN, or with PIN_BLOCK where the block is not valid. -/
def pinAnswer (got : Option (List Nat)) (good : List Nat → Bool) : Outcome :=
  match got with
  | some pin => onlyStatus (if good pin then 0 else 2)
  | none => onlyStatus 0x0023

/-- How a comparison of two blocks ends. -/
def pinCompared (got stored : Option (List Nat)) : Outcome :=
  match got, stored with
  | some x, some y => onlyStatus (if x = y then 0 else 2)
  | _, _ => onlyStatus 0x0023

/-- The PIN of a verification's block. -/
def blockPin (j : Job) (pan : List Nat) : Option (List Nat) := pinOf j.pinpol (j.opN 26 % 16) j.kIn.alg j.kIn.material (j.op 0 16) pan

/-- The work of a verification: the passes that open the block, and `second` for what it is compared with. -/
def verifyWork (j : Job) (fuse : Fuse) (second : Nat) : Work := .spindle fuse (chained (sidePasses (j.opN 26 % 16))) second

/-- What the verifications ask of the block's format and its key (R85, R101). -/
def VerifyForm (j : Job) : Prop :=
  verifyFormat (j.opN 26 % 16) = true ∧ pinFieldOk j (j.opN 26 % 16) = true ∧ formatSuits (j.opN 26 % 16) j.kIn.alg = true

section
variable (h : VerifyForm j)
include h

theorem opPinVerifyOffset_answers {table : Bytes} (hpan : panOperand j 16 (formatBinds (j.opN 26 % 16)) = some pan)
    (ht : Tab.get? j.decTabs (j.opN 27 % 8) = some table) (hf : formB j = true) (hr : j.opN 26 / 16 = 0)
    (h3 : (j.opN 27).testBit 3 = false) (h4 : 4 ≤ j.opN 27 / 16) (h8 : j.opN 27 / 16 ≤ 8)
    (hd : allDigits ((nibbles (j.op 36 4)).take (j.opN 27 / 16)) = true) (hx : ∀ x ∈ (nibbles (j.op 36 4)).drop (j.opN 27 / 16), x = 15) :
    opPinVerifyOffset b r j = (.run (verifyWork j .sameCycle 1) (pinAnswer (blockPin j pan) fun pin =>
      pin == offsetPin j.kOut.alg j.kOut.material (j.op 28 8) table (j.op 36 4) (j.opN 27 / 16)) [], b) := by
  obtain ⟨hv, hp, hk⟩ := h
  have rest : ((nibbles (j.op 36 4)).drop (j.opN 27 / 16)).all (· == 15) = true := by simpa using hx
  simp only [opPinVerifyOffset, hpan, ht, hf, hv, hr, hp, h3, hd, rest, hk, Nat.not_lt.mpr h4, Nat.not_lt.mpr h8, Bool.not_true,
    Bool.false_eq_true, ne_eq, not_true_eq_false, or_self, if_false]
  rfl

theorem opPinVerifyPvv_answers (hpan : panDigits (j.op 16 10) = some pan) (hf : formA j = true) (hr : j.opN 26 / 16 = 0) (h6 : j.opN 27 ≤ 6)
    (hd : allDigits (nibbles (j.op 28 2)) = true) (hz : j.zero 30 31 = true) :
    opPinVerifyPvv b r j = (.run (verifyWork j .after32 1) (pinAnswer (blockPin j pan) fun pin =>
      nibbles (j.op 28 2) == pvvOf j.kOut.material pan (j.opN 27) pin) [], b) := by
  obtain ⟨hv, hp, hk⟩ := h
  simp only [opPinVerifyPvv, hpan, hf, hv, hr, hp, hd, hz, hk, Nat.not_lt.mpr h6, Bool.not_true, Bool.false_eq_true, ne_eq, not_true_eq_false,
    or_self, if_false]
  rfl

theorem opPinVerifyCompare_answers (hpan : panOperand j 16 (formatBinds (j.opN 26 % 16) || formatBinds (j.opN 26 / 16)) = some pan)
    (hf : formC r j = true) (hv' : verifyFormat (j.opN 26 / 16) = true) (hz : j.zero 27 31 = true)
    (hl : j.inLen = if j.opN 26 / 16 = 4 then 16 else 8) (hk' : formatSuits (j.opN 26 / 16) j.kOut.alg = true) :
    opPinVerifyCompare b r j = (.run (verifyWork j .sameCycle (sidePasses (j.opN 26 / 16)))
      (pinCompared (blockPin j pan) (pinOf j.pinpol (j.opN 26 / 16) j.kOut.alg j.kOut.material j.input pan)) [], b) := by
  obtain ⟨hv, hp, hk⟩ := h
  simp only [opPinVerifyCompare, hpan, hf, hv, hv', hp, hz, hl, hk, hk', Bool.not_true, Bool.false_eq_true, ne_eq, not_true_eq_false,
    or_self, if_false]
  unfold blockPin
  cases pinOf j.pinpol (j.opN 26 % 16) j.kIn.alg j.kIn.material (j.op 0 16) pan <;>
    cases pinOf j.pinpol (j.opN 26 / 16) j.kOut.alg j.kOut.material j.input pan <;>
    simp [pinCompared, verified, verifyWork, justStatus, onlyStatus]

end

/-! ### The statement -/

/-- Settles O22: each translation takes the course that its policy, its draw and its block name, and each verification answers by its test. -/
theorem pinOperations : Obligations.PinOperations := by
  unfold Obligations.PinOperations
  refine ⟨fun s r j pan pin drawn b1 => ?_, fun s r j pan table => ?_⟩
  · intro b inF outF policy dflags t permitted passes all hpan hin hout hfield hsuits
    have form : TranslateForm j pan := ⟨hpan, hin, hout, hfield, hsuits⟩
    exact ⟨fun h hf hz hk => completes_translation h rfl rfl (opPinTranslate_translates (r := r) form hf hz hk),
      fun h hf hs hk hi => completes_translation h rfl rfl (opPinTranslateDukpt_translates (r := r) rfl form hf hs hk hi)⟩
  · intro b f ref l policy got stored passes answer hv hp hk
    have form : VerifyForm j := ⟨hv, hp, hk⟩
    exact ⟨fun h hpan ht hf hr h3 h4 h8 hd hx =>
        completes_works h rfl rfl (opPinVerifyOffset_answers (r := r) form hpan ht hf hr h3 h4 h8 hd hx) rfl,
      fun h hpan hf hr h6 hd hz => completes_works h rfl rfl (opPinVerifyPvv_answers (r := r) form hpan hf hr h6 hd hz) rfl,
      fun h hpan hf hv' hz hl hk' => completes_works h rfl rfl (opPinVerifyCompare_answers form hpan hf hv' hz hl hk') rfl⟩

end Sys2Proof.Machine
end

section
/-! PROOFS. TR-31 key blocks, the initial keys of DUKPT and the generation of key pairs, one lemma for each course of an operation, and with them the
statement on them (R112 to R117, R164, R173, R174, R182). -/
namespace Sys2Proof.Machine

variable {b b1 b2 b3 : Block} {s : State} {r : Requester} {j : Job}

/-! ### Import (R112 to R115) -/

/-- An import's operands are of their form and its block parses, under a key of the block's version (R113 checks 1 and 2). -/
def ImportForm (b : Block) (r : Requester) (j : Job) (t : KeyBlock) : Prop :=
  formC r j = true ∧ j.opN 8 ≤ 1 ∧ j.zero 9 31 = true ∧ (ofLe (j.op 0 4) = 0xFFFFFFFF ∨ ofLe (j.op 0 4) < b.sumpSpace) ∧
    tr31Parse j.input = some t ∧ (if t.version = 0x42 then isTdes j.kIn.alg = true else isAes j.kIn.alg = true)

/-- A key field gives a key of an algorithm that its header and the wrapping key admit, the block having no optional blocks (R113 checks 4 and 5,
R114). -/
def ImportKey (j : Job) (t : KeyBlock) (field : Bytes) (alg : Nat) : Prop :=
  let n := ofBe (field.take 2) / 8
  ofBe (field.take 2) % 8 = 0 ∧ n + 2 ≤ field.length ∧ tr31AlgOf t.alg n = some alg ∧ t.options = [] ∧ symmetricUse alg t.usage t.mode = true ∧
    keyStrength alg n ≤ keyStrength j.kIn.alg j.kIn.material.length ∧ (t.version = 0x42 → isTdes alg = true)

/-- The key that a key field holds. -/
def fieldKey (field : Bytes) : Bytes := slice field 2 (ofBe (field.take 2) / 8)

/-- The record of an imported key, its handle and its KCV. -/
def importedRecord (b : Block) (j : Job) (t : KeyBlock) (field : Bytes) (alg g : Nat) : NewRecord × Nat × Bytes :=
  newSymmetric b j.chamber g alg t.usage t.mode t.exp t.kvn (ofLe (j.op 4 4)) (hSlot j.kIn.handle) (fieldKey field)

theorem versionSuits_holds {v : Byte} {alg : Nat} (h : if v = 0x42 then isTdes alg = true else isAes alg = true) :
    (if v = 0x42 then !isTdes alg else !isAes alg) = false := by
  by_cases hv : v = 0x42
  · rw [if_pos hv] at h ⊢; rw [h]; rfl
  · rw [if_neg hv] at h ⊢; rw [h]; rfl

section
variable {t : KeyBlock} (h : ImportForm b r j t)
include h

theorem opTr31Import_unauthentic (hu : tr31Unwrap j.kIn.alg j.kIn.material t.header t.enc t.mac = none) :
    opTr31Import b r j = (.refuse 0x0024, b) := by
  obtain ⟨hf, h8, hz, hs, hp, hv⟩ := h
  have flags : j.opN 8 / 2 = 0 := by omega
  have slotOk : ¬ (ofLe (j.op 0 4) ≠ 0xFFFFFFFF ∧ b.sumpSpace ≤ ofLe (j.op 0 4)) := by omega
  have suits := versionSuits_holds hv
  simp only [opTr31Import, hf, flags, hz, slotOk, hp, suits, hu, Bool.not_true, Bool.false_eq_true, ne_eq, not_true_eq_false, or_self, if_false]
  rfl

theorem opTr31Import_creates {field : Bytes} {alg g : Nat} (hu : tr31Unwrap j.kIn.alg j.kIn.material t.header t.enc t.mac = some field)
    (hk : ImportKey j t field alg) (hg : importSlot b j.chamber (ofLe (j.op 0 4)) ((j.opN 8).testBit 0) = .ok g) :
    opTr31Import b r j =
      runCreating b j.chamber (.spindle .none (tr31Pace j.kIn.alg j.kIn.material.length t.header.length field.length) 0)
        (okWith (leBytes 8 (importedRecord b j t field alg g).2.1 ++ symmetricKcv alg (fieldKey field))) [(importedRecord b j t field alg g).1] := by
  obtain ⟨hf, h8, hz, hs, hp, hv⟩ := h
  obtain ⟨hbits, hlen, halg, hopt, huse, hstrength, htdes⟩ := hk
  have flags : j.opN 8 / 2 = 0 := by omega
  have slotOk : ¬ (ofLe (j.op 0 4) ≠ 0xFFFFFFFF ∧ b.sumpSpace ≤ ofLe (j.op 0 4)) := by omega
  have suits := versionSuits_holds hv
  have tdesOk : ¬ (t.version = 0x42 ∧ (!isTdes alg) = true) := fun hb => by simp [htdes hb.1] at hb
  simp only [opTr31Import, hf, flags, hz, slotOk, hp, suits, hu, hbits, hlen, halg, hopt, huse, Nat.not_lt.mpr hstrength, tdesOk, hg,
    List.all_nil, Bool.not_true, Bool.false_eq_true, ne_eq, not_true_eq_false, or_self, and_self, if_false, if_true]
  rfl

end

/-! ### Blocks exported (R116, R117) -/

/-- Characters that the manual leaves open, as printable ASCII. -/
def printableOf (l : Bytes) : Bytes := l.map fun x => BitVec.ofNat 8 (0x20 + x.toNat % 95)

/-- The header of an exported block. -/
def exportHeader (version : Byte) (usage : Bytes) (alg : Nat) (mode : Byte) (kvn : Bytes) (exp : Byte) (o : List OptBlock) (key pb : Bytes) : Bytes :=
  tr31Header version usage (tr31AlgChar alg) mode kvn exp o key.length (printableOf pb)

/-- The work of exporting a block: `extra` passes of a derivation before those of the block. -/
def exportWork (j : Job) (header key pad : Bytes) (extra : Nat) : Work :=
  .spindle .none ((extra, true) :: tr31Pace j.kIn.alg j.kIn.material.length header.length (key.length + 2 + pad.length)) 0

/-- The block exported, once its padding is drawn. -/
theorem exportBlock_wraps {version mode exp : Byte} {usage kvn key result pad pb : Bytes} {alg extra : Nat} {o : List OptBlock}
    (hd : b.draw (tr31PadLen (if version = 0x44 then 16 else 8) key.length) = some (pad, b2)) (hp : b2.fresh 32 = (pb, b3)) :
    exportBlock b j version usage alg mode kvn exp o key result extra =
      let header := exportHeader version usage alg mode kvn exp o key pb
      (.run (exportWork j header key pad extra) (okOut result (tr31Wrap j.kIn.alg j.kIn.material header (tr31Field key pad))) [], b3) := by
  simp only [exportBlock, hd, hp]
  rfl

/-- TR31_EXPORT's operands are of their form (R116). -/
def ExportForm (r : Requester) (j : Job) : Prop :=
  formC r j = true ∧ (byteAt j.operands 0 = 0x42 ∨ byteAt j.operands 0 = 0x44) ∧ j.opN 1 ≤ 3 ∧ j.zero 2 31 = true ∧ j.inLen = 0

/-- The KC and KP blocks asked for, KC first (R116, log entry 101). -/
def exportChecks (j : Job) (free : Bytes) : List OptBlock :=
  (if (j.opN 1).testBit 0 then [kcvBlock "KC" j.kOut.alg (recKcv j.kOut.head) free] else []) ++
    (if (j.opN 1).testBit 1 then [kcvBlock "KP" j.kIn.alg (recKcv j.kIn.head) []] else [])

section
variable (h : ExportForm r j)
include h

/-- TR31_EXPORT of its form: the wrapped key's attributes decide. -/
theorem opTr31Export_form : opTr31Export b r j =
    if recExport j.kOut.head = 0x4E ∨ wrapRefused j.kIn (byteAt j.operands 0) j.kOut.alg j.kOut.material.length ∨ j.kOut.usage = ascii "9A" ∨
        !(hClass j.kOut.handle == 0 || (hClass j.kOut.handle == 3 &&
          (j.kOut.usage == ascii "B0" || j.kOut.usage == ascii "B1" || j.kOut.usage == ascii "E0"))) then (.refuse 0x0011, b)
    else
      let x := if isAes j.kOut.alg || isTdes j.kOut.alg then ([], b) else b.fresh 1
      exportBlock x.2 j (byteAt j.operands 0) j.kOut.usage j.kOut.alg (recMode j.kOut.head) (recKvn j.kOut.head) (recExport j.kOut.head)
        (exportChecks j x.1) j.kOut.material (recKcv j.kOut.head) 0 := by
  obtain ⟨hf, hv, hx, hz, hl⟩ := h
  have version : ¬ (byteAt j.operands 0 ≠ 0x42 ∧ byteAt j.operands 0 ≠ 0x44) := by rcases hv with hv | hv <;> simp [hv]
  have flags : j.opN 1 / 4 = 0 := by omega
  simp only [opTr31Export, hf, version, flags, hz, hl, Bool.not_true, Bool.false_eq_true, ne_eq, not_true_eq_false, or_self, if_false]
  rfl

theorem opTr31Export_unexportable (hx : recExport j.kOut.head = 0x4E) : opTr31Export b r j = (.refuse 0x0011, b) := by
  rw [opTr31Export_form h, if_pos (.inl hx)]

theorem opTr31Export_exports {free : Bytes} (hx : recExport j.kOut.head ≠ 0x4E)
    (hw : wrapRefused j.kIn (byteAt j.operands 0) j.kOut.alg j.kOut.material.length = false) (hu : j.kOut.usage ≠ ascii "9A")
    (hc : hClass j.kOut.handle = 0 ∨
      (hClass j.kOut.handle = 3 ∧ (j.kOut.usage = ascii "B0" ∨ j.kOut.usage = ascii "B1" ∨ j.kOut.usage = ascii "E0")))
    (hfree : if isAes j.kOut.alg || isTdes j.kOut.alg then free = [] ∧ b1 = b else b.fresh 1 = (free, b1)) :
    opTr31Export b r j = exportBlock b1 j (byteAt j.operands 0) j.kOut.usage j.kOut.alg (recMode j.kOut.head) (recKvn j.kOut.head)
      (recExport j.kOut.head) (exportChecks j free) j.kOut.material (recKcv j.kOut.head) 0 := by
  have drawn : (if isAes j.kOut.alg || isTdes j.kOut.alg then ([], b) else b.fresh 1) = (free, b1) := by
    split at hfree
    · obtain ⟨rfl, rfl⟩ := hfree
      simp [*]
    · simp [*]
  have classOk : (hClass j.kOut.handle == 0 || (hClass j.kOut.handle == 3 &&
      (j.kOut.usage == ascii "B0" || j.kOut.usage == ascii "B1" || j.kOut.usage == ascii "E0"))) = true := by
    simpa [or_assoc] using hc
  rw [opTr31Export_form h]
  simp only [hx, hw, hu, classOk, drawn, Bool.not_true, Bool.false_eq_true, or_self, if_false]

end

/-- DUKPT_IK_EXPORT's operands are of their form, and its kind suits the base key (R99, R117). -/
def IkForm (r : Requester) (j : Job) : Prop :=
  formC r j = true ∧ (byteAt j.operands 0 = 0x42 ∨ byteAt j.operands 0 = 0x44) ∧ j.opN 1 ≤ 1 ∧ j.zero 2 3 = true ∧ j.zero 16 31 = true ∧
    j.inLen = 0 ∧ (if j.opN 1 = 0 then tdesCounter (j.op 4 10) = 0 ∧ j.zero 14 15 = true else j.zero 12 15 = true) ∧
    kindSuits (j.opN 1) j.kOut.alg = true

/-- The initial key of a base key (R117). -/
def initialKey (j : Job) : Bytes := if j.opN 1 = 0 then tdesIk j.kOut.material (j.op 4 10) else aesIk j.kOut.alg j.kOut.material (j.op 4 8)

/-- The algorithm of an initial key (R117). -/
def initialKeyAlg (j : Job) : Nat := if j.opN 1 = 0 then 1 else j.kOut.alg

/-- The optional block that names an initial key. -/
def initialKeyBlock (j : Job) : OptBlock := if j.opN 1 = 0 then (ascii "KS", toHex (j.op 4 10)) else (ascii "IK", toHex (j.op 4 8))

theorem opDukptIkExport_exports {free : Bytes} (h : IkForm r j)
    (hw : wrapRefused j.kIn (byteAt j.operands 0) (initialKeyAlg j) (initialKey j).length = false) (hfree : b.fresh 18 = (free, b1)) :
    opDukptIkExport b r j = exportBlock b1 j (byteAt j.operands 0) (ascii "B1") (initialKeyAlg j) 0x58 (printableOf (free.take 2)) 0x4E
      [initialKeyBlock j] (initialKey j) (free.drop 2) 1 := by
  obtain ⟨hf, hv, h1, hz, hz', hl, hid, hk⟩ := h
  have version : ¬ (byteAt j.operands 0 ≠ 0x42 ∧ byteAt j.operands 0 ≠ 0x44) := by rcases hv with hv | hv <;> simp [hv]
  have idOk : (if j.opN 1 = 0 then tdesCounter (j.op 4 10) == 0 && j.zero 14 15 else j.zero 12 15) = true := by
    split at hid <;> simp [*]
  simp only [initialKeyAlg, initialKey] at hw
  simp only [opDukptIkExport, hf, version, Nat.not_lt.mpr h1, hz, hz', hl, idOk, hk, hw, hfree, Bool.not_true, Bool.false_eq_true, ne_eq,
    not_true_eq_false, or_self, if_false]
  rfl

/-! ### Key pairs (R164, R173, R174, R182) -/

/-- The checks of a generation's operands and input pass (R164, R173). -/
def KeygenForm (r : Requester) (j : Job) : Prop :=
  pkSyntax r j 3 = true ∧ newRecordOk j true = true ∧ j.ctxLen + j.labelLen ≤ j.input.length

theorem keygenPlan_malformed (h : pkSyntax r j 3 = false ∨ newRecordOk j true = false ∨ j.input.length < j.ctxLen + j.labelLen) :
    keygenPlan b r j = .error 0x0020 := by
  have bad : (!pkSyntax r j 3) = true ∨ (!newRecordOk j true) = true ∨ j.input.length < j.ctxLen + j.labelLen := by simpa using h
  simp only [keygenPlan, bad, if_true]

/-- The slots of the record that holds a generation's secret key. -/
def privateWidth (j : Job) : Nat := slotsFor (privateLen (schemeAlg j.scheme) j.keyBits)

/-- The slots of its public record, which holds a fingerprint where the key is too long (R33). -/
def publicWidth (j : Job) : Nat := publicSlots (if 872 < keygenPublicLen j then 64 else keygenPublicLen j)

/-- The device with the slots of the secret key's record reserved. -/
def privateHeld (b : Block) (j : Job) (g : Nat) : Block :=
  b.modCh j.chamber fun h => { h with reservedSlots := h.reservedSlots ++ (List.range (privateWidth j)).map (g + ·) }

/-- A record that is yet to be made reserves its slots. -/
theorem reserveSlots_placeholder (b : Block) (j : Job) (g : Nat) :
    reserveSlots b j.chamber [placeholder g (privateWidth j)] = privateHeld b j g := by
  simp [reserveSlots, placeholder, privateHeld]

theorem keygenPlaces_eq {g1 : Nat} (h1 : lowestRun b j.chamber (privateWidth j) = some g1) : keygenPlaces b j =
    (lowestRun (privateHeld b j g1) j.chamber (publicWidth j)).map fun g2 => [placeholder g1 (privateWidth j), placeholder g2 (publicWidth j)] := by
  rw [← reserveSlots_placeholder]
  unfold privateWidth at h1 ⊢
  simp only [keygenPlaces, h1]
  rfl

section
variable (h : KeygenForm r j)
include h

/-- A generation of its form: its use and its places decide. -/
theorem keygenPlan_form : keygenPlan b r j =
    if !keygenUse j then .error 0x0011
    else (keygenPlaces b j).elim (.error 0x0015) .ok := by
  obtain ⟨hp, hn, hl⟩ := h
  simp only [keygenPlan, hp, hn, Nat.not_lt.mpr hl, Bool.not_true, Bool.false_eq_true, or_self, if_false]
  cases keygenPlaces b j <;> rfl

theorem keygenPlan_misused (hu : keygenUse j = false) : keygenPlan b r j = .error 0x0011 := by
  rw [keygenPlan_form h, hu]; rfl

section
variable (hu : keygenUse j = true)
include hu

theorem keygenPlan_noPrivate (h1 : lowestRun b j.chamber (privateWidth j) = none) : keygenPlan b r j = .error 0x0015 := by
  have places : keygenPlaces b j = none := by
    unfold privateWidth at h1
    simp only [keygenPlaces, h1]
  rw [keygenPlan_form h, hu, places]; rfl

theorem keygenPlan_noPublic {g1 : Nat} (h1 : lowestRun b j.chamber (privateWidth j) = some g1)
    (h2 : lowestRun (privateHeld b j g1) j.chamber (publicWidth j) = none) : keygenPlan b r j = .error 0x0015 := by
  rw [keygenPlan_form h, hu, keygenPlaces_eq h1, h2]; rfl

theorem keygenPlan_places {g1 g2 : Nat} (h1 : lowestRun b j.chamber (privateWidth j) = some g1)
    (h2 : lowestRun (privateHeld b j g1) j.chamber (publicWidth j) = some g2) :
    keygenPlan b r j = .ok [placeholder g1 (privateWidth j), placeholder g2 (publicWidth j)] := by
  rw [keygenPlan_form h, hu, keygenPlaces_eq h1, h2]; rfl

end

end

/-! The body of PK_KEYGEN is put in its place by `delta`: its equation lemma is costly to derive. -/

theorem opPkKeygen_refused {st : Nat} (h : keygenPlan b r j = .error st) : opPkKeygen b r j = (.refuse st, b) := by
  delta opPkKeygen
  simp only [h]; rfl

section
variable {l : List NewRecord} (h : keygenPlan b r j = .ok l)
include h

theorem opPkKeygen_rsa (hs : schemeRsa j.scheme = true) :
    opPkKeygen b r j = (.run (.gallery false false false []) (onlyStatus 0) l, reserveSlots b j.chamber l) := by
  delta opPkKeygen
  simp only [h, hs, if_true]; rfl

theorem opPkKeygen_noBytes (hs : schemeRsa j.scheme = false) (hd : b.draw (keygenDraw j.scheme) = none) :
    opPkKeygen b r j = (.refuse 0x0040, b) := by
  delta opPkKeygen
  simp only [h, hs, hd, Bool.false_eq_true, if_false]; rfl

theorem opPkKeygen_makes {drawn : Bytes} (hs : schemeRsa j.scheme = false) (hd : b.draw (keygenDraw j.scheme) = some (drawn, b1)) :
    opPkKeygen b r j = (.run (.gallery (schemeLattice j.scheme) false false drawn) (keygenRecords b1 j l drawn).1 (keygenRecords b1 j l drawn).2,
      reserveSlots b1 j.chamber (keygenRecords b1 j l drawn).2) := by
  delta opPkKeygen
  simp only [h, hs, hd, Bool.false_eq_true, if_false]; rfl

end

/-! ### The statement -/

/-- Settles O24: each import, each block exported and each generation takes the course that its checks and draws name. -/
theorem keyBlocks : Obligations.KeyBlocks := by
  unfold Obligations.KeyBlocks
  refine ⟨fun s r j t field alg g pad pb free b1 b2 b3 => ?_, fun s r j g1 g2 drawn b1 => ?_⟩
  · intro b k x slot n key version flags blk printable exports
    refine ⟨fun h hf h8 hz hs hp hv hu h1 h2 h3 h4 h5 h6 h7 hg => ?_, fun h hf h8 hz hs hp hv hu => ?_,
      fun h hf hv hx hz hl hn hw hu hc hfree hd hp => ?_, fun h hf hv hx hz hl hn => ?_,
      fun h hf hv h1 hz hz' hl hid hk hw hfree hd hp => ?_⟩
    · exact completes_submits h rfl rfl (opTr31Import_creates (t := t) ⟨hf, h8, hz, hs, hp, hv⟩ hu ⟨h1, h2, h3, h4, h5, h6, h7⟩ hg) rfl
    · exact completes_refuses h rfl rfl (opTr31Import_unauthentic (t := t) ⟨hf, h8, hz, hs, hp, hv⟩ hu)
    · exact completes_submits h rfl rfl
        ((opTr31Export_exports ⟨hf, hv, hx, hz, hl⟩ hn hw hu hc hfree).trans (exportBlock_wraps hd hp)) rfl
    · exact completes_refuses h rfl rfl (opTr31Export_unexportable ⟨hf, hv, hx, hz, hl⟩ hn)
    · exact completes_submits h rfl rfl
        ((opDukptIkExport_exports ⟨hf, hv, h1, hz, hz', hl, hid, hk⟩ hw hfree).trans (exportBlock_wraps hd hp)) rfl
  · intro b c alg bits n fp w held sk length pk mode priv pub l h1 h2 blank h
    have width : w = publicWidth j := by simp only [w, fp, decide_eq_true_eq]; rfl
    clear_value w
    subst width
    refine ⟨fun hbad => completes_refuses h rfl rfl (opPkKeygen_refused (keygenPlan_malformed hbad)), fun hp hn hl => ?_⟩
    have form : KeygenForm r j := ⟨hp, hn, hl⟩
    refine ⟨fun hu => completes_refuses h rfl rfl (opPkKeygen_refused (keygenPlan_misused form hu)),
      fun hu hg1 => completes_refuses h rfl rfl (opPkKeygen_refused (keygenPlan_noPrivate form hu hg1)),
      fun hu hg1 hg2 => completes_refuses h rfl rfl (opPkKeygen_refused (keygenPlan_noPublic form hu hg1 hg2)), fun hu hg1 hg2 => ?_⟩
    have plan := keygenPlan_places form hu hg1 hg2
    exact ⟨fun hs => completes_submits h rfl rfl (opPkKeygen_rsa plan hs) rfl,
      fun hs hd => completes_refuses h rfl rfl (opPkKeygen_noBytes plan hs hd),
      fun hs hd => completes_submits h rfl rfl (opPkKeygen_makes plan hs hd) rfl⟩

end Sys2Proof.Machine
end

section
/-! PROOFS. The chamber commands: what each answers or waits for, what its last stage puts in force, and with them the statement on them (R48, R91,
R92, R192, R231, R245, R323, R325, R326, R333, R334, R353, R356, R357). -/
namespace Sys2Proof.Machine

variable {b b1 : Block} {m : Mbx} {p : Bytes} {c : Nat}

/-! ### The chamber that a payload names (R356, R357) -/

/-- The chamber has been created. -/
def Made (b : Block) (c : Nat) : Prop := c < b.n ∧ (b.chamber c).st ≠ .none

theorem chamberCheck_made (h : Made b c) : chamberCheck b c = none := by
  obtain ⟨hc, hs⟩ := h
  simp [chamberCheck, Nat.not_le.mpr hc, hs]

theorem chamberCheck_beyond (h : b.n ≤ c) : chamberCheck b c = some 0x0020 := if_pos h

theorem chamberCheck_absent (hc : c < b.n) (hs : (b.chamber c).st = .none) : chamberCheck b c = some 0x0106 := by
  simp [chamberCheck, Nat.not_le.mpr hc, hs]

/-- A command on a chamber that has been created goes on to what follows its check. -/
theorem orElse_made (h : Made b c) (r : Res) : orElse b (chamberCheck b c) r = r := by rw [chamberCheck_made h]; rfl

/-- A commit of settings that a created chamber's command asks for while Sump is ready. -/
theorem commits_made (h : Made b c) (hr : b.sump.st = .ready) :
    orElse b (chamberCheck b c) (needSump b (.wait (persist b m []) [])) = .wait (persist b m []) [] :=
  (orElse_made h _).trans (needSump_ready hr _)

/-! ### Creation (R325, R357) -/

/-- The operands of CHAMBER_CREATE are in range. -/
def NewForm (b : Block) (m : Mbx) (p : Bytes) : Prop :=
  pb p 0 < b.n ∧ pb p 1 < 2 ∧ ((pb p 1).testBit 0 = true → 3 ≤ (reqVersion (b.mbx (mbxNo m))).1) ∧ kOfN (pb p 2) (pb p 3) = true ∧
    shaped p (8 + 57 * pb p 3) [(4, 4)] = true

/-- The device as a creation draws its audit keys: what an earlier chamber of that number left is gone. -/
def vacated (b : Block) (c : Nat) : Block := { b with ch := Tab.erase b.ch c }

/-- The creation number that a creation takes (R325). -/
def nextCreation (b : Block) (c : Nat) : Nat := (Tab.get b.strata.creation 0 c + 1) % 2 ^ 32

/-- The device with a creation's number taken, and its keys' slots reserved and their commit asked for. -/
def creationAsked (b : Block) (m : Mbx) (c : Nat) (writes : List NewRecord) : Block :=
  persist (reserveSlots (b.modStrata fun s => { s with creation := Tab.set s.creation c (nextCreation b c) }) c writes) m writes

/-- A creation once it may draw its audit keys. -/
def createWithKeys (m : Mbx) (b : Block) (p : Bytes) : Res :=
  match newAuditKeys (vacated b (pb p 0)) (pb p 0) ((pb p 1).testBit 0) with
  | .error s => no b s
  | .ok ((ed, q, g, g2, writes), b) =>
    .wait (creationAsked b m (pb p 0) writes) [leBytes 4 (nextCreation b (pb p 0)), ed, q, leBytes 8 g, leBytes 8 g2]

section
variable (h : NewForm b m p)
include h

/-- A creation whose operands are in range: the chamber's state, what is under way on it, and Sump decide. -/
theorem cmdChamberCreate_form : cmdChamberCreate m b p =
    if (b.chamber (pb p 0)).st ≠ .none then no b 0x0106
    else if nPending b ∨ b.sump.erasing.any (fun e => e.1 == pb p 0) then no b 0x0104
    else needSump b (createWithKeys m b p) := by
  obtain ⟨hc, hq, hv, hk, hs⟩ := h
  have form : ¬ (b.n ≤ pb p 0 ∨ 2 ≤ pb p 1 ∨ ((pb p 1).testBit 0 = true ∧ (reqVersion (b.mbx (mbxNo m))).1 < 3) ∨
      (!kOfN (pb p 2) (pb p 3)) = true ∨ (!shaped p (8 + 57 * pb p 3) [(4, 4)]) = true) := by
    simp only [hk, hs, Bool.not_true, Bool.false_eq_true, or_false]
    rintro (hb | hb | ⟨hb, hl⟩)
    · omega
    · omega
    · have := hv hb; omega
  exact if_neg form

theorem cmdChamberCreate_exists (hs : (b.chamber (pb p 0)).st ≠ .none) : cmdChamberCreate m b p = no b 0x0106 :=
  (cmdChamberCreate_form h).trans (if_pos hs)

section
variable (hs : (b.chamber (pb p 0)).st = .none)
include hs

theorem cmdChamberCreate_busy (hb : nPending b = true ∨ ∃ e ∈ b.sump.erasing, e.1 = pb p 0) : cmdChamberCreate m b p = no b 0x0104 := by
  have busy : nPending b = true ∨ (b.sump.erasing.any fun e => e.1 == pb p 0) = true := by simpa using hb
  rw [cmdChamberCreate_form h, if_neg (not_not.mpr hs), if_pos busy]

theorem cmdChamberCreate_free (hn : nPending b = false) (he : ∀ e ∈ b.sump.erasing, e.1 ≠ pb p 0) :
    cmdChamberCreate m b p = needSump b (createWithKeys m b p) := by
  have free : ¬ (nPending b = true ∨ (b.sump.erasing.any fun e => e.1 == pb p 0) = true) := by
    simpa [hn] using fun x hx => he (pb p 0, x) hx rfl
  rw [cmdChamberCreate_form h, if_neg (not_not.mpr hs), if_neg free]

end

end

theorem createWithKeys_error {e : Nat} (h : newAuditKeys (vacated b (pb p 0)) (pb p 0) ((pb p 1).testBit 0) = .error e) :
    createWithKeys m b p = no b e := by
  simp only [createWithKeys, h]

theorem createWithKeys_commits {ed q : Bytes} {g g2 : Nat} {writes : List NewRecord}
    (h : newAuditKeys (vacated b (pb p 0)) (pb p 0) ((pb p 1).testBit 0) = .ok ((ed, q, g, g2, writes), b1)) :
    createWithKeys m b p =
      .wait (creationAsked b1 m (pb p 0) writes) [leBytes 4 (nextCreation b1 (pb p 0)), ed, q, leBytes 8 g, leBytes 8 g2] := by
  simp only [createWithKeys, h]

/-! ### Deletion, quiesce and reset (R326, R333, R334) -/

/-- No reset runs on the chamber, and its chain holds nothing unwritten. -/
def Drained (b : Block) (c : Nat) : Prop :=
  (b.chamber c).resetting = false ∧ (b.chain (.chamber c)).headers = [] ∧ (b.chain (.chamber c)).waiting = [] ∧
    (b.chain (.chamber c)).heldLeaves = [] ∧ (b.chain (.chamber c)).heldHeaders = []

section
variable (hs : shaped p 4 [(1, 3)] = true)
include hs

theorem cmdChamberDelete_undrained (hm : Made b (pb p 0)) (hd : ¬ Drained b (pb p 0)) : cmdChamberDelete m b p = no b 0x0104 := by
  have busy : (b.chamber (pb p 0)).resetting = true ∨ (!(b.chain (.chamber (pb p 0))).headers.isEmpty) = true ∨
      (!(b.chain (.chamber (pb p 0))).waiting.isEmpty) = true ∨ (!(b.chain (.chamber (pb p 0))).heldLeaves.isEmpty) = true ∨
      (!(b.chain (.chamber (pb p 0))).heldHeaders.isEmpty) = true := by
    by_contra hn
    exact hd (by simpa [Drained] using hn)
  simp only [cmdChamberDelete, hs, orElse_made hm, busy, Bool.not_true, Bool.false_eq_true, if_false, if_true]

theorem cmdChamberDelete_drained (hm : Made b (pb p 0)) (hd : Drained b (pb p 0)) : cmdChamberDelete m b p =
    needSump b (.wait (awaits (quiesceChamber b (pb p 0) 3 none) m (.drained (pb p 0))) []) := by
  obtain ⟨h1, h2, h3, h4, h5⟩ := hd
  simp only [cmdChamberDelete, hs, orElse_made hm, h1, h2, h3, h4, h5, List.isEmpty_nil, Bool.not_true, Bool.false_eq_true, or_self, if_false]

/-- CHAMBER_QUIESCE of its form: the chamber's check and its state decide. -/
theorem cmdChamberQuiesce_form : cmdChamberQuiesce m b p = orElse b (chamberCheck b (pb p 0))
    (if (b.chamber (pb p 0)).resetting then .wait (awaits b m (.chamber (pb p 0))) []
      else if (b.chamber (pb p 0)).st = .quiesced then ok (quiesceChamber b (pb p 0) 3 none) []
      else .wait (awaits (quiesceChamber b (pb p 0) 3 none) m (.quiesced (pb p 0))) [[1]]) := by
  simp only [cmdChamberQuiesce, hs, Bool.not_true, Bool.false_eq_true, if_false]

theorem cmdChamberReset_waits (hm : Made b (pb p 0)) :
    cmdChamberReset m b p = .wait (awaits (beginReset b (pb p 0)) m (.chamber (pb p 0))) [] := by
  simp only [cmdChamberReset, hs, orElse_made hm, Bool.not_true, Bool.false_eq_true, if_false]

end

/-! ### Settings, PIN policy and tables (R91, R92, R356) -/

/-- The operands of CHAMBER_CONFIG are in range, those that it selects. -/
def ConfigForm (p : Bytes) : Prop :=
  shaped p 16 [(12, 4)] = true ∧ pb p 1 < 8 ∧ ((pb p 1).testBit 0 = true → ∀ k < 8, pb p (2 + k) ≠ 0) ∧
    ((pb p 1).testBit 1 = true → 1 ≤ pb p 10 ∧ pb p 10 ≤ 100) ∧ ((pb p 1).testBit 2 = true → pb p 11 < 2)

theorem cmdChamberConfig_commits (h : ConfigForm p) (hm : Made b (pb p 0)) (hr : b.sump.st = .ready) :
    cmdChamberConfig m b p = .wait (persist b m []) [] := by
  obtain ⟨hs, h8, hw, hi, hu⟩ := h
  have form : ¬ ((!shaped p 16 [(12, 4)]) = true ∨ 8 ≤ pb p 1 ∨ b.n ≤ pb p 0 ∨
      ((pb p 1).testBit 0 = true ∧ (!(List.range 8).all fun g => pb p (2 + g) != 0) = true) ∨
      ((pb p 1).testBit 1 = true ∧ (pb p 10 = 0 ∨ 100 < pb p 10)) ∨ ((pb p 1).testBit 2 = true ∧ 2 ≤ pb p 11)) := by
    rintro (hb | hb | hb | ⟨hb, hx⟩ | ⟨hb, hx⟩ | ⟨hb, hx⟩)
    · simp [hs] at hb
    · omega
    · have := hm.1; omega
    · have all : ((List.range 8).all fun g => pb p (2 + g) != 0) = true := by simpa using hw hb
      simp [all] at hx
    · have := hi hb; omega
    · have := hu hb; omega
  exact (if_neg form).trans (commits_made hm hr)

theorem pinpolOk_iff {v : Nat} : pinpolOk v = true ↔ 4 ≤ v / 16 % 16 ∧ v / 16 % 16 ≤ v / 256 % 16 ∧ v / 256 % 16 ≤ 12 ∧ v < 4096 := by
  simp [pinpolOk]

section
variable (hs : shaped p 8 [(1, 3)] = true)
include hs

theorem cmdChamberPinpol_commits (hp : pinpolOk (leField p 4 4) = true) (hm : Made b (pb p 0)) (hr : b.sump.st = .ready) :
    cmdChamberPinpol m b p = .wait (persist b m []) [] := by
  simp only [cmdChamberPinpol, hs, hp, Bool.not_true, Bool.false_eq_true, or_self, if_false, commits_made hm hr]

theorem cmdChamberPinpol_refuses (hp : pinpolOk (leField p 4 4) = false) : cmdChamberPinpol m b p = no b 0x0020 := by
  simp only [cmdChamberPinpol, hs, hp, Bool.not_true, Bool.not_false, Bool.false_eq_true, false_or, if_true]

end

theorem dectabOk_of {t : Bytes} (hd : allDigits (nibbles t) = true) (ha : ∀ d < 10, d ∈ nibbles t) : dectabOk t = true := by
  simpa [dectabOk, hd] using ha

theorem cmdDectabLoad_commits (hs : shaped p 16 [(2, 6)] = true) (h8 : pb p 1 < 8) (ht : dectabOk (slice p 8 8) = true) (hm : Made b (pb p 0))
    (hr : b.sump.st = .ready) : cmdDectabLoad m b p = .wait (persist b m []) [] := by
  simp only [cmdDectabLoad, hs, Nat.not_le.mpr h8, ht, Bool.not_true, Bool.false_eq_true, or_self, if_false, commits_made hm hr]

/-! ### CHAMBER_INFO (R356) -/

section
variable (hs : shaped p 4 [(1, 3)] = true) (hc : pb p 0 < b.n)
include hs hc

theorem cmdChamberInfo_absent (h : (b.chamber (pb p 0)).st = .none) :
    cmdChamberInfo m b p = ok b (zeros 4 ++ leBytes 4 (Tab.get b.strata.creation 0 (pb p 0)) ++ zeros 16) := by
  simp only [cmdChamberInfo, hs, Nat.not_le.mpr hc, h, Bool.not_true, Bool.false_eq_true, or_self, if_false, if_true]

/-- The payload that CHAMBER_INFO returns of a chamber that has been created. -/
def infoBytes (h : Chamber) (x : Chain) (creation : Nat) : Bytes :=
  [(if h.st = .active then 1 else 2), (if x.pq then 1 else 0), BitVec.ofNat 8 h.custodians.k, BitVec.ofNat 8 h.custodians.keys.length] ++
    leBytes 4 creation ++ leBytes 4 h.pinpol.toNat ++
    ([0, 1, 2, 3, 4, 5, 6, 7].map fun k => BitVec.ofNat 8 (Tab.get h.groups Group.reset k).weight) ++
    [BitVec.ofNat 8 x.interval, BitVec.ofNat 8 ((if h.borrow then 1 else 0) + 2 * (if h.uread then 1 else 0)),
      BitVec.ofNat 8 ([0, 1, 2, 3, 4, 5, 6, 7].map fun t => if (Tab.get? h.decTabs t).isSome then 2 ^ t else 0).sum, 0]

theorem cmdChamberInfo_made (h : (b.chamber (pb p 0)).st ≠ .none) :
    cmdChamberInfo m b p =
      ok b (infoBytes (b.chamber (pb p 0)) (b.chain (.chamber (pb p 0))) (Tab.get b.strata.creation 0 (pb p 0))) := by
  have state : (BitVec.ofNat 8 (chStateCode (b.chamber (pb p 0)).st) : Byte) = if (b.chamber (pb p 0)).st = .active then 1 else 2 := by
    cases hst : (b.chamber (pb p 0)).st with
    | none => exact absurd hst h
    | active => rfl
    | quiesced => rfl
  have pq : (BitVec.ofNat 8 (b2n (b.chain (.chamber (pb p 0))).pq) : Byte) = if (b.chain (.chamber (pb p 0))).pq then 1 else 0 := by
    cases (b.chain (.chamber (pb p 0))).pq <;> rfl
  simp only [cmdChamberInfo, hs, Nat.not_le.mpr hc, h, state, pq, Bool.not_true, Bool.false_eq_true, or_self, if_false]
  rfl

end

/-! ### The last stages of the settings (R91, R92, R356) -/

theorem cmdChamberConfig2_weights (h : pb p 1 = 1) : cmdChamberConfig2 m b p = ok (b.modCh (pb p 0) fun h =>
    { h with groups := [0, 1, 2, 3, 4, 5, 6, 7].map fun g => (g, { Tab.get h.groups Group.reset g with weight := pb p (2 + g) }) }) [] := by
  simp only [cmdChamberConfig2, h]; rfl

theorem cmdChamberConfig2_interval (h : pb p 1 = 2) :
    cmdChamberConfig2 m b p = ok (b.modChain (.chamber (pb p 0)) fun x => { x with interval := pb p 10 }) [] := by
  simp only [cmdChamberConfig2, h]; rfl

theorem cmdChamberConfig2_uread (h : pb p 1 = 4) :
    cmdChamberConfig2 m b p = ok (b.modCh (pb p 0) fun h => { h with uread := (pb p 11).testBit 0 }) [] := by
  simp only [cmdChamberConfig2, h]; rfl

/-! ### A new chain's first header (R191, R205) -/

/-- All that `t` has of `b` but the signatures asked for: its chambers, and chain `i` but for the marks of its headers. -/
def MarksHeaders (i : ChainId) (b t : Block) : Prop :=
  t.ch = b.ch ∧ ∃ l, l.length = (b.chain i).headers.length ∧ t.chain i = { b.chain i with headers := l }

theorem MarksHeaders.refl (i : ChainId) (b : Block) : MarksHeaders i b b := ⟨rfl, _, rfl, rfl⟩

theorem MarksHeaders.trans {i : ChainId} {b t u : Block} (h : MarksHeaders i b t) (h' : MarksHeaders i t u) : MarksHeaders i b u := by
  obtain ⟨hch, l, hl, hc⟩ := h
  obtain ⟨hch', l', hl', hc'⟩ := h'
  exact ⟨hch'.trans hch, l', by rw [hl', hc, hl], by rw [hc', hc]⟩

theorem modHeader_marks (b : Block) (i : ChainId) (n : Nat) (f : Header → Header) : MarksHeaders i b (modHeader b i n f) :=
  ⟨rfl, (b.chain i).headers.map fun h => if h.pos = n then f h else h, by simp, by rw [modHeader, chain_modChain_self]⟩

theorem askSignature_marks {i : ChainId} {n : Nat} {pq : Bool} (h : askSignature b i n pq = some b1) : MarksHeaders i b b1 := by
  unfold askSignature at h
  split at h
  · cases h; exact ⟨rfl, _, rfl, rfl⟩
  · cases h

/-- A header's signature asked for under one key, where Gallery has room. -/
def askMarked (b : Block) (i : ChainId) (n : Nat) (pq : Bool) (f : Header → Header) : Block :=
  match askSignature b i n pq with
  | some b => modHeader b i n f
  | none => b

theorem askMarked_marks (b : Block) (i : ChainId) (n : Nat) (pq : Bool) (f : Header → Header) : MarksHeaders i b (askMarked b i n pq f) := by
  unfold askMarked
  cases h : askSignature b i n pq with
  | none => exact .refl i b
  | some u => exact (askSignature_marks h).trans (modHeader_marks u i n f)

theorem ite_marks {i : ChainId} {q : Prop} [Decidable q] {t : Block} (h : MarksHeaders i b t) : MarksHeaders i b (if q then b else t) := by
  split
  · exact .refl i b
  · exact h

theorem askHeader_marks (b : Block) (i : ChainId) (h : Header) : MarksHeaders i b (askHeader b i h) :=
  (ite_marks (askMarked_marks b i h.pos false _)).trans (ite_marks (askMarked_marks _ i h.pos true _))

theorem foldl_askHeader_marks (i : ChainId) : ∀ (l : List Header) (b : Block), MarksHeaders i b (l.foldl (fun b h => askHeader b i h) b)
  | [], b => .refl i b
  | h :: l, b => (askHeader_marks b i h).trans (foldl_askHeader_marks i l _)

theorem flowHash_marks (b : Block) (i : ChainId) (n : Nat) : MarksHeaders i b (b.flowHash n) := by
  unfold Block.flowHash
  split
  · exact .refl i b
  · exact ⟨rfl, _, rfl, rfl⟩

/-- Chain `i` with its next header. -/
def withHeader (b : Block) (i : ChainId) (h : Header) (digest : Bytes) : Block :=
  b.modChain i fun c => { c with nextBatch := c.nextBatch + 1, prev := digest, headers := c.headers ++ [h] }

/-- A header made is the chain's next, with the signatures asked for that can be. -/
theorem makeHeader_marks (b : Block) (i : ChainId) (h : HeaderBody) (n : Nat) :
    ∃ hd digest, MarksHeaders i (withHeader b i hd digest) (makeHeader b i h n) :=
  ⟨_, _, (flowHash_marks _ i 2).trans (foldl_askHeader_marks i _ _)⟩

/-- What a new chamber's chain is once its genesis batch is made. -/
theorem createChain_genesis (b : Block) (c : Nat) (pq : Bool) (keys : Bytes × Bytes × Nat × Nat) :
    let t := createChain b (.chamber c) pq keys
    t.ch = b.ch ∧ (t.chain (.chamber c)).present = true ∧ (t.chain (.chamber c)).chainNo = 0 ∧ (t.chain (.chamber c)).nextSeq = 0 ∧
      (t.chain (.chamber c)).headers.length = 1 := by
  obtain ⟨hd, digest, hch, l, hl, hc⟩ := makeHeader_marks (b.modChain (.chamber c) fun _ => chainWithKeys pq 0 (zeros 64) keys Chain.absent)
    (.chamber c) { kind := 2, close := 0, firstSeq := 0, claim := b.claim, count := 0, openTime := b.now, closeTime := b.now, gapFirst := 0
                   gapCount := 0, root := zeros 64, nextKids := [] } 0
  rw [withHeader, chain_modChain_self, chain_modChain_self] at hl hc
  intro t
  have chain : t.chain (.chamber c) = _ := hc
  rw [chain]
  exact ⟨hch, rfl, rfl, rfl, hl⟩

/-! ### What a creation puts in force (R48, R192, R325) -/

/-- `t` is `b` but for the key cache. -/
def KeysAlone (b t : Block) : Prop := ∃ k, t = { b with keys := k }

theorem KeysAlone.refl (b : Block) : KeysAlone b b := ⟨b.keys, rfl⟩

theorem KeysAlone.trans {b t u : Block} (h : KeysAlone b t) (h' : KeysAlone t u) : KeysAlone b u := by
  obtain ⟨k, rfl⟩ := h
  obtain ⟨k', rfl⟩ := h'
  exact ⟨k', rfl⟩

theorem modSlot_keysAlone (b : Block) (g : Nat) (f : Slot → Slot) : KeysAlone b (modSlot b g f) := by
  unfold modSlot
  split
  · next q _ _ => cases q <;> exact ⟨_, rfl⟩
  · exact .refl b

theorem foldl_modSlot_keysAlone (g : Nat) (f : Slot → Slot) : ∀ (l : List Nat) (b : Block),
    KeysAlone b (l.foldl (fun b k => modSlot b (g + k) f) b)
  | [], b => .refl b
  | k :: l, b => (modSlot_keysAlone b (g + k) f).trans (foldl_modSlot_keysAlone g f l _)

theorem pinOwn_keysAlone (b : Block) (g w : Nat) : KeysAlone b (pinOwn b g w) := by
  have pinned : KeysAlone b (pinRecord b g w) := .trans ⟨_, rfl⟩ (foldl_modSlot_keysAlone g _ _ _)
  unfold pinOwn
  dsimp only
  split
  · exact pinned
  · exact pinned.trans ⟨_, rfl⟩

theorem pinAuditKeys_keysAlone (b : Block) (c : Nat) : KeysAlone b (pinAuditKeys b (.chamber c)) := by
  unfold pinAuditKeys
  dsimp only
  split
  · exact (pinOwn_keysAlone b _ _).trans (pinOwn_keysAlone _ _ _)
  · exact pinOwn_keysAlone b _ _

/-- The device with a new chamber in its place (R325). -/
def withNewChamber (b : Block) (p : Bytes) : Block :=
  b.modCh (pb p 0) fun _ => newChamber b (pb p 0) (pb p 2) (custodianKeys p 8 (pb p 3))

/-- The device with a new chamber, its handle key and its chain (R21, R191, R325). -/
def chamberMade (b : Block) (p : Bytes) (hold : List Bytes) : Block :=
  createChain
    ((withNewChamber b p).modKeys fun k =>
      { k with handleKeys := Tab.set k.handleKeys (pb p 0) (chamberHandleKey (withNewChamber b p) (pb p 0) (ofLe (hold.getD 0 []))) })
    (.chamber (pb p 0)) ((pb p 1).testBit 0) (hold.getD 1 [], hold.getD 2 [], ofLe (hold.getD 3 []), ofLe (hold.getD 4 []))

theorem length_leBytes (n v : Nat) : (leBytes n v).length = n := by simp [leBytes]

theorem length_fit (n : Nat) (d : Bytes) : (fit n d).length = n := by simp [fit, zeros]; omega

/-- A creation's answer: the creation number and two key identifiers. -/
theorem cmdChamberCreate2_answers (m : Mbx) (b : Block) (p : Bytes) (hold : List Bytes) :
    ∃ out, cmdChamberCreate2 m b p hold = ok (pinAuditKeys (chamberMade b p hold) (.chamber (pb p 0))) out ∧ out.length = 20 :=
  ⟨_, rfl, by simp [length_leBytes, length_fit]⟩

/-- The chamber and the chain that a creation makes. -/
theorem chamberMade_made (b : Block) (p : Bytes) (hold : List Bytes) :
    (chamberMade b p hold).chamber (pb p 0) = newChamber b (pb p 0) (pb p 2) (custodianKeys p 8 (pb p 3)) ∧
    ((chamberMade b p hold).chain (.chamber (pb p 0))).present = true ∧ ((chamberMade b p hold).chain (.chamber (pb p 0))).chainNo = 0 ∧
    ((chamberMade b p hold).chain (.chamber (pb p 0))).nextSeq = 0 ∧
    ((chamberMade b p hold).chain (.chamber (pb p 0))).headers.length = 1 := by
  obtain ⟨hch, hchain⟩ := createChain_genesis
    ((withNewChamber b p).modKeys fun k =>
      { k with handleKeys := Tab.set k.handleKeys (pb p 0) (chamberHandleKey (withNewChamber b p) (pb p 0) (ofLe (hold.getD 0 []))) })
    (pb p 0) ((pb p 1).testBit 0) (hold.getD 1 [], hold.getD 2 [], ofLe (hold.getD 3 []), ofLe (hold.getD 4 []))
  refine ⟨?_, hchain⟩
  have table : (chamberMade b p hold).ch = (withNewChamber b p).ch := hch
  exact (congrArg (Tab.get · Chamber.absent (pb p 0)) table).trans (chamber_modCh_self b (pb p 0) _)

/-! ### What a deletion leaves (R231, R326, R353) -/

theorem dropChamber_gone (b : Block) (c : Nat) :
    ((dropChamber b c).chamber c).st = .none ∧ ((dropChamber b c).chain (.chamber c)).present = false ∧
    Tab.get? (dropChamber b c).keys.handleKeys c = none ∧ ∀ a ∈ (dropChamber b c).bimor.auths, a.scope ≠ c := by
  refine ⟨?_, ?_, Tab.get?_erase_self _ _, fun a ha => ?_⟩
  · have gone : Tab.get? (dropChamber b c).ch c = none := Tab.get?_erase_self _ _
    simp only [Block.chamber, Tab.get, gone]; rfl
  · have gone : Tab.get? (dropChamber b c).chains (chainIx (.chamber c)) = none := Tab.get?_erase_self _ _
    simp only [Block.chain, Tab.get, gone]; rfl
  · have kept : a ∈ b.bimor.auths.filter fun a => !(a.scope == c) := ha
    simpa using (List.mem_filter.mp kept).2

/-- The device with a chamber deleted: the erase of its space begins (R231, R326). -/
def chamberDeleted (b : Block) (c : Nat) : Block :=
  (dropChamber b c).modSump fun s => { s with erasing := s.erasing ++ [(c, b.gidxOf c 0)] }

/-- The erase begins with the first record of the chamber's space. -/
theorem chamberDeleted_erasing (b : Block) (c : Nat) : (c, 65536 + c * b.sumpSpace) ∈ (chamberDeleted b c).sump.erasing := by
  have first : b.gidxOf c 0 = 65536 + c * b.sumpSpace := Nat.add_zero _
  rw [chamberDeleted, modSump_sump, first]
  exact List.mem_append_right _ (List.mem_singleton.mpr rfl)

/-! ### The statement -/

/-- Settles O44: each command answers, waits or asks for its commit as its operands and the chamber's state decide, and each last stage puts its
settings in force. -/
theorem chamberCommands : Obligations.ChamberCommands := by
  unfold Obligations.ChamberCommands
  refine ⟨fun s m p b b1 ed q g g2 e writes => ?_, fun b m p hold => ?_⟩
  · intro c h x pq made no_ newOk drained weights lo hi
    refine ⟨fun hc hf => ⟨fun hs => ?_, fun hs hb => ?_, fun hs hn he => ⟨fun hr => ?_, fun hr hk he' => ?_, fun hr hk => ?_⟩⟩,
      fun hc hs hm => ⟨fun hd => ?_, fun hd hr => ?_, fun hd hr => ?_⟩,
      fun hc hs => ⟨fun hn => ?_, fun hn h0 => ?_, fun hm hr => ?_, fun hm hr hq => ?_, fun hm hr ha => ?_⟩,
      fun hc hs hm => ?_, fun hc hs h8 hw hi' hu hm hr => ?_,
      fun hc hs => ⟨fun h4 hle h12 hv hm hr => ?_, fun hbad => ?_⟩, fun hc hs h8 hd ha hm hr => ?_, fun hc hs hn => ⟨fun h0 => ?_, fun h0 => ?_⟩⟩
    -- creation
    · exact completes_answers hc rfl (cmdChamberCreate_exists hf hs) (by decide)
    · exact completes_answers hc rfl (cmdChamberCreate_busy hf hs hb) (by decide)
    · exact completes_answers hc rfl ((cmdChamberCreate_free hf hs hn he).trans (needSump_off hr _)) (by decide)
    · exact completes_answers hc rfl ((cmdChamberCreate_free hf hs hn he).trans ((needSump_ready hr _).trans (createWithKeys_error hk))) he'
    · exact completes_waits hc rfl ((cmdChamberCreate_free hf hs hn he).trans ((needSump_ready hr _).trans (createWithKeys_commits hk)))
    -- deletion
    · exact completes_answers hc rfl (cmdChamberDelete_undrained hs hm hd) (by decide)
    · exact completes_answers hc rfl ((cmdChamberDelete_drained hs hm hd).trans (needSump_off hr _)) (by decide)
    · exact completes_waits hc rfl ((cmdChamberDelete_drained hs hm hd).trans (needSump_ready hr _))
    -- quiesce and reset
    · exact completes_answers hc rfl ((cmdChamberQuiesce_form hs).trans (congrArg (orElse b · _) (chamberCheck_beyond hn))) (by decide)
    · exact completes_answers hc rfl ((cmdChamberQuiesce_form hs).trans (congrArg (orElse b · _) (chamberCheck_absent hn h0))) (by decide)
    · exact completes_waits hc rfl ((cmdChamberQuiesce_form hs).trans ((orElse_made hm _).trans (if_pos hr)))
    · exact completes_answers hc rfl ((cmdChamberQuiesce_form hs).trans ((orElse_made hm _).trans ((if_neg (Bool.eq_false_iff.mp hr)).trans
        (if_pos hq)))) (by decide)
    · exact completes_waits hc rfl ((cmdChamberQuiesce_form hs).trans ((orElse_made hm _).trans ((if_neg (Bool.eq_false_iff.mp hr)).trans
        (if_neg (by rw [show (b.chamber (pb p 0)).st = .active from ha]; decide)))))
    · exact completes_waits hc rfl (cmdChamberReset_waits hs hm)
    -- settings, PIN policy, tables and what is there
    · exact completes_waits hc rfl (cmdChamberConfig_commits ⟨hs, h8, hw, hi', hu⟩ hm hr)
    · exact completes_waits hc rfl (cmdChamberPinpol_commits hs (pinpolOk_iff.mpr ⟨h4, hle, h12, hv⟩) hm hr)
    · exact completes_answers hc rfl (cmdChamberPinpol_refuses hs (Bool.eq_false_iff.mpr (by rw [ne_eq, pinpolOk_iff]; omega))) (by decide)
    · exact completes_waits hc rfl (cmdDectabLoad_commits hs h8 (dectabOk_of hd ha) hm hr)
    · exact completes_answers hc rfl (cmdChamberInfo_absent hs hn h0) (by decide)
    · exact completes_answers hc rfl (cmdChamberInfo_made hs hn h0) (by decide)
  · intro c sel t ends
    refine ⟨fun h => ?_, fun h hs => ?_, fun h hs => ?_, fun h hs => ?_, fun h => ?_, fun h => ?_, fun h => ?_, fun h => ?_, fun h => ?_⟩
    · obtain ⟨out, hout, hlen⟩ := cmdChamberCreate2_answers m t p hold
      obtain ⟨hch, hchain⟩ := chamberMade_made t p hold
      obtain ⟨k, hk⟩ := pinAuditKeys_keysAlone (chamberMade t p hold) c
      rw [hk] at hout
      refine ⟨{ chamberMade t p hold with keys := k }, out, settleMailbox_ends h one_ne_zero hout, hlen, ?_⟩
      have chamber : ({ chamberMade t p hold with keys := k } : Block).chamber c = _ := hch
      rw [chamber]
      exact ⟨rfl, rfl, rfl, rfl, rfl, rfl, hchain⟩
    · exact settleMailbox_ends h one_ne_zero (cmdChamberConfig2_interval (m := m) hs)
    · exact settleMailbox_ends h one_ne_zero (cmdChamberConfig2_uread (m := m) hs)
    · exact settleMailbox_ends h one_ne_zero (cmdChamberConfig2_weights (m := m) hs)
    · exact settleMailbox_ends h one_ne_zero rfl
    · exact settleMailbox_ends h one_ne_zero rfl
    · obtain ⟨hst, hpresent, hkey, hauth⟩ := dropChamber_gone t c
      exact ⟨chamberDeleted t c, settleMailbox_ends h two_ne_zero rfl, hst, hpresent, hkey, hauth, chamberDeleted_erasing t c⟩
    · exact settleMailbox_ends h two_ne_zero rfl
    · exact settleMailbox_ends h one_ne_zero rfl

end Sys2Proof.Machine
end

section
/-! PROOFS. The data ciphers and HASH: where a cipher operation's IV comes from, what each mode makes of it, and the digests, and with them the
statement on them (R130 to R147, R149, R152). -/
namespace Sys2Proof.Machine

variable {b b1 : Block} {s : State} {r : Requester} {j : Job} {encrypt : Bool}

/-! ### The source of an IV (R138, R139, R144, R145) -/

theorem ivsrcOk_ecb {src : Nat} (h : ivsrcOk encrypt 0 src = true) : src = 0 := by simpa [ivsrcOk] using h

theorem ivsrcOk_xts {src : Nat} (h : ivsrcOk encrypt 4 src = true) : src = 0 := by simpa [ivsrcOk] using h

/-- A decryption is given its IV. -/
theorem ivsrcOk_decrypt {mode src : Nat} (h : ivsrcOk false mode src = true) : src = 0 := by simpa [ivsrcOk] using h

/-- CTR encryption draws its IV from the key's count. -/
theorem ivsrcOk_ctrEncrypt {src : Nat} (h : ivsrcOk true 2 src = true) : src = 1 := by simpa [ivsrcOk] using h

/-- The operands of a cipher operation are of their form, and its mode and its keys suit each other (R143 to R147). -/
structure CipherForm (encrypt : Bool) (r : Requester) (j : Job) : Prop where
  form : formC r j = true
  mode : j.opN 0 ≤ 4
  source : ivsrcOk encrypt (j.opN 0) (j.opN 1) = true
  reserved : j.opN 3 = 0
  rest : j.zero 24 31 = true
  ivField : ivFieldOk j (j.opN 0) (j.opN 1) j.kIn.alg = true
  secondKey : if j.opN 0 = 4 then j.keyOut ≠ 0 else j.keyOut = 0
  lengths : cipherLenOk encrypt (j.opN 0) j.kIn.alg j.inLen (j.opN 2) (ofLe (j.op 4 4)) = true
  keys : cipherKeysOk j (j.opN 0) (j.opN 1) = true
  tag : if j.opN 0 = 3 then 12 ≤ j.opN 2 ∧ j.opN 2 ≤ 16 else j.opN 2 = 0 ∧ ofLe (j.op 4 4) = 0

/-- The verdict of a cipher operation under an IV, with `extra` passes to make it. -/
def cipherUnder (encrypt : Bool) (j : Job) (iv : Bytes) (extra : Nat) : Verdict :=
  cipherRun encrypt j (j.opN 0) (j.opN 2) (ofLe (j.op 4 4)) iv extra

/-- The IV that a count gives: encrypted for CBC (R139). -/
def countIv (j : Job) (epoch count : Nat) : Bytes :=
  let civ := counterIv epoch count j.chamber j.pipe ++ zeros 4
  if j.opN 0 = 1 then aesEncrypt j.kIn.material civ else civ

theorem countIv_cbc {epoch count : Nat} (h : j.opN 0 = 1) :
    countIv j epoch count = aesEncrypt j.kIn.material (counterIv epoch count j.chamber j.pipe ++ zeros 4) := if_pos h

theorem countIv_ctr {epoch count : Nat} (h : j.opN 0 = 2) : countIv j epoch count = counterIv epoch count j.chamber j.pipe ++ zeros 4 :=
  if_neg (by omega)

/-- A cipher operation of its form, by where its IV comes from. -/
def cipherSourced (encrypt : Bool) (b : Block) (j : Job) : Verdict × Block :=
  if j.opN 1 = 1 then
    match drawCount b j.kIn with
    | (.wait, b) => (.wait, b)
    | (.gone, b) => refuse b stKeyNotFound
    | (.exhausted, b) => refuse b stCounterExhausted
    | (.drawn epoch count, b) => (cipherUnder encrypt j (countIv j epoch count) 1, b)
  else if j.opN 1 = 2 then
    match b.draw 12 with
    | none => refuse b stRng
    | some (iv, b) => (cipherUnder encrypt j iv 0, b)
  else (cipherUnder encrypt j (j.op 8 16) 0, b)

section
variable (h : CipherForm encrypt r j)
include h

theorem opCipher_form : opCipher encrypt b r j = cipherSourced encrypt b j := by
  obtain ⟨hf, hm, hs, h3, hz, hiv, hout, hlen, hk, htag⟩ := h
  have tagOk : (if j.opN 0 = 3 then decide (12 ≤ j.opN 2) && decide (j.opN 2 ≤ 16) else j.opN 2 == 0 && ofLe (j.op 4 4) == 0) = true := by
    split at htag <;> simp [*]
  have outOk : (if j.opN 0 = 4 then j.keyOut == 0 else j.keyOut != 0) = false := by
    split at hout <;> simp [*]
  simp only [opCipher, hf, Nat.not_lt.mpr hm, hs, h3, hz, hiv, outOk, hlen, hk, tagOk, Bool.not_true, Bool.false_eq_true, ne_eq,
    not_true_eq_false, or_self, if_false]
  rfl

theorem opCipher_given (hs : j.opN 1 = 0) : opCipher encrypt b r j = (cipherUnder encrypt j (j.op 8 16) 0, b) := by
  simp [opCipher_form h, cipherSourced, hs]

theorem opCipher_counted {epoch count : Nat} (hs : j.opN 1 = 1) (hd : drawCount b j.kIn = (.drawn epoch count, b1)) :
    opCipher encrypt b r j = (cipherUnder encrypt j (countIv j epoch count) 1, b1) := by
  simp [opCipher_form h, cipherSourced, hs, hd]

theorem opCipher_drawn {iv : Bytes} (hs : j.opN 1 = 2) (hd : b.draw 12 = some (iv, b1)) :
    opCipher encrypt b r j = (cipherUnder encrypt j iv 0, b1) := by
  simp [opCipher_form h, cipherSourced, hs, hd]

theorem opCipher_noBytes (hs : j.opN 1 = 2) (hd : b.draw 12 = none) : opCipher encrypt b r j = (.refuse 0x0040, b) := by
  simp [opCipher_form h, cipherSourced, hs, hd, refuse]

end

/-! ### What a mode makes of the IV (R131, R134 to R137, R146) -/

section
variable {iv : Bytes} {extra : Nat}

/-- The blocks of a cipher operation's input. -/
def cipherBlocks (j : Job) : Nat := (j.input.length + blockLen j.kIn.alg - 1) / blockLen j.kIn.alg

theorem cipherUnder_ecb (hm : j.opN 0 = 0) : cipherUnder encrypt j iv extra =
    .run (.spindle .none [(cipherBlocks j, false)] 0) (okOut [] (ecbMode
      (fun x => if encrypt then blockEnc j.kIn.alg j.kIn.material x else blockDec j.kIn.alg j.kIn.material x)
      (blockLen j.kIn.alg) j.input)) [] := by
  rw [cipherUnder, hm]
  cases encrypt <;> rfl

theorem cipherUnder_cbcEncrypt (hm : j.opN 0 = 1) : cipherUnder true j iv extra =
    .run (.spindle .none [(cipherBlocks j + extra, true)] 0) (okOut (iv.take (blockLen j.kIn.alg))
      (cbcEncrypt (blockEnc j.kIn.alg j.kIn.material) (blockLen j.kIn.alg) (iv.take (blockLen j.kIn.alg)) j.input)) [] := by
  rw [cipherUnder, hm]; rfl

theorem cipherUnder_cbcDecrypt (hm : j.opN 0 = 1) : cipherUnder false j iv extra =
    .run (.spindle .none [(cipherBlocks j, false)] 0) (okOut []
      (cbcDecrypt (blockDec j.kIn.alg j.kIn.material) (blockLen j.kIn.alg) (iv.take (blockLen j.kIn.alg)) j.input)) [] := by
  rw [cipherUnder, hm]; rfl

/-- CTR whose counter does not pass its last value. -/
theorem cipherUnder_ctr (hm : j.opN 0 = 2) (ho : ctrOverflows iv j.input.length = false) : cipherUnder encrypt j iv extra =
    .run (.spindle .none [(cipherBlocks j, false)] 0) (okOut (if encrypt then iv else []) (ctrCrypt j.kIn.material iv j.input)) [] := by
  simp only [cipherUnder, hm, cipherRun, ho]
  rfl

/-- The text of a GCM operation: what stands after the AAD. -/
def gcmInput (j : Job) : Bytes := j.input.drop (ofLe (j.op 4 4))

theorem cipherUnder_gcmEncrypt (hm : j.opN 0 = 3) : cipherUnder true j iv extra =
    .run (.spindle .none [(2 + ((gcmInput j).length + 15) / 16, false)] 0) (okOut (iv.take 12)
      (gcmSeal j.kIn.material (iv.take 12) (j.input.take (ofLe (j.op 4 4))) (gcmInput j) (j.opN 2))) [] := by
  rw [cipherUnder, hm]; rfl

/-- What a GCM decryption's first read opens: the ciphertext between the AAD and the tag. -/
def gcmOpened (j : Job) (iv : Bytes) : Option Bytes :=
  gcmOpen j.kIn.material iv (j.input.take (ofLe (j.op 4 4))) ((gcmInput j).take ((gcmInput j).length - j.opN 2))
    ((gcmInput j).drop ((gcmInput j).length - j.opN 2))

/-- How a GCM decryption's first read ends: at once without plaintext, and else with the second read. -/
def gcmCompared : Option Bytes → Verdict
  | none => .run (.spindle .none [(2, false)] 0) (onlyStatus 2) []
  | some [] => .run (.spindle .none [(2, false)] 0) (okOut [] []) []
  | some (_ :: _) => .rerun (.spindle .none [(2, false)] 0)

theorem cipherUnder_gcmCompares (hm : j.opN 0 = 3) (ha : j.again = none) :
    cipherUnder false j iv extra = gcmCompared (gcmOpened j (iv.take 12)) := by
  simp only [cipherUnder, hm, cipherRun, ha]
  change (match gcmOpened j (iv.take 12) with
    | some [] => _
    | some _ => _
    | none => _) = _
  rcases gcmOpened j (iv.take 12) with _ | _ | _ <;> rfl

/-- The ciphertext as a GCM decryption reads it again. -/
def gcmReread (j : Job) (again : Bytes) : Bytes := (again.drop (ofLe (j.op 4 4))).take ((gcmInput j).length - j.opN 2)

theorem cipherUnder_gcmDecrypts {again : Bytes} (hm : j.opN 0 = 3) (ha : j.again = some again) : cipherUnder false j iv extra =
    .run (.spindle .none [(((gcmReread j again).length + 15) / 16, false)] 0)
      (okOut [] (gcmText j.kIn.material (iv.take 12) (gcmReread j again))) [] := by
  simp only [cipherUnder, hm, cipherRun, ha]
  rfl

/-- XTS is of AES, so its blocks are of 16 bytes (R147). -/
theorem blockLen_xts (hm : j.opN 0 = 4) (hk : cipherKeysOk j (j.opN 0) (j.opN 1) = true) : blockLen j.kIn.alg = 16 := by
  have aes : j.kIn.alg = 3 ∨ j.kIn.alg = 5 := by
    simp only [cipherKeysOk, hm, if_true, Bool.and_eq_true, Bool.or_eq_true, beq_iff_eq] at hk
    obtain ⟨⟨⟨halg, _⟩, _⟩, _⟩ := hk
    exact halg
  rcases aes with h | h <;> rw [h] <;> rfl

theorem cipherUnder_xts (hm : j.opN 0 = 4) (hb : blockLen j.kIn.alg = 16) : cipherUnder encrypt j iv extra =
    .run (.spindle .none [(1 + j.input.length / 16, false), (if j.input.length % 16 = 0 then 0 else 2, true)] 0)
      (okOut [] (xtsCrypt (!encrypt) j.kIn.material j.kOut.material (ofLe iv) j.input)) [] := by
  simp only [cipherUnder, hm, cipherRun, hb]
  rfl

end

/-! ### The course of a cipher operation -/

/-- An operation whose input is read again hands its work on without an outcome (R136). -/
theorem completes_rereads {ins : Instr} {op : Nat} {row : OpRow} {w : Work} (h : Ready s r j op)
    (hi : exec ins s = run s (liveSettle (opRun · op r))) (hr : opRow op = some row) (hv : row.run (begun s r j) r j = (.rerun w, b)) :
    Completes ins s (settle (submit b r j w none [])) := by
  simp only [Completes, hi, run, opRun_eq h row hr, hv]; rfl

/-- A cipher operation in either direction. -/
theorem completes_cipher {v : Verdict} {fuse : Fuse} {pace : Pace} {second : Nat} {o : Outcome}
    (h : Ready s r j (if encrypt then 0x0500 else 0x0501)) (hv : opCipher encrypt (begun s r j) r j = (v, b1))
    (he : v = .run (.spindle fuse pace second) o []) :
    Completes (if encrypt then .cipherEncrypt r else .cipherDecrypt r) s (works b1 r j (.spindle fuse pace second) o) := by
  subst he
  cases encrypt
  · exact completes_submits h rfl rfl hv rfl
  · exact completes_submits h rfl rfl hv rfl

/-! ### HASH (R148, R149, R152) -/

/-- The digest that a HASH operation asks for. -/
def hashDigest (j : Job) : Bytes := digestOf (j.opN 0) (ofLe (j.op 2 2)) j.input

/-- The operands of a HASH operation, but for its function and its length of output, are of their form. -/
def HashForm (r : Requester) (j : Job) : Prop := formC r j = true ∧ j.opN 1 = 0 ∧ j.zero 4 31 = true

/-- The functions of HASH (R149). -/
def hashFunctions : List Nat := [0x01, 0x02, 0x03, 0x11, 0x12, 0x21, 0x22]

theorem opHash_unknown (hk : j.opN 0 ∉ hashFunctions) : opHash b r j = (.refuse 0x0020, b) := by
  have unknown : (!hashFunctions.contains (j.opN 0)) = true := by simpa using hk
  unfold hashFunctions at unknown
  simp only [opHash, unknown, true_or, or_true, if_true]
  rfl

/-- A length of output is given for the functions that have one to choose. -/
theorem opHash_digests (h : HashForm r j) (hk : j.opN 0 ∈ hashFunctions)
    (ho : if j.opN 0 = 0x21 ∨ j.opN 0 = 0x22 then ofLe (j.op 2 2) ≠ 0 else ofLe (j.op 2 2) = 0) : opHash b r j =
      (.run (hashWork (j.opN 0) (hashDigest j).length j.input.length) (okOut ((hashDigest j).take 16) (hashDigest j)) [], b) := by
  obtain ⟨hf, h1, hz⟩ := h
  have known : hashFunctions.contains (j.opN 0) = true := by simpa using hk
  have outOk : (if j.opN 0 = 0x21 ∨ j.opN 0 = 0x22 then ofLe (j.op 2 2) != 0 else ofLe (j.op 2 2) == 0) = true := by
    split at ho <;> simp [*]
  unfold hashFunctions at known
  simp only [opHash, hf, known, h1, outOk, hz, Bool.not_true, Bool.false_eq_true, ne_eq, not_true_eq_false, or_self, if_false]
  rfl

/-- Compressions of SHA-256, its padding counted with the message (R148). -/
theorem hashWork_sha256 (outlen len : Nat) : hashWork 1 outlen len = .auger 16 ((len + 72) / 64) := rfl

theorem hashWork_sha512 {halg outlen len : Nat} (h : halg ∈ [2, 3]) : hashWork halg outlen len = .auger 20 ((len + 144) / 128) := by
  rcases List.mem_pair.mp h with rfl | rfl <;> rfl

/-- The functions of HASH that are sponges, each with the bytes of its block (R149). -/
def sponges : List (Nat × Nat) := [(0x11, 136), (0x12, 72), (0x21, 168), (0x22, 136)]

/-- A sponge's permutations: those that absorb the padded message, and those that squeeze beyond the first block (log entry 72). -/
theorem hashWork_sponge {halg rate outlen len : Nat} (h : (halg, rate) ∈ sponges) :
    hashWork halg outlen len = .auger 12 (len / rate + (outlen + (rate - 1)) / rate) := by
  simp only [sponges, List.mem_cons, Prod.mk.injEq, List.not_mem_nil, or_false] at h
  rcases h with ⟨rfl, rfl⟩ | ⟨rfl, rfl⟩ | ⟨rfl, rfl⟩ | ⟨rfl, rfl⟩ <;>
    exact congrArg (Work.auger 12) (by simp only [Nat.reduceEqDiff, if_true, if_false]; omega)

section
variable {halg : Nat} {d : Bytes} (h : Ready s r j 0x0600) (hf : HashForm r j) (ha : j.opN 0 = halg) (hk : halg ∈ hashFunctions)
  (ho : if halg = 0x21 ∨ halg = 0x22 then ofLe (j.op 2 2) ≠ 0 else ofLe (j.op 2 2) = 0) (hd : digestOf halg (ofLe (j.op 2 2)) j.input = d)
include h hf ha hk ho hd

/-- HASH waits at no intake: that is for a MAC (R18, R242). -/
theorem completes_hash {w : Work} (hw : hashWork halg d.length j.input.length = w) :
    Completes (.hash r) s (works (begun s r j) r j w (okOut (d.take 16) d)) := by
  subst ha hd hw
  have room (w : Work) : intakeFull (begun s r j) r j w = false := by
    cases w <;> simp [intakeFull, h.opcode, show opClass 0x0600 = .aug from rfl]
  exact completes_works h rfl rfl (opHash_digests hf hk ho) (room _)

theorem completes_sponge {rate n squeezed : Nat} (hr : (halg, rate) ∈ sponges) (hl : d.length = n) (hs : (n + (rate - 1)) / rate = squeezed) :
    Completes (.hash r) s (works (begun s r j) r j (.auger 12 (j.input.length / rate + squeezed)) (okOut (d.take 16) d)) :=
  completes_hash h hf ha hk ho hd (by rw [hl, hashWork_sponge hr, hs])

end

/-! ### The statement -/

/-- Settles O25: each mode ends as its IV's source and its text decide, and each function of HASH with its digest. -/
theorem cipherAndHash : Obligations.CipherAndHash := by
  unfold Obligations.CipherAndHash
  refine ⟨fun s r j drawn b1 epoch count encrypt => ?_, fun s r j => ?_⟩
  · intro b k mode src taglen aadlen bs n i code crypt civ iv open_ h hf hs h3 hz hiv hout hlen hk htag
    have form (hm : mode ≤ 4) : CipherForm encrypt r j := ⟨hf, hm, hs, h3, hz, hiv, hout, hlen, hk, htag⟩
    refine ⟨fun hm => ?_, fun hm h0 he => ?_, fun hm h1 he hd => ?_, fun hm he => ?_, fun hm he hd ho => ?_, fun hm he ho => ?_,
      fun hm h2 he hd => ?_, fun hm h2 he hd => ?_, fun hm he ha => ?_, fun again hm he ha => ?_, fun hm => ?_⟩
    · rw [hm] at hs
      exact completes_cipher h (opCipher_given (form (by omega)) (ivsrcOk_ecb hs)) (cipherUnder_ecb hm)
    · subst he
      exact completes_cipher h (opCipher_given (form (by omega)) h0) (cipherUnder_cbcEncrypt hm)
    · subst he
      have counted := opCipher_counted (form (by omega)) h1 hd
      rw [countIv_cbc hm] at counted
      exact completes_cipher h counted (cipherUnder_cbcEncrypt hm)
    · subst he
      exact completes_cipher h (opCipher_given (form (by omega)) (ivsrcOk_decrypt hs)) (cipherUnder_cbcDecrypt hm)
    · subst he
      rw [hm] at hs
      have counted := opCipher_counted (form (by omega)) (ivsrcOk_ctrEncrypt hs) hd
      rw [countIv_ctr hm] at counted
      exact completes_cipher h counted (cipherUnder_ctr hm ho)
    · subst he
      exact completes_cipher h (opCipher_given (form (by omega)) (ivsrcOk_decrypt hs)) (cipherUnder_ctr hm ho)
    · subst he
      exact completes_cipher h (opCipher_drawn (form (by omega)) h2 hd) (cipherUnder_gcmEncrypt hm)
    · subst he
      exact completes_refuses h rfl rfl (opCipher_noBytes (form (by omega)) h2 hd)
    · subst he
      have given := opCipher_given (b := b) (form (by omega)) (ivsrcOk_decrypt hs)
      rw [cipherUnder_gcmCompares hm ha] at given
      exact ⟨fun ho => completes_cipher h given (congrArg gcmCompared ho), fun ho => completes_cipher h given (congrArg gcmCompared ho),
        fun x l ho => completes_rereads h rfl rfl (given.trans (congrArg (gcmCompared · , b) ho))⟩
    · subst he
      exact completes_cipher h (opCipher_given (form (by omega)) (ivsrcOk_decrypt hs)) (cipherUnder_gcmDecrypts hm ha)
    · rw [hm] at hs
      exact completes_cipher h (opCipher_given (form (by omega)) (ivsrcOk_xts hs)) (cipherUnder_xts hm (blockLen_xts hm hk))
  · intro b halg outlen len hashes h hf h1 hz
    have form : HashForm r j := ⟨hf, h1, hz⟩
    exact ⟨fun ha h0 => completes_hash h form ha (by decide) h0 rfl (hashWork_sha256 _ _),
      fun ha h0 => completes_hash h form ha (by decide) h0 rfl (hashWork_sha512 (by decide)),
      fun ha h0 => completes_hash h form ha (by decide) h0 rfl (hashWork_sha512 (by decide)),
      fun ha h0 hl => completes_sponge h form ha (by decide) h0 rfl (rate := 136) (by decide) hl rfl,
      fun ha h0 hl => completes_sponge h form ha (by decide) h0 rfl (rate := 72) (by decide) hl rfl,
      fun ha h0 hl => completes_sponge h form ha (by decide) h0 rfl (rate := 168) (by decide) hl rfl,
      fun ha h0 hl => completes_sponge h form ha (by decide) h0 rfl (rate := 136) (by decide) hl rfl,
      fun hn => completes_refuses h rfl rfl (opHash_unknown hn)⟩

end Sys2Proof.Machine
end

section
/-! PROOFS. Signatures, verifications and batches of them: the course of each operation by its checks and draws, and the statuses of a batch whose
weighted check holds; with them the statement on them (R162 to R172, R179, R184 to R187). -/
namespace Sys2Proof.Machine

variable {b b1 : Block} {s : State} {r : Requester} {j : Job} {p : PkInput} {drawn : Bytes}

/-! ### Signatures (R167 to R171) -/

/-- PK_SIGN's operands and input are of their form (R162, R164, R167). -/
def SignForm (r : Requester) (j : Job) (p : PkInput) : Prop :=
  pkParts j false .absent = some p ∧ pkSyntax r j 0 = true ∧ j.zero 8 31 = true ∧ prehashOk j p.rest = true

section
variable (h : SignForm r j p)
include h

theorem opPkSign_mismatched (hk : keyMatches j p = false) : opPkSign b r j = (.refuse 0x0011, b) := by
  obtain ⟨hp, hs, hz, hd⟩ := h
  simp only [opPkSign, hp, hs, hz, hd, hk]; rfl

variable (hk : keyMatches j p = true)
include hk

theorem opPkSign_noBytes (hd : b.draw (signDraw j) = none) : opPkSign b r j = (.refuse 0x0040, b) := by
  obtain ⟨hp, hs, hz, hh⟩ := h
  simp only [opPkSign, hp, hs, hz, hh, hk, hd]; rfl

theorem opPkSign_signs {sig : Bytes} (hd : b.draw (signDraw j) = some (drawn, b1)) (hg : pkSignature j p.ctx p.rest drawn = some sig) :
    opPkSign b r j = (.run (.gallery (schemeLattice j.scheme) false false drawn) (okOut (sig.take 16) sig) [], b1) := by
  obtain ⟨hp, hs, hz, hh⟩ := h
  simp only [opPkSign, hp, hs, hz, hh, hk, hd, hg]; rfl

/-- A signature that does not pass its self-check (R170). -/
theorem opPkSign_selfCheckFails (hd : b.draw (signDraw j) = some (drawn, b1)) (hg : pkSignature j p.ctx p.rest drawn = none) :
    opPkSign b r j = (.run (.gallery (schemeLattice j.scheme) false false drawn) (onlyStatus 0x00F0) [], b1) := by
  obtain ⟨hp, hs, hz, hh⟩ := h
  simp only [opPkSign, hp, hs, hz, hh, hk, hd, hg]; rfl

end

theorem pkSignature_ed448 (ctx msg drawn : Bytes) (h : j.scheme = 1) :
    pkSignature j ctx msg drawn = some (edSign true false ctx j.kIn.material msg) := by
  simp only [pkSignature, h, if_true]

theorem pkSignature_ed25519 (ctx msg drawn : Bytes) (h : j.scheme = 3) :
    pkSignature j ctx msg drawn = some (edSign false false [] j.kIn.material msg) := by
  simp only [pkSignature, h]; rfl

/-! ### Operations with a validation window (R172, R179) -/

theorem pkRun_valid (lattice : Bool) (d : Bytes) (o : Outcome) (l : List NewRecord) :
    pkRun lattice true d o l = .run (.gallery lattice true false d) o l := rfl

theorem pkRun_invalid (lattice : Bool) (d : Bytes) (o : Outcome) (l : List NewRecord) :
    pkRun lattice false d o l = .run (.gallery lattice true true d) (onlyStatus 0x0030) [] := rfl

/-- What PK_VERIFY finds of its key and signature. -/
def verdictOn (j : Job) (p : PkInput) : Bool × Bool := pkVerdict j (usedKey j p) p.ctx p.rest p.part

/-- A verification of its form, whose key matches, ends by what it finds. -/
theorem opPkVerify_form (hp : pkParts j (needsKey j) .signature = some p) (hs : pkSyntax r j 1 = true) (hz : j.zero 8 31 = true)
    (hh : prehashOk j p.rest = true) (hk : keyMatches j p = true) :
    opPkVerify b r j = (pkRun (schemeLattice j.scheme) (verdictOn j p).1 [] (onlyStatus (if (verdictOn j p).2 then 0 else 2)) [], b) := by
  simp only [opPkVerify, hp, hs, hz, hh, hk]; rfl

/-! ### Batches (R184 to R187) -/

/-- PK_BATCH_VERIFY's operands and item table are of their form (R184). -/
def BatchForm (r : Requester) (j : Job) : Prop :=
  pkSyntax r j 2 = true ∧ j.opN 1 = 0 ∧ j.zero 9 31 = true ∧ 1 ≤ j.opN 8 ∧ j.opN 8 ≤ 64 ∧ j.ctxLen + 24 * j.opN 8 ≤ j.input.length ∧
    ∀ e ∈ batchItems j, batchItemOk j e = true

/-- The keys of a batch's items. -/
def batchKeys (b : Block) (j : Job) : List BatchKey := (batchItems j).map (batchKey b j)

/-- The records whose keys are not resident. -/
def batchMissing (b : Block) (j : Job) : List Nat :=
  (batchKeys b j).filterMap fun k => match k with
    | .miss g => some g
    | _ => none

/-- Bytes drawn for the coefficients of a batch (log entry 114). -/
def batchDraw (j : Job) : Nat := if j.opN 8 = 1 then 0 else 16 * j.opN 8

/-- The device with the items and their keys handed to the core. -/
def withBatch (b1 b : Block) (r : Requester) (j : Job) : Block :=
  b1.modJob r fun x => { x with batch := List.zipWith (batchEntry x) (batchItems j) (batchKeys b j) }

section
variable (h : BatchForm r j)
include h

/-- A batch of its form: whether its keys are there decides, and then its draw. -/
theorem opPkBatchVerify_form : opPkBatchVerify b r j =
    if batchMissing b j ≠ [] then (.miss (batchMissing b j), b)
    else match b.draw (batchDraw j) with
      | none => (.refuse 0x0040, b)
      | some (drawn, b1) => (.run (.gallery false true false drawn) (onlyStatus 0) [], withBatch b1 b r j) := by
  obtain ⟨hs, h1, hz, hlo, hhi, hl, hi⟩ := h
  have items : (batchItems j).all (batchItemOk j) = true := List.all_eq_true.mpr hi
  have some_ : j.opN 8 ≠ 0 := by omega
  simp only [opPkBatchVerify, hs, h1, hz, some_, Nat.not_lt.mpr hhi, Nat.not_lt.mpr hl, items, Bool.not_true, Bool.false_eq_true, ne_eq,
    not_true_eq_false, or_self, if_false]
  rfl

theorem opPkBatchVerify_misses (hm : batchMissing b j ≠ []) : opPkBatchVerify b r j = (.miss (batchMissing b j), b) := by
  rw [opPkBatchVerify_form h, if_pos hm]

variable (hm : batchMissing b j = [])
include hm

theorem opPkBatchVerify_noBytes (hd : b.draw (batchDraw j) = none) : opPkBatchVerify b r j = (.refuse 0x0040, b) := by
  rw [opPkBatchVerify_form h, if_neg (not_not.mpr hm), hd]

theorem opPkBatchVerify_runs (hd : b.draw (batchDraw j) = some (drawn, b1)) :
    opPkBatchVerify b r j = (.run (.gallery false true false drawn) (onlyStatus 0) [], withBatch b1 b r j) := by
  rw [opPkBatchVerify_form h, if_neg (not_not.mpr hm), hd]

end

/-- What follows a verdict that keys are missing (R46). -/
theorem verdictOf_miss (whole : Block) (l : List Nat) : verdictOf whole r j (.miss l, b) =
    if b.sump.st ≠ .ready then b.modJob r fun x => { x with keyErrors := x.keyErrors ++ l.map fun g => (g, 0x0061) }
    else holdRequester (startMisses b j.chamber r l) r .miss := rfl

/-- An operation whose row finds keys missing waits for them, or is told that Sump does not answer. -/
theorem completes_misses {ins : Instr} {op : Nat} {row : OpRow} {l : List Nat} (h : Ready s r j op)
    (hi : exec ins s = run s (liveSettle (opRun · op r))) (hr : opRow op = some row) (hv : row.run (begun s r j) r j = (.miss l, b)) :
    (b.sump.st = .ready → Completes ins s (settle (holdRequester (startMisses b j.chamber r l) r .miss))) ∧
    (b.sump.st ≠ .ready → Completes ins s (settle (b.modJob r fun x => { x with keyErrors := x.keyErrors ++ l.map fun g => (g, 0x0061) }))) := by
  have row : Completes ins s (settle (verdictOf s.blk r j (.miss l, b))) := by
    rw [Completes, hi, run, opRun_eq h row hr, hv]
  rw [verdictOf_miss] at row
  exact ⟨fun hs => by rwa [if_neg (not_not.mpr hs)] at row, fun hs => by rwa [if_pos hs] at row⟩
/-! ### The statuses of a batch (R185, R187) -/

/-- Item `x` of a batch. -/
def batchItem (j : Job) (x : Nat) : BatchEntry := j.batch.getD x { failed := none, key := [], msg := [], sig := [] }

/-- Item `x` is in the batch that is checked: its key is there, and it passes validation. -/
def batchChecked (j : Job) (x : Nat) : Bool := (batchItem j x).failed.isNone && batchValid j (batchItem j x)

/-- The items of the batch that is checked. -/
def batchLeft (j : Job) : List Nat := (List.range j.batch.length).filter (batchChecked j)

/-- The coefficients of those items. -/
def batchWeights (j : Job) (drawn : Bytes) : Bytes := (batchLeft j).flatMap fun x => fit 16 ((drawn.drop (16 * x)).take 16)

/-- The status of an item where the weighted check holds. -/
def batchStatus (j : Job) (x : Nat) : Nat :=
  match (batchItem j x).failed with
  | some s => s
  | none => if batchValid j (batchItem j x) then 0 else 0x0030

/-- The items with their indices, each read by its index. -/
theorem batch_indexed (j : Job) :
    (List.range j.batch.length).zip j.batch = (List.range j.batch.length).map fun x => (x, batchItem j x) := by
  apply List.ext_getElem (by simp)
  intro i hi _
  have hi : i < j.batch.length := by simpa using hi
  simp [batchItem, hi]

theorem filter_batch_indexed (j : Job) :
    ((List.range j.batch.length).zip j.batch).filter (fun x => x.2.failed.isNone && batchValid j x.2) =
      (batchLeft j).map fun x => (x, batchItem j x) := by
  rw [batch_indexed, List.filter_map]; rfl

/-- Of a table with status 0 for each of some indices, an index finds 0 if it is one of them. -/
theorem find?_zeroes (l : List Nat) (x : Nat) :
    (((l.map fun y => (y, 0)).find? fun q => q.1 == x).map (·.2)).getD 0x0030 = if x ∈ l then 0 else 0x0030 := by
  induction l with
  | nil => rfl
  | cons y l ih =>
    by_cases h : y = x
    · simp [h]
    · simpa [h, Ne.symm h] using ih

/-- Every item in the batch is good where the weighted check holds; the others have their own statuses. -/
theorem batchStatuses_good (h2 : 2 ≤ (batchLeft j).length) (hc : batchCheck j ((batchLeft j).map (batchItem j)) (batchWeights j drawn) = true) :
    batchStatuses j b drawn = some ((List.range j.batch.length).map (batchStatus j), b) := by
  have two : ¬ (batchLeft j).length ≤ 1 := by omega
  have weights : (((batchLeft j).map fun x => (x, batchItem j x)).flatMap fun x => fit 16 (slice drawn (16 * x.1) 16)) = batchWeights j drawn := by
    rw [List.flatMap_map]; rfl
  have entries : ((batchLeft j).map fun x => (x, batchItem j x)).map (·.2) = (batchLeft j).map (batchItem j) := by
    rw [List.map_map]; rfl
  have zeroes : (((batchLeft j).map fun x => (x, batchItem j x)).map fun x => (x.1, stOk)) = (batchLeft j).map fun x => (x, 0) := by
    rw [List.map_map]; rfl
  simp only [batchStatuses, filter_batch_indexed, List.length_map, two, if_false, weights, entries, hc, if_true, zeroes, Option.map_some]
  rw [batch_indexed, List.map_map]
  congr 2
  refine List.map_congr_left fun x hx => ?_
  have member : x ∈ batchLeft j ↔ batchChecked j x = true := by simp [batchLeft, List.mem_range.mp hx]
  cases hf : (batchItem j x).failed with
  | some st => simp [batchStatus, hf]
  | none =>
    have found := find?_zeroes (batchLeft j) x
    simp only [member, batchChecked, hf, Option.isNone_none, Bool.true_and] at found
    simpa [batchStatus, hf] using found

/-- The outcome of a batch from the statuses of its items (R187). -/
def batchAnswer (n : Nat) (st : List Nat) : Outcome :=
  let map := (List.range n).foldl (fun a i => if st.getD i 1 = 0 then a + 2 ^ i else a) 0
  let good := (st.filter (· == 0)).length
  { status := if good = n then 0 else 2, result := fit 16 (leBytes 8 map ++ leBytes 1 good), output := some (st.flatMap (leBytes 2)) }

theorem batchOutcome_answers {st : List Nat} (h : batchStatuses j b drawn = some (st, b1)) :
    batchOutcome j b drawn = (batchAnswer st.length st, b1) := by
  simp only [batchOutcome, h]; rfl

theorem batchOutcome_noBytes (h : batchStatuses j b drawn = none) : batchOutcome j b drawn = (onlyStatus 0x0040, b) := by
  simp only [batchOutcome, h]; rfl

/-! ### The statement -/

/-- Settles O26: each signature, verification and batch takes the course that its checks and draws name, and the items of a good batch their
statuses. -/
theorem signatures : Obligations.Signatures := by
  unfold Obligations.Signatures
  refine ⟨fun s r j p drawn sig b1 => ?_, fun s r j drawn b1 => ?_, fun j b drawn => ?_⟩
  · intro b lattice v hz hh
    refine ⟨fun h hp hs => ?_, pkSignature_ed448 _ _ _, pkSignature_ed25519 _ _ _, fun h hp hs hk => ?_⟩
    · have form : SignForm r j p := ⟨hp, hs, hz, hh⟩
      exact ⟨fun hk => completes_refuses h rfl rfl (opPkSign_mismatched form hk),
        fun hk hd => completes_refuses h rfl rfl (opPkSign_noBytes form hk hd),
        fun hk hd => ⟨fun hg => completes_submits h rfl rfl (opPkSign_signs form hk hd hg) rfl,
          fun hg => completes_submits h rfl rfl (opPkSign_selfCheckFails form hk hd hg) rfl⟩⟩
    · have ends {valid : Bool} (hv : v.1 = valid) : opPkVerify b r j =
          (pkRun lattice valid [] (onlyStatus (if v.2 then 0 else 2)) [], b) := hv ▸ opPkVerify_form hp hs hz hh hk
      exact ⟨fun hv => completes_submits h rfl rfl (ends hv) rfl, fun hv => completes_submits h rfl rfl (ends hv) rfl⟩
  · intro b count items keys missing h hs h1 hz hlo hhi hl hi
    have form : BatchForm r j := ⟨hs, h1, hz, hlo, hhi, hl, hi⟩
    have misses (hm : missing ≠ []) := completes_misses h (ins := .pkBatchVerify r) rfl rfl (opPkBatchVerify_misses form hm)
    exact ⟨fun hm => (misses hm).1, fun hm => (misses hm).2, fun hm hd => completes_refuses h rfl rfl (opPkBatchVerify_noBytes form hm hd),
      fun hm hd => completes_submits h rfl rfl (opPkBatchVerify_runs form hm hd) rfl⟩
  · intro n entry left z status st map good
    refine ⟨fun h2 hc => ?_, batchOutcome_noBytes⟩
    have answer := batchOutcome_answers (batchStatuses_good (b := b) (drawn := drawn) h2 hc)
    rw [List.length_map, List.length_range] at answer
    exact answer

end Sys2Proof.Machine
end

section
/-! PROOFS. Key agreement, encapsulation and RSA encryption: the record of a derived key, and the course of each operation by its checks and draws;
with them the statement on them (R166, R175 to R177, R179, R181). -/
namespace Sys2Proof.Machine

variable {b b1 b2 : Block} {s : State} {r : Requester} {j : Job} {p : PkInput} {g : Nat} {drawn ps : Bytes}

/-! ### The record of a derived key (R166, R173, R175) -/

/-- The record of the key derived from a shared secret, its handle and its KCV; its CHAIN is that of a generated key where the public key came inline
(log entry 116). -/
def derivedRecord (b : Block) (j : Job) (g : Nat) (z info : Bytes) : NewRecord × Nat × Bytes :=
  newSymmetric b j.chamber g (j.opN 8) (j.op 9 2) (byteAt j.operands 11) (byteAt j.operands 12) (j.op 13 2) (ofLe (j.op 16 4))
    (if j.inlineKey then 0xFFFFFFFF else hSlot j.kIn.handle) (derivedKey (j.opN 8) (j.opN 15) z info)

/-- OK, with the handle and the KCV of a derived key. -/
def derivedOk (k : NewRecord × Nat × Bytes) (out : Option Bytes) : Outcome :=
  { status := 0, result := fit 16 (leBytes 8 k.2.1 ++ k.2.2), output := out }

section
variable {lattice windowed : Bool} {info z : Bytes} {out : Option Bytes} (hg : lowestRun b j.chamber 1 = some g)
include hg

theorem deriveRecord_makes : deriveRecord b j lattice windowed drawn (some z) info out =
    runCreating b j.chamber (.gallery lattice windowed false drawn) (derivedOk (derivedRecord b j g z info) out)
      [(derivedRecord b j g z info).1] := by
  simp only [deriveRecord, hg]; rfl

/-- Where validation fails, a slot is reserved all the same (R166). -/
theorem deriveRecord_rejects : deriveRecord b j lattice windowed drawn none info out =
    runCreating b j.chamber (.gallery lattice windowed true drawn) (onlyStatus 0x0030) [{ gidx := g, lines := [zeros 64], newClass := some 1 }] := by
  simp only [deriveRecord, hg]; rfl

end

/-! ### Agreement, encapsulation and decapsulation (R175, R176) -/

/-- The operands, the input and the key of an operation that derives a key are of their form (R164, R173). -/
def DeriveForm (j : Job) (p : PkInput) : Prop :=
  newRecordOk j false = true ∧ p.rest.length ≤ 1024 ∧ keyMatches j p = true ∧ derivedUse j = true

section
variable (h : DeriveForm j p)
include h

theorem opPkDerive_derives (hp : pkParts j false .peer = some p) (hs : pkSyntax r j 4 = true) :
    opPkDerive b r j = deriveRecord b j false true [] (agreedSecret j p.part) p.rest none := by
  obtain ⟨hn, hl, hk, hu⟩ := h
  simp only [opPkDerive, hp, hs, hn, Nat.not_lt.mpr hl, hk, hu]; rfl

theorem opPkEncapsulate_derives (hp : pkParts j (needsKey j) .absent = some p) (hs : pkSyntax r j 5 = true)
    (hg : lowestRun b j.chamber 1 = some g) (hd : b.draw 32 = some (drawn, b1)) :
    opPkEncapsulate b r j = deriveRecord b1 j true true drawn
      (if kemValid (usedKey j p) then some (kemEncaps (usedKey j p) drawn).1 else none) p.rest (some (kemEncaps (usedKey j p) drawn).2) := by
  obtain ⟨hn, hl, hk, hu⟩ := h
  simp only [opPkEncapsulate, hp, hs, hn, Nat.not_lt.mpr hl, hk, hu, hg, hd]; rfl

theorem opPkDecapsulate_derives (hp : pkParts j false .signature = some p) (hs : pkSyntax r j 6 = true) :
    opPkDecapsulate b r j = deriveRecord b j true false [] (some (kemDecaps j.kIn.material p.part)) p.rest none := by
  obtain ⟨hn, hl, hk, hu⟩ := h
  simp only [opPkDecapsulate, hp, hs, hn, Nat.not_lt.mpr hl, hk, hu]; rfl

end

/-- A row that comes to a derived key makes its record, or rejects where validation fails. -/
theorem completes_derived {ins : Instr} {op : Nat} {row : OpRow} {lattice windowed : Bool} {secret : Option Bytes} {info : Bytes}
    {out : Option Bytes} (h : Ready s r j op) (hi : exec ins s = run s (liveSettle (opRun · op r))) (hr : opRow op = some row)
    (hg : lowestRun b j.chamber 1 = some g) (hv : row.run (begun s r j) r j = deriveRecord b j lattice windowed drawn secret info out) :
    (∀ z, secret = some z → Completes ins s (worksCreating b r j (.gallery lattice windowed false drawn)
      (derivedOk (derivedRecord b j g z info) out) [(derivedRecord b j g z info).1])) ∧
    (secret = none → Completes ins s (worksCreating b r j (.gallery lattice windowed true drawn) (onlyStatus 0x0030)
      [{ gidx := g, lines := [zeros 64], newClass := some 1 }])) := by
  refine ⟨fun z hz => ?_, fun hz => ?_⟩ <;> subst hz
  · exact completes_submits h hi hr (hv.trans (deriveRecord_makes hg)) rfl
  · exact completes_submits h hi hr (hv.trans (deriveRecord_rejects hg)) rfl

/-! ### RSA encryption (R177, R181) -/

/-- The modulus and the exponent of the public key that an RSA operation uses. -/
def rsaModulus (j : Job) (p : PkInput) : Nat := ofBe ((usedKey j p).take (rsaBits j / 8))

/-- The exponent of that key. -/
def rsaExponent (j : Job) (p : PkInput) : Nat := ofBe ((usedKey j p).drop (rsaBits j / 8))

/-- The encoded message `em` under the public key, or PK_REJECT: the end of PK_ENCRYPT. -/
def encrypted (j : Job) (p : PkInput) (drawn em : Bytes) : Verdict :=
  pkRun false (rsaKeyValid j (rsaModulus j p) (rsaExponent j p) && decide (1 ≤ ofBe em) && decide (ofBe em < rsaModulus j p)) drawn
    (okOut [] (beBytes (rsaBits j / 8) (rsaPublicOp (rsaModulus j p) (rsaExponent j p) (ofBe em)))) []

theorem encrypted_valid {em : Bytes} (hv : rsaKeyValid j (rsaModulus j p) (rsaExponent j p) = true) (h1 : 1 ≤ ofBe em)
    (hn : ofBe em < rsaModulus j p) : encrypted j p drawn em = .run (.gallery false true false drawn)
      (okOut [] (beBytes (rsaBits j / 8) (rsaPublicOp (rsaModulus j p) (rsaExponent j p) (ofBe em)))) [] := by
  simp only [encrypted, hv, decide_eq_true h1, decide_eq_true hn, Bool.and_self, pkRun_valid]

theorem encrypted_invalid {em : Bytes} (hv : rsaKeyValid j (rsaModulus j p) (rsaExponent j p) = false) :
    encrypted j p drawn em = .run (.gallery false true true drawn) (onlyStatus 0x0030) [] := by
  simp only [encrypted, hv, Bool.false_and, pkRun_invalid]

section
variable (hp : pkParts j (needsKey j) .absent = some p) (hs : pkSyntax r j 7 = true) (hz : j.zero 8 31 = true) (hk : keyMatches j p = true)
include hp hs hz hk

/-- OAEP under a drawn seed. -/
theorem opPkEncrypt_oaep (h18 : j.scheme = 0x18) (hl : p.rest.length ≤ rsaBits j / 8 - 2 * hashLen j.halg - 2)
    (hd : b.draw (hashLen j.halg) = some (drawn, b1)) :
    opPkEncrypt b r j = (encrypted j p drawn (oaepEncode j.halg p.label p.rest drawn (rsaBits j / 8)), b1) := by
  simp only [opPkEncrypt, hp, hs, hz, h18, if_true, Nat.not_lt.mpr hl, hk, hd]; rfl

/-- PKCS #1 with drawn padding, whose zero bytes are drawn again. -/
theorem opPkEncrypt_pkcs1 (h19 : j.scheme = 0x19) (hl : p.rest.length ≤ rsaBits j / 8 - 11)
    (hd : b.draw (rsaBits j / 8 - 3 - p.rest.length) = some (drawn, b1)) (hps : drawNonZero 64 b1 drawn = some (ps, b2)) :
    opPkEncrypt b r j = (encrypted j p ps ([0, 2] ++ ps ++ [0] ++ p.rest), b2) := by
  have not18 : ¬ (0x19 : Nat) = 0x18 := by decide
  simp only [opPkEncrypt, hp, hs, hz, h19, if_neg not18, Nat.not_lt.mpr hl, hk, hd, hps]; rfl

end

/-- A row that comes to an encoded message encrypts it, or rejects the key. -/
theorem completes_encrypted {ins : Instr} {op : Nat} {row : OpRow} {em : Bytes} (h : Ready s r j op)
    (hi : exec ins s = run s (liveSettle (opRun · op r))) (hr : opRow op = some row)
    (hv : row.run (begun s r j) r j = (encrypted j p drawn em, b)) :
    (rsaKeyValid j (rsaModulus j p) (rsaExponent j p) = true → 1 ≤ ofBe em → ofBe em < rsaModulus j p →
      Completes ins s (works b r j (.gallery false true false drawn)
        (okOut [] (beBytes (rsaBits j / 8) (rsaPublicOp (rsaModulus j p) (rsaExponent j p) (ofBe em)))))) ∧
    (rsaKeyValid j (rsaModulus j p) (rsaExponent j p) = false →
      Completes ins s (works b r j (.gallery false true true drawn) (onlyStatus 0x0030))) :=
  ⟨fun hk h1 hn => completes_submits h hi hr (hv.trans (congrArg (·, b) (encrypted_valid hk h1 hn))) rfl,
    fun hk => completes_submits h hi hr (hv.trans (congrArg (·, b) (encrypted_invalid hk))) rfl⟩

/-! ### RSA decryption (R177, R179) -/

/-- PK_DECRYPT's operands, input and key are of their form, and its blinding is drawn. -/
def DecryptForm (b : Block) (r : Requester) (j : Job) (p : PkInput) (drawn : Bytes) (b1 : Block) : Prop :=
  pkParts j false .signature = some p ∧ pkSyntax r j 8 = true ∧ j.zero 8 31 = true ∧ p.rest = [] ∧ keyMatches j p = true ∧
    b.draw (rsaBits j / 8 + 16) = some (drawn, b1)

/-- The modulus of the key that an RSA operation opens a ciphertext with. -/
def rsaPrivateModulus (j : Job) : Nat :=
  (rsaStored (rsaBits j / 8) j.kIn.material).p * (rsaStored (rsaBits j / 8) j.kIn.material).q

/-- What becomes of a ciphertext in range: INTERNAL where the self-check fails (R170), and PK_REJECT where it does not decode, reported when a success
would be. -/
def decrypted (j : Job) (p : PkInput) (drawn : Bytes) : Outcome :=
  match rsaChecked j drawn (ofBe p.part) with
  | none => onlyStatus 0x00F0
  | some m => ((oaepDecode j.halg p.label (beBytes (rsaBits j / 8) m)).map (okOut [])).getD (onlyStatus 0x0030)

theorem decrypted_selfCheckFails (hm : rsaChecked j drawn (ofBe p.part) = none) : decrypted j p drawn = onlyStatus 0x00F0 := by
  simp only [decrypted, hm]

theorem decrypted_decodes {m : Nat} {msg : Bytes} (hm : rsaChecked j drawn (ofBe p.part) = some m)
    (ho : oaepDecode j.halg p.label (beBytes (rsaBits j / 8) m) = some msg) : decrypted j p drawn = okOut [] msg := by
  simp only [decrypted, hm, ho, Option.map_some, Option.getD_some]

theorem decrypted_undecodable {m : Nat} (hm : rsaChecked j drawn (ofBe p.part) = some m)
    (ho : oaepDecode j.halg p.label (beBytes (rsaBits j / 8) m) = none) : decrypted j p drawn = onlyStatus 0x0030 := by
  simp only [decrypted, hm, ho, Option.map_none, Option.getD_none]

section
variable (h : DecryptForm b r j p drawn b1)
include h

theorem opPkDecrypt_outOfRange (hc : ofBe p.part = 0 ∨ rsaPrivateModulus j ≤ ofBe p.part) :
    opPkDecrypt b r j = (.run (.gallery false true true drawn) (onlyStatus 0x0030) [], b1) := by
  obtain ⟨hp, hs, hz, hr, hk, hd⟩ := h
  unfold rsaPrivateModulus at hc
  simp only [opPkDecrypt, hp, hs, hz, hr, hk, hd, hc]; rfl

/-- A ciphertext in range ends by its self-check and by what it decodes to. -/
theorem opPkDecrypt_inRange (h0 : ofBe p.part ≠ 0) (hn : ofBe p.part < rsaPrivateModulus j) :
    opPkDecrypt b r j = (.run (.gallery false true false drawn) (decrypted j p drawn) [], b1) := by
  obtain ⟨hp, hs, hz, hr, hk, hd⟩ := h
  have inRange := not_or.mpr ⟨h0, Nat.not_le.mpr hn⟩
  unfold rsaPrivateModulus at inRange
  simp only [opPkDecrypt, hp, hs, hz, hr, hk, hd, inRange, decrypted]
  cases rsaChecked j drawn (ofBe p.part) with
  | none => rfl
  | some m =>
    dsimp only
    cases oaepDecode j.halg p.label (beBytes (rsaBits j / 8) m) <;> rfl

end

/-! ### The statement -/

/-- Settles O27: each operation that derives a key makes its record or rejects, and each RSA operation takes the course that its checks, its draw and
its self-check name. -/
theorem keyAgreement : Obligations.KeyAgreement := by
  unfold Obligations.KeyAgreement
  refine ⟨fun s r j p g drawn b1 => ?_, fun s r j p drawn ps b1 b2 m => ?_⟩
  · intro b chain new makes rejects hn hl hk hu hg hg1
    have form : DeriveForm j p := ⟨hn, hl, hk, hu⟩
    refine ⟨fun h hp hs => completes_derived h rfl rfl hg (opPkDerive_derives form hp hs), fun h hp hs hd => ?_, fun h hp hs => ?_⟩
    · have made := completes_derived (ins := .pkEncapsulate r) h rfl rfl hg1 (opPkEncapsulate_derives form hp hs hg hd)
      exact ⟨fun hv => made.1 _ (if_pos hv), fun hv => made.2 (if_neg (by simp [hv]))⟩
    · exact (completes_derived (ins := .pkDecapsulate r) h rfl rfl hg (opPkDecapsulate_derives form hp hs)).1 _ rfl
  · intro b bytes pk n e key em c ends hz hk
    refine ⟨fun h hp hs h18 hl hd => completes_encrypted h rfl rfl (opPkEncrypt_oaep hp hs hz hk h18 hl hd),
      fun h hp hs h19 hl hd hps => completes_encrypted h rfl rfl (opPkEncrypt_pkcs1 hp hs hz hk h19 hl hd hps), fun h hp hs hr hd => ?_⟩
    have form : DecryptForm b r j p drawn b1 := ⟨hp, hs, hz, hr, hk, hd⟩
    have decrypts {o : Outcome} (h0 : c ≠ 0) (hn : c < key.p * key.q) (ho : decrypted j p drawn = o) : ends o :=
      ho ▸ completes_submits h rfl rfl (opPkDecrypt_inRange form h0 hn) rfl
    exact ⟨fun hc => completes_submits h rfl rfl (opPkDecrypt_outOfRange form hc) rfl,
      fun h0 hn hm => ⟨fun msg ho => decrypts h0 hn (decrypted_decodes hm ho), fun ho => decrypts h0 hn (decrypted_undecodable hm ho)⟩,
      fun h0 hn hm => decrypts h0 hn (decrypted_selfCheckFails hm)⟩

end Sys2Proof.Machine
end

section
/-! PROOFS. The generation of an RSA pair whose search ends without primes (R174), and with it the statement on the key commands. -/
namespace Sys2Proof.Machine

variable {b b1 : Block} {m : Mbx} {p : Bytes}

/-! ### KEY_GENERATE of an RSA pair (R174, R358) -/

/-- The request for an RSA pair passes the checks before its primes are looked for. -/
def RsaPairForm (b : Block) (p : Bytes) (places : List NewRecord) : Prop :=
  shaped p 20 [] = true ∧ scopeValid b (pb p 0) = true ∧ scopeExists b (pb p 0) = true ∧ pb p 1 ≠ 0 ∧
    pkSyntax (.ticket 0 0) (generateJob p) 3 = true ∧ newRecordOk (generateJob p) true = true ∧
    keygenPlan b (.ticket 0 0) (generateJob p) = .ok places ∧ schemeRsa (generateJob p).scheme = true

/-- A search without primes leaves the device as its draws have left it. -/
theorem cmdKeyGenerate_primeless {places : List NewRecord} (h : RsaPairForm b p places) (hn : keygenPrimes b (generateJob p) = some (none, b1)) :
    cmdKeyGenerate m b p = .reply b1 0x00F0 0 [] := by
  obtain ⟨hs, hv, he, h1, hp, hr, hplan, hrsa⟩ := h
  simp only [cmdKeyGenerate, hs, hv, he, h1, hp, hr, hplan, hrsa, hn, Bool.not_true, Bool.false_eq_true, or_self, if_false, if_true]
  rfl

/-- Zero bytes give the candidate 1, which is too small. -/
theorem primeSearch_zero {bits e fuel : Nat} {other : Option Nat} {x : Bytes} (hd : b.draw (bits / 16) = some (x, b1)) (hx : ofBe x = 0)
    (hb : 2 ≤ bits) : primeSearch bits e other (fuel + 1) b = primeSearch bits e other fuel b1 := by
  have small : ¬ 2 ^ (bits - 1) ≤ (0 / 2 * 2 + 1) * (0 / 2 * 2 + 1) := Nat.not_le.mpr (Nat.one_lt_two_pow (by omega))
  simp only [primeSearch, hd, primeOk, hx, small, false_and, if_false]

/-- No pair of primes where the search for the first finds none. -/
theorem keygenPrimes_none {j : Job} (h : primeSearch j.keyBits (ofLe (j.op 20 4)) none (5 * j.keyBits) b = some (none, b1)) :
    keygenPrimes b j = some (none, b1) := by
  simp only [keygenPrimes, rsaPrimes, h, Option.map_some, Option.map_none]

/-! ### A device whose Lantern delivers zeros -/

/-- The payload that asks for a system pair of RSA with 2,048 bits and exponent 65,537. -/
def pairPayload : Bytes :=
  [0xFF, 6] ++ leBytes 2 2048 ++ [0] ++ ascii "S0" ++ [0x53, 0x4E] ++ ascii "00" ++ [0] ++ zeros 4 ++ leBytes 4 65537

/-- The request of the ceremony's mailbox under AUTHREF 7. -/
def pairRequest : Bytes := [3, 1] ++ leBytes 2 0x0202 ++ zeros 4 ++ leBytes 2 20 ++ [BitVec.ofNat 8 (mbxNo .ce), 0] ++ leBytes 4 7 ++ pairPayload

/-- That AUTHREF, which one custodian has met. -/
def pairToken : AuthRef :=
  { ref := 7, nonce := [], command := 0x0202, slice := mbxNo .ce, scope := 0xFF, rdigest := rdigest 0x0202 (mbxNo .ce) pairPayload, issued := 0
    counted := [0] }

/-- A device that serves, with the request in its mailbox; its expander has not been instantiated, so that Lantern delivers zeros, `n` bytes of them
so far (R405, R530). -/
def zeroLantern (n : Nat) : Block :=
  { Block.reset with
    life := 3, pmc := { Pmc.reset with on := 0xFFFFFF, booted := true, ready := true, perstN := false }
    sump := { Sump.reset with st := .ready }, lantern := { Lantern.reset with st := .running }, ferrules := bootFerrules
    counters := { Counters.reset with tally := [(143, n)] }
    bimor := { Bimor.reset with mbx := [(mbxNo .ce, { Mailbox.reset with phase := .running, vmaj := 3, vmin := 1, command := pairRequest })] } }

/-- The same device before the AUTHREF is consumed. -/
def pairAsked : State := { blk := (zeroLantern 0).modBimor fun y => { y with auths := [pairToken] }, pending := [] }

/-! ### Its searches for primes -/

/-- The device once 10,240 candidates of 128 bytes have been drawn. -/
def primesSought : Block := zeroLantern (0 + 128 * (5 * 2048))

theorem zeroLantern_draw {n : Nat} (h : n + 128 < 2 ^ 48) : (zeroLantern n).draw 128 = some (zeros 128, zeroLantern (n + 128)) := by
  have count : min (2 ^ 48 - 1) (n + 128) = n + 128 := Nat.min_eq_right (by omega)
  rw [← count]; rfl

theorem primeSearch_zeroLantern (e : Nat) (other : Option Nat) : ∀ fuel n, n + 128 * fuel < 2 ^ 48 →
    primeSearch 2048 e other fuel (zeroLantern n) = some (none, zeroLantern (n + 128 * fuel))
  | 0, _, _ => rfl
  | fuel + 1, n, h => by
    have total : n + 128 * (fuel + 1) = n + 128 + 128 * fuel := by omega
    rw [primeSearch_zero (zeroLantern_draw (by omega)) (by decide +kernel) (by decide), total]
    exact primeSearch_zeroLantern e other fuel (n + 128) (by omega)

/-- Of 10,240 candidates none is a prime. -/
theorem keygenPrimes_zeroLantern : keygenPrimes (zeroLantern 0) (generateJob pairPayload) = some (none, primesSought) := by
  have bits : (generateJob pairPayload).keyBits = 2048 := by decide +kernel
  refine keygenPrimes_none ?_
  rw [bits]
  exact primeSearch_zeroLantern _ _ _ _ (by decide +kernel)

/-! ### Its command -/

/-- An AUTHREF that is open, names the request and has been met by enough custodians admits a command, and is consumed (R352). -/
theorem authorise_consumes {x : Mailbox} {row : CmdRow} {a : AuthRef} (hc : row.cls ≠ .q ∧ row.cls ≠ .o) (hl : noCustodians b.life = false)
    (hn : reqAuthref x ≠ 0) (ho : openAuth b (reqAuthref x) = some a)
    (ha : a.command = row.code ∧ a.slice = reqSlice x ∧ a.scope = cmdScope row.cls (reqPayload x) ∧
      a.rdigest = rdigest row.code (reqSlice x) (reqPayload x) ∧
      max 1 (scopeCustodians b (cmdScope row.cls (reqPayload x))).k ≤ a.counted.length) :
    authorise b x row = (none, cancelAuths b fun a => a.ref == reqAuthref x) := by
  simp only [authorise, not_or.mpr hc, hl, hn, ho, ha, Bool.false_eq_true, and_self, if_false, if_true]

/-- KEY_GENERATE's row of the table of commands. -/
def keyGenerateRow : CmdRow := ⟨0x0202, "KEY_GENERATE", (1, 0), .cx, [.ce], false⟩

theorem pairAsked_authorised : authorise pairAsked.blk (pairAsked.blk.mbx (mbxNo .ce)) keyGenerateRow = (none, zeroLantern 0) := by
  have opened : openAuth pairAsked.blk (reqAuthref (pairAsked.blk.mbx (mbxNo .ce))) = some pairToken := rfl
  have payload : reqPayload (pairAsked.blk.mbx (mbxNo .ce)) = pairPayload := by decide +kernel
  have box : reqSlice (pairAsked.blk.mbx (mbxNo .ce)) = mbxNo .ce := by decide +kernel
  have named := authorise_consumes (by decide) rfl (by decide +kernel) opened (row := keyGenerateRow)
    ⟨rfl, by decide +kernel, by decide +kernel, by simp only [payload, box, pairToken, keyGenerateRow], by decide +kernel⟩
  exact named.trans rfl

theorem pairAsked_called : Called pairAsked .ce 0x0202 pairPayload (zeroLantern 0) where
  live := by decide +kernel
  starts := by decide +kernel
  header := by decide +kernel
  restored := .inl rfl
  admitted := by
    have leafless : makesLeaf pairAsked.blk keyGenerateRow = false := by decide +kernel
    have same : entered pairAsked.blk .ce keyGenerateRow = pairAsked.blk := by simp [entered, leafless]
    refine ⟨keyGenerateRow, rfl, fun h => by simp [leafless] at h, ?_, ?_, ?_⟩ <;> rw [same]
    · decide +kernel
    · exact pairAsked_authorised
    · decide +kernel

theorem pairAsked_form : ∃ places, RsaPairForm (zeroLantern 0) pairPayload places := by
  have plan : (keygenPlan (zeroLantern 0) (.ticket 0 0) (generateJob pairPayload)).isOk = true := by decide +kernel
  cases h : keygenPlan (zeroLantern 0) (.ticket 0 0) (generateJob pairPayload) with
  | error e => simp [h, Except.isOk, Except.toBool] at plan
  | ok places =>
    exact ⟨places, by decide +kernel, by decide +kernel, by decide +kernel, by decide +kernel, by decide +kernel, by decide +kernel, h,
      by decide +kernel⟩

/-- The bytes delivered are counted (R530), whatever else goes on. -/
theorem answered_tally : (answered (zeroLantern 0) .ce 0x00F0 []).tallyOf 143 = 0 ∧
    (answered primesSought .ce 0x00F0 []).tallyOf 143 = 1310720 := by decide +kernel

/-! ### The statement -/

/-- Refutes O46: a KEY_GENERATE of an RSA pair whose search ends without primes is said to answer INTERNAL on the device as it was before the search,
but the bytes that the search drew are gone and counted (R405, R530): with a Lantern that delivers zeros, tally counter 143 stands at 1,310,720
and not at 0. -/
theorem not_keyCommands : ¬ Obligations.KeyCommands := by
  unfold Obligations.KeyCommands
  intro h
  obtain ⟨places, form⟩ := pairAsked_form
  obtain ⟨first, -⟩ := h
  obtain ⟨-, generates, -⟩ := first pairAsked .ce pairPayload (zeroLantern 0) primesSought
    { id := 0, scope := 0, scalar := [], opened := 0, attributes := [], parts := [] } [] [] 0 0 [] places
  obtain ⟨hs, hv, he, h1, hp, hr, hplan, hrsa⟩ := form
  obtain ⟨-, pair⟩ := generates pairAsked_called rfl hv (.inl rfl)
  obtain ⟨-, plans⟩ := pair h1 hp hr
  obtain ⟨rsa, -⟩ := plans hplan
  obtain ⟨-, primeless, -⟩ := rsa hrsa
  have claimed := primeless keygenPrimes_zeroLantern
  have actual : Completes (.keyGenerate .ce) pairAsked (answered primesSought .ce 0x00F0 []) :=
    completes_answers pairAsked_called rfl (cmdKeyGenerate_primeless ⟨hs, hv, he, h1, hp, hr, hplan, hrsa⟩ keygenPrimes_zeroLantern) (by decide)
  have same := congrArg (fun b => b.tallyOf 143) (claimed.unique actual)
  simp only [answered_tally] at same
  exact absurd same (by decide)

end Sys2Proof.Machine
end

section
/-! PROOFS. Gallery's cores, from the request they take to its result, its rejection or its abort; the ends of engine calls, of a core's waits and of
the busy window; and with them the statement on them (R18, R153 to R160, R170, R179, R182 to R190, R198, R205, R253, R254, R264, R275 to R277). -/
namespace Sys2Proof.Machine

variable {b b1 : Block} {s : State} {k : Nat} {q : GaReq} {r : Requester} {j : Job} {e : Egress}

/-! ### Events and domains of the cores (R153, R520) -/

/-- An event of a curve core counted in its quad; lattice cores have no counters. -/
def gaCounted (b : Block) (k ev payer : Nat) : Block := if k < 16 then b.event (68 + k / 4) ev (if payer = 64 then none else some payer) else b

theorem gaEvent_eq (b : Block) (k ev payer : Nat) : gaEvent b k ev payer = gaCounted b k ev payer := by
  by_cases h : k < 16
  · simp [gaEvent, gaCounted, gaLattice, h]
  · simp [gaEvent, gaCounted, gaLattice, h, Nat.not_lt.mp h]

theorem gaDomain_eq (k : Nat) : gaDomain k = if k < 16 then 10 + k / 4 else 14 := by
  by_cases h : k < 16
  · simp [gaDomain, gqDomain, gaLattice, h]
  · simp [gaDomain, gltDomain, gaLattice, h, Nat.not_lt.mp h]

/-- A request is that of a requester's operation at work. -/
def GaMine (q : GaReq) (r : Requester) (j : Job) : Prop := q.owner = .job r ∧ j.phase = .engine ∧ j.engId = some q.id

/-! ### Dispatch (R154, R157, R159, R205) -/

/-- The device with Headstock's requests let into the queue as far as it has entries. -/
def gaAdmitted (b : Block) : Block := { b with gallery := gaAdmit b.gallery }

theorem galleryDispatch_tablesBad (h : b.gallery.tablesOk = false) : galleryDispatch b = gaAdmitted b := by
  have bad : (gaAdmit b.gallery).tablesOk = false := h
  simp only [galleryDispatch, bad, Bool.not_false, if_true]; rfl

/-- The random bytes that a request takes along: a header's signature with ML-DSA-87 draws them now, or takes zeros (R205, R408). -/
def gaDrawn (b : Block) (k : Nat) (q : GaReq) : Bytes × Block :=
  match q.owner with
  | .header _ _ true => match b.draw 32 with
    | some (x, b) => (x, b)
    | none => (zeros 32, gaEvent b k 0x00A q.payer)
  | _ => (q.drawn, b)

theorem gaDrawn_eq {d : Bytes} (ho : (∀ i n, q.owner ≠ .header i n true) → d = q.drawn ∧ b1 = b)
    (hh : ∀ i n, q.owner = .header i n true → b.draw 32 = some (d, b1) ∨
      (b.draw 32 = none ∧ d = zeros 32 ∧ b1 = gaCounted b k 0x00A q.payer)) :
    gaDrawn b k q = (d, b1) := by
  unfold gaDrawn
  split
  next i n h => rcases hh i n h with hd | ⟨hd, rfl, rfl⟩ <;> simp only [hd, gaEvent_eq]
  next hn =>
    obtain ⟨rfl, rfl⟩ := ho hn
    rfl

/-- Core `k` takes the request, with its message on its way (R154, R159). -/
def gaTaken (k : Nat) (st : GaReq × Block) : Block :=
  let x := st.1
  let g := st.2.gallery
  { st.2 with gallery := { g with
    cores := Tab.set g.cores k (if x.windowed then .validating x else .working x)
    queue := g.queue.filter fun y => y.id != x.id
    last := if x.source = .flowstone then g.last else x.source
    secret := Tab.set g.secret k (gaPrivate st.2 x ++ x.drawn)
    operands := Tab.set g.operands k (gaPublic st.2 x)
    curveCount := if x.lattice then g.curveCount else g.curveCount + 1
    latticeCount := if x.lattice then g.latticeCount + 1 else g.latticeCount } }

theorem gaStream_payer (b : Block) (q : GaReq) : (gaStream b q).1.payer = q.payer := by
  unfold gaStream
  split
  · split <;> rfl
  · rfl
  · rfl

theorem galleryDispatch_takes {d : Bytes} (ht : b.gallery.tablesOk = true) (hp : gaPick (gaAdmitted b) = some (k, q))
    (hd : gaDrawn (gaAdmitted b) k q = (d, b1)) :
    galleryDispatch b = gaCounted (gaTaken k (gaStream b1 { q with drawn := d })) k 0x002 q.payer := by
  have ok : (gaAdmit b.gallery).tablesOk = true := ht
  have takes : galleryDispatch b = gaEvent (gaTaken k (gaStream (gaDrawn (gaAdmitted b) k q).2 { q with drawn := (gaDrawn (gaAdmitted b) k q).1 }))
      k 0x002 (gaStream (gaDrawn (gaAdmitted b) k q).2 { q with drawn := (gaDrawn (gaAdmitted b) k q).1 }).1.payer := by
    unfold gaAdmitted at hp
    simp only [galleryDispatch, ok, Bool.not_true, Bool.false_eq_true, if_false, hp]
    rfl
  rw [takes, hd, gaStream_payer, gaEvent_eq]

/-! ### The end of a validation window (R179) -/

section
variable (hc : b.gaCore k = .validating q)
include hc

theorem validationWindowEnd_goesOn (hr : q.rejects = false) : validationWindowEnd b k = b.setGaCore k (.working q) := by
  simp only [validationWindowEnd, hc, hr]; rfl

/-- The device as an operation is rejected: the core is free, and its message is cleared. -/
def gaRejected (b : Block) (k : Nat) (q : GaReq) : Block := (gaCounted (gaUnstream (gaRelease b k) q) k 0x004 q.payer).tally 139

theorem validationWindowEnd_rejects (hr : q.rejects = true) (hm : GaMine q r j) (hj : (gaRejected b k q).job? r = some j) :
    validationWindowEnd b k = endJob (releaseSlots (gaRejected b k q) j.chamber j.creates) r (onlyStatus 0x0030) := by
  obtain ⟨howner, hphase, hid⟩ := hm
  unfold gaRejected at hj
  simp only [validationWindowEnd, hc, hr, gaEvent_eq, howner, hj, hphase, hid]
  rfl

end

/-! ### Results (R155, R156, R160, R170, R182, R183) -/

section
variable {bad : Option Nat} (hc : b.gaCore k = .working q)
include hc

theorem galleryOpComplete_streams (hs : gaStreams b q = true) : galleryOpComplete b k bad e = b := by
  simp only [galleryOpComplete, hc, hs, if_true]

variable (hs : gaStreams b q = false) (hm : GaMine q r j)
include hs hm

/-- The device `b` as the result of core `k` goes to its requester: a self-check that failed is reported, and the core is free. -/
def gaFinished (b : Block) (k : Nat) (q : GaReq) (r : Requester) : Block :=
  (gaCounted (gaRelease (rsaReport b k r) k) k 0x003 q.payer).tally 138

theorem galleryOpComplete_delivers (ht : gaReadsTables b q = false ∨ bad = none) (hl : gaLate b k q = some b1)
    (hj : (gaFinished b1 k q r).job? r = some j) : galleryOpComplete b k bad e = deliver (gaFinished b1 k q r) r e := by
  obtain ⟨howner, hphase, hid⟩ := hm
  have unread : (if gaReadsTables b q then bad else none) = none := by rcases ht with ht | ht <;> simp [ht]
  unfold gaFinished at hj
  simp only [galleryOpComplete, hc, hs, unread, hl, howner, gaEvent_eq, gaDeliver, hj, hphase, hid]
  rfl

/-- The device as an operation ends that met a bad word of the shared tables: the operand memory is zero. -/
def gaBadWord (b : Block) (k : Nat) (q : GaReq) (a : Nat) : Block :=
  gaErase (gaRelease ((gaCounted (b.report 0x0240 0 .w a 0 0) k 0x003 q.payer).tally 138) k) k

theorem galleryOpComplete_badWord {a : Nat} (ht : gaReadsTables b q = true) (hb : bad = some a) (hj : (gaBadWord b k q a).job? r = some j) :
    galleryOpComplete b k bad e = deliver ((gaBadWord b k q a).modJob r fun j => { j with held := some (onlyStatus 0x00F0) }) r e := by
  obtain ⟨howner, hphase, hid⟩ := hm
  unfold gaBadWord at hj
  simp only [galleryOpComplete, hc, hs, ht, hb, Bool.false_eq_true, if_false, if_true, gaEvent_eq, gaStopped, howner, hj, hphase, hid]
  rfl

end

/-- Only a batch and the search for an RSA pair find out more as they run. -/
theorem gaLate_same (h2 : j.opcode ≠ 0x0402) (h3 : j.opcode ≠ 0x0403 ∨ schemeRsa j.scheme = false) (ho : q.owner = .job r)
    (hj : b.job? r = some j) : gaLate b k q = some b := by
  have known : ¬ (j.opcode = 0x0403 ∧ schemeRsa j.scheme = true) := by
    rintro ⟨hop, hrsa⟩
    rcases h3 with h3 | h3
    · exact h3 hop
    · simp [hrsa] at h3
  simp only [gaLate, ho, hj, h2, known, if_false]

/-! ### Aborts (R188 to R190) -/

/-- The device without the abort request on its way to core `k`. -/
def gaAsked (b : Block) (k : Nat) : Block := { b with gallery := { b.gallery with abortReq := b.gallery.abortReq.filter (· != k) } }

/-- Core `k` stops its operation, and its operand memory is being zeroised. -/
def gaStopping (b : Block) (k : Nat) (q : GaReq) : Block :=
  (gaUnstream (gaDropRefs (gaAsked b k) q) q).setGaCore k (.aborting { q with drawn := [], message := none })

theorem galleryAbort_stops (ha : k ∈ b.gallery.abortReq) (hc : b.gaCore k = .working q ∨ b.gaCore k = .validating q) :
    galleryAbort b k = gaStopping b k q := by
  have asked : b.gallery.abortReq.contains k = true := by simpa using ha
  have core : (gaAsked b k).gaCore k = b.gaCore k := rfl
  unfold gaAsked at core
  simp only [galleryAbort, asked, core]
  rcases hc with hc | hc <;> rw [hc] <;> rfl

theorem galleryAbort_none (ha : k ∉ b.gallery.abortReq) : galleryAbort b k = b := by
  simp [galleryAbort, ha]

/-- The device as an abort is signalled: the core is free, and its operand memory is zero. -/
def gaEnded (b : Block) (k : Nat) (q : GaReq) : Block := gaErase (gaCounted ((gaRelease b k).tally 140) k 0x005 q.payer) k

theorem abortedSignalled_ends (hc : b.gaCore k = .aborting q) (hm : GaMine q r j) (hj : (gaEnded b k q).job? r = some j) :
    abortedSignalled b k = endJob (releaseSlots (gaEnded b k q) j.chamber j.creates) r (onlyStatus 0x0070) := by
  obtain ⟨howner, hphase, hid⟩ := hm
  unfold gaEnded at hj
  simp only [abortedSignalled, hc, gaEvent_eq, gaAborted, howner, hj, hphase, hid]
  rfl

theorem engineLocalAbort_one (hc : b.gaCore k = .working q ∨ b.gaCore k = .validating q) : engineLocalAbort b (some k) =
    { b with gallery := { b.gallery with abortReq := b.gallery.abortReq.filter (· != k) ++ [k] } } := by
  rcases hc with hc | hc <;> simp only [engineLocalAbort, hc]

/-! ### Tickets (R275 to R277) -/

section
variable {t n : Nat} {o : Outcome}

/-- A ticket's call shown as complete, with its area. -/
def ticketShown (b : Block) (k t : Nat) (area : Bytes) : Block := b.modTicket k t fun x => { x with st := .complete, area := area }

/-- The EWAIT on a ticket returns: the ticket is free, and the core goes on. -/
def ewaitReturns (b : Block) (k t : Nat) : Block :=
  goOn ((b.modTicket k t fun x => { x with st := .free }).modCore k fun c => { c with st := .running }) k 1

/-- The area with the number of the call's leaf. -/
def auditedArea (area : Bytes) (n : Nat) : Bytes := patch (patch (fit 32 area) 2 [byteAt area 2 ||| 2]) 8 (leBytes 6 n)

theorem ticketShown_core (b : Block) (k t : Nat) (area : Bytes) : ((ticketShown b k t area).core k).st = (b.core k).st := by
  simp [ticketShown, Block.modTicket, Block.modCore, Block.core]

variable (hs : (b.ticket k t).st = .outstanding) (ho : (b.ticket k t).job.outcome = some o)
include hs ho

/-- A call without a leaf completes its area, and an EWAIT on it returns. -/
theorem ticketComplete_unaudited (hl : (b.ticket k t).leaf = .none) : ticketComplete b k t =
    if (b.core k).st = .waiting t then ewaitReturns (ticketShown b k t (fit 32 (b.ticket k t).area)) k t
    else ticketShown b k t (fit 32 (b.ticket k t).area) := by
  rw [← ticketShown_core b k t (fit 32 (b.ticket k t).area)]
  simp only [ticketComplete, hs, ho, hl]; rfl

/-- A call whose leaf has been accepted shows its number. -/
theorem ticketComplete_audited (hl : (b.ticket k t).leaf = .accepted n) : ticketComplete b k t =
    if (b.core k).st = .waiting t then ewaitReturns (ticketShown b k t (auditedArea (b.ticket k t).area n)) k t
    else ticketShown b k t (auditedArea (b.ticket k t).area n) := by
  rw [← ticketShown_core b k t (auditedArea (b.ticket k t).area n)]
  simp only [ticketComplete, hs, ho, hl]; rfl

omit hs ho in
theorem ticketComplete_leafDue (hl : (b.ticket k t).leaf = .waiting ∨ (b.ticket k t).leaf = .wanted ∨ (b.ticket k t).leaf = .entry) :
    ticketComplete b k t = b := by
  rcases hl with hl | hl | hl <;> simp only [ticketComplete, hl]

end

/-! ### Stalled calls and pages of the window (R18, R198, R264) -/

theorem ecallQueueAccept_again {wd : BitVec 4} (h : (b.core k).st = .stalled (.engine wd) ∨ (b.core k).st = .stalled (.leaf wd)) :
    ecallQueueAccept b k = takeCourse k (ecall k wd (b.modCore k fun c => { c with st := .running })) := by
  rcases h with h | h <;> simp only [ecallQueueAccept, h]

/-- Changes of a core that agree on it are one change. -/
theorem modCore_congr {f g : Core → Core} (h : f (b.core k) = g (b.core k)) : b.modCore k f = b.modCore k g := by
  have h : f (Tab.get b.chisel.cores Core.reset k) = g (Tab.get b.chisel.cores Core.reset k) := h
  simp only [Block.modCore, Tab.modify, h]

section
variable {n p : Nat} {i : Item} (hn : (b.core k).item = some n) (hi : b.item? n = some i) (ho : i.job.headerOk = true)
  (hp : nextPage (b.core k) = some p) (hc : (b.core k).st = .running ∨ (b.core k).st = .stalled (.window p))
include hn hi ho hp hc

/-- A page arrives, and the core that waited for it goes on. -/
theorem windowPageLoad_data {d : Bytes} (hd : DmaOpen b (hostMaster i.chamber) .write) : windowPageLoad b k (.data d) =
    issueBuffers (resumeSequence (b.modCore k fun c =>
      { c with window := Memory.writeBytes c.window (4096 * p) (fit 4096 (d.take (i.job.inLen - 4096 * ((b.core k).winpos + p))))
               loaded := c.loaded + 2 ^ p, st := .running }) k) (i.chamber % 8) := by
  have loads : windowLoads b k = true := by simp [windowLoads, hn, hi, ho]
  have same := modCore_congr (b := b) (k := k)
    (f := fun c =>
      { c with window := Memory.writeBytes c.window (4096 * p) (fit 4096 (d.take (i.job.inLen - 4096 * ((b.core k).winpos + p))))
               loaded := c.loaded + 2 ^ p, st := if c.st = .stalled (.window p) then .running else c.st })
    (g := fun c =>
      { c with window := Memory.writeBytes c.window (4096 * p) (fit 4096 (d.take (i.job.inLen - 4096 * ((b.core k).winpos + p))))
               loaded := c.loaded + 2 ^ p, st := .running })
    (by rcases hc with hc | hc <;> simp [hc])
  rw [← same]
  rcases hc with hc | hc <;> simp [windowPageLoad, hn, hi, hp, hc, loads, dmaRead_open hd]

/-- A page's read fails, and the item ends. -/
theorem windowPageLoad_failed {x : DmaRead} (hx : ∀ d, x ≠ .data d) : windowPageLoad b k x =
    endItemOnCore (bufferReadFault (b.modItem n fun i => { i with job := { i.job with input := [] } }) (i.chamber + 1) x) k 0x0022 := by
  have loads : windowLoads b k = true := by simp [windowLoads, hn, hi, ho]
  cases x with
  | data d => exact absurd rfl (hx d)
  | unsupportedRequest | completerAbort | timeout | poisoned =>
    rcases hc with hc | hc <;> simp [windowPageLoad, hn, hi, hp, hc, loads, dmaRead, Block.modJob]

end

/-! ### The statement -/

/-- Settles O29: each event of a Gallery core, of a ticket, of a waiting core and of the busy window takes the course that its conditions name. -/
theorem galleryAndCalls : Obligations.GalleryAndCalls := by
  unfold Obligations.GalleryAndCalls
  refine ⟨fun s k q r j e hr => ?_, fun s k t wd o n p i d hr => ?_⟩
  · intro b who count domain freed erased mine runs admitted
    have on (hd : b.domainOn domain = true) : b.domainOn (gaDomain k) = true := (gaDomain_eq k).symm ▸ hd
    refine ⟨fun ht hp d b1 ho hh => ?_, fun ht => completes_liveSettle rfl hr (galleryDispatch_tablesBad ht), fun hd hc => ?_, fun hd hc bad => ?_,
      fun hd ha hc => ?_, fun hd ha => ?_, fun hd hc hm => ?_, fun hc => completes_liveSettle rfl hr (engineLocalAbort_one hc),
      completes_liveSettle rfl hr rfl⟩
    · exact completes_liveSettle rfl hr (galleryDispatch_takes ht hp (gaDrawn_eq ho hh))
    · refine ⟨fun hj => completes_awakeSettle rfl hr (on hd) (validationWindowEnd_goesOn hc hj), ?_⟩
      intro hj hm past hp
      exact completes_awakeSettle rfl hr (on hd) (validationWindowEnd_rejects hc hj hm hp)
    · have row {t : Block} (ht : galleryOpComplete b k (bad.map (·.toNat)) e = t) : Completes (.galleryOpComplete k bad e) s (settle t) :=
        completes_awakeSettle rfl hr (on hd) ht
      refine ⟨fun hs => row (galleryOpComplete_streams hc hs), ?_, ?_, gaLate_same⟩
      · intro hs ht b1 hl hm past hp
        exact row (galleryOpComplete_delivers hc hs hm (ht.imp_right fun none => by simp [none]) hl hp)
      · intro a hs ht hb hm past hp
        exact row (galleryOpComplete_badWord hc hs hm ht (by simp [hb]) hp)
    · exact completes_awakeSettle rfl hr (on hd) (galleryAbort_stops ha hc)
    · exact completes_awakeSettle rfl hr (on hd) (galleryAbort_none ha)
    · exact fun past => completes_awakeSettle rfl hr (on hd) (abortedSignalled_ends hc hm past)
  · intro b x b1 freed audited
    refine ⟨fun hd hs ho => ?_, fun hd hw => completes_awakeSettle rfl hr hd (ecallQueueAccept_again hw), fun hd hn hi ho hp hc hopen => ?_,
      fun hd => ?_⟩
    · have row {u : Block} (hu : ticketComplete b k t = u) : Completes (.ticketComplete k t) s (settle u) := completes_awakeSettle rfl hr hd hu
      have shown (area : Bytes) : ((b1 area).core k).st = (b.core k).st := ticketShown_core b k t area
      exact ⟨fun hl hw => row ((ticketComplete_unaudited hs ho hl).trans (if_neg hw)),
        fun hl hw => row ((ticketComplete_unaudited hs ho hl).trans (if_pos ((shown _).symm.trans hw))),
        fun hl hw => row ((ticketComplete_audited hs ho hl).trans (if_neg fun h => hw ((shown _).trans h))),
        fun hl => row (ticketComplete_leafDue hl)⟩
    · exact ⟨completes_awakeSettle rfl hr hd (windowPageLoad_data hn hi ho hp hc hopen),
        fun x hx => completes_awakeSettle rfl hr hd (windowPageLoad_failed hn hi ho hp hc fun d hd => by simp [hd] at hx)⟩
    · simp [Completes, exec, execBusyWindowEnd, run, awake, hr, hd, busyWindowEnd, b]

end Sys2Proof.Machine
end

section
/-! PROOFS. What a leaf's bytes say, and how leaves are numbered, batched and kept going through a stall, and with it the statement on them (R194,
R197, R199, R201, R577). -/
namespace Sys2Proof.Machine

variable {b : Block} {i : ChainId} {r : LeafReq} {rest : List LeafReq} {t : Batch}

/-! ### Fields of bytes put together (R6) -/

theorem leBytes_succ (n v : Nat) : leBytes (n + 1) v = BitVec.ofNat 8 v :: leBytes n (v / 256) := by
  have byte (k : Nat) : v >>> (8 * (k + 1)) = (v / 256) >>> (8 * k) := by
    rw [Nat.mul_succ, Nat.add_comm, Nat.shiftRight_add]; simp [Nat.shiftRight_eq_div_pow]
  simp [leBytes, List.range_succ_eq_map, byte]

/-- A number that fits in `n` bytes is read back. -/
theorem ofLe_leBytes {n v : Nat} (h : v < 256 ^ n) : ofLe (leBytes n v) = v := by
  induction n generalizing v with
  | zero => simp [leBytes, ofLe]; omega
  | succ n ih =>
    have rest : ofLe (leBytes n (v / 256)) = v / 256 := ih (by rw [pow_succ] at h; omega)
    calc ofLe (leBytes (n + 1) v) = v % 256 + 256 * ofLe (leBytes n (v / 256)) := by rw [leBytes_succ]; simp [ofLe]
      _ = v := by rw [rest]; omega

theorem slice_middle {off n : Nat} {x y z : Bytes} (hx : x.length = off) (hy : y.length = n) : slice (x ++ (y ++ z)) off n = y := by
  subst hx hy; simp [slice]

theorem length_slice {d : Bytes} {off n : Nat} (h : off + n ≤ d.length) : (slice d off n).length = n := by
  simp [slice]; omega

/-- Bytes patched within their length. -/
theorem patch_within {d x : Bytes} {off : Nat} (h : off + x.length ≤ d.length) :
    patch d off x = d.take off ++ x ++ d.drop (off + x.length) := by
  unfold patch
  exact List.take_of_length_le (by simp; omega)

/-! ### The bytes of a leaf (R194) -/

/-- A stamped leaf: number, claim, the body's next 16 bytes, time, and the rest of the body. -/
theorem stampLeaf_fields {body : Bytes} (h : body.length = 64) (seq claim time : Nat) : stampLeaf body seq claim time =
    leBytes 6 seq ++ (leBytes 2 claim ++ (slice body 8 16 ++ (leBytes 8 time ++ (slice body 32 32 ++ [])))) := by
  have numbered : patch body 0 (leBytes 6 seq ++ leBytes 2 claim) = leBytes 6 seq ++ leBytes 2 claim ++ body.drop 8 := by
    rw [patch_within (by simp [length_leBytes]; omega)]; simp [length_leBytes]
  have tail : (slice body 32 32 : Bytes) = body.drop 32 := List.take_of_length_le (by simp; omega)
  rw [stampLeaf, numbered, patch_within (by simp [length_leBytes]; omega), tail]
  simp [length_leBytes, List.take_append, List.drop_append, slice, List.take_of_length_le, List.drop_of_length_le]

/-! ### The open batch and its end (R201, R577) -/

/-- What the header of a batch says that closes under a CLOSE code. -/
def normalBody (b : Block) (t : Batch) (close : Nat) : HeaderBody :=
  { kind := 0, close := close, firstSeq := t.firstSeq, claim := t.claim, count := t.hashes.length, openTime := t.openTime, closeTime := b.now
    gapFirst := 0, gapCount := 0, root := merkleRoot t.hashes, nextKids := [] }

/-- The device with batch `t` closed into the chain's next header. -/
def batchEnded (b : Block) (i : ChainId) (t : Batch) (close : Nat) : Block :=
  ((makeHeader b i (normalBody b t close) (t.firstSeq + t.hashes.length)).flowHash (t.hashes.length - 1 - t.hashes.length / 2)).modChain i
    fun c => { c with batch := none, closeDue := none }

theorem endBatch_some (ht : (b.chain i).batch = some t) (close : Nat) : endBatch b i close = batchEnded b i t close := by
  rw [endBatch, ht]; rfl

theorem closeBatch_running (hs : (b.chain i).stalled = none) (ht : (b.chain i).batch = some t) (close : Nat) :
    closeBatch b i close = batchEnded b i t close := by
  rw [closeBatch, hs, Option.isNone_none, if_pos rfl, endBatch_some ht]

theorem closeBatch_stalled (hs : (b.chain i).stalled.isSome = true) (close : Nat) : closeBatch b i close =
    b.modChain i fun c => { c with closeDue := if c.batch.isSome then c.closeDue <|> some close else none } :=
  if_neg (by cases h : (b.chain i).stalled <;> simp [h] at hs ⊢)

theorem batchIntervalExpiry_passed (ht : (b.chain i).batch = some t) (h : t.openTime + 1000 * t.interval ≤ b.now) :
    batchIntervalExpiry b i = closeBatch b i 1 := by
  simp only [batchIntervalExpiry, ht, h, if_true]

theorem batchIntervalExpiry_early (h : (b.chain i).batch = none ∨ (b.chain i).batch = some t ∧ b.now < t.openTime + 1000 * t.interval) :
    batchIntervalExpiry b i = b := by
  obtain hn | ⟨ht, hb⟩ := h
  · simp only [batchIntervalExpiry, hn]
  · simp only [batchIntervalExpiry, ht, Nat.not_le.mpr hb, if_false]

/-! ### Acceptance (R197, R199) -/

/-- The chain's oldest leaf is `r`, a number is reserved for it, and nothing closes the way out. -/
def MayAccept (b : Block) (i : ChainId) (r : LeafReq) (rest : List LeafReq) : Prop :=
  (b.chain i).waiting = r :: rest ∧ (b.chain i).nextSeq < (b.chain i).mark ∧ b.kerard.egressClosed = false

/-- The batch that the chain's next leaf joins: the open one, or one that it opens. -/
def joinedBatch (b : Block) (i : ChainId) : Batch :=
  (b.chain i).batch.getD { firstSeq := (b.chain i).nextSeq, openTime := b.now, interval := (b.chain i).interval, claim := b.claim, hashes := [] }

/-- The device with leaf `r` numbered and in its batch. -/
def leafJoined (b : Block) (i : ChainId) (r : LeafReq) (rest : List LeafReq) : Block :=
  let leaf := stampLeaf r.body (b.chain i).nextSeq b.claim b.now
  ((b.modChain i fun c =>
    { c with waiting := rest, nextSeq := c.nextSeq + 1, accepted := c.accepted + 1, lastLeaf := some c.nextSeq, heldLeaves := c.heldLeaves ++ [leaf]
             batch := some { joinedBatch b i with hashes := (joinedBatch b i).hashes ++ [leafHash leaf] } }).tally 135).flowHash
    (if (joinedBatch b i).hashes.length % 2 = 1 then 2 else 1)

/-- A leaf that may be accepted joins its batch, and the 4,096th closes it. -/
theorem leafAccept_joins (h : MayAccept b i r rest) (hl : (joinedBatch b i).hashes.length ≤ 4095) : leafAccept b i =
    (if (joinedBatch b i).hashes.length + 1 = 4096 then closeBatch (leafJoined b i r rest) i 0 else leafJoined b i r rest,
      some (r.src, (b.chain i).nextSeq)) := by
  obtain ⟨hw, hm, he⟩ := h
  have room : ¬ ((match (b.chain i).batch with
      | some t => decide (4096 ≤ t.hashes.length)
      | none => false) = true ∨ (b.chain i).mark ≤ (b.chain i).nextSeq ∨ b.kerard.egressClosed = true) := by
    rintro (full | late | closed)
    · cases ht : (b.chain i).batch with
      | none => simp [ht] at full
      | some t => simp [ht, joinedBatch] at full hl; omega
    · omega
    · simp [he] at closed
  simp only [leafAccept, hw]
  exact if_neg room

theorem leafAccept_holds (h : (b.chain i).waiting = [] ∨ (b.chain i).mark ≤ (b.chain i).nextSeq ∨ b.kerard.egressClosed = true ∨
    (b.chain i).batch = some t ∧ 4096 ≤ t.hashes.length) : leafAccept b i = (b, none) := by
  cases hw : (b.chain i).waiting with
  | nil => simp only [leafAccept, hw]
  | cons r rest =>
    obtain h | h | h | ⟨ht, h⟩ := h
    · simp [hw] at h
    all_goals simp only [leafAccept, hw]
    · exact if_pos (.inr (.inl h))
    · exact if_pos (.inr (.inr h))
    · exact if_pos (.inl (by simp [ht, h]))

theorem acceptLeaf_joins (h : MayAccept b i r rest) (hl : (joinedBatch b i).hashes.length < 4095) :
    acceptLeaf b i = leafTaken (leafJoined b i r rest) r.src (b.chain i).nextSeq := by
  rw [acceptLeaf, leafAccept_joins h (by omega), if_neg (by omega)]

theorem acceptLeaf_fills (h : MayAccept b i r rest) (hl : (joinedBatch b i).hashes.length = 4095)
    (hs : ((leafJoined b i r rest).chain i).stalled = none) (ht : ((leafJoined b i r rest).chain i).batch = some t) :
    acceptLeaf b i = leafTaken (batchEnded (leafJoined b i r rest) i t 0) r.src (b.chain i).nextSeq := by
  rw [acceptLeaf, leafAccept_joins h (by omega), if_pos (by omega), closeBatch_running hs ht]

/-! ### Reservations and repeated commits (R197, R577) -/

theorem seqReserve_due (hp : (b.chain i).present = true) (hr : (b.chain i).reserving = false)
    (hd : (b.chain i).mark ≤ (b.chain i).nextSeq + 1024) (hm : (b.chain i).mark < 2 ^ 48) : seqReserve b i =
      chainWrite (b.modChain i fun c => { c with reserving := true }) i (.seqMark i b.claim ((b.chain i).mark / 4096 * 4096 + 4096)) :=
  if_pos ⟨hp, by simp [hr], hd, hm⟩

theorem seqReserve_notDue (h : (b.chain i).present = false ∨ (b.chain i).reserving = true ∨ (b.chain i).nextSeq + 1024 < (b.chain i).mark ∨
    2 ^ 48 ≤ (b.chain i).mark) : seqReserve b i = b := by
  refine if_neg ?_
  rintro ⟨hp, hr, hd, hm⟩
  obtain h | h | h | h := h
  · simp [hp] at h
  · simp [h] at hr
  · omega
  · omega

theorem chainCommitRetry_none (h : (b.chain i).failed = []) : chainCommitRetry b i = b := by
  rw [chainCommitRetry, h, List.foldl_nil]

/-- A failed commit that is neither queued nor under way is queued again. -/
theorem chainCommitRetry_one {q : SumpReq} (h : (b.chain i).failed = [q]) (hq : ∀ x ∈ b.sump.queue, x.waiter ≠ q.waiter)
    (hc : b.sump.commit = none) : chainCommitRetry b i = b.sumpQueue q := by
  have idle : sumpPending b.sump q.waiter = false := by simpa [sumpPending, hc] using hq
  rw [chainCommitRetry, h, List.foldl_cons, List.foldl_nil, idle, if_neg Bool.false_ne_true]

/-! ### The statement -/

/-- Settles O34: each event of a chain takes the course that its batch, its mark and its stall decide, and a stamped leaf is its fields in order. -/
theorem auditLeaves : Obligations.AuditLeaves := by
  unfold Obligations.AuditLeaves
  refine ⟨fun s k r rest t hr hd => ?_, fun body seq claim time hb hs hc ht => ?_⟩
  · intro b i c leaf opened batch ended taken may
    have accepts {u : Block} (h : acceptLeaf b i = u) : Completes (.leafAccept k) s (settle u) := completes_awakeSettle rfl hr hd h
    have expires {u : Block} (h : batchIntervalExpiry b i = u) : Completes (.batchIntervalExpiry k) s (settle u) :=
      completes_awakeSettle rfl hr hd h
    have reserves {u : Block} (h : seqReserve b i = u) : Completes (.seqReserve k) s (settle u) := by
      subst h; simp [Completes, exec, execSeqReserve, run, awake, reserveSeqs, hr, hd, b, i]
    have retries {u : Block} (h : chainCommitRetry b i = u) : Completes (.chainCommitRetry k) s (settle u) := completes_awakeSettle rfl hr hd h
    exact ⟨fun hm hl => accepts (acceptLeaf_joins hm hl), fun hm hl hs ht => accepts (acceptLeaf_fills hm hl hs ht),
      fun h => accepts (by rw [acceptLeaf, leafAccept_holds h]),
      fun ht hs hp => expires ((batchIntervalExpiry_passed ht hp).trans (closeBatch_running hs ht 1)),
      fun ht hs hp => expires ((batchIntervalExpiry_passed ht hp).trans (closeBatch_stalled hs 1)),
      fun h => expires (batchIntervalExpiry_early h), fun hp hn hm hx => reserves (seqReserve_due hp hn hm hx),
      fun h => reserves (seqReserve_notDue h), fun h => retries (chainCommitRetry_none h), fun q h hq hn => retries (chainCommitRetry_one h hq hn)⟩
  · intro l
    have fields : l = _ := stampLeaf_fields hb seq claim time
    have first : (slice body 8 16).length = 16 := length_slice (by omega)
    have last : (slice body 32 32).length = 32 := length_slice (by omega)
    rw [fields]
    refine ⟨by simp [length_leBytes, first, last], ?_, ?_, ?_, ?_, ?_⟩
    · rw [leField, ← List.nil_append (leBytes 6 seq ++ _), slice_middle List.length_nil (length_leBytes 6 seq), ofLe_leBytes (by omega)]
    · rw [leField, slice_middle (length_leBytes 6 seq) (length_leBytes 2 claim), ofLe_leBytes (by omega)]
    · rw [leField, ← List.append_assoc, ← List.append_assoc,
        slice_middle (by simp [length_leBytes, first]) (length_leBytes 8 time), ofLe_leBytes (by omega)]
    · rw [← List.append_assoc, slice_middle (by simp [length_leBytes]) first]
    · rw [← List.append_assoc, ← List.append_assoc, ← List.append_assoc, slice_middle (by simp [length_leBytes, first]) last]

end Sys2Proof.Machine
end

section
/-! PROOFS. How a chain's headers are signed, recorded and released, how its ring is written, and how a chain is retired, and with it the statement
on them (R56, R71, R193, R200, R205 to R207, R332, R380, R578). -/
namespace Sys2Proof.Machine

variable {b b1 : Block} {i : ChainId} {h : Header} {rest : List Header} {x : Bytes} {more : List Bytes}

/-! ### Signatures and the record (R205, R206) -/

/-- The device with the signature that Gallery has made for the header at a place put to it. -/
def signatureBack (b : Block) (i : ChainId) (pq : Bool) (h : Header) : Block :=
  modHeader b i h.pos fun h =>
    if pq then { h with sigPq := h.sigPq <|> h.backPq, backPq := none } else { h with sigEd := h.sigEd <|> h.backEd, backEd := none }

/-- Gallery has made a header of batch `n` its signature under one key. -/
def awaited (n : Nat) (pq : Bool) (h : Header) : Bool := h.batch == n && (if pq then h.backPq else h.backEd).isSome

theorem headerSigned_returns {n : Nat} {pq : Bool} (hf : (b.chain i).headers.find? (awaited n pq) = some h) :
    headerSigned b i n pq = askRecord (signatureBack b i pq h) i := by
  unfold awaited at hf
  simp only [headerSigned, hf]
  rfl

theorem headerSigned_none {n : Nat} {pq : Bool} (hf : (b.chain i).headers.find? (awaited n pq) = none) : headerSigned b i n pq = b := by
  unfold awaited at hf
  simp only [headerSigned, hf]

theorem signatures_iff (h : Header) (pq : Bool) : h.signatures pq = true ↔ h.sigEd.isSome = true ∧ (h.sigPq.isSome = true ∨ pq = false) := by
  simp [Header.signatures]

theorem signatures_missing {h : Header} {pq : Bool} (hm : h.sigEd = none ∨ h.sigPq = none ∧ pq = true) : h.signatures pq = false := by
  obtain hm | ⟨hm, hp⟩ := hm
  · simp [Header.signatures, hm]
  · simp [Header.signatures, hm, hp]

theorem askRecord_asks (hf : (b.chain i).headers.find? (fun h => !h.recorded) = some h) (ha : h.asked = false)
    (hs : h.signatures (b.chain i).pq = true) :
    askRecord b i = chainWrite (modHeader b i h.pos fun h => { h with asked := true }) i (.header i h.pos) := by
  simp only [askRecord, hf, ha, hs]
  rfl

theorem askRecord_waits (hw : ∀ o, (b.chain i).headers.find? (fun h => !h.recorded) = some o →
    o.asked = true ∨ o.signatures (b.chain i).pq = false) : askRecord b i = b := by
  cases hf : (b.chain i).headers.find? fun h => !h.recorded with
  | none => simp only [askRecord, hf]
  | some o =>
    simp only [askRecord, hf]
    exact if_pos ((hw o hf).imp_right fun unsigned => by simp [unsigned])

/-! ### Release (R206, R207, R380) -/

theorem headerEntry_eq (pq : Bool) (h : Header) : headerEntry pq h =
    h.signed ++ fit 114 (h.sigEd.getD []) ++ (if pq then fit 4627 (h.sigPq.getD []) ++ zeros 59 else zeros 14) := by
  cases pq <;> simp [headerEntry]

theorem leavesWritten_iff (c : Chain) (h : Header) : leavesWritten c h = true ↔ h.upTo + c.heldLeaves.length ≤ c.accepted := by
  simp [leavesWritten]

theorem mayRelease_iff : mayRelease b i h = true ↔ h.signatures (b.chain i).pq = true ∧ h.recorded = true ∧
    leavesWritten (b.chain i) h = true ∧ (h.mirrored = true ∨ b.mirrored = false) ∧ b.life ≠ 4 ∧ b.kerard.egressClosed = false := by
  simp [mayRelease, and_assoc]

theorem mayRelease_not (hn : ¬ (h.sigEd.isSome = true ∧ (h.sigPq.isSome = true ∨ (b.chain i).pq = false)) ∨ h.recorded = false ∨
    ¬ h.upTo + (b.chain i).heldLeaves.length ≤ (b.chain i).accepted ∨ (h.mirrored = false ∧ b.mirrored = true) ∨ b.life = 4) :
    mayRelease b i h = false := by
  refine Bool.eq_false_iff.mpr fun hm => ?_
  obtain ⟨hs, hr, hw, hk, hl, -⟩ := mayRelease_iff.mp hm
  obtain hn | hn | hn | ⟨hn, hb⟩ | hn := hn
  · exact hn ((signatures_iff h _).mp hs)
  · simp [hr] at hn
  · exact hn ((leavesWritten_iff _ h).mp hw)
  · simp [hn, hb] at hk
  · exact hl hn

/-- The device with the oldest header sent to the header part as entry `e`. -/
def headerReleased (b : Block) (i : ChainId) (h : Header) (rest : List Header) (e : Bytes) : Block :=
  ((dropFormerKeys (b.modKerard fun x => { x with headers := Tab.set x.headers (chainIx i) (h.pos, e) }) i rest).modChain i fun c =>
    { c with headers := rest, heldHeaders := c.heldHeaders ++ [e] }).tally 136

theorem headerRelease_releases (hh : (b.chain i).headers = h :: rest) (hm : mayRelease b i h = true) :
    headerRelease b i = headerReleased b i h rest (headerEntry (b.chain i).pq h) := by
  simp only [headerRelease, hh, hm]
  rfl

theorem headerRelease_holds (hh : (b.chain i).headers = [] ∨ (b.chain i).headers = h :: rest ∧ mayRelease b i h = false) :
    headerRelease b i = b := by
  obtain hh | ⟨hh, hm⟩ := hh
  · simp only [headerRelease, hh]
  · simp only [headerRelease, hh, hm, Bool.false_eq_true, if_false]

/-! ### The stream rings (R207, R332, R578) -/

/-- The chain's ring is on and takes writes, and nothing closes the way out. -/
def RingWritable (b : Block) (i : ChainId) : Prop :=
  (b.chain i).ring.en = true ∧ (b.chain i).ring.stopped = false ∧ b.kerard.egressClosed = false

/-- A part of a ring has room for an entry. -/
def PartFree (log head tail : Nat) : Prop := (tail + 2 ^ log - head) % 2 ^ log < 2 ^ log - 1

theorem ringRoom_pos {log head tail : Nat} (h : PartFree log head tail) : ringRoom log head tail ≠ 0 := by
  unfold PartFree at h; unfold ringRoom; omega

theorem chainFn_chainOf (k : Fin 65) : chainFn (chainOf k) = if k.val = 64 then 0 else k.val + 1 := by
  unfold chainOf; split <;> rfl

theorem chainIx_chainOf (k : Fin 65) : chainIx (chainOf k) = k.val := by
  unfold chainOf; split
  · next h => exact h.symm
  · rfl

section
variable (hw : RingWritable b i)
include hw

theorem streamWrite_leaf (hb : b.bme (chainFn i) = true) (hl : (b.chain i).heldLeaves = x :: more)
    (hf : PartFree (b.chain i).ring.llog2 (b.chain i).ring.lhead (b.chain i).ring.ltail) : streamWrite b i false .issued =
      modRing ((b.dmaWrite flowMaster (chainWho i) (chainFn i) ((b.chain i).ring.leafBase + 64 * (b.chain i).ring.ltail) x).modChain i fun c =>
        { c with heldLeaves := c.heldLeaves.drop 1, entries := c.entries - 1 }) i fun r => { r with ltail := (r.ltail + 1) % 2 ^ r.llog2 } := by
  obtain ⟨hen, hs, he⟩ := hw
  simp [streamWrite, ringWrite, hl, hen, hs, ringRoom_pos hf, he, hb]

theorem streamWrite_header (hb : b.bme (chainFn i) = true) (hl : (b.chain i).heldHeaders = x :: more)
    (hf : PartFree (b.chain i).ring.hlog2 (b.chain i).ring.hhead (b.chain i).ring.htail) (hv : (b.chain i).ring.vecEn = false) :
    streamWrite b i true .issued =
      modRing ((b.dmaWrite flowMaster (chainWho i) (chainFn i) ((b.chain i).ring.hdrBase + x.length * (b.chain i).ring.htail) x).modChain i fun c =>
        { c with heldHeaders := c.heldHeaders.drop 1 }) i fun r => { r with htail := (r.htail + 1) % 2 ^ r.hlog2 } := by
  obtain ⟨hen, hs, he⟩ := hw
  simp [streamWrite, ringWrite, hl, hen, hs, ringRoom_pos hf, he, hb, hv]

/-- A leaf is not written without Bus Master Enable of the ring's function. -/
theorem ringWrite_noBme (hb : b.bme (chainFn i) = false) (hl : (b.chain i).heldLeaves = x :: more)
    (hf : PartFree (b.chain i).ring.llog2 (b.chain i).ring.lhead (b.chain i).ring.ltail) : ringWrite b i false .issued = (b, .noBme) := by
  obtain ⟨hen, hs, he⟩ := hw
  simp [ringWrite, hl, hen, hs, ringRoom_pos hf, he, hb]

/-- A leaf that a chamber's function may not write quiesces the chamber (R332). -/
theorem streamWrite_quiesces {c : Nat} (hi : i = .chamber c) (hb : b.bme (chainFn i) = false) (hl : (b.chain i).heldLeaves = x :: more)
    (hf : PartFree (b.chain i).ring.llog2 (b.chain i).ring.lhead (b.chain i).ring.ltail) :
    streamWrite b i false .issued = quiesceChamber b c qBme none := by
  rw [streamWrite, ringWrite_noBme hw hb hl hf, hi]

/-- A leaf that the PF may not write stops the system ring (R578). -/
theorem streamWrite_stops (hi : i = .system) (hb : b.bme (chainFn i) = false) (hl : (b.chain i).heldLeaves = x :: more)
    (hf : PartFree (b.chain i).ring.llog2 (b.chain i).ring.lhead (b.chain i).ring.ltail) :
    streamWrite b i false .issued = modRing b .system fun r => { r with stopped := true, err := r.err ||| 4 } := by
  rw [streamWrite, ringWrite_noBme hw hb hl hf, hi]
  rfl

end

theorem streamWrite_nothing (hl : (b.chain i).heldLeaves = []) (e : Egress) : streamWrite b i false e = b := by
  simp [streamWrite, ringWrite, hl]

/-! ### Heads written by the host (R56, R207) -/

/-- A head names an entry that was written. -/
def NamesWritten (h log old tail : Nat) : Prop := h < 2 ^ log ∧ (h + 2 ^ log - old) % 2 ^ log ≤ (tail + 2 ^ log - old) % 2 ^ log

section
variable {v : Nat}

theorem ringHead_leafMoves (h : NamesWritten (v % 2 ^ 22) (b.chain i).ring.llog2 (b.chain i).ring.lhead (b.chain i).ring.ltail) :
    ringHead b i false .word v = modRing b i fun r => { r with lhead := v % 2 ^ 22 } := if_pos h

theorem ringHead_leafRange (h : ¬ NamesWritten (v % 2 ^ 22) (b.chain i).ring.llog2 (b.chain i).ring.lhead (b.chain i).ring.ltail) :
    ringHead b i false .word v = modRing b i fun r => { r with err := r.err ||| 1 } := if_neg h

theorem ringHead_headerMoves (h : NamesWritten (v % 2 ^ 16) (b.chain i).ring.hlog2 (b.chain i).ring.hhead (b.chain i).ring.htail) :
    ringHead b i true .word v = modRing b i fun r => { r with hhead := v % 2 ^ 16 } := if_pos h

theorem ringHead_headerRange (h : ¬ NamesWritten (v % 2 ^ 16) (b.chain i).ring.hlog2 (b.chain i).ring.hhead (b.chain i).ring.htail) :
    ringHead b i true .word v = modRing b i fun r => { r with err := r.err ||| 1 } := if_neg h

end

/-! ### Draws leave the chains (R405) -/

theorem drawOne_chains {n : Nat} (h : drawOne b n = some (x, b1)) : b1.chains = b.chains := by
  unfold drawOne at h
  split at h
  · cases h; rfl
  · cases h

theorem drawMany_chains : ∀ {fuel n : Nat} {b b1 : Block} {x : Bytes}, drawMany fuel b n = some (x, b1) → b1.chains = b.chains
  | 0, _, _, _, _, h => by cases h; rfl
  | fuel + 1, n, b, b1, x, h => by
    unfold drawMany at h
    split at h
    · cases h; rfl
    · split at h
      · cases h
      · next hone =>
        split at h
        · cases h
        · next hmore => cases h; exact (drawMany_chains hmore).trans (drawOne_chains hone)

theorem draw_chains {n : Nat} (h : b.draw n = some (x, b1)) : b1.chains = b.chains := by
  unfold Block.draw at h
  split at h
  · cases h; rfl
  · exact drawMany_chains h

theorem newAuditKeys_chains {c g g2 : Nat} {pq : Bool} {ed q : Bytes} {writes : List NewRecord}
    (h : newAuditKeys b c pq = .ok ((ed, q, g, g2, writes), b1)) : b1.chains = b.chains := by
  unfold newAuditKeys at h
  split at h
  · cases h
  · next hed =>
    split at h
    · cases h
    · dsimp only at h
      split at h
      · cases h; exact draw_chains hed
      · split at h
        · cases h
        · next hq =>
          split at h
          · cases h
          · cases h; exact (draw_chains hq).trans (draw_chains hed)

/-! ### The keys that headers are signed with (R193, R205) -/

/-- Whose key signs a header: CHAIN_NO, and the record of the Ed448 key. -/
def Header.signer (h : Header) : Nat × Nat := (h.chainNo, h.edGidx)

/-- Whose key signs each header of a chain, oldest first. -/
def signers (b : Block) (i : ChainId) : List (Nat × Nat) := (b.chain i).headers.map Header.signer

/-- Sump is as it was, and so are the keys that the headers of chain `i` are signed with. -/
def KeepsSigners (i : ChainId) (b t : Block) : Prop := t.sump = b.sump ∧ signers t i = signers b i

theorem KeepsSigners.refl (i : ChainId) (b : Block) : KeepsSigners i b b := ⟨rfl, rfl⟩

theorem KeepsSigners.trans {t u : Block} (h : KeepsSigners i b t) (h' : KeepsSigners i t u) : KeepsSigners i b u :=
  ⟨h'.1.trans h.1, h'.2.trans h.2⟩

theorem map_signer_ite (l : List Header) (n : Nat) {f : Header → Header} (hf : ∀ h, (f h).signer = h.signer) :
    (l.map fun h => if h.pos = n then f h else h).map Header.signer = l.map Header.signer := by
  rw [List.map_map]
  refine List.map_congr_left fun h _ => Function.comp_apply.trans ?_
  rw [apply_ite Header.signer, hf, ite_self]

theorem modHeader_keepsSigners (b : Block) (i : ChainId) (n : Nat) {f : Header → Header} (hf : ∀ h, (f h).signer = h.signer) :
    KeepsSigners i b (modHeader b i n f) := by
  refine ⟨rfl, ?_⟩
  rw [signers, modHeader, chain_modChain_self]
  exact map_signer_ite _ n hf

theorem askMarked_keepsSigners (b : Block) (i : ChainId) (n : Nat) (pq : Bool) {f : Header → Header} (hf : ∀ h, (f h).signer = h.signer) :
    KeepsSigners i b (askMarked b i n pq f) := by
  unfold askMarked
  cases h : askSignature b i n pq with
  | none => exact .refl i b
  | some u =>
    have asked : KeepsSigners i b u := by
      unfold askSignature at h
      split at h
      · cases h; exact ⟨rfl, rfl⟩
      · cases h
    exact asked.trans (modHeader_keepsSigners u i n hf)

theorem ite_keepsSigners {p : Prop} [Decidable p] {t : Block} (h : KeepsSigners i b t) : KeepsSigners i b (if p then b else t) := by
  split
  · exact .refl i b
  · exact h

theorem askHeader_keepsSigners (b : Block) (i : ChainId) (h : Header) : KeepsSigners i b (askHeader b i h) :=
  (ite_keepsSigners (askMarked_keepsSigners b i h.pos false (f := fun h => { h with askedEd := true }) fun _ => rfl)).trans
    (ite_keepsSigners (askMarked_keepsSigners _ i h.pos true (f := fun h => { h with askedPq := true }) fun _ => rfl))

theorem foldl_askHeader_keepsSigners (i : ChainId) : ∀ (l : List Header) (b : Block),
    KeepsSigners i b (l.foldl (fun b h => askHeader b i h) b)
  | [], b => .refl i b
  | h :: l, b => (askHeader_keepsSigners b i h).trans (foldl_askHeader_keepsSigners i l _)

theorem flowHash_keepsSigners (b : Block) (i : ChainId) (n : Nat) : KeepsSigners i b (b.flowHash n) := by
  unfold Block.flowHash
  split
  · exact .refl i b
  · exact ⟨rfl, rfl⟩

/-- A header made is signed with its chain's keys; those of the headers before it, and Sump, stay. -/
theorem makeHeader_signers (b : Block) (i : ChainId) (h : HeaderBody) (n : Nat) : (makeHeader b i h n).sump = b.sump ∧
    signers (makeHeader b i h n) i = signers b i ++ [((b.chain i).chainNo, (b.chain i).edGidx)] := by
  obtain ⟨hs, hk⟩ := (flowHash_keepsSigners _ i 2).trans (foldl_askHeader_keepsSigners i _ _)
  exact ⟨hs, hk.trans (by simp [signers, Header.signer])⟩

theorem signers_congr {t : Block} (h : t.chains = b.chains) (i : ChainId) : signers t i = signers b i := by
  rw [signers, Block.chain, h]; rfl

/-- Whose keys sign the headers that a chain has gained. -/
theorem drop_signers {t : Block} {l : List (Nat × Nat)} (h : signers t i = signers b i ++ l) :
    ((t.chain i).headers.drop (b.chain i).headers.length).map Header.signer = l := by
  rw [List.map_drop, ← signers, h]
  exact List.drop_left' (List.length_map _)

/-- A header made takes the chain's next number, and keeps all but the headers and the digest. -/
theorem makeHeader_chain (b : Block) (i : ChainId) (h : HeaderBody) (n : Nat) : ∃ digest l,
    (makeHeader b i h n).chain i = { b.chain i with nextBatch := (b.chain i).nextBatch + 1, prev := digest, headers := l } := by
  obtain ⟨hd, digest, -, l, -, hc⟩ := makeHeader_marks b i h n
  exact ⟨digest, l, by rw [hc, withHeader, chain_modChain_self]⟩

/-! ### Retirement (R193, R200) -/

theorem chainRetire_stays (h : (b.chain i).present = false ∨ (b.chain i).nextSeq ≠ 2 ^ 48 ∨ (b.chain i).stalled.isSome = true) :
    chainRetire b i = b := if_pos (h.imp_left fun absent => by simp [absent])

theorem retireKey_chains (b : Block) (g : Nat) : (retireKey b g).chains = b.chains := by
  unfold retireKey
  dsimp only
  split <;> rfl

/-- The keys drawn for a successor chain: seeds and global indices. -/
abbrev ChainKeys := Bytes × Bytes × Nat × Nat

/-- Chain `i`, that was `c`, made its successor under new keys, before the genesis batch. -/
def succeeded (b : Block) (i : ChainId) (c : Chain) (keys : ChainKeys) : Block :=
  holdAuditKeys (b.modChain i fun old =>
    { chainWithKeys c.pq (c.chainNo + 1) (b.chain i).prev keys old with
      before := some { edPub := c.edPub, pqPub := c.pqPub, edGidx := c.edGidx, pqGidx := c.pqGidx } }) i c.pq keys

theorem holdAuditKeys_chains (b : Block) (i : ChainId) (pq : Bool) (keys : ChainKeys) :
    (holdAuditKeys b i pq keys).chains = b.chains ∧ (holdAuditKeys b i pq keys).sump = b.sump := by
  cases i <;> exact ⟨rfl, rfl⟩

theorem chain_succeeded (b : Block) (i : ChainId) (c : Chain) (keys : ChainKeys) : (succeeded b i c keys).chain i =
    { chainWithKeys c.pq (c.chainNo + 1) (b.chain i).prev keys (b.chain i) with
      before := some { edPub := c.edPub, pqPub := c.pqPub, edGidx := c.edGidx, pqGidx := c.pqGidx } } := by
  rw [Block.chain, succeeded, (holdAuditKeys_chains _ i _ _).1]
  exact chain_modChain_self _ _ _

/-- The device with the last header of chain `i`, which is `c`, made: it names the successor's keys. -/
def finalHeaderMade (b : Block) (i : ChainId) (c : Chain) (ed q : Bytes) : Block :=
  let t := c.batch.getD { firstSeq := 2 ^ 48, openTime := b.now, interval := c.interval, claim := b.claim, hashes := [] }
  makeHeader b i
    { kind := 3, close := 3, firstSeq := t.firstSeq, claim := t.claim, count := t.hashes.length, openTime := t.openTime, closeTime := b.now
      gapFirst := 0, gapCount := 0, root := merkleRoot t.hashes
      nextKids := keyId (edPublic true ed) ++ (if c.pq then keyId (dsaPublic mldsa87 q) else zeros 8) } (2 ^ 48)

/-- The device with RETIRED asked for in the records of the keys of chain `c`. -/
def oldKeysRetired (b : Block) (c : Chain) : Block :=
  if c.pq then retireKey (retireKey b c.edGidx) c.pqGidx else retireKey b c.edGidx

theorem oldKeysRetired_chains (b : Block) (c : Chain) : (oldKeysRetired b c).chains = b.chains := by
  unfold oldKeysRetired
  split
  · exact (retireKey_chains _ _).trans (retireKey_chains _ _)
  · exact retireKey_chains _ _

/-- The commit of the records of a successor's keys. -/
def newKeysCommit (i : ChainId) (writes : List NewRecord) : SumpReq := { writes := writes, range := none, waiter := .auditKeys i }

/-- The device with the records of a successor's keys asked for. -/
def newKeysAsked (b : Block) (i : ChainId) (writes : List NewRecord) : Block :=
  (reserveSlots b (chainIx i) writes).sumpQueue (newKeysCommit i writes)

section
variable (hp : (b.chain i).present = true) (hn : (b.chain i).nextSeq = 2 ^ 48) (hs : (b.chain i).stalled = none)
include hp hn hs

/-- Nothing keeps a chain that is not stalled and whose numbers are used up from retiring. -/
theorem chainRetire_ends : ¬ ((!(b.chain i).present) = true ∨ (b.chain i).nextSeq ≠ 2 ^ 48 ∨ (b.chain i).stalled.isSome = true) := by
  simp [hp, hn, hs]

theorem chainRetire_unsigned {e : Nat} (hk : newAuditKeys b (chainIx i) (b.chain i).pq = .error e) :
    chainRetire b i = b.modChain i fun c => { c with retiring := true, unsignedStop := true } := by
  unfold chainRetire
  dsimp only
  rw [if_neg (chainRetire_ends hp hn hs), hk]

/-- The chain's last header is made under the old keys, the new records are asked for, and the successor opens. -/
theorem chainRetire_succeeds {ed q : Bytes} {g g2 : Nat} {writes : List NewRecord}
    (hk : newAuditKeys b (chainIx i) (b.chain i).pq = .ok ((ed, q, g, g2, writes), b1)) : chainRetire b i =
      emptyBatch (succeeded (newKeysAsked (oldKeysRetired (finalHeaderMade b1 i (b.chain i) ed q) (b.chain i)) i writes) i (b.chain i) (ed, q, g, g2))
        i 2 0 0 0 0 := by
  unfold chainRetire
  dsimp only
  rw [if_neg (chainRetire_ends hp hn hs), hk]
  rfl

section
variable {ed q : Bytes} {g g2 : Nat} {writes : List NewRecord}
  (hk : newAuditKeys b (chainIx i) (b.chain i).pq = .ok ((ed, q, g, g2, writes), b1))
include hk

/-- The chain is its successor after the genesis batch. -/
theorem chain_chainRetire : ∃ digest old l, (chainRetire b i).chain i =
    { chainWithKeys (b.chain i).pq ((b.chain i).chainNo + 1) digest (ed, q, g, g2) old with
      nextBatch := 1, headers := l
      before := some { edPub := (b.chain i).edPub, pqPub := (b.chain i).pqPub, edGidx := (b.chain i).edGidx, pqGidx := (b.chain i).pqGidx } } := by
  rw [chainRetire_succeeds hp hn hs hk]
  obtain ⟨digest, l, chain⟩ := makeHeader_chain (succeeded _ i (b.chain i) (ed, q, g, g2)) i _ 0
  exact ⟨digest, _, l, chain.trans (by rw [chain_succeeded]; rfl)⟩

/-- The final header is signed with the old keys, and the genesis batch's with the new. -/
theorem signers_chainRetire : signers (chainRetire b i) i =
    signers b i ++ [((b.chain i).chainNo, (b.chain i).edGidx), ((b.chain i).chainNo + 1, g)] := by
  have same : b1.chains = b.chains := newAuditKeys_chains hk
  have chain : b1.chain i = b.chain i := by rw [Block.chain, same]; rfl
  have final : signers (finalHeaderMade b1 i (b.chain i) ed q) i = signers b i ++ [((b.chain i).chainNo, (b.chain i).edGidx)] := by
    rw [finalHeaderMade, (makeHeader_signers b1 i _ _).2, signers_congr same, chain]
  have asked : signers (newKeysAsked (oldKeysRetired (finalHeaderMade b1 i (b.chain i) ed q) (b.chain i)) i writes) i = _ :=
    (signers_congr (oldKeysRetired_chains _ _) i).trans final
  rw [chainRetire_succeeds hp hn hs hk, emptyBatch, (makeHeader_signers _ i _ _).2, signers, chain_succeeded]
  exact (congrArg (· ++ _) asked).trans (List.append_assoc _ _ _)

/-- The commit of the new records is asked for. -/
theorem chainRetire_asks : newKeysCommit i writes ∈ (chainRetire b i).sump.queue := by
  rw [chainRetire_succeeds hp hn hs hk, emptyBatch, (makeHeader_signers _ i _ _).1, succeeded, (holdAuditKeys_chains _ i _ _).2]
  exact List.mem_append_right _ (List.mem_singleton.mpr rfl)

end

end

/-! ### The statement -/

/-- Settles O35: each event of a chain, its headers and its ring takes the course that its conditions name, and each head written is taken or refused
by the entry that it names. -/
theorem auditBatches : Obligations.AuditBatches := by
  unfold Obligations.AuditBatches
  refine ⟨fun s k ed q g g2 writes b1 e hr hd => ?_, fun s k n pq h rest x more hr hd => ?_, fun s c v hv => ?_⟩
  · intro b i c
    have retires {u : Block} (h : chainRetire b i = u) : Completes (.chainRetire k) s (settle u) := completes_awakeSettle rfl hr hd h
    refine ⟨fun h => retires (chainRetire_stays h), fun hp hn hs => ⟨fun hk => ?_, fun hk => ⟨_, retires rfl, ?_⟩⟩⟩
    · exact retires (chainRetire_unsigned hp hn hs ((chainIx_chainOf k).symm ▸ hk))
    · have keys : newAuditKeys b (chainIx i) (b.chain i).pq = .ok ((ed, q, g, g2, writes), b1) := (chainIx_chainOf k).symm ▸ hk
      have signed := signers_chainRetire hp hn hs keys
      obtain ⟨digest, old, l, chain⟩ := chain_chainRetire hp hn hs keys
      have count : ((chainRetire b i).chain i).headers.length = c.headers.length + 2 := by
        simpa [signers] using congrArg List.length signed
      have gained : ∀ h ∈ ((chainRetire b i).chain i).headers.drop c.headers.length,
          h.edGidx = if h.chainNo = c.chainNo then c.edGidx else g := by
        intro h hh
        have : h.signer ∈ _ := drop_signers signed ▸ List.mem_map_of_mem hh
        obtain ⟨no, key⟩ | ⟨no, key⟩ : (h.chainNo = c.chainNo ∧ h.edGidx = c.edGidx) ∨ (h.chainNo = c.chainNo + 1 ∧ h.edGidx = g) := by
          simpa [Header.signer] using this
        · rw [if_pos no, key]
        · rw [if_neg (by omega), key]
      rw [chain] at gained count ⊢
      have key : (chainWithKeys c.pq (c.chainNo + 1) digest (ed, q, g, g2) old).edPub = edPublic true ed := by rw [chainWithKeys]
      exact ⟨rfl, rfl, rfl, rfl, rfl, key, rfl, fun hq => ⟨if_pos hq, rfl⟩, rfl, rfl, gained, count, chainRetire_asks hp hn hs keys⟩
  · intro b i c fn back mine entry signed written writable free
    have fnIs : fn = chainFn i := (chainFn_chainOf k).symm
    have signs {u : Block} (h : headerSigned b i n pq = u) : Completes (.headerSigned k n pq) s (settle u) := completes_awakeSettle rfl hr hd h
    have releases {u : Block} (h : headerRelease b i = u) : Completes (.headerRelease k) s (settle u) := completes_awakeSettle rfl hr hd h
    have writes {header : Bool} {e : Egress} {u : Block} (h : streamWrite b i header e = u) :
        Completes (.streamRingWrite k header e) s (settle u) := completes_awakeSettle rfl hr hd h
    refine ⟨fun hf => ⟨fun o ho ha he hq => ?_, fun hw => ?_⟩, fun hf => signs (headerSigned_none hf), fun hh hsig hrec hw hm hl he => ?_,
      fun hh => releases (headerRelease_holds (hh.imp_right fun ⟨hh, hn⟩ => ⟨hh, mayRelease_not hn⟩)), fun hw hb hl hf => ?_,
      fun hw hb hl hf hv => ?_, fun hl e => writes (streamWrite_nothing hl e), fun hw hl hf hb => ⟨fun hk => ?_, fun hk => ?_⟩⟩
    · exact signs ((headerSigned_returns hf).trans (askRecord_asks ho ha ((signatures_iff o _).mpr ⟨he, hq⟩)))
    · exact signs ((headerSigned_returns hf).trans (askRecord_waits fun o ho => (hw o ho).imp_right signatures_missing))
    · have may : mayRelease b i h = true :=
        mayRelease_iff.mpr ⟨(signatures_iff h _).mpr hsig, hrec, (leavesWritten_iff _ h).mpr hw, hm, hl, he⟩
      have same : headerEntry c.pq h = entry := headerEntry_eq c.pq h
      exact releases (same ▸ headerRelease_releases hh may)
    · rw [fnIs]; exact writes (streamWrite_leaf hw (fnIs ▸ hb) hl hf)
    · rw [fnIs]; exact writes (streamWrite_header hw (fnIs ▸ hb) hl hf hv)
    · exact writes (streamWrite_quiesces hw (if_neg hk) (fnIs ▸ hb) hl hf)
    · exact writes (streamWrite_stops hw (if_pos hk) (fnIs ▸ hb) hl hf)
  · intro b r put leaf head ok
    have leafHead {a : Access} {u : Block} (h : ringHead b (.chamber c) false a v.toNat = u) : Completes (.vfaLhead c a v) s u :=
      completes_vfRequest rfl hv h
    have headerHead {a : Access} {u : Block} (h : ringHead b (.chamber c) true a v.toNat = u) : Completes (.vfaHhead c a v) s u :=
      completes_vfRequest rfl hv h
    exact ⟨fun h => leafHead (ringHead_leafMoves h), fun h => headerHead (ringHead_headerMoves h), fun h => leafHead (ringHead_leafRange h),
      fun h => headerHead (ringHead_headerRange h), leafHead rfl, headerHead rfl⟩

end Sys2Proof.Machine
end

section
/-! PROOFS. What a commit of Sump writes, and with it the statement on a commit of one slot (R214 to R216, R220, R226). -/
namespace Sys2Proof.Machine

variable {b : Block} {reqs : List SumpReq}

/-! ### One slot (R216, R220) -/

theorem fit_length (d : Bytes) : fit d.length d = d := by simp [fit, zeros]

section
variable (i version : Nat) (line : Bytes)

theorem writeSlot_records : (writeSlot b i version line).sump.ddr.records = Tab.set b.sump.ddr.records i (sealRecord b i (fit 64 line)) := rfl

theorem writeSlot_tags : (writeSlot b i version line).sump.ddr.tags =
    Tab.set b.sump.ddr.tags i (recordTag b i (sealRecord b i (fit 64 line)) version) := rfl

end

/-! ### A commit (R220, R226) -/

/-- The slots of a commit's requests written, before its path is (R220 step 2). -/
def slotsWritten (b : Block) (reqs : List SumpReq) : Block :=
  (slotWrites (slotVersion b) (reqs.flatMap fun r => r.slots b)).foldl (fun b v => writeSlot b v.1 v.2.1 v.2.2) b

/-- The entries of a commit (R226), the slots written being those of `b3`: an entry for each slot, or for each erase range. -/
def commitEntries (b : Block) (reqs : List SumpReq) (b3 : Block) : List Bytes :=
  let vers := slotWrites (slotVersion b) (reqs.flatMap fun r => r.slots b)
  let ranges := reqs.filterMap (·.range)
  let entry (v : Nat × Nat × Bytes) : Nat × Nat × Nat × Bytes × Bytes :=
    (0, v.1, v.2.1, Tab.get b3.sump.ddr.records (zeros 64) v.1, Tab.get b3.sump.ddr.tags (zeros 8) v.1)
  journalEntries b ((b.sump.rootv + 1) % 2 ^ 56) b.sump.jmac
    (if ranges.isEmpty then (vers.mergeSort fun a c => a.1 ≤ c.1).map entry else ranges.map fun r => (1, r.1, r.2, [], []))

/-- The tree above the slots written: its new blocks in memory and in the node cache, and ROOTV (R220 step 3). -/
def pathWritten (b : Block) (rootv : Nat) (nodes ups : List (Nat × Bytes)) : Block :=
  cacheNodes (b.modSump fun s =>
    { s with rootv := rootv, ddr := { s.ddr with nodes := nodes.foldl (fun t p => Tab.set t p.1 p.2) s.ddr.nodes } }) ups

/-- The commit open, its entries waiting for the ring (R220 step 5). -/
def commitOpened (b : Block) (reqs : List SumpReq) (rootv : Nat) (entries : List Bytes) (jmac : Bytes) : Block :=
  b.modSump fun s =>
    { s with jmac := jmac
             commit := some { reqs := reqs, entries := entries, rootv := rootv, jmac := jmac, mode := s.jmode, releaseAt := none } }

/-- A request that writes one slot alone: its next version goes with its line. -/
theorem slotsWritten_one (b : Block) (i : Nat) (line : Bytes) (cls : Option Nat) (w : Waiter) :
    slotsWritten b [{ writes := [{ gidx := i, lines := [line], newClass := cls }], range := none, waiter := w }] =
      writeSlot b i (nextVersion (slotVersion b i) cls line) line := rfl

theorem commitWrite_parts (b : Block) (reqs : List SumpReq) : ∃ nodes ups jmac,
    let b3 := pathWritten (slotsWritten b reqs) ((b.sump.rootv + 1) % 2 ^ 56) nodes ups
    commitWrite b reqs = commitOpened b3 reqs ((b.sump.rootv + 1) % 2 ^ 56) (commitEntries b reqs b3) jmac := by
  unfold commitWrite commitOpened commitEntries pathWritten slotsWritten
  exact ⟨_, _, _, rfl⟩

section
variable (b : Block) (rootv : Nat) (nodes ups : List (Nat × Bytes))

@[simp] theorem pathWritten_records : (pathWritten b rootv nodes ups).sump.ddr.records = b.sump.ddr.records := rfl
@[simp] theorem pathWritten_tags : (pathWritten b rootv nodes ups).sump.ddr.tags = b.sump.ddr.tags := rfl
@[simp] theorem pathWritten_rootv : (pathWritten b rootv nodes ups).sump.rootv = rootv := rfl
@[simp] theorem pathWritten_jmode : (pathWritten b rootv nodes ups).sump.jmode = b.sump.jmode := rfl
@[simp] theorem pathWritten_strata : (pathWritten b rootv nodes ups).strata = b.strata := rfl
@[simp] theorem pathWritten_out : (pathWritten b rootv nodes ups).out = b.out := rfl

end

/-- The slots' writes touch nothing but the memory. -/
theorem foldl_writeSlot_frame (l : List (Nat × Nat × Bytes)) : ∀ b : Block,
    ∃ d, l.foldl (fun b v => writeSlot b v.1 v.2.1 v.2.2) b = b.modSump fun s => { s with ddr := d } := by
  induction l with
  | nil => intro b; exact ⟨b.sump.ddr, rfl⟩
  | cons v l ih =>
    intro b
    obtain ⟨d, h⟩ := ih (writeSlot b v.1 v.2.1 v.2.2)
    exact ⟨d, h⟩

theorem slotsWritten_frame (b : Block) (reqs : List SumpReq) : ∃ d, slotsWritten b reqs = b.modSump fun s => { s with ddr := d } :=
  foldl_writeSlot_frame _ b

theorem length_journalEntries (b : Block) (rootv : Nat) (l : List (Nat × Nat × Nat × Bytes × Bytes)) :
    ∀ prev, (journalEntries b rootv prev l).length = l.length := by
  induction l with
  | nil => intro prev; rfl
  | cons x l ih => intro prev; simp [journalEntries, ih]

/-- Of requests without an erase range, an entry for each slot. -/
theorem length_commitEntries (h : ∀ r ∈ reqs, r.range = none) (b3 : Block) :
    (commitEntries b reqs b3).length = (slotWrites (slotVersion b) (reqs.flatMap fun r => r.slots b)).length := by
  have ranges : reqs.filterMap (·.range) = [] := by simpa using h
  simp [commitEntries, ranges, length_journalEntries]

/-- What a commit leaves once its slots are written: their lines and tags, the next ROOTV, and nothing outside Sump. -/
theorem commitWrite_sump (b : Block) (reqs : List SumpReq) :
    (commitWrite b reqs).sump.ddr.records = (slotsWritten b reqs).sump.ddr.records ∧
    (commitWrite b reqs).sump.ddr.tags = (slotsWritten b reqs).sump.ddr.tags ∧
    (commitWrite b reqs).sump.rootv = (b.sump.rootv + 1) % 2 ^ 56 ∧
    (commitWrite b reqs).strata = b.strata ∧ (commitWrite b reqs).out = b.out := by
  obtain ⟨nodes, ups, jmac, h⟩ := commitWrite_parts b reqs
  obtain ⟨d, hd⟩ := slotsWritten_frame b reqs
  simp [h, hd, commitOpened]

/-- The commit that is then open: in the ring's mode, and nothing released. -/
theorem commitWrite_commit (h : ∀ r ∈ reqs, r.range = none) : ∃ c, (commitWrite b reqs).sump.commit = some c ∧ c.reqs = reqs ∧
    c.rootv = (commitWrite b reqs).sump.rootv ∧ c.jmac = (commitWrite b reqs).sump.jmac ∧ c.mode = b.sump.jmode ∧
    c.entries.length = (slotWrites (slotVersion b) (reqs.flatMap fun r => r.slots b)).length ∧ c.releaseAt = none := by
  obtain ⟨nodes, ups, jmac, hw⟩ := commitWrite_parts b reqs
  obtain ⟨d, hd⟩ := slotsWritten_frame b reqs
  simp [hw, hd, commitOpened, length_commitEntries h]

/-! ### The statement -/

/-- Settles O37: the one slot is sealed and tagged under its new version, and the commit that follows from it is open. -/
theorem commitSealsRecords : Obligations.CommitSealsRecords := by
  unfold Obligations.CommitSealsRecords
  intro b i line cls w hl r v writes version ct t
  have next : version = nextVersion (slotVersion b i) cls line := by
    cases cls <;> rfl
  have written : slotsWritten b [r] = writeSlot b i version line := by
    rw [next]
    exact slotsWritten_one b i line cls w
  have sealed : sealRecord b i (fit 64 line) = ct := by
    rw [← hl, fit_length]; rfl
  obtain ⟨records, tags, rootv, strata, out⟩ := commitWrite_sump b [r]
  rw [written, writeSlot_records, sealed] at records
  rw [written, writeSlot_tags, sealed] at tags
  obtain ⟨c, hc, hreqs, hrootv, hjmac, hmode, hentries, hrelease⟩ := commitWrite_commit (b := b) (reqs := [r]) (by simp [r])
  refine ⟨?_, ?_, fun j hj => ⟨?_, ?_⟩, rootv, strata, out, c, hc, hreqs, hrootv, hjmac, hmode, hentries, hrelease⟩
  · rw [records, Tab.get_set_self]
  · rw [tags, Tab.get_set_self]; rfl
  · rw [records, Tab.get_set_ne _ _ _ hj]
  · rw [tags, Tab.get_set_ne _ _ _ hj]

end Sys2Proof.Machine
end

section
/-! PROOFS. The course of a commit of one queued request, the write of the Sump head and the journal's head, and with them the statement on Sump's
commits (R211, R220 to R224, R227, R234, R577). -/
namespace Sys2Proof.Machine

variable {b b1 : Block} {s : State} {r : SumpReq} {ret : DdrReturn} {c : Commit}

/-! ### The start of a commit (R220, R224, R227) -/

theorem takeRequests_one (r : SumpReq) : takeRequests 0 [r] = ([r], []) := by
  cases h : r.range <;> simp [takeRequests, h]

/-- A request alone comes after none that could delete its record. -/
theorem withoutLateMarks_one (r : SumpReq) : withoutLateMarks [r] = ([r], []) := by
  cases h : r.marks <;> simp [withoutLateMarks, h]

/-- The journal entries that the commit of one request needs (R226). -/
def commitNeed (b : Block) (r : SumpReq) : Nat := if r.range.isSome then 1 else (r.slots b).length

/-- The read of a commit of the one queued request. -/
def commitRead (b : Block) (ret : DdrReturn) : DdrReturn × Block := ddrRead (b.modSump fun x => { x with queue := [], jfull := false }) ret

theorem sumpCommit_idle (h : b.sump.commit.isSome = true ∨ b.sump.queue = []) : sumpCommit b ret = (b, []) := if_pos h

section
variable (hc : b.sump.commit = none) (hq : b.sump.queue = [r])
include hc hq

theorem sumpCommit_unavailable (hs : b.sump.st ≠ .ready) :
    sumpCommit b ret = (b.modSump fun x => { x with queue := [] }, [(r, 0x0061)]) := by
  simp [sumpCommit, hc, hq, hs, stSumpUnavailable]

variable (hs : b.sump.st = .ready)
include hs

theorem sumpCommit_ringFull (hj : b.sump.jmode ≠ .off) (hr : journalRoom b.sump < commitNeed b r) :
    sumpCommit b ret = (b.modSump fun x => { x with jfull := true }, []) := by
  unfold commitNeed at hr
  simp [sumpCommit, hc, hq, hs, takeRequests_one, hj, hr]

variable (hr : b.sump.jmode = .off ∨ commitNeed b r ≤ journalRoom b.sump)
include hr

omit hc hq hs in
/-- The ring has room: the request goes on as its paths verify. -/
theorem sumpCommit_room : ¬ (b.sump.jmode ≠ .off ∧ journalRoom b.sump <
    if b.sump.jmode = .off then 0 else if r.range.isSome = true then 1 else (r.slots b).length) := by
  rintro ⟨hj, hl⟩
  rw [if_neg hj] at hl
  exact absurd (hr.resolve_left hj) (Nat.not_le.mpr hl)

theorem sumpCommit_fails (hv : verifyRequests (commitRead b ret).2 (commitRead b ret).1 [r] = ([], [r], b1)) :
    sumpCommit b ret = (b1, [(r, 0x0060)]) := by
  have room := sumpCommit_room hr
  unfold commitRead at hv
  simp [sumpCommit, hc, hq, hs, takeRequests_one, withoutLateMarks_one, room, hv, stSumpIntegrity]

variable (hv : verifyRequests (commitRead b ret).2 (commitRead b ret).1 [r] = ([r], [], b1))
include hv

theorem sumpCommit_empty (he : r.slots b1 = []) : sumpCommit b ret = (b1, [(r, 0)]) := by
  have room := sumpCommit_room hr
  unfold commitRead at hv
  simp [sumpCommit, hc, hq, hs, takeRequests_one, withoutLateMarks_one, room, hv, he, stOk]

theorem sumpCommit_writes (he : r.slots b1 ≠ []) {c : Commit} (h : (sealRequest (commitWrite b1 [r]) r).sump.commit = some c) :
    sumpCommit b ret =
      (if c.mode = .sync then (writeJournal (sealRequest (commitWrite b1 [r]) r) c.entries).modSump fun x =>
          { x with commit := some { c with entries := [], releaseAt := some x.jtail } }
        else sealRequest (commitWrite b1 [r]) r, []) := by
  have room := sumpCommit_room hr
  unfold commitRead at hv
  by_cases hm : c.mode = .sync <;>
    simp [sumpCommit, hc, hq, hs, takeRequests_one, withoutLateMarks_one, room, hv, he, h, hm]

end

theorem completes_sumpCommit (hw : wfDdr ret = true) (hr : s.blk.running = true) (hp : s.blk.pmc.perstDue = false) (hd : s.blk.domainOn 19 = true) :
    Completes (.sumpCommit ret) s (settle (commitStart s.blk ret)) := by
  have h : exec (.sumpCommit ret) s = act (wfDdr ret) s (fun b => if b.domainOn 19 then startCommit b ret else b) := rfl
  simp [Completes, h, act, hw, run, hd, startCommit, hr, hp]

/-- A start that no request ends with. -/
theorem commitStart_goes {t : Block} (h : sumpCommit b ret = (t, [])) : commitStart b ret = t := by
  simp [commitStart, h]

/-- A start that the one request ends with. -/
theorem commitStart_ends {t : Block} {status : Nat} (h : sumpCommit b ret = (t, [(r, status)])) : commitStart b ret = commitFailed t r status := by
  simp [commitStart, h]

/-! ### The head's write (R221) -/

/-- Once a commit is over: it has gone, and counts (R530). -/
def commitEnded (b : Block) : Block := (b.modSump fun x => { x with commit := none }).tally 130

/-- The Sump head of a commit in Strata. -/
def headWritten (b : Block) (c : Commit) : Block := b.modStrata fun x => { x with sumpHead := some (c.rootv, c.jmac) }

theorem headWrite_none (h : b.sump.commit = none) : headWrite b = b := by
  simp [headWrite, sumpHeadWrite, h, commitDone]

section
variable (h : b.sump.commit = some c)
include h

theorem headWrite_unreleased (hr : c.releaseAt.isSome = true) : headWrite b = b := by
  have hr : c.releaseAt ≠ none := by simpa [Option.isSome_iff_ne_none] using hr
  simp [headWrite, sumpHeadWrite, headMayBeWritten, h, hr, commitDone]

theorem headWrite_released (hr : c.releaseAt = none) : headWrite b =
    commitDone (commitEnded (if c.mode = .async then writeJournal (headWritten b c) c.entries else headWritten b c)) c.reqs := by
  simp only [headWrite, sumpHeadWrite, headMayBeWritten, h, hr, Option.isNone_none, if_true]
  rfl

end

theorem completes_sumpHeadWrite {t : Block} (hp : s.blk.pmc.powerGood = true) (h : headWrite s.blk = t) :
    Completes .sumpHeadWrite s (afterCommit (settle t)) := by
  subst h
  have h : exec .sumpHeadWrite s = run s endCommit := rfl
  simp [Completes, h, run, endCommit, hp]

/-! ### The journal's head (R221, R222, R234) -/

section
variable {pasid : Option Nat} {a : Access} {v : BitVec 32}

/-- The PF and the slice of the Security Officer reach Sump's block (R327, R328). -/
theorem admits_smp (h : pasid = none ∨ ∃ p, pasid = some p ∧ b.bimor.binds.find? (fun x => x.2 == p) = some (0, p)) :
    admits (askerOf b pasid) .smp = true := by
  obtain rfl | ⟨p, rfl, h⟩ := h
  · rfl
  · simp [askerOf, h, admits]

theorem admits_smp_not (h : ∃ p, pasid = some p ∧ (b.bimor.binds.find? (fun x => x.2 == p) = none ∨
    ∃ k, b.bimor.binds.find? (fun x => x.2 == p) = some (k, p) ∧ k ≠ 0)) : admits (askerOf b pasid) .smp = false := by
  obtain ⟨p, rfl, h | ⟨k, h, hk⟩⟩ := h
  · simp [askerOf, h, admits]
  · simp [askerOf, h, admits, hk]

theorem exec_smpJhead : exec (.smpJhead pasid a v) s = run s (journalHead · pasid a v) := rfl

theorem completes_smpJhead {t : Block} (hj : s.blk.jheadOn = true) (ha : admits (askerOf s.blk pasid) .smp = true)
    (h : smpJhead s.blk a v.toNat = t) : Completes (.smpJhead pasid a v) s (settle t) := by
  simp [Completes, exec_smpJhead, run, journalHead, hj, ha, h]

theorem completes_smpJhead_rejected (hj : s.blk.jheadOn = true) (ha : admits (askerOf s.blk pasid) .smp = false) :
    Completes (.smpJhead pasid a v) s (pfReject s.blk false) := by
  simp [Completes, exec_smpJhead, run, journalHead, hj, ha]

theorem completes_smpJhead_off (hj : s.blk.jheadOn = false) : Completes (.smpJhead pasid a v) s s.blk := by
  simp [Completes, exec_smpJhead, run, journalHead, hj]

end

/-- How far a place of the ring lies after the head. -/
def pastHead (u : Sump) (t : Nat) : Nat := (t + 2 ^ u.jlog2 - u.jhead) % 2 ^ u.jlog2

/-- The head of the ring that a write names: it is within the ring, and not past entries that were written. -/
def NamesEntries (u : Sump) (v : Nat) : Prop := v % 2 ^ 20 < 2 ^ u.jlog2 ∧ pastHead u (v % 2 ^ 20) ≤ pastHead u u.jtail

section
variable {v : Nat}

theorem smpJhead_range (h : ¬ NamesEntries b.sump v) : smpJhead b .word v = b.modSump fun x => { x with err := x.err ||| 2 } := if_neg h

/-- A commit once the ring's head has moved: one that waits for a place the head has reached is released. -/
def Commit.releasedTo (u : Sump) (head : Nat) (c : Commit) : Commit :=
  match c.releaseAt with
  | some t => if pastHead u t ≤ pastHead u head then { c with releaseAt := none } else c
  | none => c

theorem smpJhead_moves (h : NamesEntries b.sump v) : smpJhead b .word v = b.modSump fun x =>
    { x with jhead := v % 2 ^ 20, jfull := false, commit := b.sump.commit.map (Commit.releasedTo b.sump (v % 2 ^ 20)) } := if_pos h

theorem smpJhead_moves_idle (h : NamesEntries b.sump v) (hc : b.sump.commit = none) :
    smpJhead b .word v = b.modSump fun x => { x with jhead := v % 2 ^ 20, jfull := false, commit := none } := by
  simp [smpJhead_moves h, hc]

variable {t : Nat} (hc : b.sump.commit = some c) (ht : c.releaseAt = some t)
include hc ht

theorem smpJhead_releases (h : NamesEntries b.sump v) (hr : pastHead b.sump t ≤ pastHead b.sump (v % 2 ^ 20)) : smpJhead b .word v =
    b.modSump fun x => { x with jhead := v % 2 ^ 20, jfull := false, commit := some { c with releaseAt := none } } := by
  simp only [smpJhead_moves h, hc, Option.map_some, Commit.releasedTo, ht, if_pos hr]

theorem smpJhead_keepsWaiting (h : NamesEntries b.sump v) (hr : ¬ pastHead b.sump t ≤ pastHead b.sump (v % 2 ^ 20)) : smpJhead b .word v =
    b.modSump fun x => { x with jhead := v % 2 ^ 20, jfull := false, commit := some c } := by
  simp only [smpJhead_moves h, hc, Option.map_some, Commit.releasedTo, ht, if_neg hr]

end

theorem afterCommit_idle (hc : b.sump.commit = none) (hp : b.pmc.perstDue = false) (hw : b.pmc.warm = none) : afterCommit b = b := by
  simp [afterCommit, hc, hp, hw]

theorem releaseTimeout_awake (hw : b.pmc.warm = none) : releaseTimeout b = b := by simp [releaseTimeout, hw]

theorem releaseTimeout_warm (hp : b.pmc.powerGood = true) (hw : b.pmc.warm.isSome = true) (hc : b.sump.commit = some c) :
    releaseTimeout b = drainReleased (b.modSump fun x => { x with commit := some { c with releaseAt := none } }) := by
  simp [releaseTimeout, hp, hw, syncTimeout, syncReleaseTimeout, Block.modSump, hc]

/-! ### The statement -/

/-- Settles O36: a commit takes the course that the ring, its path and its slots name, and the heads move as the commit's mode lets them. -/
theorem sumpCommits : Obligations.SumpCommits := by
  unfold Obligations.SumpCommits
  refine ⟨fun s ret r b1 hw hr hp hd => ?_, fun s c pasid v hp => ?_⟩
  · intro b u ring room need read fails written
    have starts (t : Block) (h : commitStart s.blk ret = t) : Completes (.sumpCommit ret) s (settle t) := h ▸ completes_sumpCommit hw hr hp hd
    have ends (t : Block) (status : Nat) (h : commitStart s.blk ret = commitFailed t r status) :
        Completes (.sumpCommit ret) s (fails t status) := starts _ h
    refine ⟨fun h => starts _ (commitStart_goes (sumpCommit_idle h)), fun hc hq => ⟨fun hs => ?_, fun hs hj hn => ?_, fun hs hn hv => ?_,
      fun hs hn hv he => ?_, fun hs hn hv he c h => ⟨fun hm => ?_, fun hm => ?_⟩⟩⟩
    · exact ends _ _ (commitStart_ends (sumpCommit_unavailable hc hq hs))
    · exact starts _ (commitStart_goes (sumpCommit_ringFull hc hq hs hj hn))
    · exact ends _ _ (commitStart_ends (sumpCommit_fails hc hq hs hn hv))
    · exact ends _ _ (commitStart_ends (sumpCommit_empty hc hq hs hn hv he))
    · exact starts _ (commitStart_goes ((sumpCommit_writes hc hq hs hn hv he h).trans (by rw [if_neg hm]; rfl)))
    · exact starts _ (commitStart_goes ((sumpCommit_writes hc hq hs hn hv he h).trans (by rw [if_pos hm]; rfl)))
  · intro b u ended headed size head moved names reached admitted put
    refine ⟨fun h => ?_, fun h hrel => ?_, fun h hrel hm => ?_, fun h hrel hm => ?_, fun h => ?_, fun h hn => ?_, fun h hn hc => ?_,
      fun t h hn hc ht => ⟨fun hre => ?_, fun hre => ?_⟩, fun hj h => ?_, fun h hwarm => ?_, fun hj a => ?_, fun hwarm hc hdue => ?_⟩
    · exact completes_sumpHeadWrite hp (headWrite_none h)
    · exact completes_sumpHeadWrite hp (headWrite_unreleased h hrel)
    · exact completes_sumpHeadWrite hp ((headWrite_released h hrel).trans (by rw [if_neg hm]; rfl))
    · exact completes_sumpHeadWrite hp ((headWrite_released h hrel).trans (by rw [if_pos hm]; rfl))
    -- the journal's head
    · exact completes_smpJhead h.1 (admits_smp h.2) rfl
    · exact completes_smpJhead h.1 (admits_smp h.2) (smpJhead_range hn)
    · exact completes_smpJhead h.1 (admits_smp h.2) (smpJhead_moves_idle hn hc)
    · exact completes_smpJhead h.1 (admits_smp h.2) (smpJhead_releases hc ht hn hre)
    · exact completes_smpJhead h.1 (admits_smp h.2) (smpJhead_keepsWaiting hc ht hn hre)
    · exact completes_smpJhead_rejected hj (admits_smp_not h)
    · exact congrArg (fun t => Host.Outcome.next { s with blk := afterCommit t }) (releaseTimeout_warm hp hwarm h)
    · exact completes_smpJhead_off hj
    · have h : afterCommit (releaseTimeout s.blk) = s.blk := by rw [releaseTimeout_awake hwarm, afterCommit_idle hc hdue hwarm]
      exact congrArg (fun t => Host.Outcome.next { s with blk := t }) h

end Sys2Proof.Machine
end

section
/-! PROOFS. Sump's upkeep: the patrol scrub, integrity failures, the start, the copy of a save and the erase of a range, and with them the statement
on them (R211, R223, R225, R229, R231). -/
namespace Sys2Proof.Machine

variable {b : Block} {s : State}

/-! ### Integrity failures (R223) -/

section
variable (b : Block) (i l kind : Nat)

/-- An integrity failure in its kind's counter, and the subtree of a block marked. -/
def failureCounted : Block := b.modSump fun x =>
  { x with faultsEcc := if kind = 3 then min 255 (x.faultsEcc + 1) else x.faultsEcc
           faultsTag := if kind ≠ 3 ∧ l = 0 then min 255 (x.faultsTag + 1) else x.faultsTag
           faultsNode := if kind ≠ 3 ∧ l ≠ 0 then min 255 (x.faultsNode + 1) else x.faultsNode
           bad := if l = 0 then x.bad else x.bad ++ [(l, i / 8 ^ l)] }

/-- As `failureCounted`, and Belay told. -/
def failureTold : Block :=
  ((failureCounted b i l kind).tally 134).report 0x0220 0 .w (i % 2 ^ 32) (i / 2 ^ 32 % 256 + 2 ^ 8 * l + 2 ^ 12 * kind)
    (if b.chamberOfGidx i = 64 then 63 else b.chamberOfGidx i)

/-- The tag and block failures of the last second, with the one that has just come. -/
def recentFailures : List Nat := b.sump.failTimes.filter (fun t => b.now < t + 1000000) ++ [b.now]

end

theorem failureCounted_eq (b : Block) (i l kind : Nat) :
    ((b.modSump fun s =>
        if kind = 3 then { s with faultsEcc := min 255 (s.faultsEcc + 1) }
        else if l = 0 then { s with faultsTag := min 255 (s.faultsTag + 1) }
        else { s with faultsNode := min 255 (s.faultsNode + 1) }).modSump fun s =>
      if l = 0 then s else { s with bad := s.bad ++ [(l, i / 8 ^ l)] }) = failureCounted b i l kind := by
  by_cases h : kind = 3 <;> by_cases h' : l = 0 <;> simp [failureCounted, Block.modSump, h, h']

theorem sumpFailure_eq (b : Block) (i l kind : Nat) : sumpFailure b i l kind =
    if kind = 0 ∨ kind = 1 then
      if 64 ≤ (recentFailures b).length then
        ((failureTold b i l kind).modSump fun x => { x with failTimes := [] }).report 0x0112 0 .l (recentFailures b).length 0 0
      else (failureTold b i l kind).modSump fun x => { x with failTimes := recentFailures b }
    else failureTold b i l kind := by
  simp only [sumpFailure, failureCounted_eq]
  rfl

section
variable {i l kind : Nat}

theorem sumpFailure_other (h : kind = 2 ∨ kind = 3) : sumpFailure b i l kind = failureTold b i l kind := by
  rw [sumpFailure_eq, if_neg (by omega)]

theorem sumpFailure_few (h : kind < 2) (hl : (recentFailures b).length < 64) :
    sumpFailure b i l kind = (failureTold b i l kind).modSump fun x => { x with failTimes := recentFailures b } := by
  rw [sumpFailure_eq, if_pos (by omega), if_neg (Nat.not_le.mpr hl)]

theorem sumpFailure_many (h : kind < 2) (hl : 64 ≤ (recentFailures b).length) : sumpFailure b i l kind =
    ((failureTold b i l kind).modSump fun x => { x with failTimes := [] }).report 0x0112 0 .l (recentFailures b).length 0 0 := by
  rw [sumpFailure_eq, if_pos (by omega), if_pos hl]

end

theorem completes_patrolScrub {r : ScrubResult} (hr : s.blk.running = true) (hd : s.blk.domainOn 19 = true) :
    Completes (.patrolScrub r) s (settle (patrolScrub s.blk r)) :=
  completes_awakeSettle (f := (patrolScrub · r)) rfl hr hd rfl

/-! ### Start (R225) -/

section
variable {trained : Bool} {ret : DdrReturn} {rootv : Nat} {jmac : Bytes}

/-- Sump in a state, with the memory as its training has left it. -/
def trainedAs (b : Block) (trained : Bool) (st : SumpState) : Block :=
  b.modSump fun x => { x with st := st, ddr := { x.ddr with trained := trained } }

@[simp] theorem trainedAs_bbram (b : Block) (trained : Bool) (st : SumpState) : (trainedAs b trained st).bbram = b.bbram := rfl
@[simp] theorem trainedAs_strata (b : Block) (trained : Bool) (st : SumpState) : (trainedAs b trained st).strata = b.strata := rfl

/-- The read of the level-D block under the head that Strata holds. -/
def rootRead (b : Block) (trained : Bool) (rootv : Nat) (jmac : Bytes) (ret : DdrReturn) : DdrReturn × Block :=
  ddrRead ((trainedAs b trained .empty).modSump fun x => { x with rootv := rootv, jmac := jmac }) ret

/-- The level-D block as it was read. -/
def rootBlock (b : Block) (trained : Bool) (ret : DdrReturn) : Bytes :=
  ddrLine { b.sump.ddr with trained := trained } ret (.node b.depth 0)

theorem sumpStart_erased (h : b.bbram.drk = none) : sumpStart b trained ret = trainedAs b trained .erased := by
  simp only [sumpStart, modSump_bbram, h, Option.isNone_none, if_true]
  rfl

section
variable (hd : b.bbram.drk.isSome = true)
include hd

theorem drk_isNone : b.bbram.drk.isNone = false := by simpa using hd

theorem sumpStart_noHead (hh : b.strata.sumpHead = none) : sumpStart b trained ret = trainedAs b trained .empty := by
  simp only [sumpStart, modSump_bbram, modSump_strata, drk_isNone hd, hh]
  rfl

variable (hs : b.sump.st = .empty) (hh : b.strata.sumpHead = some (rootv, jmac))
include hs hh

theorem sumpStart_head : sumpStart b trained ret =
    if rootv = 0 ∧ (!b.sump.ddr.init) = true then (rootRead b trained rootv jmac ret).2.modSump fun x => { x with st := .empty }
    else if trained = true ∧ rootVerifies (rootRead b trained rootv jmac ret).2 (rootRead b trained rootv jmac ret).1 rootv = true then
      ((rootRead b trained rootv jmac ret).2.modSump fun x => { x with st := .ready }).report 0x0221 0 .none (rootv % 2 ^ 32) 0 0
    else if trained = true ∧ (!allZero (rootBlock b trained ret)) = true then
      ((rootRead b trained rootv jmac ret).2.modSump fun x => { x with st := .empty }).report 0x0221 0 .w (rootv % 2 ^ 32) 0 0
    else (rootRead b trained rootv jmac ret).2.modSump fun x => { x with st := .empty } := by
  have taken : (b.modSump fun x => { x with ddr := { x.ddr with trained := trained } }) = trainedAs b trained .empty := by
    simp [Block.modSump, trainedAs, hs]
  simp only [sumpStart, taken, trainedAs_bbram, trainedAs_strata, drk_isNone hd, hh]
  rfl

theorem sumpStart_blank (h0 : rootv = 0) (hi : b.sump.ddr.init = false) :
    sumpStart b trained ret = (rootRead b trained rootv jmac ret).2.modSump fun x => { x with st := .empty } := by
  rw [sumpStart_head hd hs hh, if_pos ⟨h0, by simp [hi]⟩]

variable (h0 : rootv ≠ 0 ∨ b.sump.ddr.init = true)
include h0

omit hd hs hh in
theorem not_blank : ¬ (rootv = 0 ∧ (!b.sump.ddr.init) = true) := by
  rintro ⟨h, hi⟩
  exact h0.elim (· h) fun h => by simp [h] at hi

theorem sumpStart_verifies (ht : trained = true)
    (hv : rootVerifies (rootRead b trained rootv jmac ret).2 (rootRead b trained rootv jmac ret).1 rootv = true) : sumpStart b trained ret =
      ((rootRead b trained rootv jmac ret).2.modSump fun x => { x with st := .ready }).report 0x0221 0 .none (rootv % 2 ^ 32) 0 0 := by
  rw [sumpStart_head hd hs hh, if_neg (not_blank h0), if_pos ⟨ht, hv⟩]

theorem sumpStart_refuses (ht : trained = true)
    (hv : rootVerifies (rootRead b trained rootv jmac ret).2 (rootRead b trained rootv jmac ret).1 rootv = false)
    (hz : allZero (rootBlock b trained ret) = false) : sumpStart b trained ret =
      ((rootRead b trained rootv jmac ret).2.modSump fun x => { x with st := .empty }).report 0x0221 0 .w (rootv % 2 ^ 32) 0 0 := by
  rw [sumpStart_head hd hs hh, if_neg (not_blank h0), if_neg (by simp [hv]), if_pos ⟨ht, by simp [hz]⟩]

/-- Without its memory, or with a level-D block of zeros, a start that does not verify is not reported. -/
theorem sumpStart_unread (hv : trained = false ∨
    rootVerifies (rootRead b trained rootv jmac ret).2 (rootRead b trained rootv jmac ret).1 rootv = false ∧
      allZero (rootBlock b trained ret) = true) :
    sumpStart b trained ret = (rootRead b trained rootv jmac ret).2.modSump fun x => { x with st := .empty } := by
  rw [sumpStart_head hd hs hh, if_neg (not_blank h0)]
  obtain ht | ⟨hv, hz⟩ := hv
  · rw [if_neg (by simp [ht]), if_neg (by simp [ht])]
  · rw [if_neg (by simp [hv]), if_neg (by simp [hz])]

end

theorem startSump_started (h : ¬ (b.pmc.booted = true ∧ b.sump.st = .empty)) : startSump b trained ret = b := by
  refine if_pos ?_
  by_contra hn
  exact h (by simpa using hn)

theorem startSump_starts (hb : b.pmc.booted = true) (hs : b.sump.st = .empty) : startSump b trained ret =
    if (sumpStart b trained ret).sump.st = .ready then restoreFromSump (sumpStart b trained ret) else sumpStart b trained ret := by
  simp [startSump, hb, hs]

/-- A start that leaves Sump in another state than READY gives nothing back. -/
theorem startSump_leaves {t : Block} (hb : b.pmc.booted = true) (hs : b.sump.st = .empty)
    (h : sumpStart b trained ret = t) (ht : t.sump.st = .empty ∨ t.sump.st = .erased) : startSump b trained ret = t := by
  have hn : t.sump.st ≠ .ready := by rcases ht with ht | ht <;> simp [ht]
  rw [startSump_starts hb hs, h, if_neg hn]

theorem startSump_restores {t : Block} (hb : b.pmc.booted = true) (hs : b.sump.st = .empty) (h : sumpStart b trained ret = t)
    (ht : t.sump.st = .ready) : startSump b trained ret = restoreFromSump t := by
  rw [startSump_starts hb hs, h, if_pos ht]

theorem completes_sumpStart {t : Block} (hr : s.blk.running = true) (hd : s.blk.domainOn 19 = true) (hw : wfDdr ret = true)
    (h : startSump s.blk trained ret = t) : Completes (.sumpStart trained ret) s (settle t) := by
  have e : exec (.sumpStart trained ret) s = act (wfDdr ret) s (awakeSettle 19 (startSump · trained ret)) := rfl
  simp [Completes, e, act, hw, run, awakeSettle, hr, hd, h]

end

/-! ### The copy of a save (R229) -/

theorem foldl_emit {α : Type} (g : α → Out) (l : List α) :
    ∀ b : Block, l.foldl (fun b x => b.emit (g x)) b = { b with out := b.out ++ l.map g } := by
  induction l with
  | nil => intro b; simp
  | cons x l ih => intro b; rw [List.foldl_cons, ih]; simp [Block.emit]

/-- What a save writes to the host's buffer: the header, the tags, the tree and the records. -/
def saveImage (b : Block) (v : Save) : List Out :=
  .write 0 v.base (imageHeader b v.rootv v.jmac) :: (v.snapshot.tags.map (fun p => .write 0 (v.base + 64 + 8 * p.1) p.2) ++
    v.snapshot.nodes.map (fun p => .write 0 (v.base + 64 + 8 * b.sumpT + 64 * (blocksBelow b.sumpT (p.1 / 2 ^ 40) + p.1 % 2 ^ 40)) p.2) ++
    v.snapshot.records.map fun p => .write 0 (v.base + 64 + 8 * b.sumpT + 64 * blocksBelow b.sumpT (b.depth + 1) + 64 * p.1) p.2)

theorem saveCopyEnd_none (h : b.sump.save = none) : saveCopyEnd b = b := by simp [saveCopyEnd, h]

theorem saveCopyEnd_copies {v : Save} (h : b.sump.save = some v) (hs : v.started = true) :
    saveCopyEnd b = { b with out := b.out ++ saveImage b v, sump := { b.sump with save := none } } := by
  simp only [saveCopyEnd, h, hs, if_true, foldl_emit]
  simp [saveImage, Block.emit, Block.modSump]

/-! ### The erase of a range (R231) -/

section
variable {c from_ : Nat}

/-- The waiter is a chamber's erase. -/
def Waiter.erases (c : Nat) : Waiter → Bool
  | .erase x _ => x == c
  | _ => false

theorem erases_iff {w : Waiter} : w.erases c = true ↔ ∃ n, w = .erase c n := by
  cases w <;> simp [Waiter.erases]

theorem erasePending_eq (u : Sump) (c : Nat) :
    erasePending u c = (u.queue.any (·.waiter.erases c) || (u.commit.map fun k => k.reqs.any (·.waiter.erases c)).getD false) := rfl

/-- A range of the chamber's erase is queued or being committed. -/
theorem erasePending_iff {u : Sump} :
    erasePending u c = true ↔ ∃ r ∈ u.queue ++ (u.commit.map fun k => k.reqs).getD [], ∃ n, r.waiter = .erase c n := by
  cases hc : u.commit <;> simp [erasePending_eq, hc, erases_iff, or_and_right, exists_or]

theorem eraseRange_none (h : b.sump.erasing = []) : eraseRange b c = b := by simp [eraseRange, h]

/-- The slots shown used in what is left of a chamber's erase. -/
def leftToErase (b : Block) (c from_ : Nat) : List Nat :=
  (b.sump.ddr.hint.filter fun i => decide (from_ ≤ i ∧ i < b.gidxOf c b.sumpSpace)).mergeSort fun a x => a ≤ x

theorem mem_leftToErase {x : Nat} : x ∈ leftToErase b c from_ ↔ x ∈ b.sump.ddr.hint ∧ from_ ≤ x ∧ x < b.gidxOf c b.sumpSpace := by
  simp [leftToErase, List.mem_mergeSort]

theorem leftToErase_head {i : Nat} (hi : i ∈ leftToErase b c from_) (hl : ∀ x ∈ leftToErase b c from_, i ≤ x) :
    ∃ l, leftToErase b c from_ = i :: l := by
  have sorted : (leftToErase b c from_).Pairwise (· ≤ ·) := by
    simpa [leftToErase] using List.pairwise_mergeSort (le := fun a x : Nat => decide (a ≤ x)) (by simpa using fun a b c => Nat.le_trans)
      (by simpa using Nat.le_total) _
  cases h : leftToErase b c from_ with
  | nil => simp [h] at hi
  | cons y l =>
    rw [h] at hi hl sorted
    have least : y ≤ i := by
      rcases List.mem_cons.mp hi with rfl | hm
      · exact le_rfl
      · exact List.rel_of_pairwise_cons sorted hm
    exact ⟨l, by rw [Nat.le_antisymm (hl y (by simp)) least]⟩

variable (he : b.sump.erasing = [(c, from_)])
include he

theorem eraseRange_pending (h : erasePending b.sump c = true) : eraseRange b c = b := by simp [eraseRange, he, h]

variable (hp : erasePending b.sump c = false)
include hp

theorem erasing_next : (b.sump.erasing.find? fun p => p.1 == c && !erasePending b.sump c) = some (c, from_) := by simp [he, hp]

theorem eraseRange_over (h : leftToErase b c from_ = []) : eraseRange b c = b.modSump fun x => { x with erasing := [] } := by
  unfold leftToErase at h
  simp only [eraseRange, erasing_next he hp, h]
  simp [Block.modSump, he]

theorem eraseRange_queues {i : Nat} {l : List Nat} (h : leftToErase b c from_ = i :: l) : eraseRange b c = b.sumpQueue
    { writes := [], range := some (i, min 4096 (b.gidxOf c b.sumpSpace - i)), waiter := .erase c (i + min 4096 (b.gidxOf c b.sumpSpace - i)) } := by
  unfold leftToErase at h
  simp only [eraseRange, erasing_next he hp, h]

end

/-! ### The statement -/

/-- Settles O38: a line scrubbed and a failure are counted by what they are, and the start, the save's copy and the erase do what the memory, Strata
and the hint map show. -/
theorem sumpFailures : Obligations.SumpFailures := by
  unfold Obligations.SumpFailures
  refine ⟨fun s i l kind dc1 hr hd => ?_, fun s trained ret c v rootv jmac from_ i hr hd => ?_⟩
  · intro b next c counted told recent
    have scrub (r : ScrubResult) := completes_patrolScrub (r := r) hr hd
    refine ⟨scrub _, scrub _, scrub _, scrub _, scrub _, fun hk => ?_, fun hk hl => ?_, fun hk hl => ?_⟩
    · exact sumpFailure_other hk
    · exact sumpFailure_few hk hl
    · exact sumpFailure_many hk hl
  · intro b u set_ limit inRange read blk
    have left (x : Nat) : x ∈ leftToErase b c from_ ↔ inRange x := mem_leftToErase
    have erases {t : Block} (h : eraseRange b c = t) : Completes (.eraseRange c) s t := by
      have e : exec (.eraseRange c) s = run s (awake 19 (eraseRange · c)) := rfl
      simp [Completes, e, run, awake, hr, hd, show eraseRange s.blk c = t from h]
    have copies {t : Block} (h : saveCopyEnd b = t) : Completes .saveCopyEnd s (settle t) :=
      completes_awakeSettle (f := saveCopyEnd) rfl hr hd h
    refine ⟨fun hw hb hs => ⟨fun hk => ?_, fun hk hh => ?_, fun hk hh => ⟨fun h0 hi => ?_, fun h0 ht hv => ?_, fun h0 ht hv hz => ?_,
      fun h0 hv => ?_⟩⟩, fun hw hs => ?_, fun hv hst => ?_, fun hv => copies (saveCopyEnd_none hv), ?_⟩
    · exact completes_sumpStart hr hd hw (startSump_leaves hb hs (sumpStart_erased hk) (.inr rfl))
    · exact completes_sumpStart hr hd hw (startSump_leaves hb hs (sumpStart_noHead hk hh) (.inl rfl))
    · exact completes_sumpStart hr hd hw (startSump_leaves hb hs (sumpStart_blank hk hs hh h0 hi) (.inl rfl))
    · exact completes_sumpStart hr hd hw (startSump_restores hb hs (sumpStart_verifies hk hs hh h0 ht hv) rfl)
    · exact completes_sumpStart hr hd hw (startSump_leaves hb hs (sumpStart_refuses hk hs hh h0 ht hv hz) (.inl rfl))
    · exact completes_sumpStart hr hd hw (startSump_leaves hb hs (sumpStart_unread hk hs hh h0 hv) (.inl rfl))
    · exact completes_sumpStart hr hd hw (startSump_started fun h => hs h.2)
    · refine ⟨_, copies (saveCopyEnd_copies hv hst), rfl, ⟨_, rfl⟩, fun p hp => ?_, fun p hp => ?_⟩
      · exact List.mem_append_right _ (List.mem_cons_of_mem _ (List.mem_append_right _ (List.mem_map_of_mem hp)))
      · exact List.mem_append_right _ (List.mem_cons_of_mem _ (List.mem_append_left _ (List.mem_append_left _ (List.mem_map_of_mem hp))))
    · refine ⟨fun he hp => erases (eraseRange_pending he (erasePending_iff.mpr hp)), fun he hp => ?_, fun he => erases (eraseRange_none he)⟩
      have idle : erasePending b.sump c = false := Bool.eq_false_iff.mpr (mt erasePending_iff.mp hp)
      refine ⟨fun hn => ?_, fun hi hl => ?_⟩
      · exact erases (eraseRange_over he idle (List.eq_nil_iff_forall_not_mem.mpr fun x hx => hn x ((left x).mp hx)))
      · obtain ⟨l, h⟩ := leftToErase_head ((left i).mpr hi) fun x hx => hl x ((left x).mp hx)
        exact erases (eraseRange_queues he idle h)

end Sys2Proof.Machine
end

section
/-! PROOFS. The resets: what a device reset leaves, when one begins, waits or is absorbed, and what resets of the host's link, its functions and the
chambers do; and with them the statement on the resets' commands (R222, R333, R337, R340, R514 to R516, R518, R532). -/
namespace Sys2Proof.Machine

variable {b t : Block} {s : State} {n : Nat} {c : Nat}

/-! ### A device reset (R514) -/

/-- What every device reset keeps: BBRAM, Strata as the newest settings leave its recorder, the monitors and Belay's intake, and the anti-rollback
state. -/
def KeptByReset (b t : Block) : Prop :=
  t.bbram = b.bbram ∧
  t.strata = b.strata.recorderFor (b.setting 1) (byteAt (settingsInForce b.strata) 1).toNat ∧ t.belay.monitors = b.belay.monitors ∧
  t.belay.intake = b.belay.intake ∧ t.identity.arb = b.identity.arb ∧ t.identity.revoked = b.identity.revoked

/-- What a warm reset keeps beside that: the set-up of the power manager, the Tally bank, the records and the sideband. -/
def KeptByWarmReset (b t : Block) : Prop :=
  t.pmc.floor = b.pmc.floor ∧ t.pmc.keep = b.pmc.keep ∧ t.pmc.cap = b.pmc.cap ∧
  t.pmc.refill = b.pmc.refill ∧ t.pmc.tokens = b.pmc.cap ∧ t.counters.tally = b.counters.tally ∧ t.sump.ddr.records = b.sump.ddr.records ∧
  t.smbus = b.smbus

/-- What every device reset clears. -/
def ClearedByReset (t : Block) : Prop :=
  t.keys = Keys.reset ∧ t.ch = [] ∧ t.chains = [] ∧ t.chuck = Chuck.reset ∧ t.bimor.mbx = [] ∧
  t.bimor.sessions = [] ∧ t.pcie = Pcie.reset ∧ t.lantern.st = .off ∧ t.lantern.central = [] ∧ t.pmc.ready = false ∧
  t.pmc.booted = false ∧ t.kerard.bypassOpen = false ∧ t.pmc.queue = [] ∧ t.pmc.warming = 0 ∧ t.pmc.on = 0x940003 ∧
  t.sump.st = .empty ∧ t.pmc.st = 0 ∧ t.pmc.perst = false ∧ t.pmc.err = 0

theorem deviceReset_keeps (b : Block) (cold : Bool) : KeptByReset b (deviceReset b cold) := ⟨rfl, rfl, rfl, rfl, rfl, rfl⟩

theorem deviceReset_keepsWarm (b : Block) : KeptByWarmReset b (deviceReset b false) := ⟨rfl, rfl, rfl, rfl, rfl, rfl, rfl, rfl⟩

theorem deviceReset_clears (b : Block) (cold : Bool) : ClearedByReset (deviceReset b cold) := by
  cases cold <;> exact ⟨rfl, rfl, rfl, rfl, rfl, rfl, rfl, rfl, rfl, rfl, rfl, rfl, rfl, rfl, rfl, rfl, rfl, rfl, rfl⟩

/-! ### Warm resets and the cold one (R514 to R518) -/

theorem completes_run {i : Instr} {f : Block → Block} (hi : exec i s = run s f) (h : f s.blk = t) : Completes i s t := by
  simp [Completes, hi, run, h]

/-- The device stopped for a warm reset, which may have to wait for a commit. -/
def warmStopped (b : Block) (cause : Nat) : Block :=
  (stopWork (cancelWakes b fun _ => true)).modPmc fun p =>
    { p with warm := some cause, ready := false, resetScheduled := false, resetDue := false }

theorem warmBegin_eq (b : Block) (cause : Nat) : warmBegin b cause =
    if (warmStopped b cause).sump.commit = none then deviceReset (warmStopped b cause) false else warmStopped b cause := by
  have begins : warmBegin b cause = if (warmStopped b cause).sump.commit.isNone = true then deviceReset (warmStopped b cause) false
      else warmStopped b cause := rfl
  simpa only [Option.isNone_iff_eq_none] using begins

/-- A pin's level that its filter passes. -/
theorem resetPin_passes (h : 4 ≤ n) (f : Block → Block) : resetPin b n f = f b := by simp [resetPin, pinPasses, h]

/-- A pulse too short for the filter counts at both detectors of RSTGLITCH (R422). -/
theorem resetPin_pulse (h1 : 1 ≤ n) (h4 : n < 4) (f : Block → Block) :
    resetPin b n f = detectorEvent (detectorEvent b 17 false .pulse) 17 true .pulse := by
  simp [resetPin, pinPasses, Nat.not_le.mpr h4, show n ≠ 0 by omega]

theorem resetPin_none (f : Block → Block) : resetPin b 0 f = b := rfl

theorem running_iff : b.running = true ↔ b.pmc.powerGood = true ∧ b.pmc.warm = none := by simp [Block.running]

theorem sysRstAssert_off (h : b.pmc.powerGood = false) : sysRstAssert b = b := by simp [sysRstAssert, h]

theorem sysRstAssert_begins (hr : b.running = true) (he : b.belay.responses = []) :
    sysRstAssert b = warmBegin (b.modPmc fun p => { p with sysRst := true }) 1 := by
  obtain ⟨hp, hw⟩ := running_iff.mp hr
  simp [sysRstAssert, hp, hw, he]

theorem sysRstAssert_waits (hp : b.pmc.powerGood = true) (h : b.pmc.warm ≠ none ∨ b.belay.responses ≠ []) :
    sysRstAssert b = b.modPmc fun p => { p with sysRst := true } := by
  have h : b.pmc.warm.isSome = true ∨ b.belay.responses ≠ [] := h.imp_left Option.isSome_iff_ne_none.mpr
  simp only [sysRstAssert, hp, Bool.not_true, Bool.false_eq_true, if_false, modPmc_pmc, modPmc_belay, h, if_true]

theorem deviceResetTimer_unscheduled (h : b.pmc.resetScheduled = false) : deviceResetTimer b = b := by simp [deviceResetTimer, h]

section
variable (hr : b.running = true)
include hr

variable (h : b.pmc.resetScheduled = true)
include h

theorem deviceResetTimer_held (hp : b.pmc.sysRst = true) : deviceResetTimer b = b.modPmc fun p => { p with resetScheduled := false } := by
  simp [deviceResetTimer, hr, h, hp]

variable (hp : b.pmc.sysRst = false)
include hp

theorem deviceResetTimer_begins (he : b.belay.responses = []) :
    deviceResetTimer b = warmBegin (b.modPmc fun p => { p with resetScheduled := false }) 2 := by
  simp [deviceResetTimer, hr, h, hp, he]

theorem deviceResetTimer_waits (he : b.belay.responses ≠ []) : deviceResetTimer b =
    (b.modPmc fun p => { p with resetScheduled := false }).modPmc fun p => { p with resetDue := true } := by
  simp [deviceResetTimer, hr, h, hp, he]

end

theorem warmRelease_waits (h : b.pmc.warm = none ∨ b.sump.commit ≠ none) : warmRelease b = b := by
  unfold warmRelease
  cases hw : b.pmc.warm with
  | none => rfl
  | some c => simp [Option.isSome_iff_ne_none.mpr (h.resolve_left (by simp [hw]))]

theorem warmRelease_releases {cause : Nat} (hw : b.pmc.warm = some cause) (hc : b.sump.commit = none) : warmRelease b =
    (deviceReset b false).modPmc fun p => { p with sysRst := false, warm := none, cause := cause, reference := b.now } := by
  simp [warmRelease, hw, hc]

theorem coldReset_powered (h : b.pmc.powerGood = true) : coldReset b = b := by simp [coldReset, h]

/-- The device after a cold reset at an operating time. -/
def coldStarted (b : Block) (now : Nat) : Block :=
  let r := deviceReset (b.modPmc fun p => { p with powerGood := true, onBattery := false }) true
  { r with now := now, pmc := { r.pmc with reference := now } }

theorem coldStarted_keeps (b : Block) (now : Nat) : KeptByReset b (coldStarted b now) :=
  deviceReset_keeps (b.modPmc fun p => { p with powerGood := true, onBattery := false }) true

theorem coldStarted_clears (b : Block) (now : Nat) : ClearedByReset (coldStarted b now) :=
  deviceReset_clears (b.modPmc fun p => { p with powerGood := true, onBattery := false }) true

theorem recorderFor_optBase (x : Strata) (old new : Nat) : (x.recorderFor old new).optBase = x.optBase := by
  unfold Strata.recorderFor; split <;> rfl

theorem coldReset_starts (h : b.pmc.powerGood = false) : coldReset b = coldStarted b ((b.strata.optBase + 16) * 62500) := by
  have base : (deviceReset (b.modPmc fun p => { p with powerGood := true, onBattery := false }) true).strata.optBase = b.strata.optBase :=
    recorderFor_optBase _ _ _
  simp [coldReset, h, coldStarted, base]

/-! ### Resets of the host's link and of functions (R337, R340, R514, R532) -/

/-- A reset of PCI's domain waits for the commit in progress. -/
theorem portResetDue_now (h : b.sump.commit = none) : portResetDue b = portReset b := by simp [portResetDue, h]

theorem portResetDue_later (h : b.sump.commit ≠ none) : portResetDue b = b.modPmc fun p => { p with perstDue := true } := by
  simp [portResetDue, Option.isSome_iff_ne_none.mpr h]

/-- PERST_N asserted, before what it resets. -/
def perstHeld (b : Block) : Block := b.modPmc fun p => { p with perstN := true, perst := true }

theorem perstAssert_running (h : b.running = true) : perstAssert b = settle (portResetDue (perstHeld b)) := by
  have h : (perstHeld b).running = true := h
  unfold perstHeld at h
  simp [perstAssert, perstHeld, h]

theorem perstAssert_stopped (h : b.running = false) : perstAssert b = perstHeld b := by
  have h : (perstHeld b).running = false := h
  unfold perstHeld at h
  simp [perstAssert, perstHeld, h]

theorem perstRelease_released (h : b.pmc.perstN = false) : perstRelease b = b := by simp [perstRelease, h]

theorem perstRelease_awake (h : b.pmc.perstN = true) (hs : b.pmc.st ≠ 4) : perstRelease b = b.modPmc fun p => { p with perstN := false } := by
  simp [perstRelease, h, hs]

theorem perstRelease_dormant (hr : b.running = true) (h : b.pmc.perstN = true) (hs : b.pmc.st = 4) :
    perstRelease b = ladderExit (b.modPmc fun p => { p with perstN := false }) := by
  have hr : (b.modPmc fun p => { p with perstN := false }).running = true := hr
  simp [perstRelease, h, hs, hr]

theorem portReset_pcie (b : Block) : (portReset b).pcie = Pcie.reset := rfl

/-- A mailbox's registers after a reset, by READY. -/
def mailboxReset (ready : Bool) (x : Mailbox) : Mailbox :=
  if x.phase = .idle then { Mailbox.reset with busy := !ready }
  else { x with req := [], rsp := [], busy := true, done := false, vmaj := 0, vmin := 0, irqEn := false, vector := 0, err := 0, discard := true }

theorem mbxReset_eq (b : Block) (i : Nat) : mbxReset b i = b.modMbx i (mailboxReset b.pmc.ready) := rfl

theorem foldl_mbxReset_mbx (l : List Nat) (i : Nat) : ∀ b : Block, l.Nodup →
    (l.foldl mbxReset b).mbx i = if i ∈ l then mailboxReset b.pmc.ready (b.mbx i) else b.mbx i := by
  induction l with
  | nil => intro b _; rfl
  | cons j l ih =>
    intro b hl
    obtain ⟨hj, hl⟩ := List.nodup_cons.mp hl
    rw [List.foldl_cons, ih _ hl, mbxReset_eq, modMbx_pmc]
    by_cases h : i = j
    · subst h; simp [hj]
    · simp [mbx_modMbx_ne b _ h, h]

theorem mbxResets_mbx {i : Nat} (h : i < 5) : (mbxResets b).mbx i = mailboxReset b.pmc.ready (b.mbx i) :=
  (foldl_mbxReset_mbx _ i b List.nodup_range).trans (if_pos (List.mem_range.mpr h))

/-- The VFs do not answer: their resets do nothing. -/
theorem functionsOff (h : b.hostOn = false ∨ b.pcie.vfEnable = false) : ¬ (b.hostOn = true ∧ b.pcie.vfEnable = true) := by
  rintro ⟨ho, hv⟩
  exact h.elim (Bool.eq_false_iff.mp · ho) (Bool.eq_false_iff.mp · hv)

/-! ### Chambers (R333) -/

theorem chamberResetComplete_ends (h : (b.chamber c).resetting = true) (hg : gaBusyFor b c = false) : chamberResetComplete b c =
    b.modCh c fun h => { h with resetting := false, st := if b.life = 4 then .quiesced else .active, qreason := 0 } := by
  simp [chamberResetComplete, h, hg]

theorem chamberResetComplete_waits (h : (b.chamber c).resetting = false ∨ gaBusyFor b c = true) : chamberResetComplete b c = b := by
  rcases h with h | h <;> simp [chamberResetComplete, h]

/-! ### The statement -/

/-- Settles O54: each reset takes the course that power, the commit in progress and Belay's responses name, and leaves what its rule says. -/
theorem resetCommands : Obligations.ResetCommands := by
  unfold Obligations.ResetCommands
  intro s c cause n hn b keeps keepsWarm cleared begins
  have pin {i : Instr} {t : Block} {f : Block → Block} {n : Nat} (hi : exec i s = run s (resetPin · n f)) (h : resetPin b n f = t) :
      Completes i s t := completes_run hi h
  have passes {i : Instr} {t : Block} {f : Block → Block} (hi : exec i s = run s (resetPin · n f)) (h : f b = t) :
      Completes i s t := pin hi ((resetPin_passes hn f).trans h)
  refine ⟨⟨deviceReset_keeps b false, deviceReset_keepsWarm b, deviceReset_clears b false, rfl⟩, ⟨fun hr he => ?_, fun hp h => ?_⟩,
    fun hp => ?_, ⟨fun hr hd hp he => ?_, fun hr hd hp => ?_, fun hr hd hp he => ?_⟩, fun k h1 h4 => ⟨?_, ?_, ?_⟩, ⟨?_, ?_, ?_⟩, fun hr hd => ?_,
    fun hw hc => ?_, fun h => ?_, fun hp => ?_, fun hp => ?_, ⟨fun hr hc => ?_, fun hr hc => ?_, fun hr => ?_⟩,
    fun hp hs => ?_, fun hr hp hs => ?_, fun hp => ?_, fun ho hc => ?_, fun ho hc => ?_, portReset_pcie b, fun i hi h => ?_, fun i hi h => ?_, fun ho => ?_, fun ho hv => ?_,
    fun ho hv => ?_, fun h => ⟨?_, ?_⟩, fun hr h hg => ?_, fun hr h => ?_⟩
  -- device resets
  · exact passes rfl ((sysRstAssert_begins hr he).trans (warmBegin_eq _ _))
  · exact passes rfl (sysRstAssert_waits hp h)
  · exact passes rfl (sysRstAssert_off hp)
  · exact completes_run rfl ((deviceResetTimer_begins hr hd hp he).trans (warmBegin_eq _ _))
  · exact completes_run rfl (deviceResetTimer_held hr hd hp)
  · exact completes_run rfl (deviceResetTimer_waits hr hd hp he)
  · exact pin rfl (resetPin_pulse h1 h4 sysRstAssert)
  · exact pin rfl (resetPin_pulse h1 h4 perstAssert)
  · exact pin rfl (resetPin_pulse h1 h4 perstRelease)
  · exact pin rfl (resetPin_none sysRstAssert)
  · exact pin rfl (resetPin_none perstAssert)
  · exact pin rfl (resetPin_none perstRelease)
  · exact completes_run rfl (deviceResetTimer_unscheduled hd)
  · exact ⟨_, completes_run rfl (warmRelease_releases hw hc), deviceReset_keeps b false, deviceReset_keepsWarm b, deviceReset_clears b false,
      rfl, rfl, rfl⟩
  · exact completes_run rfl (warmRelease_waits h)
  · exact ⟨_, completes_run rfl (coldReset_starts hp), coldStarted_keeps _ _, coldStarted_clears _ _, rfl, rfl, rfl, rfl, rfl, rfl⟩
  · exact completes_run rfl (coldReset_powered hp)
  -- the host's link
  · exact passes rfl ((perstAssert_running hr).trans (congrArg settle (portResetDue_now hc)))
  · exact passes rfl ((perstAssert_running hr).trans (congrArg settle (portResetDue_later hc)))
  · exact passes rfl (perstAssert_stopped hr)
  · exact passes rfl (perstRelease_awake hp hs)
  · exact passes rfl (perstRelease_dormant hr hp hs)
  · exact passes rfl (perstRelease_released hp)
  · exact completes_run rfl ((if_pos ho).trans (congrArg settle (portResetDue_now hc)))
  · exact completes_run rfl ((if_pos ho).trans (congrArg settle (portResetDue_later hc)))
  · exact (mbxResets_mbx hi).trans (if_pos h)
  · rw [mbxResets_mbx hi, mailboxReset, if_neg h]
    exact ⟨rfl, rfl, rfl⟩
  -- the functions and the chambers
  · exact completes_run rfl (if_pos ho)
  · exact completes_run rfl (if_pos ⟨ho, hv⟩)
  · exact completes_run rfl (if_pos ⟨ho, hv⟩)
  · exact completes_run rfl (if_neg (functionsOff h))
  · exact completes_run rfl (if_neg (functionsOff h))
  · exact completes_liveSettle (f := (chamberResetComplete · c)) rfl hr (chamberResetComplete_ends h hg)
  · exact completes_liveSettle (f := (chamberResetComplete · c)) rfl hr (chamberResetComplete_waits h)

end Sys2Proof.Machine
end

section
/-! PROOFS. What SUMP_INIT leaves: each chamber goes with its work, and nothing of the others is touched on the way (R230, R318, R326, R333). -/
namespace Sys2Proof.Machine

variable {b t u : Block} {c : Nat}

/-! ### What touches one chamber alone -/

/-- `t` has the other chambers and their chains as `b`, and the records not read yet and the work items. -/
structure OnlyChamber (c : Nat) (b t : Block) : Prop where
  chambers : ∀ j, j ≠ c → t.chamber j = b.chamber j
  chains : ∀ j, j ≠ c → t.chain (.chamber j) = b.chain (.chamber j)
  records : t.records = b.records
  items : t.chuck.items = b.chuck.items

namespace OnlyChamber

theorem of_eq (hc : t.ch = b.ch) (hx : t.chains = b.chains) (hr : t.records = b.records) (hi : t.chuck.items = b.chuck.items) :
    OnlyChamber c b t :=
  ⟨fun j _ => by rw [Block.chamber, Block.chamber, hc], fun j _ => by rw [Block.chain, Block.chain, hx], hr, hi⟩

theorem refl (c : Nat) (b : Block) : OnlyChamber c b b := of_eq rfl rfl rfl rfl

theorem trans (h : OnlyChamber c b t) (h' : OnlyChamber c t u) : OnlyChamber c b u :=
  ⟨fun j hj => (h'.chambers j hj).trans (h.chambers j hj), fun j hj => (h'.chains j hj).trans (h.chains j hj), h'.records.trans h.records,
    h'.items.trans h.items⟩

theorem foldl {α : Type} (f : Block → α → Block) : ∀ (l : List α) (b : Block), (∀ x ∈ l, ∀ b, OnlyChamber c b (f b x)) →
    OnlyChamber c b (l.foldl f b)
  | [], b, _ => refl c b
  | x :: l, b, h => (h x (by simp) b).trans (foldl f l _ fun y hy => h y (by simp [hy]))

theorem ite {p : Prop} [Decidable p] (h : OnlyChamber c b t) : OnlyChamber c b (if p then b else t) := by
  split
  · exact refl c b
  · exact h

end OnlyChamber

theorem onlyChamber_modCh (b : Block) (c : Nat) (f : Chamber → Chamber) : OnlyChamber c b (b.modCh c f) :=
  ⟨fun _ hj => chamber_modCh_ne b f hj, fun _ _ => rfl, rfl, rfl⟩

theorem onlyChamber_modChain (b : Block) (c : Nat) (f : Chain → Chain) : OnlyChamber c b (b.modChain (.chamber c) f) :=
  ⟨fun _ _ => rfl, fun _ hj => Tab.get_modify_ne _ _ _ hj, rfl, rfl⟩

theorem onlyChamber_askMarked (b : Block) (c n : Nat) (pq : Bool) (f : Header → Header) : OnlyChamber c b (askMarked b (.chamber c) n pq f) := by
  unfold askMarked
  cases h : askSignature b (.chamber c) n pq with
  | none => exact .refl c b
  | some u =>
    have asked : OnlyChamber c b u := by
      unfold askSignature at h
      split at h
      · cases h; exact .of_eq rfl rfl rfl rfl
      · cases h
    exact asked.trans (onlyChamber_modChain u c _)

theorem onlyChamber_askHeader (b : Block) (c : Nat) (h : Header) : OnlyChamber c b (askHeader b (.chamber c) h) :=
  (OnlyChamber.ite (onlyChamber_askMarked b c h.pos false fun h => { h with askedEd := true })).trans
    (OnlyChamber.ite (onlyChamber_askMarked _ c h.pos true fun h => { h with askedPq := true }))

theorem onlyChamber_flowHash (b : Block) (c n : Nat) : OnlyChamber c b (b.flowHash n) :=
  OnlyChamber.ite (.of_eq rfl rfl rfl rfl)

theorem onlyChamber_makeHeader (b : Block) (c : Nat) (h : HeaderBody) (n : Nat) : OnlyChamber c b (makeHeader b (.chamber c) h n) :=
  ((onlyChamber_modChain b c _).trans (onlyChamber_flowHash _ c 2)).trans (.foldl _ _ _ fun x _ b => onlyChamber_askHeader b c x)

theorem onlyChamber_endBatch (b : Block) (c close : Nat) : OnlyChamber c b (endBatch b (.chamber c) close) := by
  unfold endBatch
  cases (b.chain (.chamber c)).batch with
  | none => exact .refl c b
  | some t => exact ((onlyChamber_makeHeader b c _ _).trans (onlyChamber_flowHash _ c _)).trans (onlyChamber_modChain _ c _)

theorem onlyChamber_closeBatch (b : Block) (c close : Nat) : OnlyChamber c b (closeBatch b (.chamber c) close) := by
  unfold closeBatch
  split
  · exact onlyChamber_endBatch b c close
  · exact onlyChamber_modChain b c _

theorem onlyChamber_abortSignatures (b : Block) (c : Nat) : OnlyChamber c b (abortSignatures b (.chamber c)) := by
  unfold abortSignatures
  extract_lets g gone cores b1 again
  have aborted : OnlyChamber c b b1 := .of_eq rfl rfl rfl rfl
  refine aborted.trans (.foldl again gone b1 fun q hq b => ?_)
  have signs : signsFor (.chamber c) q = true := (List.mem_filter.mp hq).2
  unfold signsFor at signs
  simp only [again]
  split <;> rename_i ho
  · rw [ho] at signs
    obtain rfl := beq_iff_eq.mp signs
    have counted : OnlyChamber c b (b.tally 140) := .of_eq rfl rfl rfl rfl
    exact counted.trans (onlyChamber_modChain _ c _)
  · exact .refl c b

theorem onlyChamber_freeChamberCounters (b : Block) (c : Nat) : OnlyChamber c b (freeChamberCounters b c) := by
  unfold freeChamberCounters
  extract_lets free counters freed
  have counted : OnlyChamber c b freed := .of_eq rfl rfl rfl rfl
  exact counted.trans (onlyChamber_modCh freed c _)

/-- A chamber's reset with no work item anywhere touches nothing of another. -/
theorem onlyChamber_beginReset (hi : b.chuck.items = []) (c : Nat) : OnlyChamber c b (beginReset b c) := by
  unfold beginReset
  extract_lets h resetting discarded closed emptied ringless unbuffered
  refine .ite ?_
  have noItem : discarded = resetting := by
    simp [discarded, resetting, Block.itemsOf, hi]
  have marked : OnlyChamber c b discarded := noItem ▸ onlyChamber_modCh b c _
  have signed : OnlyChamber c discarded closed := (onlyChamber_abortSignatures discarded c).trans (onlyChamber_closeBatch _ c 3)
  have queues : OnlyChamber c closed ringless := (onlyChamber_modCh closed c _).trans (onlyChamber_modChain emptied c _)
  have port : OnlyChamber c ringless unbuffered := .of_eq rfl rfl rfl rfl
  exact (((marked.trans signed).trans queues).trans port).trans (onlyChamber_freeChamberCounters unbuffered c)

theorem onlyChamber_erase (b : Block) (c : Nat) :
    OnlyChamber c b { b with ch := Tab.erase b.ch c, chains := Tab.erase b.chains c } :=
  ⟨fun _ hj => by simp [Block.chamber, Tab.get, Tab.get?_erase_ne _ hj],
    fun _ hj => by simp [Block.chain, chainIx, Tab.get, Tab.get?_erase_ne _ hj],
    rfl, rfl⟩

theorem onlyChamber_dropChamber (b : Block) (c : Nat) : OnlyChamber c b (dropChamber b c) := by
  have erased := (onlyChamber_freeChamberCounters b c).trans (onlyChamber_erase _ c)
  exact erased.trans (.of_eq rfl rfl rfl rfl)

/-- A chamber dropped is not there, and neither is its chain. -/
def Gone (c : Nat) (b : Block) : Prop := (b.chamber c).st = .none ∧ (b.chain (.chamber c)).present = false

/-- A chamber reset and dropped. -/
def resetAndDrop (b : Block) (c : Nat) : Block := dropChamber (beginReset b c) c

theorem resetAndDrop_gone (b : Block) (c : Nat) : Gone c (resetAndDrop b c) :=
  have gone := dropChamber_gone (beginReset b c) c
  ⟨gone.1, gone.2.1⟩

/-! ### Every chamber dropped (R230) -/

section
variable (hi : b.chuck.items = [])
include hi

theorem onlyChamber_resetAndDrop (c : Nat) : OnlyChamber c b (resetAndDrop b c) :=
  (onlyChamber_beginReset hi c).trans (onlyChamber_dropChamber _ c)

theorem resetAndDrop_items (c : Nat) : (resetAndDrop b c).chuck.items = [] := (onlyChamber_resetAndDrop hi c).items.trans hi

end

theorem resetAndDrop_none {j : Nat} (hi : b.chuck.items = []) (h : (b.chamber j).st = .none) (c : Nat) :
    ((resetAndDrop b c).chamber j).st = .none := by
  by_cases hj : j = c
  · exact hj ▸ (resetAndDrop_gone b c).1
  · rw [(onlyChamber_resetAndDrop hi c).chambers j hj, h]

theorem resetAndDrop_keepsGone {j : Nat} (hi : b.chuck.items = []) (h : Gone j b) (c : Nat) : Gone j (resetAndDrop b c) := by
  by_cases hj : j = c
  · exact hj ▸ resetAndDrop_gone b c
  · have only := onlyChamber_resetAndDrop hi c
    rw [Gone, only.chambers j hj, only.chains j hj]; exact h

section
variable {j : Nat}

theorem foldl_resetAndDrop_none : ∀ (l : List Nat) {b : Block}, b.chuck.items = [] → (b.chamber j).st = .none →
    ((l.foldl resetAndDrop b).chamber j).st = .none
  | [], _, _, h => h
  | c :: l, _, hi, h => foldl_resetAndDrop_none l (resetAndDrop_items hi c) (resetAndDrop_none hi h c)

theorem foldl_resetAndDrop_keepsGone : ∀ (l : List Nat) {b : Block}, b.chuck.items = [] → Gone j b → Gone j (l.foldl resetAndDrop b)
  | [], _, _, h => h
  | c :: l, _, hi, h => foldl_resetAndDrop_keepsGone l (resetAndDrop_items hi c) (resetAndDrop_keepsGone hi h c)

theorem foldl_resetAndDrop_gone (l : List Nat) : ∀ {b : Block}, b.chuck.items = [] → j ∈ l → Gone j (l.foldl resetAndDrop b) := by
  induction l with
  | nil => intro b _ h; simp at h
  | cons c l ih =>
    intro b hi h
    rcases List.mem_cons.mp h with rfl | h
    · exact foldl_resetAndDrop_keepsGone l (resetAndDrop_items hi j) (resetAndDrop_gone b j)
    · exact ih (resetAndDrop_items hi c) h

end

/-! ### The records not read yet -/

theorem foldl_records {α : Type} {f : Block → α → Block} (hf : ∀ b x, (f b x).records = b.records) :
    ∀ (l : List α) (b : Block), (l.foldl f b).records = b.records
  | [], _ => rfl
  | x :: l, b => (foldl_records hf l (f b x)).trans (hf b x)

section
variable (b : Block)

theorem endRefs_records (r : Resolved) : (endRefs b r).records = b.records := by
  unfold endRefs
  extract_lets open_ end_ one
  refine foldl_records (fun b g => ?_) _ b
  simp only [one]
  split
  · split <;> rfl
  · split <;> rfl

theorem endJobRefs_records (j : Job) : (endJobRefs b j).records = b.records := by
  unfold endJobRefs
  extract_lets released one
  have slots : released.records = b.records := by simp only [released]; split <;> rfl
  have ended (b : Block) (r : Option Resolved) : (one b r).records = b.records := by
    cases r with
    | none => rfl
    | some k => exact endRefs_records b k
  rw [foldl_records endRefs_records, ended, ended, slots]

theorem galleryWithdraw_records (r : Requester) : (galleryWithdraw b r).2.records = b.records := by
  unfold galleryWithdraw
  extract_lets g counted
  split
  · rfl
  · simp only [counted]
    split <;> rfl

theorem withdraw_records (r : Requester) : (withdraw b r).records = b.records := galleryWithdraw_records _ r

theorem abortTicket_records (k t : Nat) : (abortTicket b k t).records = b.records := by
  unfold abortTicket
  extract_lets x r ch forgotten ended dropped
  have refs : ended.records = b.records := (endJobRefs_records forgotten _).trans (withdraw_records b r)
  have entry : dropped.records = b.records := by
    simp only [dropped]
    split <;> exact refs
  split
  · rfl
  · exact entry

theorem stopCore_records (k : Nat) : (stopCore b k).records = b.records := by
  unfold stopCore
  extract_lets aborted
  have tickets : aborted.records = b.records :=
    foldl_records (f := fun b t => abortTicket b k t) (fun b t => abortTicket_records b k t) (List.range 16) b
  exact (modCore_records aborted k _).trans tickets

theorem stopItem_records (n : Nat) (i : Item) : (stopItem b n i).records = b.records := by
  unfold stopItem
  extract_lets forgotten withdrawn
  have stopped : withdrawn.records = b.records := withdraw_records forgotten _
  split
  · split
    · exact (stopCore_records _ _).trans stopped
    · exact stopped
  · rfl

theorem dropItemLeaf_records (n : Nat) (i : Item) : (dropItemLeaf b n i).records = b.records := by
  unfold dropItemLeaf
  cases i.leaf <;> simp only [modItem_records] <;> rfl

theorem discardItem_records (n : Nat) : (discardItem b n).records = b.records := by
  unfold discardItem
  split
  · rfl
  · exact (dropItemLeaf_records _ _ _).trans ((endJobRefs_records _ _).trans (stopItem_records b _ _))

theorem beginReset_records (c : Nat) : (beginReset b c).records = b.records := by
  unfold beginReset
  extract_lets h resetting discarded closed emptied ringless unbuffered
  have items : discarded.records = b.records :=
    foldl_records (f := fun b (p : Nat × Item) => discardItem b p.1) (fun b p => discardItem_records b p.1) _ resetting
  have signed : closed.records = discarded.records :=
    ((onlyChamber_abortSignatures discarded c).trans (onlyChamber_closeBatch _ c 3)).records
  have registers : unbuffered.records = closed.records := by
    simp only [unbuffered, ringless, emptied, modRing, modLanPort_records, modChain_records, modCh_records]
  split
  · rfl
  · exact (onlyChamber_freeChamberCounters unbuffered c).records.trans (registers.trans (signed.trans items))

theorem resetAndDrop_records (c : Nat) : (resetAndDrop b c).records = b.records :=
  (onlyChamber_dropChamber _ c).records.trans (beginReset_records b c)

end

/-! ### What SUMP_INIT leaves (R230) -/

/-- The chambers that SUMP_INIT drops. -/
def chambersListed (b : Block) : List Nat := (b.ch.filter fun p => decide (p.1 < 64)).map (·.1)

/-- Every chamber dropped, with its work. -/
def chambersDropped (b : Block) : Block := (chambersListed b).foldl resetAndDrop b

/-- Sump initialised, and the caches and the recipes gone. -/
def sumpCleared (b : Block) : Block :=
  let cleared := wipeCache (sumpInit (b.modSump fun s => { s with queue := s.queue.filter fun r => !r.waiter.ofChamber }))
  { cleared with chisel := { Chisel.reset with cores := cleared.chisel.cores } }

theorem sumpCleared_frame (b : Block) :
    ∃ e f g k x, sumpCleared b = { (((b.modSump e).modSump f).modStrata g).modKeys k with chisel := x } := by
  unfold sumpCleared wipeCache sumpInit
  exact ⟨_, _, _, _, _, rfl⟩

theorem sumpCleared_records (b : Block) : (sumpCleared b).records = b.records := by
  obtain ⟨e, f, g, k, x, h⟩ := sumpCleared_frame b
  rw [h]; rfl

theorem sumpCleared_ch (b : Block) : (sumpCleared b).ch = b.ch := by
  obtain ⟨e, f, g, k, x, h⟩ := sumpCleared_frame b
  rw [h]; rfl

theorem sumpCleared_chains (b : Block) : (sumpCleared b).chains = b.chains := by
  obtain ⟨e, f, g, k, x, h⟩ := sumpCleared_frame b
  rw [h]; rfl

theorem sumpCleared_chamber (b : Block) (j : Nat) : (sumpCleared b).chamber j = b.chamber j := by
  rw [Block.chamber, Block.chamber, sumpCleared_ch]

theorem sumpCleared_chain (b : Block) (i : ChainId) : (sumpCleared b).chain i = b.chain i := by
  rw [Block.chain, Block.chain, sumpCleared_chains]

theorem initSump_restores (b : Block) : initSump b = restoreSystem (sumpCleared (chambersDropped b)) := by
  unfold initSump sumpCleared chambersDropped chambersListed resetAndDrop
  rfl

theorem initSump_eq (h : b.records = none) : initSump b = sumpCleared (chambersDropped b) := by
  have kept : (sumpCleared (chambersDropped b)).records = none := by
    rw [sumpCleared_records, chambersDropped, foldl_records resetAndDrop_records, h]
  rw [initSump_restores, restoreSystem, kept]

theorem mem_chambersListed {j : Nat} (hj : j < 64) (h : Tab.get? b.ch j ≠ none) : j ∈ chambersListed b := by
  obtain ⟨p, hp, hk⟩ : ∃ p ∈ b.ch, p.1 = j := by
    by_contra hn
    push Not at hn
    exact h (by simpa [Tab.get?] using hn)
  exact List.mem_map.mpr ⟨p, List.mem_filter.mpr ⟨hp, by simp [hk, hj]⟩, hk⟩

/-- Without work items, no chamber is left, and no chain of one that was there. -/
theorem chambersDropped_gone {j : Nat} (hi : b.chuck.items = []) (hj : j < 64) :
    ((chambersDropped b).chamber j).st = .none ∧
      (Tab.get? b.ch j ≠ none → ((chambersDropped b).chain (.chamber j)).present = false) := by
  by_cases h : Tab.get? b.ch j = none
  · have absent : (b.chamber j).st = .none := by rw [Block.chamber, Tab.get, h]; rfl
    exact ⟨foldl_resetAndDrop_none _ hi absent, fun hn => absurd h hn⟩
  · have gone : Gone j (chambersDropped b) := foldl_resetAndDrop_gone _ hi (mem_chambersListed hj h)
    exact ⟨gone.1, fun _ => gone.2⟩

/-- What Sump, Strata's head and the recipes are after SUMP_INIT. -/
theorem sumpCleared_fresh (b : Block) : let t := sumpCleared b
    t.sump.st = .ready ∧ t.sump.rootv = 0 ∧ t.sump.jmac = zeros 8 ∧ t.sump.ddr.hint = [] ∧ t.sump.bad = [] ∧ t.sump.erasing = [] ∧
    t.strata.sumpHead = some (0, zeros 8) ∧ t.chisel.table = [] ∧ t.chisel.store = Chisel.reset.store ∧ t.chisel.decode = [] ∧
    t.chisel.micro = [] := by
  unfold sumpCleared wipeCache sumpInit
  exact ⟨rfl, rfl, rfl, rfl, rfl, rfl, rfl, rfl, rfl, rfl, rfl⟩

end Sys2Proof.Machine
end

section
/-! PROOFS. The configuration, Sump, counter and record commands of the mailboxes, and with them the statement on them (R227 to R231, R362 to R364,
R461, R523, R530). -/
namespace Sys2Proof.Machine

variable {b b1 : Block} {s : State} {m : Mbx} {p : Bytes}

/-! ### Configuration (R362, R363) -/

theorem cmdConfigRead_answers (hp : p = []) : cmdConfigRead m b p = ok b
    ([BitVec.ofNat 8 b.strata.generations.length, if b.bimor.pending.isSome then 1 else 0, 0, 0] ++ b.bimor.settings ++
      b.bimor.pending.getD (zeros 76)) := by
  cases h : b.bimor.pending <;> simp [cmdConfigRead, hp, h, b2n]

/-- A settings block that may be committed: a permitted one that is neither in force nor pending. -/
def FreshSettings (b : Block) (p : Bytes) : Prop := p ≠ b.bimor.settings ∧ b.bimor.pending ≠ some p ∧ settingsOk p = true

/-- The generation that a settings block makes in Strata (R391). -/
def generationOf (b : Block) (p : Bytes) : Bytes :=
  p ++ leBytes 4 b.strata.pcc ++ leBytes 4 (crc32c (p ++ leBytes 4 b.strata.pcc)) ++ zeros 12

theorem cmdConfigCommit_stale (h : ¬ FreshSettings b p) : cmdConfigCommit m b p = no b 0x0020 := by
  refine if_pos ?_
  by_contra hn
  simp only [not_or, Bool.not_eq_true', Bool.not_eq_false] at hn
  obtain ⟨hok, hs, hp⟩ := hn
  exact h ⟨hs, hp, hok⟩

section
variable (h : FreshSettings b p)
include h

theorem cmdConfigCommit_fresh : cmdConfigCommit m b p =
    if pb p 0 ≠ b.nlog2 ∧ anyChamber b = true then no b 0x0104
    else if 16 ≤ b.strata.generations.length then no b 0x0102
    else ok (((setBorrow b p).modStrata fun x => { x with generations := x.generations ++ [generationOf b p] }).modBimor
      fun x => { x with pending := some p }) [BitVec.ofNat 8 (15 - b.strata.generations.length), 0, 0, 0] := by
  obtain ⟨hs, hp, hok⟩ := h
  refine if_neg ?_
  simp [hs, hp, hok]

/-- The number of chambers does not change while one exists. -/
theorem cmdConfigCommit_busy (hn : pb p 0 ≠ b.nlog2) (hc : anyChamber b = true) : cmdConfigCommit m b p = no b 0x0104 := by
  rw [cmdConfigCommit_fresh h, if_pos ⟨hn, hc⟩]

variable (hn : pb p 0 = b.nlog2 ∨ anyChamber b = false)
include hn

omit h in
theorem numberStands : ¬ (pb p 0 ≠ b.nlog2 ∧ anyChamber b = true) := by
  rintro ⟨h, h'⟩
  exact hn.elim h fun hn => by simp [hn] at h'

theorem cmdConfigCommit_full (hg : 16 ≤ b.strata.generations.length) : cmdConfigCommit m b p = no b 0x0102 := by
  rw [cmdConfigCommit_fresh h, if_neg (numberStands hn), if_pos hg]

theorem cmdConfigCommit_commits (hg : b.strata.generations.length < 16) : cmdConfigCommit m b p =
    ok (((setBorrow b p).modStrata fun x => { x with generations := x.generations ++ [generationOf b p] }).modBimor
      fun x => { x with pending := some p }) [BitVec.ofNat 8 (15 - b.strata.generations.length), 0, 0, 0] := by
  rw [cmdConfigCommit_fresh h, if_neg (numberStands hn), if_neg (Nat.not_le.mpr hg)]

end

/-! ### The journal (R227) -/

/-- The operands of SUMP_JOURNAL are in range. -/
def JournalForm (p : Bytes) : Prop :=
  shaped p 12 [(2, 2)] = true ∧ pb p 0 ≤ 2 ∧ 10 ≤ pb p 1 ∧ pb p 1 ≤ 20 ∧ leField p 4 8 % 4096 = 0 ∧ (pb p 0 = 0 → leField p 4 8 = 0)

/-- The mode that MODE names. -/
def journalMode (p : Bytes) : JMode := if pb p 0 = 0 then .off else if pb p 0 = 1 then .async else .sync

/-- Sump with the journal's set-up of a payload. -/
def Sump.withJournal (p : Bytes) (x : Sump) : Sump := { x with jmode := journalMode p, jbase := leField p 4 8, jlog2 := pb p 1 }

section
variable (h : JournalForm p)
include h

theorem cmdSumpJournal_form : cmdSumpJournal m b p =
    if (leField p 4 8 != b.sump.jbase || pb p 1 != b.sump.jlog2) = true ∧ b.sump.jhead ≠ b.sump.jtail then no b 0x0106
    else ok (if (leField p 4 8 != b.sump.jbase || pb p 1 != b.sump.jlog2) = true then
        (b.modSump (Sump.withJournal p)).modSump fun x => { x with jhead := 0, jtail := 0 } else b.modSump (Sump.withJournal p)) [] := by
  obtain ⟨hs, h0, h1, h2, hb, hz⟩ := h
  refine if_neg ?_
  simp only [hs, hb]
  simp only [Bool.not_true, Bool.false_eq_true, ne_eq, not_true_eq_false, false_or, not_or, Nat.not_lt, not_and, not_not]
  exact ⟨h0, h1, h2, hz⟩

/-- The ring that stands is set up again. -/
theorem cmdSumpJournal_same (hs : leField p 4 8 = b.sump.jbase ∧ pb p 1 = b.sump.jlog2) :
    cmdSumpJournal m b p = ok (b.modSump (Sump.withJournal p)) [] := by
  simp [cmdSumpJournal_form h, hs]

variable (hs : ¬ (leField p 4 8 = b.sump.jbase ∧ pb p 1 = b.sump.jlog2))
include hs

omit h in
theorem ringReplaced : (leField p 4 8 != b.sump.jbase || pb p 1 != b.sump.jlog2) = true := by
  simpa only [Bool.or_eq_true, bne_iff_ne] using not_and_or.mp hs

theorem cmdSumpJournal_unread (he : b.sump.jhead ≠ b.sump.jtail) : cmdSumpJournal m b p = no b 0x0106 := by
  rw [cmdSumpJournal_form h, if_pos ⟨ringReplaced hs, he⟩]

theorem cmdSumpJournal_replaces (he : b.sump.jhead = b.sump.jtail) : cmdSumpJournal m b p =
    ok (b.modSump fun x => Sump.withJournal p { x with jhead := 0, jtail := 0 }) [] := by
  rw [cmdSumpJournal_form h, if_neg fun hn => hn.2 he, if_pos (ringReplaced hs)]
  rfl

end

/-! ### Save, restore and initialisation (R229, R230) -/

section
variable (hl : p.length = 16)
include hl

theorem cmdSumpSave_small (h : leField p 8 8 < imageBytes b) : cmdSumpSave m b p = .reply b 0x0020 0 (leBytes 8 (imageBytes b)) := by
  simp [cmdSumpSave, hl, h]

variable (h : imageBytes b ≤ leField p 8 8)
include h

theorem cmdSumpSave_notReady (hs : b.sump.st ≠ .ready) : cmdSumpSave m b p = no b 0x0061 := by
  simp [cmdSumpSave, hl, Nat.not_lt.mpr h, hs]

variable (hs : b.sump.st = .ready)
include hs

theorem cmdSumpSave_running (hv : b.sump.save.isSome = true) : cmdSumpSave m b p = no b 0x0106 := by
  simp [cmdSumpSave, hl, Nat.not_lt.mpr h, hs, hv]

/-- A save that has been asked for, before its snapshot. -/
def saveAsked (p : Bytes) : Save := { base := leField p 0 8, started := false, snapshot := Ddr.blank, rootv := 0, jmac := [] }

theorem cmdSumpSave_waits (hv : b.sump.save = none) : cmdSumpSave m b p =
    .wait (awaits (snapshotIfDue (b.modSump fun x => { x with save := some (saveAsked p) })) m .snapshot) [] := by
  simp [cmdSumpSave, hl, Nat.not_lt.mpr h, hs, hv, saveAsked]

end

/-- The snapshot of a save is taken at once where no commit is in progress. -/
theorem snapshotIfDue_taken (v : Save) (hv : v.started = false) (hc : b.sump.commit = none) :
    snapshotIfDue (b.modSump fun x => { x with save := some v }) = b.modSump fun x =>
      { x with save := some { v with started := true, snapshot := b.sump.ddr, rootv := b.sump.rootv, jmac := b.sump.jmac } } := by
  simp [snapshotIfDue, hv, hc, Block.modSump]

theorem snapshotIfDue_later (v : Save) (hc : b.sump.commit.isSome = true) :
    snapshotIfDue (b.modSump fun x => { x with save := some v }) = b.modSump fun x => { x with save := some v } := by
  have hc : b.sump.commit ≠ none := Option.isSome_iff_ne_none.mp hc
  simp [snapshotIfDue, hc]

section
variable {header : Bytes} {lines : List (DdrLine × Bytes)} {hint : List Nat} {journal : List Bytes} (hs : shaped p 32 [(28, 4)] = true)
include hs

theorem cmdSumpRestore_used (he : b.sump.st ≠ .empty) : cmdSumpRestore header lines hint journal m b p = no b 0x0106 := by
  simp [cmdSumpRestore, hs, he]

variable (he : b.sump.st = .empty)
include he

theorem cmdSumpRestore_untrained (ht : b.sump.ddr.trained = false) : cmdSumpRestore header lines hint journal m b p = no b 0x0061 := by
  simp [cmdSumpRestore, hs, he, ht]

variable (ht : b.sump.ddr.trained = true)
include ht

theorem cmdSumpRestore_fails (h : sumpRestore b header lines hint (journal.take (leField p 24 4)) = none) :
    cmdSumpRestore header lines hint journal m b p = no b 0x0060 := by
  simp [cmdSumpRestore, hs, he, ht, h]

theorem cmdSumpRestore_restores (h : sumpRestore b header lines hint (journal.take (leField p 24 4)) = some b1) :
    cmdSumpRestore header lines hint journal m b p = ok (restoreFromSump b1) [] := by
  simp [cmdSumpRestore, hs, he, ht, h]

end

theorem cmdSumpInit_untrained (ht : b.sump.ddr.trained = false) : cmdSumpInit m b [] = no b 0x0061 := by
  simp [cmdSumpInit, ht]

theorem cmdSumpInit_inits (ht : b.sump.ddr.trained = true) (hc : b.sump.commit = none) : cmdSumpInit m b [] = ok (initSump b) [] := by
  simp [cmdSumpInit, ht, hc]

theorem cmdSumpInit_waits (ht : b.sump.ddr.trained = true) (hc : b.sump.commit.isSome = true) :
    cmdSumpInit m b [] = .wait (awaits b m .noCommit) [] := by
  simp [cmdSumpInit, ht, hc]

/-! ### Counters and records (R364, R461, R523, R530) -/

theorem cmdTallyRead_form (hs : shaped p 4 [(2, 2)] = true) : cmdTallyRead m b p =
    if 256 < pb p 0 + (if pb p 1 = 0 then 256 else pb p 1) then no b 0x0020
    else ok b ((List.range (if pb p 1 = 0 then 256 else pb p 1)).flatMap fun i => leBytes 6 (b.tallyOf (pb p 0 + i)) ++ [0, 0]) := by
  simp only [cmdTallyRead, hs, Bool.not_true, Bool.false_eq_true, false_or]

/-- A configuration of a counter answers one of the three codes it is given. -/
theorem ctrConfig_status (b : Block) (u n word f st k : Nat) :
    (ctrConfig b u n word f st k).1 = f ∨ (ctrConfig b u n word f st k).1 = st ∨ (ctrConfig b u n word f st k).1 = k := by
  unfold ctrConfig
  extract_lets event level chain en
  split
  · exact .inl rfl
  · split
    · exact .inr (.inl rfl)
    · split
      · split
        · exact .inr (.inr rfl)
        · exact .inl rfl
      · exact .inr (.inr rfl)

theorem cmdCounterConfig_answers (hl : p.length = 4) : cmdCounterConfig m b p =
    .reply (ctrConfig b (pb p 0) (pb p 1) (leField p 2 2) 0x0020 0x0106 0).2 (ctrConfig b (pb p 0) (pb p 1) (leField p 2 2) 0x0020 0x0106 0).1
      0 [] := by
  simp [cmdCounterConfig, hl]

theorem cmdStrataRead_answers (hs : shaped p 10 [(1, 3)] = true) (h0 : pb p 0 ≤ 1) (h1 : 1 ≤ leField p 8 2) (h2 : leField p 8 2 ≤ 127) :
    cmdStrataRead m b p =
      ok b (leBytes 4 (strataRead b b.recorderC (pb p 0) (leField p 4 4) (leField p 8 2)).1 ++
        leBytes 4 (strataRead b b.recorderC (pb p 0) (leField p 4 4) (leField p 8 2)).2.length ++ zeros 8 ++
        (strataRead b b.recorderC (pb p 0) (leField p 4 4) (leField p 8 2)).2.flatten) := by
  refine if_neg ?_
  simp only [hs, Bool.not_true, Bool.false_eq_true, false_or, not_or, Nat.not_lt]
  exact ⟨h0, by omega, h2⟩

/-! ### The statement -/

/-- Settles O48: each command answers, waits or puts in force what its operands and the state decide, and SUMP_INIT leaves nothing behind. -/
theorem configCommands : Obligations.ConfigCommands := by
  unfold Obligations.ConfigCommands
  refine ⟨fun s m p header lines hint journal b b1 hold => ?_, fun b hr => ?_⟩
  · intro y u used bytes mode base same journalOk put count config records saves taken fresh generation
    have restores (hw : wfImage header lines journal = true) : exec (.sumpRestore m header lines hint journal) s =
      run s (liveSettle fun b => startCommand b m 0x0512 (cmdSumpRestore header lines hint journal m)) := if_pos hw
    refine ⟨fun h hp => ?_, fun h hf => ?_, fun h hf hn hc => ?_, fun h hf hn => ⟨fun hg => ?_, fun hg => ?_⟩,
      fun h hf => ⟨fun hs => ?_, fun hs he => ?_, fun hs he => ?_⟩,
      fun h hl => ⟨fun hb => ?_, fun hb hs => ?_, fun hb hs hv => ?_, fun hb hs hv hc => ?_, fun hb hs hv hc => ?_⟩, fun h => ?_,
      fun hw h hs => ⟨fun he => ?_, fun he ht => ?_, fun he ht hn => ?_, fun he ht hn => ?_⟩,
      fun h hp => ⟨fun ht => ?_, fun ht hc => ?_, fun ht hc => ?_⟩, fun h hs => ⟨fun hc => ?_, fun hc => ?_⟩, fun h hl => ?_,
      fun h hs h0 h1 h2 => ?_⟩
    · exact completes_answers h rfl (cmdConfigRead_answers hp) (by decide)
    · exact completes_answers h rfl (cmdConfigCommit_stale hf) (by decide)
    · exact completes_answers h rfl (cmdConfigCommit_busy hf hn hc) (by decide)
    · exact completes_answers h rfl (cmdConfigCommit_full hf hn hg) (by decide)
    · exact completes_answers h rfl (cmdConfigCommit_commits hf hn hg) (by decide)
    -- the journal
    · exact completes_answers h rfl (cmdSumpJournal_same hf hs) (by decide)
    · exact completes_answers h rfl (cmdSumpJournal_unread hf hs he) (by decide)
    · exact completes_answers h rfl (cmdSumpJournal_replaces hf hs he) (by decide)
    -- save, restore and initialisation
    · exact completes_answers h rfl (cmdSumpSave_small hl hb) (by decide)
    · exact completes_answers h rfl (cmdSumpSave_notReady hl hb hs) (by decide)
    · exact completes_answers h rfl (cmdSumpSave_running hl hb hs hv) (by decide)
    · exact completes_waits h rfl ((cmdSumpSave_waits hl hb hs hv).trans (by rw [snapshotIfDue_taken _ rfl hc]; rfl))
    · exact completes_waits h rfl ((cmdSumpSave_waits hl hb hs hv).trans (by rw [snapshotIfDue_later _ hc]; rfl))
    · exact settleMailbox_ends h one_ne_zero rfl
    · exact completes_answers h (restores hw) (cmdSumpRestore_used hs he) (by decide)
    · exact completes_answers h (restores hw) (cmdSumpRestore_untrained hs he ht) (by decide)
    · exact completes_answers h (restores hw) (cmdSumpRestore_fails hs he ht hn) (by decide)
    · exact completes_answers h (restores hw) (cmdSumpRestore_restores hs he ht hn) (by decide)
    · subst hp; exact completes_answers h rfl (cmdSumpInit_untrained ht) (by decide)
    · subst hp; exact completes_answers h rfl (cmdSumpInit_inits ht hc) (by decide)
    · subst hp; exact completes_waits h rfl (cmdSumpInit_waits ht hc)
    -- counters and records
    · exact completes_answers h rfl ((cmdTallyRead_form hs).trans (if_neg (Nat.not_lt.mpr hc))) (by decide)
    · exact completes_answers h rfl ((cmdTallyRead_form hs).trans (if_pos hc)) (by decide)
    · refine completes_answers h rfl (cmdCounterConfig_answers hl) ?_
      rcases ctrConfig_status b (pb p 0) (pb p 1) (leField p 2 2) 0x0020 0x0106 0 with e | e | e <;> rw [e] <;> decide
    · exact completes_answers h rfl (cmdStrataRead_answers hs h0 h1 h2) (by decide)
  · intro t
    have init : t = sumpCleared (chambersDropped b) := initSump_eq hr
    rw [init]
    obtain ⟨st, rootv, jmac, hint, bad, erasing, head, recipes⟩ := sumpCleared_fresh (chambersDropped b)
    refine ⟨st, rootv, jmac, hint, bad, erasing, head, fun hi c hc => ?_, recipes⟩
    rw [sumpCleared_chamber, sumpCleared_chain]
    exact chambersDropped_gone hi hc

end Sys2Proof.Machine
end

section
/-! PROOFS. What a cold reset leaves (R254, R337, R390, R499, R519, R530). -/
namespace Sys2Proof.Machine

/-- No command waits at reset, so each that waits is well-formed. -/
theorem reset_queueOk : QueueOk State.reset := List.forall_mem_nil _

/-- A mailbox that nothing has been put into since the reset is as R337 leaves each of them. -/
theorem reset_mbx (i : Nat) : State.reset.blk.mbx i = Mailbox.reset := rfl

/-- The token buckets of the wake sources: capacity, refill and tokens (R519). -/
theorem reset_wakeBuckets :
    ((List.range 4).map fun r => (Tab.get Pmc.reset.cap 0 r, Tab.get Pmc.reset.refill 0 r, Tab.get Pmc.reset.tokens 0 r)) =
      [(0xC8, 0x14, 0xC8), (0x64, 0xA, 0x64), (0x78, 0xC, 0x78), (0x3C, 6, 0x3C)] := by decide

/-- Settles O4: every value is a field of the reset of its unit. -/
theorem resetState : Obligations.ResetState := by
  unfold Obligations.ResetState
  refine ⟨rfl, reset_queueOk, rfl, rfl, reset_wakeBuckets, rfl, fun i _ => ?_, rfl, rfl, rfl, rfl, rfl, rfl, rfl, rfl, rfl, rfl, rfl, rfl, rfl⟩
  rw [reset_mbx]
  exact ⟨rfl, rfl, rfl, rfl, rfl⟩

end Sys2Proof.Machine
end

section
/-! PROOFS. TAKE by an idle core (R248, R270) is an instruction under a condition (R284), and with it the statement on the life of a core. -/
namespace Sys2Proof.Machine

variable {b t : Block} {s : State}

/-- A row of a device that runs, of a part of it whose domain is on. -/
theorem completes_awake {i : Instr} {d : Nat} {f : Block → Block} (hi : exec i s = run s (awake d f)) (hr : s.blk.running = true)
    (hd : s.blk.domainOn d = true) (ht : f s.blk = t) : Completes i s t :=
  completes_run hi (by simp [awake, hr, hd, ht])

theorem coreTake_idle_conditionFalse {k : Nat} {cond : BitVec 4} (hi : (b.core k).st = .idle)
    (hc : condHolds cond (b.core k).flags = false) : coreTake b k cond = b := by
  simp [coreTake, hi, hc]

/-! ### An idle core whose Z flag is clear -/

/-- A device that serves, all its domains on. -/
def servingIdle : State := { State.reset with blk := { Block.reset with pmc := { Pmc.reset with on := 0xFFFFFF } } }

theorem servingIdle_running : servingIdle.blk.running = true := by decide

theorem servingIdle_cluster : servingIdle.blk.domainOn (ccDomain 0) = true := by decide

/-- Its cores are as a reset leaves them: idle, and their flags clear. -/
theorem servingIdle_core (k : Nat) : servingIdle.blk.core k = Core.reset := rfl

/-- TAKE of core 0 under the condition Z leaves the device as it was. -/
theorem servingIdle_takeIfZero : Completes (.take 0 1) servingIdle servingIdle.blk :=
  completes_awake rfl servingIdle_running servingIdle_cluster
    (coreTake_idle_conditionFalse (congrArg Core.st (servingIdle_core 0)) (congrArg (condHolds 1 ·.flags) (servingIdle_core 0)))

/-! ### The statement -/

/-- Refutes O16: the clause on TAKE has an idle core join the TAKE set whatever the instruction's condition, but a condition that is false leaves it
without effect (R284): core 0, its Z clear, executes TAKE under the condition Z and stays idle. -/
theorem not_coreLife : ¬ Obligations.CoreLife := by
  unfold Obligations.CoreLife
  intro h
  obtain ⟨life, -⟩ := h
  obtain ⟨take, -⟩ := life servingIdle 0 1 servingIdle_running servingIdle_cluster
  have claimed := take (congrArg Core.st (servingIdle_core 0))
  have same := claimed.unique servingIdle_takeIfZero
  have states : CoreState.take = CoreState.idle := congrArg (fun b => (b.core 0).st) same
  cases states

end Sys2Proof.Machine
end

section
/-! PROOFS. Chuck's selection and delivery, a completion and its message, one lemma for each course they can take, and with them the statement on them
(R64, R66, R71, R72, R76, R82, R93, R244 to R249, R268, R537). -/
namespace Sys2Proof.Machine

variable {b b1 : Block} {s : State} {n core : Nat} {i : Item} {o : Outcome} {cls : Cls}

/-! ### Selection and delivery (R93, R244 to R249, R268) -/

theorem dispatchDirect_unaudited (hi : b.item? n = some i) (ha : i.audit = false) :
    dispatchDirect b n = b.modItem n fun i =>
      { i with st := .dispatched, ahead := false, needMiss := [], waited := some (waitOf b i)
               job := { i.job with phase := .keys, pipe := i.pipe, pinpol := (b.chamber i.chamber).pinpol
                                   decTabs := (b.chamber i.chamber).decTabs } } := by
  simp [dispatchDirect, hi, ha, Job.underPolicy, Job.toKeys]

section
variable (he : (refreshHolds b).kerard.egressClosed = false)
include he

theorem chuckSelect_idle (hc : chooseItem (refreshHolds b) = none) : chuckSelect b = (refreshHolds b).event 72 0x005 none := by
  simp [chuckSelect, he, hc]

theorem chuckSelect_direct (hc : chooseItem (refreshHolds b) = some (cls, n, b1)) (hi : b1.item? n = some i) (hk : cls ≠ .chs) :
    chuckSelect b = zeroAllDeficits (dispatchDirect (b1.event 72 0x003 (some i.chamber)) n) := by
  cases cls with
  | chs => exact absurd rfl hk
  | spa | spb | aug | gal => simp [chuckSelect, he, hc, hi]

theorem chuckSelect_core (hc : chooseItem (refreshHolds b) = some (.chs, n, b1)) (hi : b1.item? n = some i)
    (hk : chooseCore (b1.event 72 0x003 (some i.chamber)) = some core) :
    chuckSelect b = zeroAllDeficits (deliverItem (b1.event 72 0x003 (some i.chamber)) n core) := by
  simp [chuckSelect, he, hc, hi, hk]

end

/-- The row of RECIPE_RUN is the selection, where the item chosen is that RECIPE_RUN. -/
theorem recipeDispatch_selects (hc : chooseItem (refreshHolds b) = some (.chs, n, b1)) (hi : b.item? n = some i)
    (ho : isRecipeRun i.job.opcode = true) : recipeDispatch b n = chuckSelect b := by
  simp [recipeDispatch, hc, hi, ho]

/-! ### What a transfer of a DMA engine leaves (R411, R416) -/

theorem ferruleEscalate_ch (b : Block) (m : Nat) (who : Option Nat) : (ferruleEscalate b m who).2.ch = b.ch := by
  unfold ferruleEscalate
  split_ifs
  · cases (b.core m).item with
    | none => rfl
    | some n => cases who with
      | none => rfl
      | some c => simp only; split_ifs <;> rfl
  · cases who <;> rfl
  · rfl
  · rfl

theorem ferruleViolation_ch (b : Block) (m : Nat) (k : AccessKind) (addr : Nat) (who : Option Nat) :
    (ferruleViolation b m k addr who).ch = b.ch := by
  simp only [ferruleViolation]
  split
  · simp [ferruleRecord, ferruleEscalate_ch]
  · split_ifs <;> simp [ferruleRecord, ferruleEscalate_ch]

/-- A write to the host changes no chamber, denied or not. -/
theorem dmaWrite_ch (b : Block) (m : Nat) (who : Option Nat) (fn addr : Nat) (d : Bytes) : (b.dmaWrite m who fn addr d).ch = b.ch := by
  by_cases h : DmaOpen b m .read
  · rw [dmaWrite_open h]; rfl
  · have denied : ferruleAccess b m .read (dmaAddress m) who = (false, ferruleViolation b m .read (dmaAddress m) who) := if_neg h
    simp [Block.dmaWrite, dmaOut, denied, ferruleViolation_ch]

/-! ### Completions (R64, R66, R71, R72, R76, R82) -/

/-- The failures are the statuses other than OK and VERIFY_MISMATCH (R73). -/
theorem ite_isFailure {α : Type} (st : Nat) (x y : α) : (if isFailure st then x else y) = if st ≠ 0 ∧ st ≠ 2 then x else y :=
  if_congr (by simp [isFailure]) rfl rfl

/-- A change of a completion queue depends on what the queue holds. -/
theorem modCq_const (b : Block) (c q : Nat) (f : Cq → Cq) : b.modCq c q f = b.modCq c q fun _ => f (b.cq c q) := rfl

/-- The queue after one more entry, field by field. -/
theorem Cq.push_eq (q : Cq) (irq : Bool) : q.push irq = { q with
    tail := if q.tail + 1 = 2 ^ q.depthLog2 then 0 else q.tail + 1
    phase := if q.tail + 1 = 2 ^ q.depthLog2 then !q.phase else q.phase
    reserved := q.reserved - 1
    unsignalled := if irq && q.vecEn then q.unsignalled + 1 else q.unsignalled } := by
  by_cases h : q.tail + 1 = 2 ^ q.depthLog2 <;> simp [Cq.push, Cq.depth, h]

/-- The completion's bytes written to the queue's tail, the queue then `q`, and the item gone. -/
def completionPut (b : Block) (n : Nat) (i : Item) (o : Outcome) (q : Cq) : Block :=
  let old := b.cq i.chamber i.cq
  ((b.dmaWrite (hostMaster i.chamber) (some i.chamber) (i.chamber + 1) (old.base + 32 * old.tail) (completionBytes b i o old.phase)).modCq
    i.chamber i.cq fun _ => q).modChuck fun x => { x with items := Tab.erase x.items n }

/-- With it counted, and the queue's message sent where it is due. -/
def completionTold (b : Block) (n : Nat) (i : Item) (o : Outcome) (q : Cq) : Block :=
  let put := completionPut b n i o q
  let counted := if o.status ≠ 0 ∧ o.status ≠ 2 then (put.tally i.chamber).tally (64 + i.chamber) else put.tally i.chamber
  signalCq (counted.event 72 0x004 (some i.chamber)) i.chamber i.cq

/-- The end of a chamber FENCE that the item was (R76). -/
def fenceEnded (b : Block) (n c : Nat) : Block :=
  if (b.chamber c).fence = some n then advanceQueues (b.modCh c fun h => { h with fence := none }) c else b

theorem writeCompletion_eq (b : Block) (n : Nat) (i : Item) (o : Outcome) :
    writeCompletion b n i o = fenceEnded (completionTold b n i o ((b.cq i.chamber i.cq).push i.irq)) n i.chamber := by
  have queue (m : Nat) (who : Option Nat) (fn addr : Nat) (d : Bytes) : (b.dmaWrite m who fn addr d).cq i.chamber i.cq = b.cq i.chamber i.cq := by
    simp only [Block.cq, Block.chamber, dmaWrite_ch]
  refine congrArg (fenceEnded · n i.chamber) (congrArg (fun b => signalCq (Block.event b 72 0x004 (some i.chamber)) i.chamber i.cq) ?_)
  simp only [removeItem, modCq_const _ _ _ fun q => q.push i.irq, queue, ite_isFailure, completionPut]

/-- An item that leaves without a completion, as R66 says. -/
theorem completionWrite_muted (hi : b.item? n = some i) (ho : i.job.outcome = some o) (hm : i.mute = true) (hs : i.st = .closing)
    (hl : leafSettled i = true) (e : Egress) : completionWrite b n e = dropCompletion b n i := by
  simp [completionWrite, hi, ho, hm, hs, hl]

section
variable (hi : b.item? n = some i) (ho : i.job.outcome = some o) (hm : i.mute = false)
include hi ho hm

theorem completionWrite_waits (hc : mayComplete b n i = false) (e : Egress) : completionWrite b n e = b := by
  simp [completionWrite, hi, ho, hm, hc]

theorem completionWrite_noBme (hc : mayComplete b n i = true) (hb : b.bme (i.chamber + 1) = false) (e : Egress) :
    completionWrite b n e = dropCompletion (quiesceChamber b i.chamber qBme (some n)) n i := by
  simp [completionWrite, hi, ho, hm, hc, hb]

theorem completionWrite_fails (hc : mayComplete b n i = true) (hb : b.bme (i.chamber + 1) = true) :
    completionWrite b n .bufferError =
      dropCompletion (quiesceChamber (b.aer (i.chamber + 1) "Uncorrectable Internal Error" false) i.chamber qDmaWrite (some n)) n i := by
  simp [completionWrite, hi, ho, hm, hc, hb]

theorem completionWrite_writes (hc : mayComplete b n i = true) (hb : b.bme (i.chamber + 1) = true) :
    completionWrite b n .issued = writeCompletion b n i o := by
  simp [completionWrite, hi, ho, hm, hc, hb]

end

theorem coalesceTimer_due {c q : Nat} (hv : (b.cq c q).vecEn = true) (hu : 0 < (b.cq c q).unsignalled) :
    coalesceTimer b c q = (b.modCq c q fun x => { x with unsignalled := 0 }).msix (c + 1) (b.cq c q).vector := by
  simp [coalesceTimer, hv, hu]

/-! ### Messages (R537) -/

/-- The device with vector `vec` of function `fn` unmasked, and no message of it pending. -/
def unmaskedVector (b : Block) (fn vec : Nat) : Block :=
  { b with pcie := { b.pcie with unmasked := b.pcie.unmasked.filter (· != 64 * fn + vec) ++ [64 * fn + vec]
                                 pendingMsix := b.pcie.pendingMsix.filter (· != 64 * fn + vec) } }

theorem msixUnmask_pending {fn vec : Nat} (hp : 64 * fn + vec ∈ b.pcie.pendingMsix) (he : Tab.get b.pcie.msixEn false fn = true) :
    msixUnmask b fn vec = (unmaskedVector b fn vec).emit
      (.msix fn vec (Tab.get b.pcie.table (0, 0) (64 * fn + vec)).1 (Tab.get b.pcie.table (0, 0) (64 * fn + vec)).2) := by
  simp [msixUnmask, hp, Block.msix, he, unmaskedVector]

theorem msixUnmask_quiet {fn vec : Nat} (hp : 64 * fn + vec ∉ b.pcie.pendingMsix) : msixUnmask b fn vec = unmaskedVector b fn vec := by
  simp [msixUnmask, hp, unmaskedVector]

/-! ### The statement -/

/-- Settles O19: the selection, a completion and a message take the course that their conditions name. -/
theorem dispatchAndCompletion : Obligations.DispatchAndCompletion := by
  unfold Obligations.DispatchAndCompletion
  refine ⟨fun s cls n core i b1 hr hd => ?_, fun s n i o c q fn vec hr => ?_⟩
  · intro b he b2 sent
    have select {t : Block} (ht : chuckSelect s.blk = t) : Completes .chuckSelect s t := completes_awake rfl hr hd ht
    refine ⟨fun hc => select (chuckSelect_idle he hc), fun hc hi hk ha => select ((chuckSelect_direct he hc hi hk).trans ?_),
      fun hc hi hk => ⟨select (chuckSelect_core he hc hi hk), fun i0 hi0 ho => ?_⟩⟩
    · exact congrArg zeroAllDeficits (dispatchDirect_unaudited hi ha)
    · exact completes_awakeSettle rfl hr hd ((recipeDispatch_selects hc hi0 ho).trans (chuckSelect_core he hc hi hk))
  · intro b cq cmd written counted told gone
    have row {e : Egress} {t : Block} (ht : completionWrite b n e = t) : Completes (.completionWrite n e) s (settle t) :=
      completes_liveSettle rfl hr ht
    have writes : writeCompletion b n i o = fenceEnded told n i.chamber := (writeCompletion_eq b n i o).trans (by rw [Cq.push_eq]; rfl)
    refine ⟨fun hi ho hm hc => ⟨fun hb => ⟨fun hf => ?_, fun hf => ?_, ?_⟩, fun hb e => ?_⟩, fun hi ho hm hs hl e => ?_,
      fun hi ho hm hc e => ?_, fun hv hu => ?_, fun hf hv => ?_⟩
    · exact row ((completionWrite_writes hi ho hm hc hb).trans (writes.trans (if_neg hf)))
    · exact row ((completionWrite_writes hi ho hm hc hb).trans (writes.trans (if_pos hf)))
    · exact row (completionWrite_fails hi ho hm hc hb)
    · exact row (completionWrite_noBme hi ho hm hc hb e)
    · exact row (completionWrite_muted hi ho hm hs hl e)
    · exact row (completionWrite_waits hi ho hm hc e)
    · exact completes_live rfl hr (coalesceTimer_due hv hu)
    · intro k open_
      have unmask {t : Block} (ht : msixUnmask b fn vec = t) : Completes (.msixUnmask fn vec) s t :=
        completes_run rfl ((if_pos (Bool.and_eq_true_iff.mpr ⟨hf, decide_eq_true hv⟩)).trans ht)
      exact ⟨fun hp he => unmask (msixUnmask_pending hp he), fun hp => unmask (msixUnmask_quiet hp)⟩

end Sys2Proof.Machine
end

section
/-! PROOFS. The loads and stores of the Chisel set and the data map they reach: what a course comes to, what the map answers at each of its parts, and
the control region by name; and with them the statement on the memory instructions (R259 to R264, R288, R292, R293, R405, R525, R527). -/
namespace Sys2Proof.Machine

variable {b b1 : Block} {s : State} {k a n : Nat} {d : Bytes} {v : Byte}

/-- An instruction that issues leaves the device that its course comes to. -/
theorem completes_issue {i : Instr} {k : Fin 64} {cond : BitVec 4} {f : Block → Course} {c : Course} (h : Issues s k cond)
    (hi : exec i s = run s (chiselRow k cond f)) (hf : f (decoded s.blk k) = c) : Completes i s (takeCourse k c) :=
  completes_run hi (by rw [issue_eq h, hf])

/-! ### Words and their bytes (R6, R287) -/

theorem ofNat_twoBytes (lo hi : Byte) : BitVec.ofNat 16 (lo.toNat + 256 * hi.toNat) = (hi ++ lo : BitVec 16) := by
  apply BitVec.eq_of_toNat_eq
  have := lo.isLt
  have := hi.isLt
  rw [BitVec.toNat_append, ← Nat.shiftLeft_add_eq_or_of_lt lo.isLt, Nat.shiftLeft_eq, BitVec.toNat_ofNat]
  omega

/-- A field of two bytes is its bytes, whatever the string's length. -/
theorem ofNat_leField_two (d : Bytes) : BitVec.ofNat 16 (leField d 0 2) = (byteAt d 1 ++ byteAt d 0 : BitVec 16) := by
  rw [← ofNat_twoBytes]
  rcases d with _ | ⟨x, _ | ⟨y, r⟩⟩ <;> simp [leField, slice, ofLe, byteAt]

theorem wordBytes_pair (c : Core) (q : BitVec 3) : wordBytes (c.pair q) = [c.reg (pairLo q), c.reg (pairHi q)] := by
  have low (lo hi : Byte) : (hi ++ lo : BitVec 16).extractLsb' 0 8 = lo := (Laws.field_low hi lo 0 8 (by omega)).trans (Laws.field_whole lo)
  have high (lo hi : Byte) : (hi ++ lo : BitVec 16).extractLsb' 8 8 = hi := (Laws.field_high hi lo 8 8 (by omega)).trans (Laws.field_whole hi)
  rw [Core.pair, ofNat_twoBytes, wordBytes, low, high]

/-! ### The flags of a difference (R289) -/

/-- The signed difference leaves its range exactly when the operands differ in sign and the result has the subtrahend's. -/
theorem aluSub_overflow {w : Nat} (x y : BitVec w) : (aluSub x y false).v = subOverflow x y (x - y) := by
  have e : (aluSub x y false).v = BitVec.ssubOverflow x y := by
    simp only [aluSub, BitVec.ssubOverflow]
    rw [Bool.eq_iff_iff]
    simp
    omega
  rw [e, BitVec.ssubOverflow_eq, subOverflow]
  cases x.msb <;> cases y.msb <;> cases (x - y).msb <;> rfl

theorem byteSub_flags (f : Flags) (x y : Byte) : (byteSub f x y).2 = diffFlags f x y (x - y) 0 := by
  have r : (aluSub x y false).r = x - y := by simp [aluSub]
  simp only [byteSub, Flags.all, diffFlags, aluSub_overflow, r]
  rfl

/-! ### The verdict on an access (R260, R264) -/

/-- The core's Ferrule and the data map's own access column admit an access at `a`. -/
def CoreAdmits (b : Block) (k : Nat) (kind : AccessKind) (a : Nat) : Prop :=
  rulesAdmit (b.ferrule k).active (a / 256) kind = true ∧ fieldAdmits a kind = true

theorem coreAdmit_admitted {kind : AccessKind} (h : CoreAdmits b k kind a) : coreAdmit b k kind a = (true, b) :=
  if_pos (Bool.and_eq_true_iff.mpr h)

theorem coreAdmit_denied {kind : AccessKind} (h : ¬ CoreAdmits b k kind a) :
    coreAdmit b k kind a = (false, ferruleViolation b k kind a (coreChamber b k)) :=
  if_neg fun q => h (Bool.and_eq_true_iff.mp q)

theorem pageMissing_outside (h : a < 0x8000 ∨ 0xC000 ≤ a) : pageMissing b k a = none :=
  if_neg fun q => by omega

theorem pageMissing_loaded (h : windowLoads b k = false ∨ (b.core k).loaded.testBit ((a - 0x8000) / 4096) = true) : pageMissing b k a = none := by
  rcases h with h | h <;> simp [pageMissing, h]

theorem pageMissing_awaited (hl : 0x8000 ≤ a) (hh : a < 0xC000) (hw : windowLoads b k = true)
    (hp : (b.core k).loaded.testBit ((a - 0x8000) / 4096) = false) : pageMissing b k a = some ((a - 0x8000) / 4096) := by
  simp [pageMissing, hl, hh, hw, hp]

/-! ### A load and a store of one byte (R260, R264) -/

theorem coreLoad_awaits {p : Nat} (hp : pageMissing b k a = some p) : coreLoad b k a 1 = .error p := by
  simp [coreLoad, hp]

theorem coreLoad_denied (hp : pageMissing b k a = none) (h : ¬ CoreAdmits b k .read a) :
    coreLoad b k a 1 = .ok ([0], ferruleViolation b k .read a (coreChamber b k)) := by
  simp only [coreLoad, hp, coreAdmit_denied h]
  rfl

/-- A load that is admitted delivers what the data map holds at its address. -/
theorem coreLoad_admitted (hp : pageMissing b k a = none) (h : CoreAdmits b k .read a) (hr : rawRead b k a = (v, b1)) :
    coreLoad b k a 1 = .ok ([v], b1) := by
  simp [coreLoad, hp, coreAdmit_admitted h, hr]

theorem coreStore_denied (h : ¬ CoreAdmits b k .write a) : coreStore b k a d = ferruleViolation b k .write a (coreChamber b k) := by
  simp only [coreStore, coreAdmit_denied h]

/-- A store that is admitted puts its byte into the data map. -/
theorem coreStore_admitted (h : CoreAdmits b k .write a) : coreStore b k a [v] = rawWrite b k a v := by
  simp only [coreStore, coreAdmit_admitted h]
  rfl

/-! ### The parts of the data map (R259, R262, R264, R276) -/

theorem rawRead_scratch (h : a < 0x8000) : rawRead b k a = (Memory.read (b.core k).scratch a, b) := if_pos h

theorem rawRead_window (hl : 0x8000 ≤ a) (hh : a < 0xC000) : rawRead b k a = (Memory.read (b.core k).window (a - 0x8000), b) := by
  simp [rawRead, Nat.not_lt.mpr hl, hh]

theorem rawRead_ticket (hl : 0xC000 ≤ a) (hh : a < 0xC200) : rawRead b k a =
    (if (b.ticket k ((a - 0xC000) / 32)).st = .outstanding then 0 else byteAt (b.ticket k ((a - 0xC000) / 32)).area ((a - 0xC000) % 32), b) := by
  simp [rawRead, show ¬ a < 0x8000 by omega, show ¬ a < 0xC000 by omega, hh]

theorem rawRead_context (hl : 0xE000 ≤ a) (hh : a < 0xF000) : rawRead b k a = (Memory.read (b.core k).context a, b) := by
  simp [rawRead, show ¬ a < 0x8000 by omega, show ¬ a < 0xC000 by omega, show ¬ a < 0xC200 by omega, hh]

theorem rawWrite_scratch (h : a < 0x8000) : rawWrite b k a v = b.modCore k fun c => { c with scratch := Memory.write c.scratch a v } := if_pos h

theorem rawWrite_window (hl : 0x8000 ≤ a) (hh : a < 0xC000) :
    rawWrite b k a v = b.modCore k fun c => { c with window := Memory.write c.window (a - 0x8000) v } := by
  simp [rawWrite, Nat.not_lt.mpr hl, hh]

theorem rawWrite_context (hl : 0xE000 ≤ a) (hh : a < 0xF000) :
    rawWrite b k a v = b.modCore k fun c => { c with context := Memory.write c.context a v } := by
  simp [rawWrite, show ¬ a < 0x8000 by omega, show ¬ a < 0xC000 by omega, show ¬ a < 0xC200 by omega, hh]

/-! ### The core control region (R263, R264, R405, R525, R527) -/

theorem rawRead_counters (hl : 0xF100 ≤ a) (hh : a < 0xF200) : rawRead b k a =
    (BitVec.ofNat 8 (coreCounterRead b k ((coreChamber b k).getD 64) a).1, (coreCounterRead b k ((coreChamber b k).getD 64) a).2) := by
  simp [rawRead, show ¬ a < 0x8000 by omega, show ¬ a < 0xC000 by omega, show ¬ a < 0xC200 by omega, show ¬ a < 0xF000 by omega,
    show ¬ a < 0xF018 by omega, hl, hh]

/-- Changes of a Lantern port that agree on it are one change. -/
theorem modLanPort_congr {f g : LanPort → LanPort} (h : f (b.lanPort k) = g (b.lanPort k)) : b.modLanPort k f = b.modLanPort k g := by
  have h : f (Tab.get b.lantern.ports LanPort.reset k) = g (Tab.get b.lantern.ports LanPort.reset k) := h
  simp only [Block.modLanPort, Block.modLantern, Tab.modify, h]

theorem rngDataRead_next {x : Byte} {r : Bytes} (hb : (b.lanPort k).buf = x :: r) (hl : b.lantern.st = .running) :
    rngDataRead b k = (x, b.modLanPort k fun q => { q with buf := r }) := by
  have rest : b.modLanPort k (fun q => { q with buf := q.buf.drop 1 }) = b.modLanPort k fun q => { q with buf := r } :=
    modLanPort_congr (by simp [hb])
  simp [rngDataRead, lanPortRead, hb, hl, ← rest, byteAt]

theorem rngDataRead_none (h : (b.lanPort k).buf = [] ∨ b.lantern.st ≠ .running) :
    rngDataRead b k = (0, b.modCore k fun c => { c with rngErr := true }) := by
  rcases h with h | h <;> simp [rngDataRead, h]

/-- The device with counter `ix` of a core latched at a value. -/
def counterLatched (b : Block) (k ix value : Nat) : Block :=
  { b with counters := { b.counters with byteLatch := Tab.set b.counters.byteLatch (16 * k + ix) value } }

section
variable {ch : Nat}

theorem coreCounterRead_cycles (hu : (b.chamber ch).uread = true) :
    coreCounterRead b k ch 0xF100 = (b.cycleCount k % 256, counterLatched b k 0 (b.cycleCount k)) := by
  simp [coreCounterRead, hu, counterLatched]

theorem coreCounterRead_cycles_unread (hu : (b.chamber ch).uread = false) : coreCounterRead b k ch 0xF100 = (0, b) := by
  simp [coreCounterRead, hu]

theorem coreCounterRead_own (hu : (b.chamber ch).uread = true) (hn : n < 8) (ho : (b.ctr k n).owner = .chamber ch) :
    coreCounterRead b k ch (0xF108 + 4 * n) = ((b.ctr k n).count.toNat % 256, counterLatched b k (n + 1) (b.ctr k n).count.toNat) := by
  simp [coreCounterRead, hu, ho, counterLatched, show 0xF108 + 4 * n - 0xF100 = 8 + 4 * n by omega, show 8 + 4 * n < 0x28 by omega,
    Nat.add_comm 1 n]

theorem coreCounterRead_foreign (hn : n < 8) (ho : (b.ctr k n).owner ≠ .chamber ch) : coreCounterRead b k ch (0xF108 + 4 * n) = (0, b) := by
  simp [coreCounterRead, ho, show 0xF108 + 4 * n - 0xF100 = 8 + 4 * n by omega, show 8 + 4 * n < 0x28 by omega]

end

theorem rawRead_rngData : rawRead b k 0xF201 = rngDataRead b k := by simp [rawRead]

theorem ccWinpos_admitted (hs : (b.core k).st = .running) (h : CoreAdmits b k .write 0xF300) :
    ccWinpos b k v = b.modCore k fun c => { c with winpos := v.toNat, window := [], loaded := 0 } := by
  rw [ccWinpos, if_pos hs, coreStore_admitted h]
  rfl

theorem ccWinpos_denied (hs : (b.core k).st = .running) (h : ¬ CoreAdmits b k .write 0xF300) :
    ccWinpos b k v = ferruleViolation b k .write 0xF300 (coreChamber b k) := by
  rw [ccWinpos, if_pos hs, coreStore_denied h]

/-- A read of a register of the region shows the byte that it answers. -/
theorem ccRead_admitted (hs : (b.core k).st = .running) (ha : 0xC000 ≤ a) (h : CoreAdmits b k .read a) (hr : rawRead b k a = (v, b1)) :
    ccRead b k a = b1.answer v.toNat := by
  simp [ccRead, hs, coreLoad_admitted (pageMissing_outside (.inr ha)) h hr, byteAt]

theorem ccRead_counters {ch x : Nat} (hs : (b.core k).st = .running) (hc : coreChamber b k = some ch) (hl : 0xF100 ≤ a) (hh : a < 0xF200)
    (h : CoreAdmits b k .read a) (hr : coreCounterRead b k ch a = (x % 256, b1)) : ccRead b k a = b1.answer (x % 256) := by
  have byte : rawRead b k a = (BitVec.ofNat 8 (x % 256), b1) := by simp [rawRead_counters hl hh, hc, hr]
  rw [ccRead_admitted hs (by omega) h byte, BitVec.toNat_ofNat, Nat.mod_mod]

/-- The lowest bytes of a core's counters lie in the counters' part of the region. -/
theorem counterAddr_bounds (i : Option (Fin 8)) : 0xF100 ≤ counterAddr (i.map (·.val)) ∧ counterAddr (i.map (·.val)) < 0xF200 := by
  cases i with
  | none => decide
  | some n => simp only [counterAddr, Option.map]; omega

theorem coreAdmits_counterAddr (i : Option (Fin 8)) (h : rulesAdmit (b.ferrule k).active 0xF1 .read = true) :
    CoreAdmits b k .read (counterAddr (i.map (·.val))) := by
  obtain ⟨hl, hh⟩ := counterAddr_bounds i
  generalize counterAddr (i.map (·.val)) = a at hl hh ⊢
  refine ⟨by rwa [show a / 256 = 0xF1 by omega], ?_⟩
  simp [fieldAdmits, hl, show a ≤ 0xF1FF by omega]

/-! ### What a memory instruction comes to (R288, R292, R293, R296) -/

section
variable {f : Bytes → Block → Block}

theorem withLoad_delivers (h : coreLoad b k a n = .ok (d, b1)) :
    withLoad k a n b f = .next (coreEvent (f d b1) k 0x006) (if 0xF000 ≤ a then 2 else 1) := by
  simp only [withLoad, h, controlCost]
  split_ifs <;> rfl

theorem withLoad_awaits {p : Nat} (h : coreLoad b k a n = .error p) : withLoad k a n b f = .stall b (.stalled (.window p)) := by
  simp only [withLoad, h]

end

theorem courseMovb_delivers (h : coreLoad b k (b.core k).x.toNat 1 = .ok (d, b1)) : courseMovb k b =
    .next ((coreEvent (coreStore (coreEvent b1 k 0x006) k (b.core k).y.toNat [byteAt d 0]) k 0x007).modCore k
      fun c => { c with x := c.x + 1, y := c.y + 1 }) (if 0xF000 ≤ (b.core k).x.toNat then 2 else 1) := by
  simp only [courseMovb, h, controlCost]
  split_ifs <;> rfl

theorem courseMovb_awaits {p : Nat} (h : coreLoad b k (b.core k).x.toNat 1 = .error p) : courseMovb k b = .stall b (.stalled (.window p)) := by
  simp only [courseMovb, h]

/-! ### The statement -/

/-- Settles O10: each instruction has the course of its access, and each access reaches the part of the data map that holds its address. -/
theorem memoryInstructions : Obligations.MemoryInstructions := by
  unfold Obligations.MemoryInstructions
  refine ⟨fun s k cond r q p inc disp h => ?_, fun b k a v ha => ?_, fun s k v n ch hr hd hs => ?_⟩
  · intro b a x y load stall
    have next {i : Instr} {f : Block → Course} {b1 : Block} {cost : Nat} (hi : exec i s = run s (chiselRow k cond f))
        (hf : f b = .next b1 cost) : Completes i s (goOn b1 k cost) := completes_issue h hi hf
    have stalls {i : Instr} {f : Block → Course} {page : Nat} (hi : exec i s = run s (chiselRow k cond f))
        (hf : f b = .stall b (.stalled (.window page))) : Completes i s (stall page) := completes_issue h hi hf
    refine ⟨fun d b1 hl => next rfl (withLoad_delivers hl), fun page hl => stalls rfl (withLoad_awaits hl), fun d b1 hl => ?_,
      fun page hl => stalls rfl (withLoad_awaits hl), next rfl rfl, ?_, fun d b1 hl => ⟨next rfl (courseMovb_delivers hl), ?_⟩,
      fun page hl => ⟨stalls rfl (courseMovb_awaits hl), stalls rfl (withLoad_awaits hl)⟩⟩
    · rw [← ofNat_leField_two]
      exact next rfl (withLoad_delivers hl)
    · rw [← wordBytes_pair]
      exact next rfl rfl
    · simp only [← byteSub_flags]
      exact next rfl (withLoad_delivers hl)
  · intro c ok
    refine ⟨fun h hh => ?_, fun h hl hh hw => ?_, fun hl hh hw hp => ?_, fun h hl hh ht => ?_, fun h hl hh ht => ?_, fun h hl hh => ?_,
      fun h hp => coreLoad_denied hp h, fun h hh => ?_, fun h hl hh => ?_, fun h hl hh => ?_, fun h => coreStore_denied h⟩
    · exact coreLoad_admitted (pageMissing_outside (.inl hh)) h (rawRead_scratch hh)
    · exact coreLoad_admitted (pageMissing_loaded hw) h (rawRead_window hl hh)
    · exact coreLoad_awaits (pageMissing_awaited hl hh hw hp)
    · exact coreLoad_admitted (pageMissing_outside (.inr hl)) h ((rawRead_ticket hl hh).trans (by rw [if_neg ht]))
    · exact coreLoad_admitted (pageMissing_outside (.inr hl)) h ((rawRead_ticket hl hh).trans (by rw [if_pos ht]))
    · exact coreLoad_admitted (pageMissing_outside (.inr (by omega))) h (rawRead_context hl hh)
    · exact (coreStore_admitted h).trans (rawWrite_scratch hh)
    · exact (coreStore_admitted h).trans (rawWrite_window hl hh)
    · exact (coreStore_admitted h).trans (rawWrite_context hl hh)
  · intro b admits latched
    have counter (i : Option (Fin 8)) (x : Nat) {t : Block} (hf : admits 0xF1 .read) (hc : coreChamber b k = some ch)
        (hx : coreCounterRead b k ch (counterAddr (i.map (·.val))) = (x % 256, t)) : Completes (.counterLowByteRead k i) s (t.answer (x % 256)) :=
      completes_awake rfl hr hd (ccRead_counters hs hc (counterAddr_bounds i).1 (counterAddr_bounds i).2 (coreAdmits_counterAddr i hf) hx)
    refine ⟨fun hf => completes_awake rfl hr hd (ccWinpos_admitted hs ⟨hf, rfl⟩),
      fun hf => completes_awake rfl hr hd (ccWinpos_denied hs fun h => hf h.1), fun x r hf hb hl => ?_, fun hf hb => ?_,
      fun hf hc hu => ⟨?_, fun ho => ?_, fun ho => ?_⟩, fun hf hc hu => ?_⟩
    · exact completes_awake rfl hr hd (ccRead_admitted hs (by decide) ⟨hf, rfl⟩ (rawRead_rngData.trans <| rngDataRead_next hb hl))
    · exact completes_awake rfl hr hd (ccRead_admitted hs (by decide) ⟨hf, rfl⟩ (rawRead_rngData.trans <| rngDataRead_none hb))
    · exact counter none _ hf hc (coreCounterRead_cycles hu)
    · exact counter (some n) _ hf hc (coreCounterRead_own hu n.isLt ho)
    · exact counter (some n) 0 hf hc (coreCounterRead_foreign n.isLt ho)
    · exact counter none 0 hf hc (coreCounterRead_cycles_unread hu)

end Sys2Proof.Machine
end

section
/-! PROOFS. Engine calls from their call block to their ticket, EWAIT, TAKE and DONE, and the bytes of OUTPUT, one lemma for each course they can
take; and with them the statement on engine calls (R71, R248, R270, R271, R273 to R278). -/
namespace Sys2Proof.Machine

variable {b : Block} {s : State} {k n t ch : Nat} {wd cond : BitVec 4} {e : Egress} {i : Item}

theorem exists_outstanding (b : Block) (k : Nat) :
    ((List.range 16).any fun t => (b.ticket k t).st == .outstanding) = true ↔ ∃ t < 16, (b.ticket k t).st = .outstanding := by
  simp

/-! ### ECALL (R273 to R277) -/

theorem ecall_outside (h : 0x8000 < (b.core k).x.toNat + 80) : ecall k wd b = .fault b .callblock := by
  simp [ecall, h]

theorem ecall_noTicket (h : (b.core k).x.toNat + 80 ≤ 0x8000) (ht : freeTicket b k = none) : ecall k wd b = .fault b .tickets := by
  simp [ecall, Nat.not_lt.mpr h, ht]

/-- The call block at X, as the port reads it. -/
def callRead (b : Block) (k : Nat) : CallBlock := callBlock (portRead b k (b.core k).x.toNat 80).1

/-- The device once the port has read the call block. -/
def afterCallRead (b : Block) (k : Nat) : Block := (portRead b k (b.core k).x.toNat 80).2

/-- The job of a call block, its keys those of the core's handle slots (R274). -/
def callJob (c : Core) (ch : Nat) (x : CallBlock) : Job :=
  { Job.none with opcode := x.opcode, flags := if x.inline_ then 4 else 0, keyIn := slotHandle c x.hin, keyOut := slotHandle c x.hout
                  operands := if x.inline_ then x.operands else x.operands.take 32
                  ext := if x.inLen ≠ 0 ∨ x.outCap ≠ 0 then 1 else 0, chamber := ch, inLen := x.inLen, outCap := x.outCap
                  headerOk := true }

/-- A call asks for an entry of the leaf buffer: STEP_AUDIT is set, and it is not OUTPUT (R277, R278). -/
def callAudits (x : CallBlock) : Bool := x.audit && x.opcode != opOutput

/-- The device `b0` with the call of core `c` on its way under ticket `t`, with an entry for its leaf or without (R275 to R277). -/
def callPlaced (b0 : Block) (k t ch : Nat) (wd : BitVec 4) (c : Core) (x : CallBlock) (entry : Bool) : Block :=
  let j := callJob c ch x
  let b1 := if entry then takeEntry b0 (.chamber ch) else b0
  let rd := if callMalformed x j || x.inline_ then ([], b1) else portRead b1 k x.inAddr x.inLen
  let p := callPipe rd.2 ch x.opcode
  let job := { j.underPolicyOf ((c.item.bind fun n => b1.item? n).map (·.job)) with
               input := rd.1, pipe := p.1, phase := if x.opcode = opOutput then .ready else .keys }
  coreEvent ((placeCall p.2 k t x job entry).modCore k fun c =>
    { c.setReg wd (BitVec.ofNat 8 t) with steps := if callAudits x then c.steps + 1 else c.steps }) k 0x009

/-- The call once it is on its way: a malformed one is over at once with FORMAT (R273, R274). -/
def callChecked (b0 : Block) (k t ch : Nat) (wd : BitVec 4) (c : Core) (x : CallBlock) (entry : Bool) : Block :=
  let placed := callPlaced b0 k t ch wd c x entry
  if callMalformed x (callJob c ch x) then closeTicket placed k t (onlyStatus 0x0020) 0 else placed

/-- A call whose chain cannot take its leaf: over at once with that status (R200). -/
def callRefused (b0 : Block) (k t ch : Nat) (wd : BitVec 4) (c : Core) (x : CallBlock) (st : Nat) (entry : Bool) : Block :=
  closeTicket (auditKeyReads (callPlaced b0 k t ch wd c x entry) (.chamber ch)) k t (onlyStatus st) 0

/-- What a call comes to once its entry has been asked for. -/
def callGranted (b0 : Block) (k t ch : Nat) (wd : BitVec 4) (c : Core) (x : CallBlock) : EntryGrant → Course
  | .wait => .stall b0 (.stalled (.leaf wd))
  | .granted => .next (callChecked b0 k t ch wd c x (callAudits x)) 4
  | .refused st => .next (callRefused b0 k t ch wd c x st false) 4

/-- What a call comes to once its block has been read: the wait for a page, the wait for room, or its entry. -/
def callCourse (b0 : Block) (k t ch : Nat) (wd : BitVec 4) (c : Core) (x : CallBlock) : Course :=
  let bad := callMalformed x (callJob c ch x)
  match (if bad || x.inline_ then none else inputPage b0 k x.inAddr x.inLen) with
  | some p => .stall b0 (.stalled (.window p))
  | none =>
    if !bad && !callRoom b0 ch x.opcode then .stall b0 (.stalled (.engine wd))
    else callGranted b0 k t ch wd c x (if callAudits x then entryCheck b0 (.chamber ch) else .granted)

theorem callAudits_iff (x : CallBlock) : (x.audit = true ∧ x.opcode ≠ opOutput) ↔ callAudits x = true := by simp [callAudits]

/-- The course of ECALL with a ticket free. -/
theorem ecall_eq (ha : (b.core k).x.toNat + 80 ≤ 0x8000) (ht : freeTicket b k = some t) (hc : coreChamber b k = some ch) :
    ecall k wd b = callCourse (afterCallRead b k) k t ch wd (b.core k) (callRead b k) := by
  -- The bytes read stay opaque: no field of the block is computed on the way. An entry is held exactly where one was asked for and granted.
  obtain ⟨got, hgot⟩ : ∃ got, portRead b k (b.core k).x.toNat 80 = got := ⟨_, rfl⟩
  obtain ⟨x, hx⟩ : ∃ x, callBlock got.1 = x := ⟨_, rfl⟩
  simp only [ecall, Nat.not_lt.mpr ha, if_false, ht, hc, callRead, afterCallRead, hgot, hx, ← Bool.or_eq_true, ← Bool.and_eq_true, callAudits_iff,
    callCourse, callJob]
  generalize (if callAudits x = true then entryCheck got.2 (.chamber ch) else .granted) = grant
  cases (if (callMalformed x _ || x.inline_) = true then none else inputPage got.2 k x.inAddr x.inLen) with
  | some p => rfl
  | none =>
    refine if_congr Iff.rfl rfl ?_
    cases grant with
    | wait => rfl
    | granted => exact congrArg (fun entry => Course.next (callChecked got.2 k t ch wd (b.core k) x entry) 4) (Bool.and_true (callAudits x))
    | refused st => exact congrArg (fun entry => Course.next (callRefused got.2 k t ch wd (b.core k) x st entry) 4) (Bool.and_false (callAudits x))

section
variable {b0 : Block} {c : Core} {x : CallBlock}

theorem callCourse_page {p : Nat} (hb : callMalformed x (callJob c ch x) = false) (hi : x.inline_ = false)
    (hp : inputPage b0 k x.inAddr x.inLen = some p) : callCourse b0 k t ch wd c x = .stall b0 (.stalled (.window p)) := by
  simp [callCourse, hb, hi, hp]

variable (hn : callMalformed x (callJob c ch x) = true ∨ x.inline_ = true ∨ inputPage b0 k x.inAddr x.inLen = none)
include hn

theorem callCourse_full (hb : callMalformed x (callJob c ch x) = false) (hr : callRoom b0 ch x.opcode = false) :
    callCourse b0 k t ch wd c x = .stall b0 (.stalled (.engine wd)) := by
  have hn : x.inline_ = true ∨ inputPage b0 k x.inAddr x.inLen = none := hn.resolve_left (by simp [hb])
  rcases hn with hn | hn <;> simp [callCourse, hb, hr, hn]

/-- A call that waits neither for a page nor for room asks for the entry of its leaf. -/
theorem callCourse_asks (hr : callMalformed x (callJob c ch x) = true ∨ callRoom b0 ch x.opcode = true) :
    callCourse b0 k t ch wd c x = callGranted b0 k t ch wd c x (if callAudits x then entryCheck b0 (.chamber ch) else .granted) := by
  rcases hr with hr | hr
  · simp [callCourse, hr]
  · rcases hn with hn | hn | hn <;> simp [callCourse, hr, hn]

end

/-! ### EWAIT and TAKE (R248, R270, R275) -/

theorem ewait_outstanding (hv : n < 16) (h : (b.ticket k n).st = .outstanding) : ewait k n b = .stall b (.waiting n) := by
  simp [ewait, Nat.le_of_lt_succ hv, h]

theorem ewait_complete (hv : n < 16) (h : (b.ticket k n).st = .complete) :
    ewait k n b = .next (b.modTicket k n fun x => { x with st := .free }) 1 := by
  simp [ewait, Nat.le_of_lt_succ hv, h]

theorem ewait_free (h : 16 ≤ n ∨ (b.ticket k n).st = .free) : ewait k n b = .next b 1 := by
  rcases h with h | h
  · simp [ewait, show ¬ n ≤ 15 by omega]
  · simp [ewait, h]

theorem runInstr_issues {k : Fin 64} (h : Issues s k cond) (f : Block → Course) : runInstr s.blk k cond f = takeCourse k (f (decoded s.blk k)) := by
  simp [runInstr, h.core, h.holds, decoded]

theorem coreTake_running (hs : (b.core k).st = .running) : coreTake b k cond = runInstr b k cond fun b => .fault b .illegal := by
  simp [coreTake, hs]

/-! ### DONE (R71, R271, R278) -/

/-- DSTATUS of a core (R262). -/
def dstatus (c : Core) : Nat := ofLe (Memory.readBytes c.context 0xE080 2)

theorem coreDone_outstanding (h : ∃ t < 16, (b.ticket k t).st = .outstanding) : coreDone k e b = .fault b .outstanding :=
  if_pos ((exists_outstanding b k).mpr h)

section
variable (hq : ∀ t < 16, (b.ticket k t).st ≠ .outstanding)
include hq

theorem none_outstanding : ¬ ((List.range 16).any fun t => (b.ticket k t).st == .outstanding) = true := by
  rw [exists_outstanding]
  rintro ⟨t, ht, h⟩
  exact hq t ht h

theorem coreDone_badStatus (h : dstatus (b.core k) ∉ doneStatuses) : coreDone k e b = .fault b .badstatus :=
  (if_neg (none_outstanding hq)).trans (if_pos (by simpa [dstatus] using h))

end

/-- The device once DONE has retired. -/
def doneRetired (b : Block) (k n : Nat) : Block :=
  ((coreEvent b k 0x00E).modCore k fun c => charge c 1).modItem n fun i => { i with done := true }

/-- The status an item ends with: FORMAT where an OUTPUT went beyond OUT_CAP (R278). -/
def doneCode (c : Core) : Nat := if c.outOver then 0x0020 else dstatus c

/-- The outcome of a core's item: DRESULT and the bytes written, unless the status is a failure. -/
def doneOutcome (c : Core) : Outcome :=
  { status := doneCode c, result := if isFailure (doneCode c) then zeros 16 else Memory.readBytes c.context 0xE090 16
    output := if c.outDone ≠ 0 ∧ !isFailure (doneCode c) then some (Memory.readBytes c.output 0 c.outDone) else none }

theorem doneOutcome_eq (c : Core) : doneOutcome c =
    { status := doneCode c, result := if doneCode c = 0 ∨ doneCode c = 2 then Memory.readBytes c.context 0xE090 16 else zeros 16
      output := if c.outDone ≠ 0 ∧ (doneCode c = 0 ∨ doneCode c = 2) then some (Memory.readBytes c.output 0 c.outDone) else none } := by
  have fails : isFailure (doneCode c) = !decide (doneCode c = 0 ∨ doneCode c = 2) := Bool.eq_iff_iff.mpr (by simp [isFailure])
  by_cases h : doneCode c = 0 ∨ doneCode c = 2 <;> simp [doneOutcome, fails, h]

/-- The end of an item: OUT_LEN is written where OUTPUT was called and the egress is not closed to the item, and a write that fails quiesces the
chamber. -/
def doneEnded (b : Block) (n : Nat) (i : Item) (c : Core) (e : Egress) : Block :=
  if c.outReq = 0 ∨ b.suppressed n then closeItem b n (doneOutcome c)
  else if !b.bme (i.chamber + 1) then quiesceChamber (closeItem b n (onlyStatus 0x0022)) i.chamber 4 (some n)
  else if e = .bufferError then
    quiesceChamber (closeItem (b.aer (i.chamber + 1) "Uncorrectable Internal Error" false) n (onlyStatus 0x0022)) i.chamber 1 (some n)
  else
    closeItem (b.dmaWrite (hostMaster i.chamber) (some i.chamber) (i.chamber + 1) (i.job.ext + 8)
      (leBytes 4 (if c.outOver then c.outReq else c.outDone))) n (doneOutcome c)

section
variable {c : Core} (ho : c.outReq ≠ 0) (hm : b.suppressed n = false)
include ho hm

theorem doneEnded_noBme (hb : b.bme (i.chamber + 1) = false) :
    doneEnded b n i c e = quiesceChamber (closeItem b n (onlyStatus 0x0022)) i.chamber 4 (some n) := by
  simp [doneEnded, ho, hm, hb]

variable (hb : b.bme (i.chamber + 1) = true)
include hb

theorem doneEnded_fails (he : e = .bufferError) : doneEnded b n i c e =
    quiesceChamber (closeItem (b.aer (i.chamber + 1) "Uncorrectable Internal Error" false) n (onlyStatus 0x0022)) i.chamber 1 (some n) := by
  simp [doneEnded, ho, hm, hb, he]

theorem doneEnded_writes (he : e = .issued) : doneEnded b n i c e =
    closeItem (b.dmaWrite (hostMaster i.chamber) (some i.chamber) (i.chamber + 1) (i.job.ext + 8)
      (leBytes 4 (if c.outOver then c.outReq else c.outDone))) n (doneOutcome c) := by
  simp [doneEnded, ho, hm, hb, he]

end

theorem coreDone_ends (hq : ∀ t < 16, (b.ticket k t).st ≠ .outstanding) (hs : dstatus (b.core k) ∈ doneStatuses)
    (hn : (b.core k).item = some n) (hi : b.item? n = some i) :
    coreDone k e b = .over_ (doneEnded (doneRetired b k n) n i (b.core k) e) := by
  have known : ¬ (!doneStatuses.contains (dstatus (b.core k))) = true := by simpa using hs
  have item : ((b.core k).item.bind fun n => (b.item? n).map fun i => (n, i)) = some (n, i) := by simp [hn, hi]
  refine (if_neg (none_outstanding hq)).trans ((if_neg known).trans ?_)
  simp only [item, doneEnded, apply_ite Course.over_]
  rfl

/-! ### OUTPUT (R71, R278) -/

/-- The device as an OUTPUT that ends at `fin` is asked for. -/
def outputAsked (b : Block) (k fin : Nat) : Block := b.modCore k fun c => { c with outReq := max c.outReq fin }

/-- The bytes `d` of an OUTPUT written from offset `off` of the output area of item `i`, the ticket still open. -/
def outputSent (b : Block) (k n : Nat) (i : Item) (off : Nat) (d : Bytes) : Block :=
  let sent := (b.dmaWrite (hostMaster i.chamber) (some i.chamber) (i.chamber + 1) (i.job.ext + 16 + roundUp i.job.inLen 64 + off) d).modCore k
    fun c => { c with outDone := max c.outDone (off + d.length), output := Memory.writeBytes c.output off d }
  sent.modItem n fun i => { i with written := some (Memory.readBytes (sent.core k).output 0 (sent.core k).outDone) }

/-- What an OUTPUT of `d` at offset `off` comes to, `b` the device as it is asked for. -/
def outputEnded (b : Block) (k t n : Nat) (i : Item) (off : Nat) (d : Bytes) (e : Egress) : Block :=
  if i.job.outCap < off + d.length then closeTicket (b.modCore k fun c => { c with outOver := true }) k t (onlyStatus 0x0020) 0
  else if d = [] then closeTicket b k t (onlyStatus 0) 0
  else if b.suppressed n then closeTicket b k t (onlyStatus 0) 0
  else if !b.bme (i.chamber + 1) then quiesceChamber (endItemOnCore b k 0x0022) i.chamber 4 (some n)
  else if e = .bufferError then
    quiesceChamber (endItemOnCore (b.aer (i.chamber + 1) "Uncorrectable Internal Error" false) k 0x0022) i.chamber 1 (some n)
  else closeTicket (outputSent b k n i off d) k t (onlyStatus 0) 0

section
variable {off : Nat} {d : Bytes} (hc : off + d.length ≤ i.job.outCap)
include hc

/-- An OUTPUT of no bytes, and one of an item whose egress is closed, writes nothing and is done. -/
theorem outputEnded_unwritten (hd : d = [] ∨ b.suppressed n = true) : outputEnded b k t n i off d e = closeTicket b k t (onlyStatus 0) 0 := by
  refine (if_neg (Nat.not_lt.mpr hc)).trans ?_
  rcases hd with hd | hm
  · exact if_pos hd
  · exact ite_eq_left_iff.mpr fun _ => if_pos hm

variable (hd : d ≠ []) (hm : b.suppressed n = false)
include hd hm

theorem outputEnded_noBme (hb : b.bme (i.chamber + 1) = false) :
    outputEnded b k t n i off d e = quiesceChamber (endItemOnCore b k 0x0022) i.chamber 4 (some n) := by
  simp [outputEnded, Nat.not_lt.mpr hc, hd, hm, hb]

variable (hb : b.bme (i.chamber + 1) = true)
include hb

theorem outputEnded_fails (he : e = .bufferError) : outputEnded b k t n i off d e =
    quiesceChamber (endItemOnCore (b.aer (i.chamber + 1) "Uncorrectable Internal Error" false) k 0x0022) i.chamber 1 (some n) := by
  simp [outputEnded, Nat.not_lt.mpr hc, hd, hm, hb, he]

theorem outputEnded_writes (he : e = .issued) : outputEnded b k t n i off d e = closeTicket (outputSent b k n i off d) k t (onlyStatus 0) 0 := by
  simp [outputEnded, Nat.not_lt.mpr hc, hd, hm, hb, he]

end

theorem outputCall_ends (hn : (b.core k).item = some n) (hi : b.item? n = some i) (hs : (b.ticket k t).st = .outstanding)
    (ho : (b.ticket k t).job.opcode = 0x0E00) (hp : (b.ticket k t).job.phase = .ready) :
    outputCall b k t e =
      let j := (b.ticket k t).job
      let off := leField j.operands 0 4
      outputEnded (outputAsked b k (off + j.input.length)) k t n i off j.input e := by
  have item : ((b.core k).item.bind fun n => (b.item? n).map fun i => (n, i)) = some (n, i) := by simp [hn, hi]
  have ready : ¬ ((b.ticket k t).st ≠ .outstanding ∨ (b.ticket k t).job.opcode ≠ opOutput ∨ (b.ticket k t).job.phase ≠ .ready) := by
    simp [hs, ho, hp]
  simp only [outputCall, item, if_neg ready]
  rfl

/-! ### The statement -/

/-- Settles O15: each instruction of a call, of its wait and of the item's end, and each OUTPUT, takes the course that its conditions name. -/
theorem engineCalls : Obligations.EngineCalls := by
  unfold Obligations.EngineCalls
  refine ⟨fun s k cond wd t ch h => ?_, fun s k cond w e h => ?_, fun s k t e n i hr => ?_⟩
  · intro b c a b0 x j leaf bad grant stall placed
    refine ⟨fun ha => completes_issue h rfl (ecall_outside ha), fun ha ht => completes_issue h rfl (ecall_noTicket ha ht), fun ha ht hc => ?_⟩
    have calls {u : Course} (hu : callCourse b0 k t ch wd c x = u) : Completes (.ecall k cond wd) s (takeCourse k u) :=
      completes_issue h rfl ((ecall_eq ha ht hc).trans hu)
    have placed_eq (entry : Bool) : placed entry = callPlaced b0 k t ch wd c x entry := rfl
    refine ⟨fun p hb hi hp => calls (callCourse_page hb hi hp), fun hn => ⟨fun hb hr => calls (callCourse_full hn hb hr), fun hr => ?_⟩⟩
    have asks (g : EntryGrant) (hg : (if callAudits x then entryCheck b0 (.chamber ch) else .granted) = g) :
        Completes (.ecall k cond wd) s (takeCourse k (callGranted b0 k t ch wd c x g)) :=
      calls ((callCourse_asks hn hr).trans (congrArg _ hg))
    have asked (hl : leaf = true) : (if callAudits x then entryCheck b0 (.chamber ch) else .granted) = grant := if_pos hl
    refine ⟨fun hl hg => asks .wait ((asked hl).trans hg), fun hg => ?_, fun st hl hg => ?_⟩
    · rw [placed_eq]
      refine asks .granted ?_
      cases hl : leaf with
      | true => exact (asked hl).trans (hg hl)
      | false => exact if_neg (Bool.eq_false_iff.mp hl)
    · rw [placed_eq]
      exact asks (.refused st) ((asked hl).trans hg)
  · intro b c v st idle
    refine ⟨fun hv ht => completes_issue h rfl (ewait_outstanding hv ht), fun hv ht => completes_issue h rfl (ewait_complete hv ht),
      fun hv => completes_issue h rfl (ewait_free hv), ?_, fun hq => ?_, fun hq hs => completes_issue h rfl (coreDone_badStatus hq hs),
      fun n i hq hs hn hi => ?_⟩
    · exact completes_awake rfl h.live h.cluster ((coreTake_running h.core).trans (runInstr_issues h _))
    · exact completes_issue h rfl (coreDone_outstanding (by simpa [idle] using hq))
    · intro b1 code good o
      have outcome : doneOutcome c = o := doneOutcome_eq c
      have ends {u : Block} (hu : doneEnded b1 n i c e = u) : Completes (.done k cond e) s u :=
        completes_issue h rfl ((coreDone_ends hq hs hn hi).trans (congrArg Course.over_ hu))
      rw [← outcome]
      exact ⟨fun hc => ends (if_pos hc), fun ho hm hb => ends (doneEnded_noBme ho hm hb), fun ho hm hb he => ends (doneEnded_fails ho hm hb he),
        fun ho hm hb he => ends (doneEnded_writes ho hm hb he)⟩
  · intro b x off fin asked ends hn hi hs ho hp
    have row {u : Block} (hu : outputEnded asked k t n i off x.job.input e = u) : Completes (.output k t e) s (settle u) :=
      completes_liveSettle rfl hr ((outputCall_ends hn hi hs ho hp).trans hu)
    exact ⟨fun hc => row (if_pos hc), fun hc hd => row (outputEnded_unwritten hc hd), fun hc hd hm =>
      ⟨fun hb => row (outputEnded_noBme hc hd hm hb), fun hb he => row (outputEnded_fails hc hd hm hb he),
        fun hb he => row (outputEnded_writes hc hd hm hb he)⟩⟩

end Sys2Proof.Machine
end

section
/-! PROOFS. Words of the Chisel set: every operand layout reads back what was put into it, opcode by opcode; and with it the statements on the
words (R282 to R292). -/
namespace Sys2Proof.Machine

open Sys2Proof.Laws

variable {k : Fin 64} {c : BitVec 4} {op : BitVec 6}

/-! ### Operands by format (R286) -/

theorem formN_word (i : Instr) : formN (chiselWord c op 0) i = some i := by
  simp only [formN, reserved, wordField_word, field_whole, Nat.reduceAdd, Nat.reduceLeDiff, ↓reduceIte]

theorem formRR_word (d s : BitVec 4) (f : BitVec 4 → BitVec 4 → Instr) : formRR (chiselWord c op (putRR d s)) f = some (f d s) := by
  simp only [formRR, reserved, wordField_word, fields_putRR, Nat.reduceAdd, Nat.reduceLeDiff, ↓reduceIte]

theorem formRI_word (d : BitVec 4) (imm : BitVec 8) (f : BitVec 4 → BitVec 8 → Instr) :
    formRI (chiselWord c op (putRI d imm)) f = some (f d imm) := by
  simp only [formRI, reserved, wordField_word, fields_putRI, Nat.reduceAdd, Nat.reduceLeDiff, ↓reduceIte]

theorem formR_word (r : BitVec 4) (f : BitVec 4 → Instr) : formR (chiselWord c op (putR r)) f = some (f r) := by
  simp only [formR, reserved, wordField_word, fields_putR, Nat.reduceAdd, Nat.reduceLeDiff, ↓reduceIte]

theorem formP_word (p : BitVec 3) (f : BitVec 3 → Instr) : formP (chiselWord c op (putP p)) f = some (f p) := by
  simp only [formP, reserved, wordField_word, fields_putP, Nat.reduceAdd, Nat.reduceLeDiff, ↓reduceIte]

theorem formWW_word (d s : Reg16) (f : Reg16 → Reg16 → Instr) :
    formWW (chiselWord c op (putRR (codeOf d) (codeOf s))) f = some (f d s) := by
  simp only [formWW, reserved, wordField_word, fields_putRR, reg16Of_codeOf, Nat.reduceAdd, Nat.reduceLeDiff, ↓reduceIte]

theorem formWI_word (d : Reg16) (imm : BitVec 10) (f : Reg16 → BitVec 10 → Instr) :
    formWI (chiselWord c op (codeOf d ++ imm)) f = some (f d imm) := by
  simp only [formWI, wordField_word, fields_addwi, reg16Of_codeOf, Option.map_some, Nat.reduceAdd, Nat.reduceLeDiff]

theorem formLP_word (d : Reg16) (high : Bool) (imm : BitVec 8) (f : Reg16 → Bool → BitVec 8 → Instr) :
    formLP (chiselWord c op (codeOf d ++ BitVec.ofBool high ++ (0 : BitVec 1) ++ imm)) f = some (f d high imm) := by
  simp only [formLP, reserved, wordField_word, fields_lpi, reg16Of_codeOf, ofBool_one, Option.map_some, Nat.reduceAdd, Nat.reduceLeDiff, ↓reduceIte]

theorem formM_word (r : BitVec 4) (p : Ptr) (inc : Bool) (d : BitVec 8) (f : BitVec 4 → Ptr → Bool → BitVec 8 → Instr) :
    formM (chiselWord c op (putM r p inc d)) f = some (f r p inc d) := by
  simp only [formM, wordField_word, fields_putM, ptrOf_ptrBit, ofBool_one, Nat.reduceAdd, Nat.reduceLeDiff]

theorem formMP_word (r : BitVec 3) (p : Ptr) (inc : Bool) (d : BitVec 8) (f : BitVec 3 → Ptr → Bool → BitVec 8 → Instr) :
    formMP (chiselWord c op (putMP r p inc d)) f = some (f r p inc d) := by
  simp only [formMP, reserved, wordField_word, fields_putMP, ptrOf_ptrBit, ofBool_one, Nat.reduceAdd, Nat.reduceLeDiff, ↓reduceIte]

theorem formJ_jump (p : BitVec 3) (jump call : BitVec 3 → Instr) :
    formJ (chiselWord c op ((0 : BitVec 11) ++ p)) jump call = some (jump p) := by
  simp only [formJ, reserved, wordField_word, fields_jr, Nat.reduceAdd, Nat.reduceLeDiff, ↓reduceIte]
  rfl

theorem formJ_call (p : BitVec 3) (jump call : BitVec 3 → Instr) :
    formJ (chiselWord c op ((1 : BitVec 1) ++ (0 : BitVec 10) ++ p)) jump call = some (call p) := by
  simp only [formJ, reserved, wordField_word, fields_callr, Nat.reduceAdd, Nat.reduceLeDiff, ↓reduceIte]

theorem formMD_word (d : BitVec 3) (x y : BitVec 4) (f : BitVec 3 → BitVec 4 → BitVec 4 → Instr) :
    formMD (chiselWord c op (d ++ x ++ y ++ (0 : BitVec 3))) f = some (f d x y) := by
  simp only [formMD, reserved, wordField_word, fields_mul, Nat.reduceAdd, Nat.reduceLeDiff, ↓reduceIte]

theorem formDP_word (d : BitVec 3) (w : BitVec 4) (f : BitVec 3 → BitVec 4 → Instr) :
    formDP (chiselWord c op ((0 : BitVec 1) ++ d ++ w ++ (0 : BitVec 6))) f = some (f d w) := by
  simp only [formDP, reserved, wordField_word, fields_divu, Nat.reduceAdd, Nat.reduceLeDiff, ↓reduceIte]

/-! ### Parts of the opcode table (R290 to R292) -/

theorem decodeChisel_control (o : BitVec 14) (h : op.toNat < 0x08 ∨ 0x2C ≤ op.toNat) :
    decodeChisel k (chiselWord c op o) = decodeControl k (chiselWord c op o) := by
  rw [decodeChisel, wordOp_word]
  rcases h with h | h
  · exact if_pos h
  · simp only [show ¬ op.toNat < 0x08 by omega, show ¬ op.toNat < 0x1C by omega, show ¬ op.toNat < 0x2A by omega, Nat.not_lt.mpr h, if_false]

theorem decodeChisel_byte (o : BitVec 14) (h : 0x08 ≤ op.toNat ∧ op.toNat < 0x1C ∨ 0x2A ≤ op.toNat ∧ op.toNat < 0x2C) :
    decodeChisel k (chiselWord c op o) = decodeByte k (chiselWord c op o) := by
  rw [decodeChisel, wordOp_word]
  rcases h with ⟨hl, hh⟩ | ⟨hl, hh⟩
  · simp only [Nat.not_lt.mpr hl, hh, if_false, if_true]
  · simp only [show ¬ op.toNat < 0x08 by omega, show ¬ op.toNat < 0x1C by omega, Nat.not_lt.mpr hl, hh, if_false, if_true]

theorem decodeChisel_wide (o : BitVec 14) (hl : 0x1C ≤ op.toNat) (hh : op.toNat < 0x2A) :
    decodeChisel k (chiselWord c op o) = decodeWide k (chiselWord c op o) := by
  rw [decodeChisel, wordOp_word]
  simp only [show ¬ op.toNat < 0x08 by omega, Nat.not_lt.mpr hl, hh, if_false, if_true]

theorem cxOpcode_range : ∀ n : BitVec 3, 0x38 ≤ ((7 : BitVec 3) ++ n).toNat := by decide

/-- A word of CX0 to CX7 (R285). -/
theorem decodeControl_cx (n : BitVec 3) (o : BitVec 14) :
    decodeControl k (chiselWord c ((7 : BitVec 3) ++ n) o) = some (.cx k c n o) := by
  have number : wordField (chiselWord c ((7 : BitVec 3) ++ n) o) 14 3 = n :=
    (field_high (c ++ ((7 : BitVec 3) ++ n)) o 14 3 (by omega)).trans
      ((field_low c ((7 : BitVec 3) ++ n) 0 3 (by omega)).trans ((field_low 7 n 0 3 (by omega)).trans (field_whole n)))
  have operand : wordField (chiselWord c ((7 : BitVec 3) ++ n) o) 0 14 = o := (wordField_word c _ o 0 14 (by omega)).trans (field_whole o)
  have code : 0x38 ≤ ((7 : BitVec 3) ++ n).toNat := cxOpcode_range n
  unfold decodeControl
  rw [wordOp_word, wordCond_word, number, operand]
  split
  case h_12 => exact if_pos code
  all_goals omega

/-! ### The statements -/

/-- Settles O5, constructor by constructor: the word's opcode leads to its row of the table, and the row's format reads the operands. -/
theorem chiselRoundTrip : Obligations.ChiselRoundTrip := by
  unfold Obligations.ChiselRoundTrip
  intro i w h
  cases i
  case mov | movi | add | addi | adc | sub | subi | sbc | cmp | cmpi | and | andi | or | ori | xor | xori | tsti | mul | divu | getf | setf =>
    cases h
    rw [decodeChisel_byte _ (by decide)]
    simp only [decodeByte, wordOp_word, wordCond_word, formRR_word, formRI_word, formMD_word, formDP_word, formR_word]
    rfl
  case shl | shr | asr | rol | ror | swap | inc | dec | not | neg =>
    cases h
    rw [decodeChisel_byte _ (by decide)]
    simp only [decodeByte, formU, reserved, wordOp_word, wordCond_word, wordField_word, fields_putU, Nat.reduceAdd, Nat.reduceLeDiff, ↓reduceIte]
    rfl
  case movw | lpi | addw | addwi | ld | st | ldw | stw | movb | cmpb | push | pop | pushw | popw =>
    cases h
    rw [decodeChisel_wide _ (by decide) (by decide)]
    simp only [decodeWide, wordOp_word, wordCond_word, formWW_word, formLP_word, formWI_word, formM_word, formMP_word, formN_word, formR_word,
      formP_word]
    rfl
  case br | call | loop | loopi =>
    cases h
    rw [decodeChisel_control _ (by decide)]
    simp only [decodeControl, wordOp_word, wordCond_word, wordField_word, field_whole, fields_loop, fields_loopi, Nat.reduceAdd, Nat.reduceLeDiff]
    rfl
  case nopInstr | ret | jr | callr | take | ecall | ewait =>
    cases h
    rw [decodeChisel_control _ (by decide)]
    simp only [decodeControl, wordOp_word, wordCond_word, formN_word, formR_word, formJ_jump, formJ_call]
    rfl
  case done k c e =>
    cases e
    case issued =>
      cases h
      rw [decodeChisel_control _ (by decide)]
      simp only [decodeControl, wordOp_word, wordCond_word, formN_word]
      rfl
    case bufferError => cases h
  case cx k c n o =>
    cases h
    rw [decodeChisel_control o (.inr (Nat.le_trans (by decide) (cxOpcode_range n)))]
    exact decodeControl_cx n o
  all_goals cases h

/-- Settles O6: each word is decoded. -/
theorem chiselWords : Obligations.ChiselWords := by
  unfold Obligations.ChiselWords
  intro k
  and_intros <;> rfl

end Sys2Proof.Machine
end

section
/-! PROOFS. The arithmetic of the Chisel set: carries, borrows and overflow, shifts and rotations field by field, quotient and remainder; and with it
the statements on the byte operations and on the 16-bit ones (R289, R291, R292, R294). -/
namespace Sys2Proof.Machine

/-! ### Sums and differences (R289) -/

/-- The signed sum leaves its range exactly when the addends agree in sign and the result does not (R289). -/
theorem aluAdd_overflow {w : Nat} (hw : 0 < w) (x y : BitVec w) (cin : Bool) : (aluAdd x y cin).v = addOverflow x y (aluAdd x y cin).r := by
  obtain ⟨n, rfl⟩ : ∃ n, w = n + 1 := ⟨w - 1, by omega⟩
  have two : 2 ^ (n + 1) = 2 * 2 ^ n := by omega
  have hx := x.isLt
  have hy := y.isLt
  have hc : cin.toNat ≤ 1 := Bool.toNat_le cin
  have sum : (aluAdd x y cin).r.toNat = x.toNat + y.toNat + cin.toNat ∨
      (aluAdd x y cin).r.toNat + 2 ^ (n + 1) = x.toNat + y.toNat + cin.toNat := by
    rw [aluAdd, BitVec.toNat_ofNat]
    rcases Nat.lt_or_ge (x.toNat + y.toNat + cin.toNat) (2 ^ (n + 1)) with h | h
    · exact .inl (Nat.mod_eq_of_lt h)
    · rw [Nat.mod_eq_sub_mod h, Nat.mod_eq_of_lt (by omega)]
      omega
  have bound := (aluAdd x y cin).r.isLt
  generalize (aluAdd x y cin).r = r at *
  simp only [aluAdd, addOverflow, BitVec.toInt_eq_toNat_cond, BitVec.msb_eq_decide, Nat.add_sub_cancel]
  rw [Bool.eq_iff_iff]
  simp only [decide_eq_true_eq, Bool.and_eq_true, beq_iff_eq, bne_iff_ne, ne_eq, decide_eq_decide]
  push_cast
  have power : ((2 ^ n : Nat) : Int) = 2 ^ n := by push_cast; rfl
  rw [two] at *
  split <;> split <;> omega

section
variable {w : Nat} (x y : BitVec w) (b : Bool)

theorem aluAdd_r : (aluAdd x y b).r = x + y + BitVec.ofNat w b.toNat := by
  simp [aluAdd, BitVec.ofNat_add]

/-- The complement of a word, read as signed. -/
theorem toInt_complement (hw : 0 < w) : (~~~y).toInt = -y.toInt - 1 := by
  obtain ⟨n, rfl⟩ : ∃ n, w = n + 1 := ⟨w - 1, by omega⟩
  have two : 2 ^ (n + 1) = 2 * 2 ^ n := by omega
  have hy := y.isLt
  rw [BitVec.toInt_eq_toNat_cond, BitVec.toInt_eq_toNat_cond, BitVec.toNat_not]
  push_cast
  have power : ((2 ^ n : Nat) : Int) = 2 ^ n := by push_cast; rfl
  split <;> split <;> omega

/-- A difference is the sum with the complement, and the borrow is the carry's absence. -/
theorem aluSub_r : (aluSub x y b).r = (aluAdd x (~~~y) (!b)).r := by
  rw [aluAdd_r, BitVec.not_eq_neg_add]
  cases b
  · simp [aluSub]
    ring
  · simp [aluSub]
    ring

theorem aluSub_v (hw : 0 < w) : (aluSub x y b).v = (aluAdd x (~~~y) (!b)).v := by
  simp only [aluSub, aluAdd, toInt_complement y hw]
  have : x.toInt - y.toInt - b.toNat = x.toInt + (-y.toInt - 1) + (!b).toNat := by cases b <;> simp <;> omega
  rw [this]

theorem subOverflow_complement (hw : 0 < w) (r : BitVec w) : subOverflow x y r = addOverflow x (~~~y) r := by
  rw [subOverflow, addOverflow, BitVec.msb_not, decide_eq_true hw]
  cases x.msb <;> cases y.msb <;> cases r.msb <;> rfl

/-- The signed difference with a borrow leaves its range exactly when the operands differ in sign and the result has the subtrahend's (R289). -/
theorem aluSub_overflow_borrow (hw : 0 < w) : (aluSub x y b).v = subOverflow x y (aluSub x y b).r := by
  rw [aluSub_v x y b hw, subOverflow_complement x y hw, aluSub_r, aluAdd_overflow hw]

/-- Z, N, C and V of a sum. -/
theorem all_aluAdd (hw : 0 < w) (f : Flags) : f.all (aluAdd x y b) = sumFlags f x y (aluAdd x y b).r b.toNat := by
  rw [Flags.all, aluAdd_overflow hw]
  rfl

/-- Z, N, C and V of a difference. -/
theorem all_aluSub (hw : 0 < w) (f : Flags) : f.all (aluSub x y b) = diffFlags f x y (aluSub x y b).r b.toNat := by
  rw [Flags.all, aluSub_overflow_borrow x y b hw]
  rfl

theorem chained_eq (f : Flags) (a : Alu w) : f.chained a = zChained f (f.all a) := rfl

theorem zn_eq (f : Flags) (r : BitVec w) : f.zn r = logicFlags f r := rfl

end

/-! ### Bytes: results and flags (R291) -/

section
variable (f : Flags) (x y : Byte)

theorem byteAdd_eq : byteAdd f x y = (x + y, sumFlags f x y (x + y) 0) := by
  have r : (aluAdd x y false).r = x + y := (aluAdd_r x y false).trans (by simp)
  rw [byteAdd, all_aluAdd x y false (by decide), r]
  rfl

theorem byteAdc_eq : byteAdc f x y =
    (x + y + BitVec.ofNat 8 f.c.toNat, zChained f (sumFlags f x y (x + y + BitVec.ofNat 8 f.c.toNat) f.c.toNat)) := by
  rw [byteAdc, chained_eq, all_aluAdd x y f.c (by decide), aluAdd_r]

theorem byteSub_eq : byteSub f x y = (x - y, diffFlags f x y (x - y) 0) :=
  Prod.ext (by simp [byteSub, aluSub]) (byteSub_flags f x y)

theorem byteSbc_eq : byteSbc f x y =
    (x - y - BitVec.ofNat 8 (1 - f.c.toNat), zChained f (diffFlags f x y (x - y - BitVec.ofNat 8 (1 - f.c.toNat)) (1 - f.c.toNat))) := by
  have borrow : 1 - f.c.toNat = (!f.c).toNat := by cases f.c <;> rfl
  rw [byteSbc, chained_eq, all_aluSub x y (!f.c) (by decide), borrow]
  rfl

theorem byteAnd_eq : byteAnd f x y = (x &&& y, logicFlags f (x &&& y)) := rfl

theorem byteOr_eq : byteOr f x y = (x ||| y, logicFlags f (x ||| y)) := rfl

theorem byteXor_eq : byteXor f x y = (x ^^^ y, logicFlags f (x ^^^ y)) := rfl

end

section
variable {s : State} {k : Fin 64} {cond : BitVec 4} {i : Instr}

/-- An instruction that changes its core alone leaves that change (R291, R292). -/
theorem completes_onCore {cost : Nat} {f g : Core → Core} (h : Issues s k cond) (hi : exec i s = run s (chiselRow k cond (onCore k cost f)))
    (hfg : ∀ c, f c = g c) : Completes i s (issued s.blk k cost g) := by
  obtain rfl : f = g := funext hfg
  exact completes_issue h hi rfl

end

/-- The core with a result in its register and its flags. -/
def Core.taking (c : Core) (d : BitVec 4) (r : Byte × Flags) : Core := { c.setReg d r.1 with flags := r.2 }

/-- The core with the flags of a result that is discarded. -/
def Core.flagged (c : Core) (r : Byte × Flags) : Core := { c with flags := r.2 }

/-- Settles O7: each instruction changes its core as the result and the flags of its operation say. -/
theorem byteArithmetic : Obligations.ByteArithmetic := by
  unfold Obligations.ByteArithmetic
  intro s k cond d w imm h
  have on {i : Instr} {f g : Core → Core} (hi : exec i s = run s (chiselRow k cond (onCore k 1 f))) (hfg : ∀ c, f c = g c) :
      Completes i s (issued s.blk k 1 g) := completes_onCore h hi hfg
  exact ⟨on rfl fun _ => rfl, on rfl fun _ => rfl,
    on rfl fun c => congrArg (c.taking d) (byteAdd_eq ..), on rfl fun c => congrArg (c.taking d) (byteAdd_eq ..),
    on rfl fun c => congrArg (c.taking d) (byteAdc_eq ..),
    on rfl fun c => congrArg (c.taking d) (byteSub_eq ..), on rfl fun c => congrArg (c.taking d) (byteSub_eq ..),
    on rfl fun c => congrArg (c.taking d) (byteSbc_eq ..),
    on rfl fun c => congrArg c.flagged (byteSub_eq ..), on rfl fun c => congrArg c.flagged (byteSub_eq ..)⟩

/-! ### Shifts, rotations, counts and the flag byte, bit by bit (R289, R291) -/

section
variable (x : Byte)

theorem shl_fields : x <<< 1 = (x.extractLsb' 0 7 ++ 0#1 : BitVec 8) := by
  ext i hi
  simp
  grind

theorem shr_fields : x >>> 1 = (0#1 ++ x.extractLsb' 1 7 : BitVec 8) := by
  ext i hi
  simp
  grind

theorem asr_fields : x.sshiftRight 1 = (BitVec.ofBool x.msb ++ x.extractLsb' 1 7 : BitVec 8) := by
  ext i hi
  simp [BitVec.getElem_sshiftRight]
  grind

theorem swapNibbles_fields : swapNibbles x = (x.extractLsb' 0 4 ++ x.extractLsb' 4 4 : BitVec 8) := by
  ext i hi
  simp [swapNibbles]
  grind

end

theorem rol_fields : ∀ (x : Byte) (c : Bool), (x <<< 1) ||| BitVec.ofNat 8 c.toNat = (x.extractLsb' 0 7 ++ BitVec.ofBool c : BitVec 8) := by
  decide

theorem ror_fields : ∀ (x : Byte) (c : Bool), (x >>> 1) ||| BitVec.ofNat 8 (128 * c.toNat) = (BitVec.ofBool c ++ x.extractLsb' 1 7 : BitVec 8) := by
  decide

theorem increment_overflow : ∀ x : Byte, (aluAdd x 1 false).v = decide (x = 0x7F) := by decide

theorem decrement_overflow : ∀ x : Byte, (aluSub x 1 false).v = decide (x = 0x80) := by decide

theorem flagByte_fields (f : Flags) : f.byte =
    (0#3 ++ BitVec.ofBool f.last ++ BitVec.ofBool f.v ++ BitVec.ofBool f.n ++ BitVec.ofBool f.c ++ BitVec.ofBool f.z : BitVec 8) := by
  have all : ∀ z c n v last : Bool, BitVec.ofNat 8 (z.toNat + 2 * c.toNat + 4 * n.toNat + 8 * v.toNat + 16 * last.toNat) =
      (0#3 ++ BitVec.ofBool last ++ BitVec.ofBool v ++ BitVec.ofBool n ++ BitVec.ofBool c ++ BitVec.ofBool z : BitVec 8) := by decide
  exact all f.z f.c f.n f.v f.last

section
variable (f : Flags) (x : Byte)

theorem unaryShl_eq : unaryShl f x = ((x.extractLsb' 0 7 ++ 0#1 : BitVec 8),
    { logicFlags f (x.extractLsb' 0 7 ++ 0#1 : BitVec 8) with c := x.getLsbD 7 }) := by
  simp only [unaryShl, shl_fields, zn_eq]
  rfl

theorem unaryShr_eq : unaryShr f x = ((0#1 ++ x.extractLsb' 1 7 : BitVec 8),
    { logicFlags f (0#1 ++ x.extractLsb' 1 7 : BitVec 8) with c := x.getLsbD 0 }) := by
  simp only [unaryShr, shr_fields, zn_eq]

theorem unaryAsr_eq : unaryAsr f x = ((BitVec.ofBool x.msb ++ x.extractLsb' 1 7 : BitVec 8),
    { logicFlags f (BitVec.ofBool x.msb ++ x.extractLsb' 1 7 : BitVec 8) with c := x.getLsbD 0 }) := by
  simp only [unaryAsr, asr_fields, zn_eq]

theorem unaryRol_eq : unaryRol f x = ((x.extractLsb' 0 7 ++ BitVec.ofBool f.c : BitVec 8),
    { logicFlags f (x.extractLsb' 0 7 ++ BitVec.ofBool f.c : BitVec 8) with c := x.getLsbD 7 }) := by
  simp only [unaryRol, rol_fields, zn_eq]
  rfl

theorem unaryRor_eq : unaryRor f x = ((BitVec.ofBool f.c ++ x.extractLsb' 1 7 : BitVec 8),
    { logicFlags f (BitVec.ofBool f.c ++ x.extractLsb' 1 7 : BitVec 8) with c := x.getLsbD 0 }) := by
  simp only [unaryRor, ror_fields, zn_eq]

theorem unarySwap_eq : unarySwap f x =
    ((x.extractLsb' 0 4 ++ x.extractLsb' 4 4 : BitVec 8), logicFlags f (x.extractLsb' 0 4 ++ x.extractLsb' 4 4 : BitVec 8)) := by
  simp only [unarySwap, swapNibbles_fields, zn_eq]

theorem unaryInc_eq : unaryInc f x = (x + 1, { logicFlags f (x + 1) with v := decide (x = 0x7F) }) := by
  have r : (aluAdd x 1 false).r = x + 1 := (aluAdd_r x 1 false).trans (BitVec.add_zero _)
  simp only [unaryInc, r, increment_overflow, zn_eq]

theorem unaryDec_eq : unaryDec f x = (x - 1, { logicFlags f (x - 1) with v := decide (x = 0x80) }) := by
  have r : (aluSub x 1 false).r = x - 1 := BitVec.sub_zero _
  simp only [unaryDec, r, decrement_overflow, zn_eq]

theorem unaryNot_eq : unaryNot f x = (~~~x, logicFlags f (~~~x)) := rfl

theorem unaryNeg_eq : unaryNeg f x = (0 - x, diffFlags f 0 x (0 - x) 0) := by
  have r : (aluSub 0 x false).r = 0 - x := BitVec.sub_zero _
  simp only [unaryNeg, all_aluSub 0 x false (show 0 < 8 by decide), r]
  rfl
end

/-- Settles O8, as O7, with the shifts and rotations read field by field. -/
theorem byteLogic : Obligations.ByteLogic := by
  unfold Obligations.ByteLogic
  intro s k cond d w imm h put logic
  have on {i : Instr} {f g : Core → Core} (hi : exec i s = run s (chiselRow k cond (onCore k 1 f))) (hfg : ∀ c, f c = g c) :
      Completes i s (issued s.blk k 1 g) := completes_onCore h hi hfg
  exact ⟨on rfl fun c => congrArg (c.taking d) (byteAnd_eq ..), on rfl fun c => congrArg (c.taking d) (byteAnd_eq ..),
    on rfl fun c => congrArg (c.taking d) (byteOr_eq ..), on rfl fun c => congrArg (c.taking d) (byteOr_eq ..),
    on rfl fun c => congrArg (c.taking d) (byteXor_eq ..), on rfl fun c => congrArg (c.taking d) (byteXor_eq ..),
    on rfl fun c => congrArg c.flagged (byteAnd_eq ..), on rfl fun c => congrArg (c.taking d) (unaryShl_eq ..),
    on rfl fun c => congrArg (c.taking d) (unaryShr_eq ..), on rfl fun c => congrArg (c.taking d) (unaryAsr_eq ..),
    on rfl fun c => congrArg (c.taking d) (unaryRol_eq ..), on rfl fun c => congrArg (c.taking d) (unaryRor_eq ..),
    on rfl fun c => congrArg (c.taking d) (unarySwap_eq ..), on rfl fun c => congrArg (c.taking d) (unaryInc_eq ..),
    on rfl fun c => congrArg (c.taking d) (unaryDec_eq ..), on rfl fun c => congrArg (c.taking d) (unaryNot_eq ..),
    on rfl fun c => congrArg (c.taking d) (unaryNeg_eq ..), on rfl fun c => congrArg (c.setReg d) (flagByte_fields c.flags),
    on rfl fun _ => rfl⟩

/-! ### MUL, DIVU and the 16-bit operations (R292, R294) -/

theorem mul_eq (c : Core) (d : BitVec 3) (x y : BitVec 4) :
    c.mul d x y = { c.setPair d ((c.reg x).zeroExtend 16 * (c.reg y).zeroExtend 16) with
      flags := logicFlags c.flags ((c.reg x).zeroExtend 16 * (c.reg y).zeroExtend 16) } := by
  have product : BitVec.ofNat 16 ((c.reg x).toNat * (c.reg y).toNat) = (c.reg x).zeroExtend 16 * (c.reg y).zeroExtend 16 := by
    rw [BitVec.ofNat_mul, BitVec.ofNat_toNat, BitVec.ofNat_toNat]
  simp only [Core.mul, product, zn_eq]

theorem divu_zero {c : Core} {w : BitVec 4} (hw : c.reg w = 0) (d : BitVec 3) :
    c.divu d w = { c.setPair d 0xFFFF with flags := { logicFlags c.flags (0xFFFF : BitVec 16) with v := true } } := by
  have zero : (c.reg w).toNat = 0 := congrArg BitVec.toNat hw
  simp only [Core.divu, zero, if_true]
  rfl

theorem divu_nonzero {c : Core} {w : BitVec 4} (hw : c.reg w ≠ 0) (d : BitVec 3) :
    c.divu d w = { (c.setPair d (c.pair d / (c.reg w).zeroExtend 16)).setReg w ((c.pair d % (c.reg w).zeroExtend 16).setWidth 8) with
      flags := { logicFlags c.flags (c.pair d / (c.reg w).zeroExtend 16) with v := false } } := by
  have divisor : ((c.reg w).zeroExtend 16).toNat = (c.reg w).toNat := BitVec.toNat_setWidth_of_le (by decide)
  have quotient : BitVec.ofNat 16 ((c.pair d).toNat / (c.reg w).toNat) = c.pair d / (c.reg w).zeroExtend 16 := by
    apply BitVec.eq_of_toNat_eq
    rw [BitVec.toNat_ofNat, BitVec.toNat_udiv, divisor]
    exact Nat.mod_eq_of_lt (Nat.lt_of_le_of_lt (Nat.div_le_self _ _) (c.pair d).isLt)
  have remainder : BitVec.ofNat 8 ((c.pair d).toNat % (c.reg w).toNat) = (c.pair d % (c.reg w).zeroExtend 16).setWidth 8 := by
    apply BitVec.eq_of_toNat_eq
    rw [BitVec.toNat_ofNat, BitVec.toNat_setWidth, BitVec.toNat_umod, divisor]
  have nonzero : (c.reg w).toNat ≠ 0 := fun z => hw (BitVec.eq_of_toNat_eq z)
  simp only [Core.divu, if_neg nonzero, quotient, remainder, zn_eq]

theorem addWord_eq (c : Core) (e : Reg16) (v : BitVec 16) :
    c.addWord e v = { c.setReg16 e (c.reg16 e + v) with flags := sumFlags c.flags (c.reg16 e) v (c.reg16 e + v) 0 } := by
  have r : (aluAdd (c.reg16 e) v false).r = c.reg16 e + v := (aluAdd_r _ _ false).trans (BitVec.add_zero _)
  simp only [Core.addWord, all_aluAdd _ _ false (show 0 < 16 by decide), r]
  rfl

/-- Settles O9; a division by a zero register apart from the others. -/
theorem wideOperations : Obligations.WideOperations := by
  unfold Obligations.WideOperations
  intro s k cond x y w d e g high imm imm10 h
  refine ⟨completes_onCore h rfl fun c => mul_eq c d x y, completes_onCore h rfl fun c => ?_, completes_onCore h rfl fun c => rfl,
    completes_onCore h rfl fun c => rfl, completes_onCore h rfl fun c => addWord_eq c e _, completes_onCore h rfl fun c => addWord_eq c e _⟩
  by_cases hw : c.reg w = 0
  · exact (divu_zero hw d).trans (if_pos hw).symm
  · exact (divu_nonzero hw d).trans (if_neg hw).symm

end Sys2Proof.Machine
end

section
/-! PROOFS. Pushes and pops through the Ferrule, the frames of calls and returns, and with them the statement on the stack (R260, R293, R300,
R302). -/
namespace Sys2Proof.Machine

variable {b : Block} {s : State} {k n : Nat} {d : Bytes} {cond : BitVec 4}

/-! ### What a course leaves (R296, R299, R301) -/

section
variable {i : Instr} {k : Fin 64} {f : Block → Course} {t : Block} (h : Issues s k cond) (hi : exec i s = run s (chiselRow k cond f))
include h hi

theorem completes_next {cost : Nat} (hf : f (decoded s.blk k) = .next t cost) : Completes i s (goOn t k cost) := completes_issue h hi hf

theorem completes_jump {target : BitVec 16} {cost : Nat} (hf : f (decoded s.blk k) = .jump t target cost) :
    Completes i s (branched t k target cost) := completes_issue h hi hf

theorem completes_fault {x : FaultKind} (hf : f (decoded s.blk k) = .fault t x) : Completes i s (recipeFault t k x) := completes_issue h hi hf

end

/-! ### An access leaves the cores as they are (R260, R416 to R421) -/

theorem core_of_chisel {t : Block} (h : t.chisel = b.chisel) (k : Nat) : t.core k = b.core k := by
  rw [Block.core, Block.core, h]

theorem ferruleRecord_chisel (b : Block) (m code : Nat) (cls : RClass) (who : Nat) : (ferruleRecord b m code cls who).chisel = b.chisel := rfl

theorem ferruleEscalate_chisel (b : Block) (m : Nat) (who : Option Nat) : (ferruleEscalate b m who).2.chisel = b.chisel := by
  unfold ferruleEscalate
  split_ifs
  · split
    · split_ifs <;> rfl
    · rfl
  · cases who <;> rfl
  · rfl
  · rfl

theorem ferruleViolation_chisel (b : Block) (m : Nat) (kind : AccessKind) (addr : Nat) (who : Option Nat) :
    (ferruleViolation b m kind addr who).chisel = b.chisel := by
  simp only [ferruleViolation]
  split
  · simp [ferruleRecord_chisel, ferruleEscalate_chisel]
  · split_ifs <;> simp [ferruleRecord_chisel, ferruleEscalate_chisel]

/-- An access of a core leaves the cores as they are, admitted or not. -/
theorem coreAdmit_chisel (b : Block) (k : Nat) (kind : AccessKind) (a : Nat) : (coreAdmit b k kind a).2.chisel = b.chisel := by
  unfold coreAdmit
  split_ifs
  · rfl
  · exact ferruleViolation_chisel ..

/-! ### The stack (R293, R302) -/

/-- The address that a push of `n` bytes writes. -/
def pushAddr (b : Block) (k n : Nat) : Nat := ((b.core k).sp - BitVec.ofNat 16 n).toNat

/-- The device after a push of `d`, `n` bytes that have room: SP goes down, and scratch holds the bytes where the Ferrule admits the access. -/
def pushed (b : Block) (k n : Nat) (d : Bytes) : Block :=
  (coreAdmit b k .write (pushAddr b k n)).2.modCore k fun c =>
    { c with sp := c.sp - BitVec.ofNat 16 n
             scratch := if (coreAdmit b k .write (pushAddr b k n)).1 then Memory.writeBytes c.scratch (pushAddr b k n) d else c.scratch }

/-- The device after a pop of `n` bytes from scratch. -/
def popped (b : Block) (k n : Nat) : Block :=
  (coreAdmit b k .read (b.core k).sp.toNat).2.modCore k fun c => { c with sp := c.sp + BitVec.ofNat 16 n }

/-- A byte of what a pop reads, counted from SP. -/
def stackByte (b : Block) (k i : Nat) : Byte :=
  if (coreAdmit b k .read (b.core k).sp.toNat).1 then Memory.read (b.core k).scratch ((b.core k).sp.toNat + i) else 0

theorem corePush_room (hd : d.length = n) (h : pushAddr b k n + n ≤ 0x8000) : corePush k d b = some (pushed b k n d) := by
  subst hd
  exact if_pos h

theorem corePush_full (hd : d.length = n) (h : ¬ pushAddr b k n + n ≤ 0x8000) : corePush k d b = none := by
  subst hd
  exact if_neg h

/-- The bytes that a pop delivers: those of scratch, or zeros where the Ferrule denies the access. -/
theorem stackBytes (b : Block) (k n : Nat) :
    (if (coreAdmit b k .read (b.core k).sp.toNat).1 then Memory.readBytes (b.core k).scratch (b.core k).sp.toNat n else zeros n) =
      (List.range n).map (stackByte b k) := by
  unfold stackByte
  split
  · rfl
  · simp [zeros, List.map_const']

theorem corePop_within (h : (b.core k).sp.toNat + n ≤ 0x8000) :
    corePop k n b = some ((List.range n).map (stackByte b k), popped b k n) := by
  rw [← stackBytes]
  exact if_pos h

theorem corePop_beyond (h : 0x8000 < (b.core k).sp.toNat + n) : corePop k n b = none := if_neg (Nat.not_le.mpr h)

theorem pushed_depth (b : Block) (k n : Nat) (d : Bytes) : ((pushed b k n d).core k).depth = (b.core k).depth := by
  rw [pushed, core_modCore_self, core_of_chisel (coreAdmit_chisel ..)]

theorem popped_depth (b : Block) (k n : Nat) : ((popped b k n).core k).depth = (b.core k).depth := by
  rw [popped, core_modCore_self, core_of_chisel (coreAdmit_chisel ..)]

theorem coursePushBytes_room (hd : d.length = n) (h : pushAddr b k n + n ≤ 0x8000) :
    coursePushBytes k d b = .next (coreEvent (pushed b k n d) k 0x007) 1 := by
  rw [coursePushBytes, corePush_room hd h]

theorem coursePushBytes_full (hd : d.length = n) (h : ¬ pushAddr b k n + n ≤ 0x8000) : coursePushBytes k d b = .fault b .stack := by
  rw [coursePushBytes, corePush_full hd h]

theorem coursePush_room (r : BitVec 4) (h : pushAddr b k 1 + 1 ≤ 0x8000) :
    coursePush k r b = .next (coreEvent (pushed b k 1 [(b.core k).reg r]) k 0x007) 1 := coursePushBytes_room rfl h

theorem coursePush_full (r : BitVec 4) (h : ¬ pushAddr b k 1 + 1 ≤ 0x8000) : coursePush k r b = .fault b .stack := coursePushBytes_full rfl h

theorem coursePushw_room (q : BitVec 3) (h : pushAddr b k 2 + 2 ≤ 0x8000) :
    coursePushw k q b = .next (coreEvent (pushed b k 2 [(b.core k).reg (pairLo q), (b.core k).reg (pairHi q)]) k 0x007) 1 := by
  rw [coursePushw, wordBytes_pair]
  exact coursePushBytes_room rfl h

theorem coursePushw_full (q : BitVec 3) (h : ¬ pushAddr b k 2 + 2 ≤ 0x8000) : coursePushw k q b = .fault b .stack := coursePushBytes_full rfl h

theorem byteAt_stack {i : Nat} (h : i < n) : byteAt ((List.range n).map (stackByte b k)) i = stackByte b k i := by
  simp [byteAt, List.getD, h]

theorem coursePopBytes_within {g : Bytes → Core → Core} {f : Core → Core} (h : (b.core k).sp.toNat + n ≤ 0x8000)
    (hg : ∀ c, g ((List.range n).map (stackByte b k)) c = f c) :
    coursePopBytes k n g b = .next ((coreEvent (popped b k n) k 0x006).modCore k f) 1 := by
  obtain rfl : g ((List.range n).map (stackByte b k)) = f := funext hg
  rw [coursePopBytes, corePop_within h]

theorem coursePop_within (r : BitVec 4) (h : (b.core k).sp.toNat + 1 ≤ 0x8000) :
    coursePop k r b = .next ((coreEvent (popped b k 1) k 0x006).modCore k fun c => c.setReg r (stackByte b k 0)) 1 :=
  coursePopBytes_within h fun c => by rw [byteAt_stack (by decide)]

theorem coursePopw_within (q : BitVec 3) (h : (b.core k).sp.toNat + 2 ≤ 0x8000) :
    coursePopw k q b = .next ((coreEvent (popped b k 2) k 0x006).modCore k fun c => c.setPair q (stackByte b k 1 ++ stackByte b k 0)) 1 :=
  coursePopBytes_within h fun c => by rw [ofNat_leField_two, byteAt_stack (by decide), byteAt_stack (by decide)]

theorem coursePopBytes_beyond (g : Bytes → Core → Core) (h : 0x8000 < (b.core k).sp.toNat + n) : coursePopBytes k n g b = .fault b .stack := by
  rw [coursePopBytes, corePop_beyond h]

theorem coursePop_beyond (r : BitVec 4) (h : 0x8000 < (b.core k).sp.toNat + 1) : coursePop k r b = .fault b .stack :=
  coursePopBytes_beyond _ h

theorem coursePopw_beyond (q : BitVec 3) (h : 0x8000 < (b.core k).sp.toNat + 2) : coursePopw k q b = .fault b .stack :=
  coursePopBytes_beyond _ h

/-- The frame of a call (R302): the return address and the frame base. -/
def callFrame (c : Core) : Bytes := [(c.pc + 1).extractLsb' 0 8, (c.pc + 1).extractLsb' 8 8, BitVec.ofNat 8 c.base]

theorem coreCall_room (target : BitVec 16) (hl : (b.core k).atLoopEnd = false) (h : pushAddr b k 3 + 3 ≤ 0x8000) :
    coreCall k target b = .call ((pushed b k 3 (callFrame (b.core k))).modCore k fun c => { c with base := c.depth }) target := by
  have room : corePush k (callFrame (b.core k)) b = some (pushed b k 3 (callFrame (b.core k))) := corePush_room rfl h
  simp only [callFrame] at room ⊢
  simp only [coreCall, hl, Bool.false_eq_true, if_false, room]

theorem coreCall_full (target : BitVec 16) (hl : (b.core k).atLoopEnd = false) (h : ¬ pushAddr b k 3 + 3 ≤ 0x8000) :
    coreCall k target b = .fault b .stack := by
  have full : corePush k (callFrame (b.core k)) b = none := corePush_full rfl h
  simp only [callFrame] at full
  simp only [coreCall, hl, Bool.false_eq_true, if_false, full]

theorem coreCall_loopEnd (target : BitVec 16) (hl : (b.core k).atLoopEnd = true) : coreCall k target b = .fault b .loop := by
  simp only [coreCall, hl, if_true]

theorem coreRet_open (h : (b.core k).base < (b.core k).depth) : coreRet k b = .fault b .loop := if_pos h

section
variable (hb : (b.core k).depth ≤ (b.core k).base)
include hb

theorem coreRet_beyond (h : 0x8000 < (b.core k).sp.toNat + 3) : coreRet k b = .fault b .stack := by
  simp only [coreRet, if_neg (Nat.not_lt.mpr hb), corePop_beyond h]

theorem coreRet_deep (h : (b.core k).sp.toNat + 3 ≤ 0x8000) (hf : (b.core k).depth < (stackByte b k 2).toNat) :
    coreRet k b = .fault b .loop := by
  simp only [coreRet, if_neg (Nat.not_lt.mpr hb), corePop_within h]
  exact if_pos hf

theorem coreRet_frame (h : (b.core k).sp.toNat + 3 ≤ 0x8000) (hf : (stackByte b k 2).toNat ≤ (b.core k).depth) :
    coreRet k b = .jump ((popped b k 3).modCore k fun c => { c with base := (stackByte b k 2).toNat }) (stackByte b k 1 ++ stackByte b k 0) 3 := by
  simp only [coreRet, if_neg (Nat.not_lt.mpr hb), corePop_within h, ofNat_leField_two]
  exact if_neg (Nat.not_lt.mpr hf)

end

/-- Settles O11: a push, a pop, a call and a return each by its room in scratch and by the levels open. -/
theorem stackInstructions : Obligations.StackInstructions := by
  unfold Obligations.StackInstructions
  intro s k cond r q off h b c sp pushed popped byte rooms calls
  have call {i : Instr} {t : BitVec 16} {f : Block → Course} (hi : exec i s = run s (chiselRow k cond f)) (hf : f b = coreCall k t b) : calls i t :=
    ⟨fun hl hr => completes_issue h hi (hf.trans (coreCall_room t hl hr)), fun hl => completes_fault h hi (hf.trans (coreCall_loopEnd t hl)),
      fun hl hr => completes_fault h hi (hf.trans (coreCall_full t hl hr))⟩
  refine ⟨fun hr => ?_, fun hr => ?_, fun hr => ?_, fun hr => ?_, fun hs => ?_, fun hs => ?_, fun hs => ?_, fun hs => ?_,
    call rfl rfl, call rfl rfl, fun hb hs hf => ?_, fun hb hs hf => ?_, fun hb => ?_, fun hb hs => ?_⟩
  · exact completes_next h rfl (coursePush_room r hr)
  · exact completes_fault h rfl (coursePush_full r hr)
  · exact completes_next h rfl (coursePushw_room q hr)
  · exact completes_fault h rfl (coursePushw_full q hr)
  · exact completes_next h rfl (coursePop_within r hs)
  · exact completes_fault h rfl (coursePop_beyond r hs)
  · exact completes_next h rfl (coursePopw_within q hs)
  · exact completes_fault h rfl (coursePopw_beyond q hs)
  · exact completes_jump h rfl (coreRet_frame hb hs hf)
  · exact completes_fault h rfl (coreRet_deep hb hs hf)
  · exact completes_fault h rfl (coreRet_open hb)
  · exact completes_fault h rfl (coreRet_beyond hb hs)

end Sys2Proof.Machine
end

section
/-! PROOFS. The loop instructions, the ends of loops and the levels that a transfer closes, and with them the statement on control (R290, R297 to
R301, R303). -/
namespace Sys2Proof.Machine

variable {b : Block} {s : State} {k : Nat} {cond : BitVec 4}

/-! ### LOOP and LOOPI (R298, R303) -/

section
variable {off : Nat} {n : BitVec 16}

/-- `e` lies in the range of the recipe that the core runs (R266). -/
abbrev InRange (c : Core) (e : Nat) : Prop := c.entry ≤ e ∧ e < c.entry + c.len

theorem inRecipe_iff {c : Core} {a : Nat} : c.inRecipe a = true ↔ InRange c a := decide_eq_true_iff

/-- The new level's end lies within the innermost level above the frame base, if one is open (R303). -/
abbrev NestsAt (c : Core) (e : Nat) : Prop := c.base < c.depth → e ≤ (c.loopE (c.depth - 1)).toNat

theorem nestsAt_iff {c : Core} {e : Nat} : NestsAt c e ↔ ¬ (decide (c.base < c.depth) && decide ((c.loopE (c.depth - 1)).toNat < e)) = true := by
  simp [NestsAt]

/-- An empty body, or one that ends outside the recipe. -/
theorem coreLoop_outside (h : off = 0 ∨ ¬ InRange (b.core k) ((b.core k).pc.toNat + off)) :
    coreLoop k off n b = .fault b .loop := by
  rw [← inRecipe_iff] at h
  exact if_pos (h.imp id fun h => by simp [h])

section
variable (h0 : 0 < off) (hin : InRange (b.core k) ((b.core k).pc.toNat + off))
include h0 hin

theorem coreLoop_inside : coreLoop k off n b =
    if n = 0 then .skip b (BitVec.ofNat 16 ((b.core k).pc.toNat + off + 1)) 2
    else if 4 ≤ (b.core k).depth ∨ ¬ NestsAt (b.core k) ((b.core k).pc.toNat + off) then .fault b .loop
    else .next (b.modCore k fun c => c.openLevel (c.pc + 1) (BitVec.ofNat 16 ((b.core k).pc.toNat + off)) n) 1 := by
  have valid : ¬ (off = 0 ∨ (!(b.core k).inRecipe ((b.core k).pc.toNat + off)) = true) := by
    simp [Nat.ne_of_gt h0, inRecipe_iff.mpr hin]
  have refused : 4 ≤ (b.core k).depth ∨ (decide ((b.core k).base < (b.core k).depth) &&
      decide (((b.core k).loopE ((b.core k).depth - 1)).toNat < (b.core k).pc.toNat + off)) = true ↔
      4 ≤ (b.core k).depth ∨ ¬ NestsAt (b.core k) ((b.core k).pc.toNat + off) := or_congr Iff.rfl (by rw [nestsAt_iff, not_not])
  exact (if_neg valid).trans (if_congr Iff.rfl rfl (if_congr refused rfl (congrArg (Course.next · 1) (modCore_congr rfl))))

theorem coreLoop_opens (hn : n ≠ 0) (hd : (b.core k).depth < 4) (hin' : NestsAt (b.core k) ((b.core k).pc.toNat + off)) :
    coreLoop k off n b = .next (b.modCore k fun c => c.openLevel (c.pc + 1) (BitVec.ofNat 16 ((b.core k).pc.toNat + off)) n) 1 := by
  rw [coreLoop_inside h0 hin, if_neg hn, if_neg (not_or.mpr ⟨Nat.not_le.mpr hd, not_not.mpr hin'⟩)]

theorem coreLoop_noPass (hn : n = 0) : coreLoop k off n b = .skip b (BitVec.ofNat 16 ((b.core k).pc.toNat + off + 1)) 2 := by
  rw [coreLoop_inside h0 hin, if_pos hn]

theorem coreLoop_refused (hn : n ≠ 0) (h : 4 ≤ (b.core k).depth ∨ ¬ NestsAt (b.core k) ((b.core k).pc.toNat + off)) :
    coreLoop k off n b = .fault b .loop := by
  rw [coreLoop_inside h0 hin, if_neg hn, if_pos h]

end
end

/-- A loop of no pass that ends no enclosing body goes on beyond its own. -/
theorem takeCourse_skips (h : (b.core k).atLoopEnd = false) (t : BitVec 16) (cost : Nat) :
    takeCourse k (.skip b t cost) = b.modCore k fun c => charge { c with pc := t } cost := if_neg (Bool.eq_false_iff.mp h)

theorem takeCourse_skipsAtEnd (h : (b.core k).atLoopEnd = true) (t : BitVec 16) (cost : Nat) :
    takeCourse k (.skip b t cost) = goOn b k cost := if_pos h

/-! ### The loop ends at an instruction (R299) -/

section
variable {c : Core} {a : BitVec 16} {m : Nat}

/-- The instruction at `a` ends the innermost level above the frame base. -/
abbrev EndsLevel (c : Core) (a : BitVec 16) : Prop := c.base < c.depth ∧ c.loopE (c.depth - 1) = a

theorem advance_off (h : ¬ EndsLevel c a) : Core.advance a (m + 1) c = (false, { c with pc := a + 1 }) := if_neg h

theorem advance_round (h : EndsLevel c a) (hl : c.loopC (c.depth - 1) ≠ 1) : Core.advance a (m + 1) c =
    (true, { c with lc := Tab.set c.lc (c.depth - 1) (c.loopC (c.depth - 1) - 1), pc := c.loopS (c.depth - 1) }) :=
  (if_pos h).trans (if_neg hl)

theorem advance_closes (h : EndsLevel c a) (hl : c.loopC (c.depth - 1) = 1) : Core.advance a (m + 1) c = Core.advance a m c.closeLevel :=
  (if_pos h).trans (if_pos hl)

/-- The core after an instruction that transfers no control. -/
theorem goOn_core (b : Block) (k cost : Nat) :
    (goOn b k cost).core k = (charge (Core.advance (b.core k).pc 5 (b.core k)).2 cost).setLast := by
  simp only [goOn]
  split <;> simp

theorem charge_setLast (c : Core) : (charge c 1).setLast =
    { c with cycles := c.cycles + 1, busy := 0
             flags := { c.flags with last := decide (0 < c.depth ∧ Tab.get c.lc 0 (c.depth - 1) = 1) } } := by
  simp only [Core.setLast, charge, Bool.decide_and]
  rfl

/-! ### Levels that a transfer closes (R301) -/

variable {t : BitVec 16}

/-- A transfer to `t` leaves the innermost level open: its body holds the target, or its loop instruction stands there. -/
abbrev KeepsLevel (c : Core) (t : BitVec 16) : Prop :=
  (c.loopS (c.depth - 1) ≤ t ∧ t ≤ c.loopE (c.depth - 1)) ∨ c.loopS (c.depth - 1) = t + 1

theorem closeFor_keeps (h : c.depth ≤ c.base ∨ KeepsLevel c t) : Core.closeFor t (m + 1) c = c :=
  if_neg fun ⟨hd, hk⟩ => h.elim (Nat.not_le.mpr hd) hk

theorem closeFor_closes (hd : c.base < c.depth) (h : ¬ KeepsLevel c t) : Core.closeFor t (m + 1) c = Core.closeFor t m c.closeLevel :=
  if_pos ⟨hd, h⟩

theorem branched_core (b : Block) (k : Fin 64) (t : BitVec 16) (cost : Nat) :
    (branched b k t cost).core k = (charge { Core.closeFor t 5 (b.core k) with pc := t } cost).setLast := by
  simp [branched]

/-- The open levels of a core. -/
def Core.loops (c : Core) : Nat × Tab (BitVec 16) × Tab (BitVec 16) × Tab (BitVec 16) := (c.depth, c.ls, c.le, c.lc)

theorem branched_loops (b : Block) (k : Fin 64) (t : BitVec 16) (cost : Nat) :
    ((branched b k t cost).core k).loops = (Core.closeFor t 5 (b.core k)).loops := by
  rw [branched_core]
  rfl

end

/-! ### The statement -/

/-- Settles O12: where control goes, then NOP at and away from a loop's end, then the levels that a taken BR leaves. -/
theorem controlInstructions : Obligations.ControlInstructions := by
  unfold Obligations.ControlInstructions
  refine ⟨fun s k cond p off off11 off8 count h => ?_, fun s k cond h => ?_, fun s k cond off h => ?_⟩
  · intro b c loops
    have loop {i : Instr} {f : Block → Course} {o : Nat} {n : BitVec 16} (hi : exec i s = run s (chiselRow k cond f))
        (hf : f b = coreLoop k o n b) : loops i o n := by
      have skips (h0 : 0 < o) (hin : InRange c (c.pc.toNat + o)) (hn : n = 0) :
          Completes i s (takeCourse k (.skip b (BitVec.ofNat 16 (c.pc.toNat + o + 1)) 2)) :=
        completes_issue h hi (hf.trans (coreLoop_noPass h0 hin hn))
      refine ⟨fun h0 hin hn hd hl => completes_next h hi (hf.trans (coreLoop_opens h0 hin hn hd hl)), fun h0 hin hn hl => ?_,
        fun h0 hin hn hl => ?_, fun hx => completes_fault h hi (hf.trans ?_)⟩
      · exact takeCourse_skips hl _ _ ▸ skips h0 hin hn
      · exact takeCourse_skipsAtEnd hl _ _ ▸ skips h0 hin hn
      · by_cases outside : o = 0 ∨ ¬ InRange c (c.pc.toNat + o)
        · exact coreLoop_outside outside
        · obtain ⟨h0, hin⟩ := not_or.mp outside
          obtain ⟨hn, hd⟩ := (hx.resolve_left h0).resolve_left hin
          exact coreLoop_refused (Nat.pos_of_ne_zero h0) (not_not.mp hin) hn hd
    exact ⟨completes_next h rfl rfl, completes_jump h rfl rfl, completes_jump h rfl rfl, loop rfl rfl, loop rfl rfl⟩
  · intro c top closed lasts
    have left {u : Core} (hu : (Core.advance c.pc 5 c).2 = u) : (goOn (decoded s.blk k) k 1).core k = lasts u :=
      (goOn_core (decoded s.blk k) k 1).trans ((congrArg (fun u => (charge u 1).setLast) hu).trans (charge_setLast u))
    refine ⟨_, completes_next h rfl rfl, rfl, fun hoff => left ?_, fun hd he hl => left ?_, fun hd he hl hoff => left ?_⟩
    · rw [advance_off hoff]
    · rw [advance_round ⟨hd, he⟩ hl]
      rfl
    · rw [advance_closes ⟨hd, he⟩ hl, advance_off hoff]
      rfl
  · intro c top t first keeps
    refine ⟨_, completes_jump h rfl rfl, congrArg Core.pc (branched_core (decoded s.blk k) k t 2), fun hk => ?_, fun hd hk => ?_⟩
    · exact (branched_loops (decoded s.blk k) k t 2).trans (congrArg Core.loops (closeFor_keeps hk))
    · have closed : Core.closeFor t 5 c = c.closeLevel := by
        rw [closeFor_closes (by omega) hk, closeFor_keeps (.inl (Nat.sub_le_of_le_add (Nat.le_of_eq hd)))]
      exact (branched_loops (decoded s.blk k) k t 2).trans (congrArg Core.loops closed)

end Sys2Proof.Machine
end

section
/-! PROOFS. What a recipe fault leaves of a core, and the loop levels of a core that goes on: no course takes them out of their range (R297 to
R302). -/
namespace Sys2Proof.Machine

variable {b : Block} {k : Nat} {cond : BitVec 4}

/-! ### What leaves every core as it is -/

/-- What each step of a fold leaves as it was, the fold leaves. -/
theorem foldl_keeps {σ α β : Type} (g : σ → β) {f : σ → α → σ} (hf : ∀ s x, g (f s x) = g s) :
    ∀ (l : List α) (s : σ), g (l.foldl f s) = g s
  | [], _ => rfl
  | x :: l, s => (foldl_keeps g hf l (f s x)).trans (hf s x)

section
variable (b : Block)

theorem endRefs_chisel (r : Resolved) : (endRefs b r).chisel = b.chisel := by
  unfold endRefs
  extract_lets open_ end_ one
  refine foldl_keeps (·.chisel) (fun b g => ?_) _ b
  simp only [one]
  split <;> split <;> rfl

theorem endJobRefs_chisel (j : Job) : (endJobRefs b j).chisel = b.chisel := by
  unfold endJobRefs
  extract_lets released one
  have slots : released.chisel = b.chisel := by simp only [released]; split <;> rfl
  have ended (b : Block) (r : Option Resolved) : (one b r).chisel = b.chisel := by
    cases r with
    | none => rfl
    | some k => exact endRefs_chisel b k
  rw [foldl_keeps (fun b : Block => b.chisel) endRefs_chisel, ended, ended, slots]

theorem withdraw_chisel (r : Requester) : (withdraw b r).chisel = b.chisel := by
  unfold withdraw galleryWithdraw
  extract_lets g counted
  split
  · rfl
  · simp only [counted]
    split <;> rfl

theorem dropItemLeaf_chisel (n : Nat) (i : Item) : (dropItemLeaf b n i).chisel = b.chisel := by
  unfold dropItemLeaf
  cases i.leaf <;> simp only [modItem_chisel] <;> rfl

theorem recordWait_chisel (n : Nat) : (recordWait b n).chisel = b.chisel := by
  unfold recordWait
  split
  · simp
  · rfl

theorem sumpFailure_chisel (i level kind : Nat) : (sumpFailure b i level kind).chisel = b.chisel := by
  have told : (failureTold b i level kind).chisel = b.chisel := by simp [failureTold, failureCounted]
  rw [sumpFailure_eq]
  split_ifs <;> simp [told]

theorem cacheNodes_chisel (nodes : List (Nat × Bytes)) : (cacheNodes b nodes).chisel = b.chisel := rfl

/-- A record read through to its continuation slots touches no core (R34). -/
theorem readSlots_chisel (ret : DdrReturn) (gidx : Nat) : (readSlots b ret gidx).2.chisel = b.chisel := by
  simp only [readSlots]
  split
  · split
    · rw [sumpFailure_chisel, cacheNodes_chisel]
    · refine foldl_keeps (fun r : Except (Nat × Nat) (List (Bytes × Nat)) × Block => r.2.chisel) (fun r x => ?_) _ _
      split
      · split
        · exact cacheNodes_chisel ..
        · rfl
        · rw [sumpFailure_chisel, cacheNodes_chisel]
      · rfl
  · rfl
  · rw [sumpFailure_chisel, cacheNodes_chisel]

theorem sealPasses_chisel (payer n : Nat) : (b.sealPasses payer n).chisel = b.chisel := by
  unfold Block.sealPasses Block.passes
  split <;> rfl

theorem readWhole_chisel (ret : DdrReturn) (gidx : Nat) : (readWhole b ret gidx).2.chisel = b.chisel := by
  have slots := readSlots_chisel b ret gidx
  unfold readWhole
  split
  next h => rw [h] at slots; exact (sealPasses_chisel ..).trans slots
  next => exact slots

theorem auditKeyReads_chisel (i : ChainId) : (auditKeyReads b i).chisel = b.chisel := by
  unfold auditKeyReads
  split
  · split
    · exact readWhole_chisel ..
    · rfl
  · rfl

theorem flowHash_chisel (n : Nat) : (b.flowHash n).chisel = b.chisel := by
  unfold Block.flowHash
  split <;> rfl

theorem closeLeaf_chisel (n : Nat) : (closeLeaf b n).chisel = b.chisel := by
  unfold closeLeaf
  split
  · rfl
  split
  · rfl
  extract_lets ch digest put
  have put_chisel (b : Block) : (put b).chisel = b.chisel := by
    simp only [put, modItem_chisel, queueLeaf, modChain_chisel, flowHash_chisel]
  split
  · split_ifs
    · rfl
    · exact put_chisel b
  · split_ifs
    · rfl
    · cases entryCheck b ch with
      | granted => exact put_chisel _
      | wait => rfl
      | refused st => exact (modItem_chisel ..).trans (auditKeyReads_chisel ..)
  · rfl

end

/-! ### What a recipe fault leaves of the loops (R280) -/

/-- The frame base and the depth of a core (R297, R302). -/
def levels (b : Block) (k : Nat) : Nat × Nat := ((b.core k).base, (b.core k).depth)

theorem levels_of_chisel {t : Block} (h : t.chisel = b.chisel) (k : Nat) : levels t k = levels b k := by
  rw [levels, levels, core_of_chisel h]

section
variable (b : Block) (k : Nat)

theorem modCore_levels (j : Nat) {f : Core → Core} (hf : ∀ c, ((f c).base, (f c).depth) = (c.base, c.depth)) :
    levels (b.modCore j f) k = levels b k := by
  unfold levels
  by_cases h : k = j
  · subst h
    rw [core_modCore_self]
    exact hf _
  · rw [core_modCore_ne b f h]

theorem startClearing_levels (j : Nat) : levels (startClearing b j) k = levels b k := by
  unfold startClearing
  exact modCore_levels b k j fun _ => rfl

theorem modTicket_levels (j t : Nat) (f : Ticket → Ticket) : levels (b.modTicket j t f) k = levels b k := by
  unfold Block.modTicket
  exact modCore_levels b k j fun _ => rfl

theorem abortTicket_levels (j t : Nat) : levels (abortTicket b j t) k = levels b k := by
  unfold abortTicket
  extract_lets x r ch forgotten ended dropped
  have refs : ended.chisel = b.chisel := (endJobRefs_chisel forgotten _).trans (withdraw_chisel b r)
  have leafless : dropped.chisel = b.chisel := by
    simp only [dropped]
    split <;> simp only [dropEntry, modChain_chisel, refs]
  split
  · rfl
  · exact (modTicket_levels dropped k j t _).trans (levels_of_chisel leafless k)

theorem stopCore_levels (j : Nat) : levels (stopCore b j) k = levels b k := by
  unfold stopCore
  extract_lets aborted
  have tickets : levels aborted k = levels b k :=
    foldl_keeps (fun b => levels b k) (f := fun b t => abortTicket b j t) (fun b t => abortTicket_levels b k j t) (List.range 16) b
  exact (startClearing_levels aborted k j).trans tickets

theorem closeItem_levels (n : Nat) (o : Outcome) : levels (closeItem b n o) k = levels b k := by
  unfold closeItem
  split
  · rfl
  extract_lets waited quiesced standard outcome closing cleared
  have item : closing.chisel = b.chisel := (modItem_chisel ..).trans ((recordWait_chisel ..).trans (endJobRefs_chisel ..))
  have core : levels cleared k = levels b k := by
    simp only [cleared]
    split
    · exact (startClearing_levels closing k _).trans (levels_of_chisel item k)
    · exact levels_of_chisel item k
  split
  · exact (levels_of_chisel (dropItemLeaf_chisel ..) k).trans core
  · exact (levels_of_chisel (closeLeaf_chisel ..) k).trans core

theorem endItemOnCore_levels (j status : Nat) : levels (endItemOnCore b j status) k = levels b k := by
  unfold endItemOnCore
  split
  · exact (closeItem_levels ..).trans (stopCore_levels ..)
  · exact startClearing_levels b k j

/-- A recipe fault stops the core with its loop levels as they stand (R280, R303). -/
theorem recipeFault_levels (j : Nat) (f : FaultKind) : levels (recipeFault b j f) k = levels b k := by
  unfold recipeFault
  extract_lets c
  split
  · split
    · extract_lets told
      have stopped : levels (endItemOnCore told j stRecipeFault) k = levels b k :=
        (endItemOnCore_levels ..).trans (levels_of_chisel (modCh_chisel ..) k)
      exact (levels_of_chisel ((tally_chisel ..).trans (event_chisel ..)) k).trans stopped
    · rfl
  · rfl

end

/-! ### Levels in their range (R297, R302) -/

/-- The frame base is at most the depth, and the depth at most four. -/
def LegalLevels (c : Core) : Prop := c.base ≤ c.depth ∧ c.depth ≤ 4

theorem legalLevels_of_levels {t : Block} (h : levels t k = levels b k) (hb : LegalLevels (b.core k)) : LegalLevels (t.core k) := by
  obtain ⟨base, depth⟩ := Prod.mk.inj h
  rw [LegalLevels, base, depth]
  exact hb

section
variable {c : Core}

theorem closeLevel_legal (h : LegalLevels c) (hd : c.base < c.depth) : LegalLevels c.closeLevel :=
  ⟨Nat.le_sub_one_of_lt hd, Nat.le_trans (Nat.sub_le _ _) h.2⟩

theorem withPc_legal (t : BitVec 16) (h : LegalLevels c) : LegalLevels { c with pc := t } := h

/-- Neither cycles nor LAST are levels. -/
theorem charged_legal (cost : Nat) (h : LegalLevels c) : LegalLevels (charge c cost).setLast := h

theorem advance_legal (a : BitVec 16) : ∀ (m : Nat) {c : Core}, LegalLevels c → LegalLevels (Core.advance a m c).2
  | 0, _, h => h
  | m + 1, c, h => by
    by_cases he : EndsLevel c a
    · by_cases hl : c.loopC (c.depth - 1) = 1
      · rw [advance_closes he hl]
        exact advance_legal a m (closeLevel_legal h he.1)
      · rw [advance_round he hl]
        exact h
    · rw [advance_off he]
      exact h

theorem closeFor_legal (t : BitVec 16) : ∀ (m : Nat) {c : Core}, LegalLevels c → LegalLevels (Core.closeFor t m c)
  | 0, _, h => h
  | m + 1, c, h => by
    by_cases hk : c.depth ≤ c.base ∨ KeepsLevel c t
    · rw [closeFor_keeps hk]
      exact h
    · obtain ⟨hd, hk⟩ := not_or.mp hk
      rw [closeFor_closes (Nat.not_le.mp hd) hk]
      exact closeFor_legal t m (closeLevel_legal h (Nat.not_le.mp hd))

end

/-- The device that a course leaves before the core goes on. -/
def Course.device : Course → Block
  | .next b _ => b
  | .jump b _ _ => b
  | .skip b _ _ => b
  | .call b _ => b
  | .stall b _ => b
  | .fault b _ => b
  | .over_ b => b

theorem goOn_legal (cost : Nat) (h : LegalLevels (b.core k)) : LegalLevels ((goOn b k cost).core k) := by
  rw [goOn_core]
  exact charged_legal cost (advance_legal _ 5 h)

/-- However a core goes on, its levels stay in their range. -/
theorem takeCourse_legal {u : Course} (h : LegalLevels (u.device.core k)) : LegalLevels ((takeCourse k u).core k) := by
  cases u with
  | next b cost => exact goOn_legal cost h
  | jump b t cost =>
    simp only [takeCourse, core_modCore_self, coreEvent_core]
    exact charged_legal cost (withPc_legal t (closeFor_legal t 5 h))
  | skip b t cost =>
    simp only [takeCourse]
    split
    · exact goOn_legal cost h
    · rw [core_modCore_self]
      exact h
  | call b t =>
    simp only [takeCourse, core_modCore_self, coreEvent_core]
    exact charged_legal 3 (withPc_legal t h)
  | stall b why =>
    simp only [takeCourse, core_modCore_self]
    exact h
  | fault b x => exact legalLevels_of_levels (recipeFault_levels b k k x) h
  | over_ b => exact h

/-- An instruction keeps the levels in their range where its meaning does. -/
theorem chiselRow_legal {f : Block → Course} (hf : ∀ b, LegalLevels (b.core k) → LegalLevels ((f b).device.core k))
    (h : LegalLevels (b.core k)) : LegalLevels ((chiselRow k cond f b).core k) := by
  unfold chiselRow awake runInstr
  have decoded : LegalLevels ((coreEvent b k 0x002).core k) := h
  split
  · dsimp only
    split
    · exact h
    · split
      · exact goOn_legal 1 decoded
      · exact takeCourse_legal (hf _ decoded)
  · exact h

/-! ### The control instructions, one by one -/

section
variable (h : LegalLevels (b.core k))
include h

theorem coreCall_legal (target : BitVec 16) : LegalLevels ((coreCall k target b).device.core k) := by
  cases hl : (b.core k).atLoopEnd with
  | true => rw [coreCall_loopEnd target hl]; exact h
  | false =>
    by_cases hr : pushAddr b k 3 + 3 ≤ 0x8000
    · rw [coreCall_room target hl hr]
      have depth : ((pushed b k 3 (callFrame (b.core k))).core k).depth = (b.core k).depth := pushed_depth ..
      simp only [Course.device, core_modCore_self]
      exact ⟨Nat.le_refl _, depth ▸ h.2⟩
    · rw [coreCall_full target hl hr]
      exact h

theorem coreRet_legal : LegalLevels ((coreRet k b).device.core k) := by
  by_cases hb : (b.core k).base < (b.core k).depth
  · rw [coreRet_open hb]
    exact h
  have hb := Nat.not_lt.mp hb
  by_cases hs : 0x8000 < (b.core k).sp.toNat + 3
  · rw [coreRet_beyond hb hs]
    exact h
  have hs := Nat.not_lt.mp hs
  by_cases hf : (b.core k).depth < (stackByte b k 2).toNat
  · rw [coreRet_deep hb hs hf]
    exact h
  · rw [coreRet_frame hb hs (Nat.not_lt.mp hf)]
    have depth : ((popped b k 3).core k).depth = (b.core k).depth := popped_depth ..
    simp only [Course.device, core_modCore_self]
    exact ⟨depth ▸ Nat.not_lt.mp hf, depth ▸ h.2⟩

theorem coreLoop_legal (off : Nat) (n : BitVec 16) : LegalLevels ((coreLoop k off n b).device.core k) := by
  by_cases outside : off = 0 ∨ ¬ InRange (b.core k) ((b.core k).pc.toNat + off)
  · rw [coreLoop_outside outside]
    exact h
  obtain ⟨h0, hin⟩ := not_or.mp outside
  rw [coreLoop_inside (Nat.pos_of_ne_zero h0) (not_not.mp hin)]
  split
  · exact h
  · split
    · exact h
    · rename_i hd
      simp only [Course.device, core_modCore_self]
      exact ⟨Nat.le_succ_of_le h.1, Nat.not_le.mp (not_or.mp hd).1⟩

end

/-- Settles O14: each course keeps the levels in their range, and so does every way on from a course. -/
theorem loopLevelsStayLegal : Obligations.LoopLevelsStayLegal := by
  unfold Obligations.LoopLevelsStayLegal
  intro s t k cond p off off11 off8 count i hi hb hd he
  have h : LegalLevels (s.blk.core k) := ⟨hb, hd⟩
  have row {f : Block → Course} (hf : ∀ b, LegalLevels (b.core k) → LegalLevels ((f b).device.core k))
      (hx : exec i s = run s (chiselRow k cond f)) : LegalLevels (t.blk.core k) := by
    rw [hx] at he
    cases he
    exact chiselRow_legal hf h
  simp only [List.mem_cons, List.not_mem_nil, or_false] at hi
  rcases hi with rfl | rfl | rfl | rfl | rfl | rfl | rfl | rfl
  · exact row (fun _ h => h) (f := courseNop) rfl
  · exact row (fun _ h => h) (f := courseBr k off) rfl
  · exact row (fun _ h => coreCall_legal h _) (f := courseCall k off) rfl
  · exact row (fun _ h => coreRet_legal h) rfl
  · exact row (fun _ h => h) (f := courseJr k p) rfl
  · exact row (fun _ h => coreCall_legal h _) (f := courseCallr k p) rfl
  · exact row (fun _ h => coreLoop_legal h _ _) (f := courseLoop k p off11) rfl
  · exact row (fun _ h => coreLoop_legal h _ _) (f := courseLoopi k count off8) rfl

end Sys2Proof.Machine
end

section
/-! PROOFS. What a command of any row comes to, and with it the statements on a step and on a queue of commands. -/
namespace Sys2Proof.Machine

/-- Every row carries out one effect on the device, where its operands spell a command. -/
theorem exec_eq_act (i : Instr) (s : State) : ∃ f, exec i s = act (wfInstr i) s f := by
  cases i <;> exact ⟨_, rfl⟩

theorem exec_of_wf {i : Instr} (h : wfInstr i = true) (s : State) : ∃ b, exec i s = .next { s with blk := b } := by
  obtain ⟨f, e⟩ := exec_eq_act i s
  exact ⟨f s.blk, by rw [e, h]; rfl⟩

theorem exec_of_not_wf {i : Instr} (h : wfInstr i = false) (s : State) : exec i s = .fault .malformed := by
  obtain ⟨f, e⟩ := exec_eq_act i s
  rw [e, h]; rfl

/-- A step on a queue of well-formed commands takes the front one away, or passes a cycle. -/
theorem step_of_queueOk {s : State} (h : QueueOk s) : ∃ b, step s = .next { blk := b, pending := s.pending.tail } := by
  cases hq : s.pending with
  | nil => exact ⟨tick s.blk, by simp [step, hq]⟩
  | cons c rest =>
    obtain ⟨b, e⟩ := exec_of_wf (h c (by simp [hq])) { s with pending := rest }
    exact ⟨b, by simp [step, hq, e]⟩

/-- Settles O1, by the definition of a step. -/
theorem stepRunsFrontCommand : Obligations.StepRunsFrontCommand := by
  unfold Obligations.StepRunsFrontCommand
  intro c rest s h
  simp only [step, h]

/-- Settles O3: each row is `act` of its operands' check, and a step takes no other command from the queue than the front one. -/
theorem everyCommandRuns : Obligations.EveryCommandRuns := by
  unfold Obligations.EveryCommandRuns
  refine ⟨fun i s h => ?_, fun i s h => exec_of_not_wf h s, fun s h => ?_⟩
  · obtain ⟨b, e⟩ := exec_of_wf h s
    exact ⟨_, e, rfl⟩
  · obtain ⟨b, e⟩ := step_of_queueOk h
    exact ⟨_, e, fun c hc => h c (List.mem_of_mem_tail hc), rfl⟩

end Sys2Proof.Machine
end

section
/-! PROOFS. The checks of a request, step by step, and with them the statements on their order and on authorisation (R345 to R352, R372). -/
namespace Sys2Proof.Machine

variable {b : Block} {m : Mbx} {code : Nat} {r : CmdRow} {x : Mailbox} {call : Block → Bytes → Res}

/-! ### Step 1: the header (R343, R344) -/

/-- The request's version is one that the mailbox has agreed on and its command knows. -/
def VersionOk (code : Nat) (x : Mailbox) (r : CmdRow) : Prop :=
  code = 1 ∨ (x.vmaj ≠ 0 ∧ (reqVersion x).1 = x.vmaj ∧ (reqVersion x).2 ≤ x.vmin ∧
    (r.since.1 < (reqVersion x).1 ∨ (r.since.1 = (reqVersion x).1 ∧ r.since.2 ≤ (reqVersion x).2)))

/-- The request's header names its mailbox, a length that fits, and an AUTHREF only where its class has one. -/
def HeaderOk (i : Nat) (x : Mailbox) (r : CmdRow) : Prop :=
  reqSlice x = i ∧ reqLength x ≤ 4080 ∧ byteAt x.command 11 = 0 ∧ (r.cls = .q ∨ r.cls = .o → reqAuthref x = 0)

theorem versionOk_iff : VersionOk code x r ↔ ¬ (code ≠ 0x0001 ∧ (x.vmaj = 0 ∨ (reqVersion x).1 ≠ x.vmaj ∨ x.vmin < (reqVersion x).2 ∨
    (!versionLe r.since (reqVersion x)) = true)) := by
  simp only [VersionOk, versionLe, Bool.not_eq_true', decide_eq_false_iff_not]
  omega

theorem headerOk_iff {i : Nat} : HeaderOk i x r ↔
    ¬ (reqSlice x ≠ i ∨ 4080 < reqLength x ∨ byteAt x.command 11 ≠ 0 ∨ ((r.cls = .q ∨ r.cls = .o) ∧ reqAuthref x ≠ 0)) := by
  simp only [HeaderOk, not_or, not_and, not_not, not_lt]

section
variable {i : Nat} (hr : cmdRow (mbxCode x) = some r)
include hr

theorem headerCheck_version (h : ¬ VersionOk (mbxCode x) x r) : headerCheck i x = some 0x0105 := by
  rw [versionOk_iff, not_not] at h
  simp only [headerCheck, hr, if_pos h, stVersion]

theorem headerCheck_format (hv : VersionOk (mbxCode x) x r) (h : ¬ HeaderOk i x r) : headerCheck i x = some 0x0020 := by
  rw [headerOk_iff, not_not] at h
  simp only [headerCheck, hr, if_neg (versionOk_iff.mp hv), if_pos h, stFormat]

theorem headerCheck_none (hv : VersionOk (mbxCode x) x r) (h : HeaderOk i x r) : headerCheck i x = none := by
  simp only [headerCheck, hr, if_neg (versionOk_iff.mp hv), if_neg (headerOk_iff.mp h)]

end

/-! ### Steps 3 to 5: mailbox, lifecycle and claim (R347, R348, R484) -/

theorem admissionCheck_box (h : ∀ y ∈ r.boxes, mbxNo y ≠ mbxNo m) : admissionCheck b (mbxNo m) r = some 0x0100 := by
  have out : ¬ ∃ y ∈ r.boxes, mbxNo y = mbxNo m := by push Not; exact h
  simp [admissionCheck, stAuthRequired, out]

section
variable (hbox : ∃ y ∈ r.boxes, mbxNo y = mbxNo m)
include hbox

theorem admissionCheck_life (hl : lifeAdmits b.life r = false) : admissionCheck b (mbxNo m) r = some 0x0103 := by
  simp [admissionCheck, hbox, hl, stLifecycle]

theorem admissionCheck_claim (hl : lifeAdmits b.life r = true) (hc : claimless b = true) (hq : r.cls ≠ .q) (hp : r.p = false) :
    admissionCheck b (mbxNo m) r = some 0x0080 := by
  simp [admissionCheck, hbox, hl, hc, hq, hp, stClaimLost]

theorem admissionCheck_none (hl : lifeAdmits b.life r = true) (hc : claimless b = true → r.cls = .q ∨ r.p = true) :
    admissionCheck b (mbxNo m) r = none := by
  have hn : ¬ (claimless b = true ∧ ¬ r.cls = .q ∧ r.p = false) := by
    rintro ⟨h1, h2, h3⟩
    rcases hc h1 with h | h
    · exact h2 h
    · simp [h] at h3
  simp [admissionCheck, hbox, hl, hn]

end

/-! ### The steps in their order (R345, R504) -/

theorem not_restoring (hn : b.pmc.restoring = false ∨ code = 1) : ¬ (b.pmc.restoring = true ∧ code ≠ 0x0001) := by
  rcases hn with q | q <;> simp [q]

theorem mayStart_code (h : mayStart b (mbxNo m) code = true) : mbxCode (b.mbx (mbxNo m)) = code := by
  simp only [mayStart, Bool.and_eq_true, beq_iff_eq] at h
  exact h.1.2

theorem entered_leaf (h : makesLeaf b r = true) :
    entered b m r = (takeEntry b .system).modMbx (mbxNo m) fun x => { x with leaf := .entry } := if_pos h

theorem entered_leafless (h : makesLeaf b r = false) : entered b m r = b := by simp [entered, h]

section
variable (hm : mayStart b (mbxNo m) code = true)
include hm

theorem startCommand_header {st : Nat} (h : headerCheck (mbxNo m) (b.mbx (mbxNo m)) = some st) :
    startCommand b m code call = finishCommand b m st 0 [] 0xFE := by
  simp [startCommand, hm, h, settleRes, no]

variable (hr : cmdRow code = some r) (hh : headerCheck (mbxNo m) (b.mbx (mbxNo m)) = none)
include hr hh

theorem startCommand_restoring (hp : b.pmc.restoring = true) (hc : code ≠ 1) :
    startCommand b m code call = finishCommand b m 0x0104 0 [] 0xFE := by
  simp [startCommand, hm, hr, hh, hp, hc, settleRes, no, stBusy]

variable (hn : b.pmc.restoring = false ∨ code = 1)
include hn

section
variable (hl : makesLeaf b r = true) (hc : claimless b = true)
include hl hc

/-- A member without the claim asks for no leaf of a request that steps 3 to 5 refuse (log entry 85). -/
theorem startCommand_standby_refused {st : Nat} (h : admissionCheck b (mbxNo m) r = some st) :
    startCommand b m code call = finishCommand b m st 0 [] 0xFE := by
  simp [startCommand, hm, hh, hr, not_restoring hn, hl, hc, h, settleRes, no]

theorem startCommand_standby_self (h : admissionCheck b (mbxNo m) r = none) (hg : grantsSelf b (b.mbx (mbxNo m)) = true) :
    startCommand b m code call = execCommand b m r call := by
  simp [startCommand, hm, hh, hr, not_restoring hn, hl, hc, h, hg]

theorem startCommand_standby_leaf (h : admissionCheck b (mbxNo m) r = none) (hg : grantsSelf b (b.mbx (mbxNo m)) = false)
    (ha : (authorise b (b.mbx (mbxNo m)) r).1 = none) : startCommand b m code call =
      standbyLeaf b m (call (authorise b (b.mbx (mbxNo m)) r).2 (reqPayload (b.mbx (mbxNo m)))) := by
  have e : authorise b (b.mbx (mbxNo m)) r = (none, (authorise b (b.mbx (mbxNo m)) r).2) := Prod.ext ha rfl
  simp only [startCommand, hm, hh, hr, not_restoring hn, hl, hc, h, hg, Bool.not_true, Bool.false_eq_true, if_false, and_self, if_true]
  rw [e]

end

theorem startCommand_unleafed {st : Nat} (hl : makesLeaf b r = true) (hc : claimless b = false)
    (h : entryCheck b .system = .refused st ∨ entryCheck b .system = .wait ∧ st = 0x0104) :
    startCommand b m code call = finishCommand b m st 0 [] 0xFE := by
  rcases h with h | ⟨h, rfl⟩ <;> simp [startCommand, hm, hh, hr, not_restoring hn, hl, hc, h, settleRes, no, stBusy]

section
variable (hl : makesLeaf b r = true → claimless b = false ∧ entryCheck b .system = .granted)
include hl

/-- Steps 3 to 6 examine the request with its entry where it makes a leaf. -/
theorem startCommand_refused {st : Nat} (h : admissionCheck (entered b m r) (mbxNo m) r = some st) (hs : st ≠ 0x0101) :
    startCommand b m code call = finishCommand (entered b m r) m st 0 [] 0xFE := by
  cases hm' : makesLeaf b r with
  | true =>
    obtain ⟨hc, he⟩ := hl hm'
    rw [entered_leaf hm'] at h ⊢
    simp only [startCommand, hm, hh, hr, not_restoring hn, hm', hc, he, h, settleRes, no, Bool.not_true, Bool.false_eq_true, and_false, if_false]
    exact finish_scope _ _ _ _ _ _ _ hs
  | false =>
    rw [entered_leafless hm'] at h ⊢
    simp only [startCommand, hm, hh, hr, not_restoring hn, hm', h, settleRes, no, Bool.not_true, Bool.not_false, Bool.false_eq_true, false_and,
      if_false, if_true]
    exact finish_scope _ _ _ _ _ _ _ hs

theorem startCommand_runs (h : admissionCheck (entered b m r) (mbxNo m) r = none) :
    startCommand b m code call = execCommand (entered b m r) m r call := by
  cases hm' : makesLeaf b r with
  | true =>
    obtain ⟨hc, he⟩ := hl hm'
    rw [entered_leaf hm'] at h ⊢
    simp only [startCommand, hm, hh, hr, not_restoring hn, hm', hc, he, h, Bool.not_true, Bool.false_eq_true, and_false, if_false]
  | false =>
    rw [entered_leafless hm'] at h ⊢
    simp only [startCommand, hm, hh, hr, not_restoring hn, hm', h, Bool.not_true, Bool.not_false, Bool.false_eq_true, false_and, if_false, if_true]

end

end

/-- Settles O41: the header's check, then the leaf's entry, then the checks on the device with the entry. -/
theorem commandChecks : Obligations.CommandChecks := by
  unfold Obligations.CommandChecks
  intro b m code r call hm hr i x v called refused since versionOk headerOk right leafless b1 admits
  have hcode : mbxCode (b.mbx (mbxNo m)) = code := mayStart_code hm
  have hx : cmdRow (mbxCode (b.mbx (mbxNo m))) = some r := by rw [hcode, hr]
  have hv (h : versionOk) : VersionOk (mbxCode (b.mbx (mbxNo m))) (b.mbx (mbxNo m)) r := by rw [hcode]; exact h
  have hh (h : right) : headerCheck (mbxNo m) (b.mbx (mbxNo m)) = none := headerCheck_none hx (hv h.1) h.2.1
  have unentered (hl : leafless) : makesLeaf b r = true → claimless b = false ∧ entryCheck b .system = .granted :=
    fun h => absurd h (by simp [show makesLeaf b r = false from hl])
  have refusedLeafless {st : Nat} (h : right) (hl : leafless) (ha : admissionCheck b (mbxNo m) r = some st) (hs : st ≠ 0x0101) :
      called = refused b st := by
    have e : entered b m r = b := entered_leafless hl
    have run := startCommand_refused (call := call) hm hr (hh h) h.2.2 (unentered hl) (by rw [e]; exact ha) hs
    rwa [e] at run
  refine ⟨fun h => startCommand_header hm (headerCheck_version hx (by rw [hcode]; exact h)),
    fun h h' => startCommand_header hm (headerCheck_format hx (hv h) h'),
    fun h h' hp hc => startCommand_restoring hm hr (headerCheck_none hx (hv h) h') hp hc, fun h hl hc => ?_, fun h hl hc => ?_,
    
    fun h hl hb => refusedLeafless h hl (admissionCheck_box hb) (by decide),
    fun h hl hb hf => refusedLeafless h hl (admissionCheck_life hb hf) (by decide),
    fun h hl hb hf hc hq hp => refusedLeafless h hl (admissionCheck_claim hb hf hc hq hp) (by decide), fun h hl ha => ?_⟩
  · have granted (he : entryCheck b .system = .granted) : makesLeaf b r = true → claimless b = false ∧ entryCheck b .system = .granted :=
      fun _ => ⟨hc, he⟩
    have e : entered b m r = b1 := entered_leaf hl
    refine ⟨fun he => startCommand_unleafed hm hr (hh h) h.2.2 hl hc (.inr ⟨he, rfl⟩),
      fun st he _ => startCommand_unleafed hm hr (hh h) h.2.2 hl hc (.inl he), fun he hb => ?_, fun he hb hf => ?_, fun he ha => ?_⟩
    · rw [← e]; exact startCommand_refused hm hr (hh h) h.2.2 (granted he) (admissionCheck_box hb) (by decide)
    · rw [← e]; exact startCommand_refused hm hr (hh h) h.2.2 (granted he) (admissionCheck_life hb (by rw [e]; exact hf)) (by decide)
    · rw [← e]; exact startCommand_runs hm hr (hh h) h.2.2 (granted he)
        (admissionCheck_none ha.1 (by rw [e]; exact ha.2.1) (by rw [e]; exact ha.2.2))
  · have admitted (ha : admits b) : admissionCheck b (mbxNo m) r = none := admissionCheck_none ha.1 ha.2.1 ha.2.2
    exact ⟨fun hb => startCommand_standby_refused hm hr (hh h) h.2.2 hl hc (admissionCheck_box hb),
      fun hb hf => startCommand_standby_refused hm hr (hh h) h.2.2 hl hc (admissionCheck_life hb hf),
      fun hb hf hq hp => startCommand_standby_refused hm hr (hh h) h.2.2 hl hc (admissionCheck_claim hb hf hc hq hp),
      fun ha hg => startCommand_standby_self hm hr (hh h) h.2.2 hl hc (admitted ha) hg,
      fun ha hg hn => startCommand_standby_leaf hm hr (hh h) h.2.2 hl hc (admitted ha) hg hn⟩
  · have e : entered b m r = b := entered_leafless hl
    have run := startCommand_runs (call := call) hm hr (hh h) h.2.2 (unentered hl)
      (by rw [e]; exact admissionCheck_none ha.1 ha.2.1 ha.2.2)
    rwa [e] at run

/-! ### Authorisation (R351, R352, R372) -/

/-- What a request's AUTHREF must stand for: the request itself, with as many tokens as its scope's custodians ask for. -/
def Suits (b : Block) (x : Mailbox) (r : CmdRow) (a : AuthRef) : Prop :=
  a.command = r.code ∧ a.slice = reqSlice x ∧ a.scope = cmdScope r.cls (reqPayload x) ∧
    a.rdigest = rdigest r.code (reqSlice x) (reqPayload x) ∧ max 1 (scopeCustodians b (cmdScope r.cls (reqPayload x))).k ≤ a.counted.length

/-- The device with the AUTHREF that a request names consumed. -/
def consumed (b : Block) (x : Mailbox) : Block := cancelAuths b fun a => a.ref == reqAuthref x

theorem authorise_free (h : r.cls = .q ∨ r.cls = .o) : authorise b x r = (none, b) := if_pos h

section
variable (hc : r.cls = .cs ∨ r.cls = .cc ∨ r.cls = .cx)
include hc

theorem class_guarded : ¬ (r.cls = .q ∨ r.cls = .o) := by
  rcases hc with h | h | h <;> simp [h]

theorem authorise_unenrolled (hn : noCustodians b.life = true) :
    authorise b x r = (if reqAuthref x = 0 then none else some stAuthFailed, b) := by
  by_cases h : reqAuthref x = 0 <;> simp [authorise, class_guarded hc, hn, h]

variable (hn : noCustodians b.life = false)
include hn

theorem authorise_unnamed (h : reqAuthref x = 0) : authorise b x r = (some stAuthRequired, b) := by
  simp [authorise, class_guarded hc, hn, h]

variable (hz : reqAuthref x ≠ 0)
include hz

theorem authorise_closed (h : openAuth b (reqAuthref x) = none) : authorise b x r = (some stAuthFailed, consumed b x) := by
  simp [authorise, class_guarded hc, hn, hz, h, consumed]

theorem authorise_unsuited {a : AuthRef} (h : openAuth b (reqAuthref x) = some a) (hs : ¬ Suits b x r a) :
    authorise b x r = (some stAuthFailed, consumed b x) := by
  simp only [authorise, if_neg (class_guarded hc), hn, if_neg hz, h, Bool.false_eq_true, if_false]
  exact if_neg hs

theorem authorise_suited {a : AuthRef} (h : openAuth b (reqAuthref x) = some a) (hs : Suits b x r a) :
    authorise b x r = (none, consumed b x) := by
  simp only [authorise, if_neg (class_guarded hc), hn, if_neg hz, h, Bool.false_eq_true, if_false]
  exact if_pos hs

end

theorem execCommand_refused {st : Nat} {t : Block} (h : authorise b (b.mbx (mbxNo m)) r = (some st, t)) :
    execCommand b m r call = finishCommand t m st 0 [] (namedScope b (b.mbx (mbxNo m))) := by
  simp [execCommand, h, settleRes, no]

theorem execCommand_runs {t : Block} (h : authorise b (b.mbx (mbxNo m)) r = (none, t)) :
    execCommand b m r call = settleRes m (namedScope b (b.mbx (mbxNo m))) (call t (reqPayload (b.mbx (mbxNo m)))) := by
  simp [execCommand, h]

/-- A request other than AUTH_SUBMIT names the scope of its AUTHREF, where that is open. -/
theorem namedScope_of (h : mbxCode x ≠ 3) : namedScope b x = ((openAuth b (reqAuthref x)).map (·.scope)).getD 0xFE := by
  simp [namedScope, h]

/-- Settles O42: each class and each AUTHREF has its course. -/
theorem authorisation : Obligations.Authorisation := by
  unfold Obligations.Authorisation
  intro b m r a call x ref p scope k guarded consumed isOpen suits failedWith
  have enrolled (h : 2 ≤ b.life ∧ b.life ≤ 4) : noCustodians b.life = false := by
    have : b.life ≠ 0 ∧ b.life ≠ 1 ∧ b.life ≠ 5 := by omega
    simp [noCustodians, this]
  have suits_iff : Suits b x r a ↔ suits := by
    have hk : (scopeCustodians b scope).k = if scope = 0xFF then b.bimor.custodians.k else (b.chamber scope).custodians.k :=
      apply_ite Custodians.k _ _ _
    show _ ↔ _ ∧ _ ∧ _ ∧ max 1 (ite _ _ _) ≤ _ ∧ _
    rw [← hk, and_comm (b := a.rdigest = _)]
    rfl
  refine ⟨fun h => execCommand_runs (authorise_free h), fun hc hl => ?_, fun hg hz => ?_, fun hg hz ho h3 => ?_, fun hg hz ho hs h3 => ?_,
    fun hg hz ho hs => execCommand_runs (authorise_suited hg.1 (enrolled hg.2) hz ho (suits_iff.mpr hs)), fun c y sc h => ?_⟩
  · have hn : noCustodians b.life = true := by rcases hl with h | h | h <;> simp [noCustodians, h]
    have hu := authorise_unenrolled (x := x) hc hn
    exact ⟨fun hz => execCommand_runs (by rw [hu, if_pos hz]), fun hz => execCommand_refused (by rw [hu, if_neg hz])⟩
  · rw [execCommand_refused (authorise_unnamed hg.1 (enrolled hg.2) hz)]
    exact finish_scope _ _ _ _ _ _ _ (by decide)
  · have none : openAuth b ref = none := by
      simp only [openAuth, List.find?_eq_none, Bool.and_eq_true, beq_iff_eq, decide_eq_true_eq, not_and, not_lt]
      exact ho
    rw [execCommand_refused (authorise_closed hg.1 (enrolled hg.2) hz none), namedScope_of h3, none]
    rfl
  · have some : openAuth b ref = some a := ho
    rw [execCommand_refused (authorise_unsuited hg.1 (enrolled hg.2) hz some (by rwa [suits_iff])), namedScope_of h3, some]
    rfl
  · simp [authFailed, h]

end Sys2Proof.Machine
end

section
/-! PROOFS. Belay's intake and its responses, and with them the statement on both (R378, R379, R418, R433 to R442, R517). -/
namespace Sys2Proof.Machine

variable {b : Block} {s : State} {r : Report} {rest : List Report} {x : Response}

/-- A row that main power alone must be good for, and whatever waited for it goes on. -/
theorem completes_poweredSettle {i : Instr} {f : Block → Block} {t : Block} (hi : exec i s = run s (poweredSettle f))
    (hp : s.blk.pmc.powerGood = true) (ht : f s.blk = t) : Completes i s (settle t) :=
  completes_run hi (by rw [poweredSettle, if_pos hp, ht])

/-! ### The intake (R378, R379, R418) -/

/-- What the lifecycle makes of a class Z report (R378). -/
theorem executedClass_z {life : Nat} (h : life ≠ 0) : executedClass life .z = (.z, 1) := if_neg h

/-- What the lifecycle makes of a class L report (R378). -/
theorem executedClass_l {life : Nat} (h : life = 2 ∨ life = 3) : executedClass life .l = (.l, 1) := by
  rcases h with h | h <;> simp [executedClass, h]

/-- A report that asks for nothing, or whose response its lifecycle state does not know, is recorded alone. -/
theorem executedClass_w {life : Nat} {c : RClass} (h : c = .w ∨ c = .none ∨ (c = .z ∧ life = 0) ∨ (c = .l ∧ (life = 0 ∨ 4 ≤ life))) :
    executedClass life c = (.w, 1) := by
  rcases h with rfl | rfl | ⟨rfl, rfl⟩ | ⟨rfl, h⟩
  · rfl
  · rfl
  · rfl
  · have : life ≠ 1 ∧ ¬ (life = 2 ∨ life = 3) := by omega
    simp [executedClass, this]

theorem belayIntake_empty (h : b.belay.intake = []) : belayIntake b = b := by simp [belayIntake, h]

section
variable (h : b.belay.intake = r :: rest) (hq : 64 ≤ r.quiesce)
include h hq

theorem belayIntake_responds {c : RClass} {cause : Nat} (he : executedClass b.life r.cls = (c, cause)) (hc : c = .l ∨ c = .z) :
    belayIntake b = (b.modBelay fun y => { y with intake := rest }).modBelay fun y =>
      { y with responses := y.responses ++ [{ cls := c, report := some r, cause := cause }] } := by
  simp [belayIntake, h, Nat.not_lt.mpr hq, he, hc]

theorem belayIntake_files (he : executedClass b.life r.cls = (.w, 1)) :
    belayIntake b = fileReport (b.modBelay fun y => { y with intake := rest })
      (finishReport (b.modBelay fun y => { y with intake := rest }) r .w) := by
  simp [belayIntake, h, Nat.not_lt.mpr hq, he]

end

/-! ### The responses (R433 to R437, R510, R517) -/

theorem cutCommands_life (b : Block) (status : Nat) (spared : Mailbox → Bool) : (cutCommands b status spared).life = b.life := by
  unfold cutCommands
  refine foldl_keeps (·.life) (fun b i => ?_) _ b
  dsimp only
  split <;> rfl

theorem notify_mailbox (b : Block) (m : Mbx) (status : Nat) : notify b (.mailbox m) status =
    if status == stOk then b.modMbx (mbxNo m) fun x => { x with waits := x.waits - 1 }
    else failMailbox (b.modMbx (mbxNo m) fun x => { x with waits := x.waits - 1 }) m status := rfl

theorem notify_mailbox_life (b : Block) (m : Mbx) (status : Nat) : (notify b (.mailbox m) status).life = b.life := by
  rw [notify_mailbox]
  split <;> rfl

theorem zeroCommands_life (b : Block) : (zeroCommands b).life = b.life := by
  unfold zeroCommands
  extract_lets cut started told
  have notified : told.life = cut.life := by
    refine foldl_keeps (·.life) (fun b w => ?_) _ cut
    cases w
    case mailbox m => exact notify_mailbox_life b m _
    all_goals rfl
  dsimp only
  rw [notified, cutCommands_life]

/-- A zeroisation from MANUFACTURED to LOCKED has its entry in the lifecycle log. -/
theorem zeroise_logged (h1 : 1 ≤ b.life) (h4 : b.life ≤ 4) (cause : Nat) : zeroise b cause = setLifecycle (zeroiseWork b) 5 cause := by
  have life : (zeroiseWork b).life = b.life := by simp only [zeroiseWork, zeroCommands_life]
  simp [zeroise, life, h1, h4]

/-- The device after a response's work: the alarm is out, the wakes are cancelled, and a reset that waited begins. -/
def responded (b : Block) : Block := afterResponse (cancelWakes (b.modBelay fun y => { y with alarmOut := true }) fun _ => true)

theorem zeroiseResponse_due (h : zeroDue b = some x) (h1 : 1 ≤ b.life) (h4 : b.life ≤ 4) :
    zeroiseResponse b = responded (closeResponses (setLifecycle (zeroiseWork b) 5 x.cause) .z) := by
  simp [zeroiseResponse, classZ, h, zeroise_logged h1 h4, responded]

theorem zeroiseResponse_none (h : zeroDue b = none) : zeroiseResponse b = b := by simp [zeroiseResponse, h]

theorem lockResponse_due (hz : zeroDue b = none) (h : b.belay.responses.head? = some x) (hl : b.life = 2 ∨ b.life = 3) :
    lockResponse b = responded (closeResponses (setLifecycle (lockWork b) 4 x.cause) .l) := by
  obtain ⟨rest, e⟩ := List.head?_eq_some_iff.mp h
  simp [lockResponse, classL, hz, e, lock, hl, responded]

theorem lockResponse_idle (h : b.belay.responses = [] ∨ (zeroDue b).isSome = true) : lockResponse b = b := by
  rcases h with h | h
  · simp [lockResponse, h]
  · simp [lockResponse, Option.isNone_eq_false_iff.mpr h]

theorem afterResponse_eq (b : Block) : afterResponse b =
    if b.pmc.warm = none ∧ b.belay.responses = [] ∧ b.pmc.sysRst = true then warmBegin b 1
    else if b.pmc.warm = none ∧ b.belay.responses = [] ∧ b.pmc.resetDue = true then warmBegin b 2
    else b := by
  by_cases hw : b.pmc.warm = none <;> by_cases hr : b.belay.responses = [] <;>
    simp [afterResponse, hw, hr, Option.isSome_iff_ne_none]

/-! ### On battery (R440) -/

/-- An alarm of class Z on battery wipes the DRK and leaves its record for the next boot. -/
theorem batteryResponse_wipes (hp : b.pmc.powerGood = false) (h : b.belay.intake = r :: rest) (hn : b.bbram.pending.length < 16)
    (hc : r.cls = .z) (hz : b.bbram.zDone = false) (hl : b.bbram.lifecycle ≠ 0) :
    let taken := b.modBelay fun y => { y with intake := rest }
    let wiped : Block := { taken with bbram := { taken.bbram with drk := none, markerOk := false, zDone := true } }
    batteryResponse b = { wiped with bbram := { wiped.bbram with
      pending := wiped.bbram.pending ++ [recordBytes wiped (finishReport wiped r .z) true] } } := by
  have he : (executedClass b.bbram.lifecycle .z).1 = .z := by rw [executedClass_z hl]
  simp [batteryResponse, hp, h, hn, hc, hz, he]

theorem batteryResponse_empty (h : b.belay.intake = []) : batteryResponse b = b := by simp [batteryResponse, h]

/-- Settles O32: the oldest report has its response by the lifecycle, and each response its work. -/
theorem responses : Obligations.Responses := by
  unfold Obligations.Responses
  intro s r rest x pc verdicts b taken after next
  have intake {t : Block} (hp : b.pmc.powerGood = true) (ht : belayIntake b = t) : Completes .belayIntake s (settle t) :=
    completes_poweredSettle rfl hp ht
  have classZ {t : Block} (hp : b.pmc.powerGood = true) (ht : zeroiseResponse b = t) : Completes .classZResponse s (settle t) :=
    completes_poweredSettle rfl hp ht
  have classL {t : Block} (hp : b.pmc.powerGood = true) (ht : lockResponse b = t) : Completes .classLResponse s (settle t) :=
    completes_poweredSettle rfl hp ht
  have responded_eq (t : Block) : responded t = next (cancelWakes (after t) fun _ => true) := afterResponse_eq _
  refine ⟨fun hr => completes_live rfl hr rfl, fun hp h hq => ⟨fun hc hl => ?_, fun hc hl => ?_, fun hc hl => ?_, fun hc => ?_⟩,
    fun hp h => intake hp (belayIntake_empty h),
    fun hp h h1 h4 => classZ hp ((zeroiseResponse_due h h1 h4).trans (responded_eq _)),
    fun hp hz h hl => classL hp ((lockResponse_due hz h hl).trans (responded_eq _)),
    fun hp h => classZ hp (zeroiseResponse_none h), fun hp h => classL hp (lockResponse_idle (.inl h)),
    fun hp h => classL hp (lockResponse_idle (.inr h)),
    fun hp h hn hc hz hl => completes_run rfl (batteryResponse_wipes hp h hn hc hz hl),
    fun hp h => completes_run rfl (batteryResponse_empty h)⟩
  · exact intake hp (belayIntake_responds h hq (by rw [hc]; exact executedClass_z hl) (.inr rfl))
  · exact intake hp (belayIntake_responds h hq (by rw [hc]; exact executedClass_l hl) (.inl rfl))
  · exact intake hp (belayIntake_responds h hq (by rw [hc, hl]; rfl) (.inr rfl))
  · exact intake hp (belayIntake_files h hq (executedClass_w hc))

end Sys2Proof.Machine
end

section
/-! PROOFS. Ferrule's commits, its report timer and its check, and with them the statement on Ferrule (R411 to R415, R420). -/
namespace Sys2Proof.Machine

variable {b : Block} {s : State} {m : Nat} {rules : List Region} {outstanding : Bool}

/-! ### Commits (R413 to R415) -/

/-- A master that makes no access: its domain is off, or its core stalls in TAKE or EWAIT. -/
theorem masterStill_iff : masterStill b m = true ↔
    b.domainOn (masterDomain m) = false ∨ (m < 64 ∧ ((b.core m).st = .take ∨ ∃ t, (b.core m).st = .waiting t)) := by
  simp only [masterStill, Bool.or_eq_true, Bool.not_eq_true', Bool.and_eq_true, decide_eq_true_eq]
  cases (b.core m).st <;> simp

theorem ferruleCommit_held (h : (b.ferrule m).pendingCommit = true) :
    ferruleCommit b m rules = b.modFerrule m fun f => { f with heldShadow := some (rules.take (ferruleRegions m)) } := if_pos h

theorem ferruleCommit_clash (h : (b.ferrule m).pendingCommit = false) (hc : shadowClash (rules.take (ferruleRegions m)) = true) :
    ferruleCommit b m rules = ((b.modFerrule m fun f => { f with shadow := rules.take (ferruleRegions m) }).modFerrule m
      fun f => { f with commitFault := true }).report 0x0211 m .w ((b.ferrule m).epoch % 65536) 0 0 := by
  simp [ferruleCommit, h, hc]

section
variable (h : (b.ferrule m).pendingCommit = false) (hc : shadowClash (rules.take (ferruleRegions m)) = false)
include h hc

theorem ferruleCommit_shadows : ferruleCommit b m rules =
    (b.modFerrule m fun f => { f with shadow := rules.take (ferruleRegions m) }).modFerrule m
      fun f => if masterStill b m = true then f.commit false else { f with pendingCommit := true } := by
  simp only [ferruleCommit, h, hc, Bool.false_eq_true, if_false]
  rfl

theorem ferruleCommit_waits (hs : ¬ masterStill b m = true) : ferruleCommit b m rules =
    (b.modFerrule m fun f => { f with shadow := rules.take (ferruleRegions m) }).modFerrule m fun f => { f with pendingCommit := true } := by
  simp only [ferruleCommit_shadows h hc, if_neg hs]

theorem ferruleCommit_atOnce (hs : masterStill b m = true) : ferruleCommit b m rules =
    (b.modFerrule m fun f => { f with shadow := rules.take (ferruleRegions m) }).modFerrule m fun f => f.commit false := by
  simp only [ferruleCommit_shadows h hc, if_pos hs]

end

theorem completes_ferruleCommit {m : Fin 80} {t : Block} (hr : s.blk.running = true) (hw : wfRules m rules = true)
    (ht : ferruleCommit s.blk m rules = t) : Completes (.ferruleCommit m rules) s t := by
  simp [Completes, exec, execFerruleCommit, act, hw, run, live, hr, ht]

theorem ferruleCommitPoint_pending (h : (b.ferrule m).pendingCommit = true) :
    ferruleCommitPoint b m outstanding = b.modFerrule m fun f => f.commit outstanding := if_pos h

theorem ferruleCommitPoint_none (h : (b.ferrule m).pendingCommit = false) : ferruleCommitPoint b m outstanding = b := by
  simp [ferruleCommitPoint, h]

/-! ### The report timer (R420) -/

theorem ferruleReportTimer_off (h : (b.ferrule m).timer = false) : ferruleReportTimer b m = b := by simp [ferruleReportTimer, h]

section
variable (h : (b.ferrule m).timer = true)
include h

theorem ferruleReportTimer_stops (hs : (b.ferrule m).since = 0) :
    ferruleReportTimer b m = b.modFerrule m fun f => { f with timer := false } := by simp [ferruleReportTimer, h, hs]

theorem ferruleReportTimer_overruns (hs : (b.ferrule m).since ≠ 0) (hf : 64 ≤ b.belay.intake.length) :
    ferruleReportTimer b m = b.modFerrule m fun f => { f with overrun := true } := by simp [ferruleReportTimer, h, hs, hf]

theorem ferruleReportTimer_files (hs : (b.ferrule m).since ≠ 0) (hf : b.belay.intake.length < 64) :
    ferruleReportTimer b m = ferruleRecord b m 0x0210 .w 64 := by simp [ferruleReportTimer, h, hs, Nat.not_le.mpr hf]

end

/-! ### The check of an access (R411 to R413) -/

theorem Region.covers_iff {r : Region} {g : Nat} : r.covers g = true ↔ r.en = true ∧ r.base ≤ g ∧ g ≤ r.limit := by
  simp [Region.covers, and_assoc]

theorem rulesAdmit_uncovered {g : Nat} {k : AccessKind} (h : ∀ r ∈ rules, ¬ r.covers g = true) : rulesAdmit rules g k = false := by
  have none : rules.find? (fun r => r.covers g) = none := List.find?_eq_none.mpr h
  simp [rulesAdmit, none]

/-- The first region that covers a granule decides, whatever stands after it. -/
theorem rulesAdmit_first {g : Nat} {k : AccessKind} {before after : List Region} {r : Region}
    (hb : ∀ x ∈ before, ¬ x.covers g = true) (hr : r.covers g = true) : rulesAdmit (before ++ r :: after) g k = r.grants k := by
  have none : before.find? (fun r => r.covers g) = none := List.find?_eq_none.mpr hb
  have first : (before ++ r :: after).find? (fun r => r.covers g) = some r := by
    rw [List.find?_append, none, Option.none_or, List.find?_cons_of_pos (p := fun x : Region => x.covers g) hr]
  simp [rulesAdmit, first]

/-- Settles O30: each command takes the course that its Ferrule's state names, and the first region that covers a granule decides. -/
theorem ferrule : Obligations.Ferrule := by
  unfold Obligations.Ferrule
  refine ⟨fun s m rules outstanding hr => ?_, fun rules g kind => ?_⟩
  · intro b f set_ point still
    have timer {t : Block} (ht : ferruleReportTimer b m = t) : Completes (.ferruleReportTimer m) s t := completes_live rfl hr ht
    have pointAt {t : Block} (ht : ferruleCommitPoint b m outstanding = t) : Completes (.ferruleCommitPoint m outstanding) s t :=
      completes_live rfl hr ht
    have stillIff : masterStill b m = true ↔ still := masterStill_iff
    exact ⟨fun hw h => completes_ferruleCommit hr hw (ferruleCommit_held h),
      fun hw h hc hs => completes_ferruleCommit hr hw (ferruleCommit_waits h hc (by rwa [stillIff])),
      fun hw h hc hs => completes_ferruleCommit hr hw (ferruleCommit_atOnce h hc (stillIff.mpr hs)),
      fun hw h hc => completes_ferruleCommit hr hw (ferruleCommit_clash h hc),
      fun h => pointAt (ferruleCommitPoint_pending h), fun h => pointAt (ferruleCommitPoint_none h), completes_live rfl hr rfl,
      fun h hs => timer (ferruleReportTimer_stops h hs), fun h hs hf => timer (ferruleReportTimer_overruns h hs hf),
      fun h hs hf => timer (ferruleReportTimer_files h hs hf), fun h => timer (ferruleReportTimer_off h)⟩
  · intro covers grants
    refine ⟨fun h => rulesAdmit_uncovered fun r hr => ?_, fun before r after e hb hc => ?_⟩
    · rw [Region.covers_iff]; exact h r hr
    · rw [e, rulesAdmit_first (fun x hx => by rw [Region.covers_iff]; exact hb x hx) (Region.covers_iff.mpr hc)]
      cases kind <;> rfl

end Sys2Proof.Machine
end

section
/-! PROOFS. Lantern's health tests, its expander and its ports, and with them the two statements on Lantern (R397 to R407, R428). -/
namespace Sys2Proof.Machine

variable {b t : Block} {s : State}

/-! ### One sample (R397) -/

/-- The repetition count is tested before the adaptive proportion. -/
theorem sample_breach (x : Source) (n : Nat) (bit : Bool) : (Source.sample x n bit).2 =
    if lanRepetition n ≤ (Source.sample x n bit).1.run then 1 else if lanProportion n ≤ (Source.sample x n bit).1.same then 2 else 0 := rfl

theorem sample_same (x : Source) (n : Nat) (bit : Bool) : (Source.sample x n bit).1.same =
    if x.seen = 0 ∨ x.seen = 1024 then 1 else if x.first = bit then x.same + 1 else x.same := by
  by_cases hf : x.seen = 0 ∨ x.seen = 1024 <;> by_cases hb : x.first = bit <;> simp [Source.sample, hf, hb, b2n]

theorem sample_seen (x : Source) (n : Nat) (bit : Bool) : (Source.sample x n bit).1.seen =
    if x.seen = 0 ∨ x.seen = 1024 then 1 else x.seen + 1 := rfl

/-! ### The samples of every source -/

/-- What sampling does with source `n`, and with the first breach met. -/
def sampleStep (l : Lantern) (raw : BitVec 5) (acc : Tab Source × Option (Nat × Nat)) (n : Nat) : Tab Source × Option (Nat × Nat) :=
  let x := raw.getLsbD n
  let r := Source.sample (Tab.get l.sources Source.reset n) n x
  (Tab.set acc.1 n { r.1 with packed := if r.1.packed.length < 256 then r.1.packed ++ [x] else r.1.packed },
    if acc.2.isNone ∧ r.2 ≠ 0 then some (n, r.2) else acc.2)

/-- The sources after a sample, and the first breach. -/
def sampled (l : Lantern) (raw : BitVec 5) : Tab Source × Option (Nat × Nat) := (List.range 5).foldl (sampleStep l raw) (l.sources, none)

section
variable {l : Lantern} {raw : BitVec 5}

theorem foldl_sampleStep_source (n : Nat) : ∀ (ns : List Nat) (acc : Tab Source × Option (Nat × Nat)),
    Tab.get (ns.foldl (sampleStep l raw) acc).1 Source.reset n =
      if n ∈ ns then Tab.get (sampleStep l raw acc n).1 Source.reset n else Tab.get acc.1 Source.reset n
  | [], acc => by simp
  | m :: ns, acc => by
    rw [List.foldl_cons, foldl_sampleStep_source n ns]
    by_cases h : n = m
    · simp [h, sampleStep]
    · simp [h, sampleStep, Tab.get_set_ne _ _ _ h]

/-- The breach that is kept is the first source's in the order of the sources. -/
theorem foldl_sampleStep_breach : ∀ (ns : List Nat) (acc : Tab Source × Option (Nat × Nat)),
    (ns.foldl (sampleStep l raw) acc).2 = acc.2.or ((ns.find? fun n =>
      (Source.sample (Tab.get l.sources Source.reset n) n (raw.getLsbD n)).2 != 0).map fun n =>
        (n, (Source.sample (Tab.get l.sources Source.reset n) n (raw.getLsbD n)).2))
  | [], acc => by simp
  | m :: ns, acc => by
    rw [List.foldl_cons, foldl_sampleStep_breach ns]
    cases ha : acc.2 with
    | some x => simp [sampleStep, ha]
    | none =>
      by_cases hm : (Source.sample (Tab.get l.sources Source.reset m) m (raw.getLsbD m)).2 = 0 <;> simp [sampleStep, ha, hm]

theorem sampled_source {n : Nat} (h : n < 5) : Tab.get (sampled l raw).1 Source.reset n =
    let x := Tab.get l.sources Source.reset n
    { (Source.sample x n (raw.getLsbD n)).1 with
      packed := if x.packed.length < 256 then x.packed ++ [raw.getLsbD n] else x.packed } := by
  rw [sampled, foldl_sampleStep_source, if_pos (List.mem_range.mpr h)]
  simp [sampleStep]
  rfl

theorem sampled_breach : (sampled l raw).2 = ((List.range 5).find? fun n =>
    (Source.sample (Tab.get l.sources Source.reset n) n (raw.getLsbD n)).2 != 0).map fun n =>
      (n, (Source.sample (Tab.get l.sources Source.reset n) n (raw.getLsbD n)).2) := by
  rw [sampled, foldl_sampleStep_breach, Option.none_or]

theorem sampled_sound (h : ∀ n < 5, (Source.sample (Tab.get l.sources Source.reset n) n (raw.getLsbD n)).2 = 0) : (sampled l raw).2 = none := by
  rw [sampled_breach, List.find?_eq_none.mpr (fun n hn => by simp [h n (List.mem_range.mp hn)])]
  rfl

theorem sampled_breached {n : Nat} (hn : n < 5)
    (hb : ∀ m < n, (Source.sample (Tab.get l.sources Source.reset m) m (raw.getLsbD m)).2 = 0)
    (h : (Source.sample (Tab.get l.sources Source.reset n) n (raw.getLsbD n)).2 ≠ 0) :
    (sampled l raw).2 = some (n, (Source.sample (Tab.get l.sources Source.reset n) n (raw.getLsbD n)).2) := by
  have first : (List.range 5).find? (fun n => (Source.sample (Tab.get l.sources Source.reset n) n (raw.getLsbD n)).2 != 0) = some n :=
    List.find?_range_eq_some.mpr ⟨by simpa using h, List.mem_range.mpr hn, fun m hm => by simp [hb m hm]⟩
  rw [sampled_breach, first]
  rfl

end

/-- The device with one sample of every source taken. -/
def withSamples (b : Block) (raw : BitVec 5) : Block :=
  b.modLantern fun l => { l with sources := (sampled b.lantern raw).1, samples := l.samples + 1 }

section
variable {raw : BitVec 5}

theorem lanSample_stopped (h : b.lantern.st = .off ∨ b.lantern.st = .failed) : lanSample b raw = b := if_pos h.symm

variable (hr : b.lantern.st = .starting ∨ b.lantern.st = .running)
include hr

theorem lanSample_dropped (h : b.lantern.samples < 128) :
    lanSample b raw = b.modLantern fun l => { l with samples := l.samples + 1 } := by
  rcases hr with hr | hr <;> simp [lanSample, hr, lanSettled, Nat.not_le.mpr h]

variable (h : 128 ≤ b.lantern.samples)
include h

theorem lanSample_tested : lanSample b raw =
    match (sampled b.lantern raw).2 with
    | some (n, test) => lanFail (withSamples b raw) n test 0
    | none => withSamples b raw := by
  have on : ¬ (b.lantern.st = .failed ∨ b.lantern.st = .off) := by rcases hr with hr | hr <;> simp [hr]
  have settled : ¬ (!lanSettled b.lantern) = true := by simp [lanSettled, h]
  exact (if_neg on).trans (if_neg settled)

theorem lanSample_sound (hz : ∀ n < 5, (Source.sample (Tab.get b.lantern.sources Source.reset n) n (raw.getLsbD n)).2 = 0) :
    lanSample b raw = withSamples b raw := by
  rw [lanSample_tested hr h, sampled_sound hz]

theorem lanSample_breached {n : Nat} (hn : n < 5)
    (hb : ∀ m < n, (Source.sample (Tab.get b.lantern.sources Source.reset m) m (raw.getLsbD m)).2 = 0)
    (hz : (Source.sample (Tab.get b.lantern.sources Source.reset n) n (raw.getLsbD n)).2 ≠ 0) : lanSample b raw =
      lanFail (withSamples b raw) n (Source.sample (Tab.get b.lantern.sources Source.reset n) n (raw.getLsbD n)).2 0 := by
  rw [lanSample_tested hr h, sampled_breached hn hb hz]

end

/-! ### A failure (R407) -/

/-- Lantern has failed for a cause, holds nothing, and Belay and Tally 144 know of it. -/
structure FailedBy (b t : Block) (source test kat : Nat) : Prop where
  st : t.lantern.st = .failed
  causeSource : t.lantern.causeSource = source
  causeTest : t.lantern.causeTest = test
  causeKat : t.lantern.causeKat = kat
  block : t.lantern.block = none
  key : t.lantern.key = []
  v : t.lantern.v = []
  central : t.lantern.central = []
  instantiated : t.lantern.instantiated = false
  ports : ∀ p ∈ t.lantern.ports, p.2.buf = []
  told : t.belay.intake = b.belay.intake ++ [{ code := 0x0120, src := 0, cls := .w, p0 := source + 8 * test + 32 * kat, p1 := 0, p2 := 0
                                               rom := false, overrun := false, quiesce := 64, detected := b.now }]
  counted : t.tallyOf 144 = min (2 ^ 48 - 1) (b.tallyOf 144 + 1)

theorem lanFail_failedBy (h : b.lantern.st ≠ .failed) (source test kat : Nat) : FailedBy b (lanFail b source test kat) source test kat := by
  rw [lanFail, if_neg h]
  refine ⟨rfl, rfl, rfl, rfl, rfl, rfl, rfl, rfl, rfl, fun p hp => ?_, rfl, tallyOf_tallyBy_self _ _ _⟩
  obtain ⟨q, -, rfl⟩ := List.mem_map.mp hp
  rfl

theorem FailedBy.of_modLantern {f : Lantern → Lantern} {source test kat : Nat} (h : FailedBy (b.modLantern f) t source test kat) :
    FailedBy b t source test kat := by
  obtain ⟨h1, h2, h3, h4, h5, h6, h7, h8, h9, h10, h11, h12⟩ := h
  exact ⟨h1, h2, h3, h4, h5, h6, h7, h8, h9, h10, h11, h12⟩

/-! ### The known-answer tests (R400) -/

/-- The tests are due at the start-up and at every 65,536th reseed. -/
def KatDue (l : Lantern) : Prop := l.st = .starting ∨ (l.st = .running ∧ l.reseeds ≠ 0 ∧ l.reseeds % 65536 = 0)

theorem lanKat_passes (h : KatDue b.lantern) : lanKat b none = b.modLantern fun l => { l with katOk := true } := if_pos h

theorem lanKat_mismatch (h : KatDue b.lantern) (expander : Bool) : lanKat b (some expander) = lanFail b 0 3 (b2n expander) := if_pos h

theorem lanKat_notDue (h : ¬ KatDue b.lantern) (bad : Option Bool) : lanKat b bad = b := if_neg h

/-- Settles O39: the tests of one sample, then the sampling of every source and the known-answer tests, with the failure that each can end in. -/
theorem lanternHealth : Obligations.LanternHealth := by
  unfold Obligations.LanternHealth
  refine ⟨fun x n bit hn hs => ?_, fun s raw expander hr hd => ?_⟩
  · intro r run same
    have hsame : r.1.same = same := sample_same x n bit
    have hseen : r.1.seen = if x.seen = 0 ∨ x.seen = 1024 then 1 else x.seen + 1 := sample_seen x n bit
    have hbreach : r.2 = if (if n = 4 then 26 else 41) ≤ run then 1 else if (if n = 4 then 667 else 797) ≤ same then 2 else 0 := by
      rw [← hsame]; exact sample_breach x n bit
    refine ⟨rfl, rfl, hsame, rfl, rfl, ?_, ?_, fun h0 h1 => ?_, ?_, ?_, ?_⟩
    · rw [hseen]; split <;> omega
    · rw [hseen]; split <;> omega
    · rw [hseen, if_neg (by omega)]
    all_goals
      generalize (if n = 4 then 26 else 41) = repetition at hbreach ⊢
      generalize (if n = 4 then 667 else 797) = proportion at hbreach ⊢
      rw [hbreach]
      by_cases h1 : repetition ≤ run <;> by_cases h2 : proportion ≤ same <;> simp [h1, h2] <;> omega
  · intro b l src one runs due failedBy
    have failed {t : Block} {i : Instr} {source test kat : Nat} (hi : Completes i s t) (h : FailedBy b t source test kat) :
        ∃ t, Completes i s t ∧ failedBy t source test kat :=
      ⟨t, hi, h.st, h.causeSource, h.causeTest, h.causeKat, h.block, h.key, h.v, h.central, h.instantiated, h.ports, h.told, h.counted⟩
    have sample {t : Block} (ht : lanSample b raw = t) : Completes (.lanternSample raw) s t := completes_awake rfl hr hd ht
    have kat {t : Block} {bad : Option Bool} (ht : lanKat b bad = t) : Completes (.lanternKat bad) s t := completes_awake rfl hr hd ht
    refine ⟨fun h => sample (lanSample_stopped h), fun h hn => sample (lanSample_dropped h hn), fun h hn hz => ?_, fun n hn h hs hb hz => ?_,
      fun h => kat (lanKat_passes h), fun h => ?_, fun h bad => kat (lanKat_notDue h bad)⟩
    · exact ⟨_, sample (lanSample_sound h hn hz), rfl, rfl, rfl, fun n hn => sampled_source hn⟩
    · have on : (withSamples b raw).lantern.st ≠ .failed := by rcases h with h | h <;> exact fun e => nomatch h.symm.trans e
      exact failed (sample (lanSample_breached h hs hn hb hz)) (FailedBy.of_modLantern (lanFail_failedBy on _ _ _))
    · have on : b.lantern.st ≠ .failed := by
        rcases h with h | ⟨h, -⟩ <;> exact fun e => nomatch h.symm.trans e
      exact failed (kat (lanKat_mismatch h expander)) (lanFail_failedBy on 0 3 (b2n expander))

end Sys2Proof.Machine
end

section
/-! PROOFS. Lantern's conditioner, expander and ports, and what a draw delivers, and with them the statement on what it generates (R398, R399, R401,
R404 to R406, R428). -/
namespace Sys2Proof.Machine

variable {b t : Block} {s : State} {key v out x : Bytes}

/-! ### The conditioner and the expander (R398, R399, R401) -/

/-- Every source has its 256 samples. -/
def ConditionerFull (l : Lantern) : Prop := ∀ n < 5, 256 ≤ (Tab.get l.sources Source.reset n).packed.length

theorem conditionerFull_iff (l : Lantern) : ConditionerFull l ↔
    ((List.range 5).all fun n => decide (256 ≤ (Tab.get l.sources Source.reset n).packed.length)) = true := by
  simp [ConditionerFull]

theorem lanCondition_forms (hs : b.lantern.st = .starting ∨ b.lantern.st = .running) (hf : ConditionerFull b.lantern) :
    lanCondition b = b.modLantern fun l =>
      { l with block := some (shake256 (9 :: (List.range 5).flatMap fun n => packSamples (Tab.get b.lantern.sources Source.reset n).packed) 64)
               sources := Tab.mapVals l.sources fun _ x => { x with packed := [] } } :=
  if_pos ⟨hs, (conditionerFull_iff _).mp hf⟩

theorem lanCondition_waits (hf : ¬ ConditionerFull b.lantern) : lanCondition b = b :=
  if_neg fun h => hf ((conditionerFull_iff _).mpr h.2)

/-- A call of the generator, which needs no reseed first. -/
theorem refill_generates {l : Lantern} {need : Nat} (hi : l.instantiated = true) (hn : l.central.length < need) (hc : l.calls ≠ 4096)
    (hg : drbgGenerate l.key l.v 1024 = (out, key, v)) :
    l.refill need = { l with key := key, v := v, calls := l.calls + 1, central := l.central ++ out } := by
  simp [Lantern.refill, hi, hn, hc, Lantern.generate, hg]

/-- Bytes that the central buffer already holds need no call. -/
theorem refill_holds {l : Lantern} {need : Nat} (h : need ≤ l.central.length) : l.refill need = l := by
  simp [Lantern.refill, Nat.not_lt.mpr h]

theorem lanGenerate_runs (hs : b.lantern.st = .running) (hc : b.lantern.calls ≠ 4096) (hi : b.lantern.instantiated = true)
    (hn : b.lantern.central.length < 1024) (hg : drbgGenerate b.lantern.key b.lantern.v 1024 = (out, key, v)) :
    lanGenerate b = b.modLantern fun l => { l with key := key, v := v, calls := l.calls + 1, central := l.central ++ out } := by
  simp only [lanGenerate, hs, reduceCtorEq, or_self, if_false, Block.modLantern, if_neg hc, refill_generates hi hn hc hg]

theorem lanGenerate_idle (h : b.lantern.calls = 4096 ∨ 1024 ≤ b.lantern.central.length) : lanGenerate b = b := by
  have same : (if b.lantern.calls = 4096 then b.lantern else b.lantern.refill 1024) = b.lantern := by
    rcases h with h | h
    · rw [if_pos h]
    · rw [refill_holds h, ite_self]
  simp only [lanGenerate, Block.modLantern, same]
  exact ite_self b

theorem lanReseed_reseeds (hi : b.lantern.instantiated = true) (hc : b.lantern.calls = 4096) (hx : b.lantern.block = some x)
    (hu : drbgUpdate b.lantern.key b.lantern.v (x.take 48) = (key, v)) :
    lanReseed b = b.modLantern fun l => { l with key := key, v := v, calls := 0, reseeds := l.reseeds + 1 } := by
  simp [lanReseed, hi, hc, Block.modLantern, Lantern.reseed, hx, hu]

theorem lanReseed_notDue (h : b.lantern.calls ≠ 4096) : lanReseed b = b := if_neg fun q => h q.2

theorem lanRun_runs {key2 v2 : Bytes} (hs : b.lantern.st = .starting) (hk : b.lantern.katOk = true) (hn : 4224 ≤ b.lantern.samples)
    (hx : b.lantern.block = some x) (hc : b.lantern.central = [])
    (hu : drbgUpdate (zeros 32) (zeros 16) (xorBytes (x.take 48) (lanPersonal b)) = (key, v))
    (hg : drbgGenerate key v 1024 = (out, key2, v2)) :
    lanRun b = ((b.fresh 48).2.modBelay fun y => { y with patterns := some (b.fresh 48).1 }).modLantern fun l =>
      { l with st := .running, instantiated := true, key := key2, v := v2, calls := 1, reseeds := 0, central := out } := by
  simp [lanRun, hx, hs, hk, hn, hu, Block.modLantern, Block.fresh, Block.modBelay, Lantern.refill, hc, Lantern.generate, hg]

theorem lanRun_waits (h : b.lantern.katOk = false ∨ b.lantern.samples < 4224 ∨ b.lantern.block = none) : lanRun b = b := by
  cases hx : b.lantern.block with
  | none => simp [lanRun, hx]
  | some x =>
    have early : ¬ (b.lantern.st = .starting ∧ b.lantern.katOk = true ∧ 128 + 4096 ≤ b.lantern.samples) := by
      rintro ⟨-, hk, hn⟩
      rcases h with h | h | h
      · simp [h] at hk
      · omega
      · simp [h] at hx
    simp only [lanRun, hx, if_neg early]

/-! ### The ports (R404 to R406) -/

section
variable {p : Nat}

theorem lanRoom_iff : lanRoom b p = true ↔
    (b.lanPort p).buf.length < 16 ∧ (p < 64 ∨ ((b.lanPort p).filled ≠ some b.now ∧ (p = 128 ∨ p - 64 < b.n))) := by
  simp only [lanRoom, lanPortPf, Bool.and_eq_true, Bool.or_eq_true, decide_eq_true_eq, bne_iff_ne, beq_iff_eq]
  tauto

/-- The port that comes `k` turns after the one refilled last. -/
def portAfter (b : Block) (k : Nat) : Nat := (b.lantern.lastPort + 1 + k) % 129

theorem portAfter_eq (b : Block) (k : Nat) : portAfter b k = ((b.lantern.lastPort + 1) % 129 + k) % 129 := (Nat.mod_add_mod _ _ _).symm

theorem portAfter_of (hp : p < 129) : portAfter b ((p + 129 - (b.lantern.lastPort + 1) % 129) % 129) = p := by
  rw [portAfter_eq]; omega

theorem of_portAfter {k : Nat} (hk : k < 129) (h : portAfter b k = p) : k = (p + 129 - (b.lantern.lastPort + 1) % 129) % 129 := by
  rw [portAfter_eq] at h; omega

/-- A port has its turn where it has room and none before it in the round has. -/
theorem lanTurn_iff (hp : p < 129) : lanTurn b = some p ↔ lanRoom b p = true ∧
    ∀ k, k < (p + 129 - (b.lantern.lastPort + 1) % 129) % 129 → ¬ lanRoom b (portAfter b k) = true := by
  have find : lanTurn b = ((List.range 129).find? fun k => lanRoom b (portAfter b k)).map (portAfter b) := List.find?_map ..
  rw [find, Option.map_eq_some_iff]
  constructor
  · rintro ⟨k, hk, rfl⟩
    obtain ⟨room, hk, before⟩ := List.find?_range_eq_some.mp hk
    rw [← of_portAfter (List.mem_range.mp hk) rfl]
    exact ⟨room, fun j hj => by simpa using before j hj⟩
  · rintro ⟨room, before⟩
    refine ⟨_, List.find?_range_eq_some.mpr ⟨?_, List.mem_range.mpr (Nat.mod_lt _ (by decide)), fun j hj => by simpa using before j hj⟩,
      portAfter_of hp⟩
    rw [portAfter_of hp]; exact room

theorem lanPortRefill_refills {b1 : Block} (hs : b.lantern.st = .running) (ht : lanTurn b = some p)
    (hd : b.draw (16 - (b.lanPort p).buf.length) = some (x, b1)) : lanPortRefill b p =
      (b1.modLanPort p fun q => { q with buf := q.buf ++ x, filled := some b1.now }).modLantern fun l => { l with lastPort := p } := by
  simp [lanPortRefill, hs, ht, hd]

theorem lanPortRefill_waits (h : ¬ (b.lantern.st = .running ∧ lanTurn b = some p)) : lanPortRefill b p = b := if_neg h

/-- The device after a word is read at port `p`: LAN_DATA and VFL_DATA are such reads. -/
def portWord (b : Block) (p : Nat) : Block := (lanPortRead b p 4).2.answer (ofLe (lanPortRead b p 4).1)

theorem portWord_holds (h : 4 ≤ (b.lanPort p).buf.length) :
    portWord b p = (b.modLanPort p fun q => { q with buf := q.buf.drop 4 }).answer (ofLe ((b.lanPort p).buf.take 4)) := by
  rw [portWord, lanPortRead, if_pos h]

theorem portWord_short (h : (b.lanPort p).buf.length < 4) : portWord b p = (b.modLanPort p fun q => { q with err := true }).answer 0 := by
  rw [portWord, lanPortRead, if_neg (Nat.not_le.mpr h)]
  rfl

end

/-! ### Draws (R405) -/

theorem drawOne_stopped (h : b.lantern.st ≠ .running) (n : Nat) : drawOne b n = none := if_neg h

theorem drawOne_length {n : Nat} (h : drawOne b n = some (x, t)) : x.length = n := by
  unfold drawOne at h
  split at h
  · cases h
    simp only [fit, zeros, List.length_append, List.length_take, List.length_replicate]
    omega
  · cases h

theorem drawOne_holds {n : Nat} (hs : b.lantern.st = .running) (h : n ≤ b.lantern.central.length) : drawOne b n =
    some (b.lantern.central.take n, ({ b with lantern := { b.lantern with central := b.lantern.central.drop n } } : Block).tallyBy 143 n) := by
  simp [drawOne, hs, refill_holds h, fit, zeros, Nat.sub_eq_zero_of_le h]

theorem drawMany_succ (fuel : Nat) {n : Nat} (hn : n ≠ 0) (b : Block) : drawMany (fuel + 1) b n =
    (drawOne b (min n 1024)).bind fun r => (drawMany fuel r.2 (n - min n 1024)).map fun q => (r.1 ++ q.1, q.2) := by
  rw [drawMany, if_neg hn]
  cases drawOne b (min n 1024) with
  | none => rfl
  | some r =>
    dsimp only [Option.bind_some]
    cases drawMany fuel r.2 (n - min n 1024) <;> rfl

theorem drawMany_zero (fuel : Nat) (b : Block) : drawMany fuel b 0 = some ([], b) := by
  cases fuel <;> rfl

theorem drawMany_length {fuel n : Nat} (h : drawMany fuel b n = some (x, t)) (hn : n ≤ fuel * 1024) : x.length = n := by
  induction fuel generalizing n b x with
  | zero =>
    obtain rfl : n = 0 := by omega
    rw [drawMany_zero] at h
    cases h; rfl
  | succ fuel ih =>
    by_cases hz : n = 0
    · subst hz
      rw [drawMany_zero] at h
      cases h; rfl
    · rw [drawMany_succ fuel hz, Option.bind_eq_some_iff] at h
      obtain ⟨⟨y, b1⟩, h1, h⟩ := h
      obtain ⟨⟨z, b2⟩, h2, h⟩ := Option.map_eq_some_iff.mp h
      cases h
      rw [List.length_append, drawOne_length h1, ih h2 (by omega)]
      omega

theorem draw_stopped {n : Nat} (hn : n ≠ 0) (h : b.lantern.st ≠ .running) : b.draw n = none := by
  rw [Block.draw, if_neg hn, drawMany_succ 63 hn, drawOne_stopped h]; rfl

theorem draw_length {n : Nat} (h : b.draw n = some (x, t)) (hn : n ≤ 65536) : x.length = n := by
  unfold Block.draw at h
  split at h
  case isTrue hz => cases h; exact hz.symm
  case isFalse hz => exact drawMany_length h hn

theorem draw_holds {n : Nat} (h1 : 1 ≤ n) (hn : n ≤ 1024) (hs : b.lantern.st = .running) (h : n ≤ b.lantern.central.length) : b.draw n =
    some (b.lantern.central.take n, ({ b with lantern := { b.lantern with central := b.lantern.central.drop n } } : Block).tallyBy 143 n) := by
  have hz : n ≠ 0 := by omega
  rw [Block.draw, if_neg hz, drawMany_succ 63 hz, Nat.min_eq_left hn, drawOne_holds hs h, Nat.sub_self]
  simp [drawMany_zero]

/-- Settles O40: each event of the generator, each port's turn and read, and each draw takes the course that its conditions name. -/
theorem lanternGeneration : Obligations.LanternGeneration := by
  unfold Obligations.LanternGeneration
  refine ⟨fun s x key v out hr hd => ?_, fun s p c x b1 => ?_, fun b n => ⟨draw_stopped, fun x b1 h hn => draw_length h hn, draw_holds⟩⟩
  · intro b l packed block personal seeded full
    have fullIff : ConditionerFull l ↔ full := Iff.rfl
    have row {i : Instr} {f : Block → Block} {t : Block} (hi : exec i s = run s (awake 18 f)) (ht : f b = t) : Completes i s t :=
      completes_awake hi hr hd ht
    exact ⟨fun hs hf => row rfl (lanCondition_forms hs hf), fun hf => row rfl (lanCondition_waits hf),
      fun hs hc hi hn hg => row rfl (lanGenerate_runs hs hc hi hn hg), fun h => row rfl (lanGenerate_idle h),
      fun hi hc hx hu => row rfl (lanReseed_reseeds hi hc hx hu), fun h => row rfl (lanReseed_notDue h),
      fun h => row rfl ((if_pos h).trans (if_neg (by rw [show b.lantern.st = .off from h]; decide))), fun h => row rfl (if_neg h),
      fun hs hk hn hx hc hu key2 v2 hg => row rfl (lanRun_runs hs hk hn hx hc hu hg), fun h => row rfl (lanRun_waits h)⟩
  · intro b port put reads room start turn
    have turnIff : lanTurn b = some p.val ↔ turn := by
      rw [lanTurn_iff p.isLt, lanRoom_iff]
      simp only [lanRoom_iff, portAfter_eq]
      rfl
    have unbound (q : Nat) : admits (askerOf b (some q)) .lan = false := by
      cases h : b.bimor.binds.find? fun x => x.2 == q <;> simp [askerOf, h, admits]
    have word_holds {n : Nat} (h : 4 ≤ (port n).buf.length) : portWord b n =
        (put n fun q => { q with buf := q.buf.drop 4 }).answer (ofLe ((port n).buf.take 4)) := portWord_holds h
    have word_short {n : Nat} (h : (port n).buf.length < 4) : portWord b n = (put n fun q => { q with err := true }).answer 0 :=
      portWord_short h
    refine ⟨fun hr hd hs ht hx => completes_awake rfl hr hd (lanPortRefill_refills hs (turnIff.mpr ht) hx), fun h => ?_,
      fun hon => ⟨fun h => completes_pfRequest rfl hon rfl (word_holds h), fun h => completes_pfRequest rfl hon rfl (word_short h)⟩,
      fun hv => ⟨fun h => completes_vfRequest rfl hv (word_holds h), fun h => completes_vfRequest rfl hv (word_short h)⟩,
      fun hon => completes_pfRequest rfl hon rfl rfl, fun hv => completes_vfRequest rfl hv rfl,
      fun hon q a => completes_pfReject rfl hon (unbound q) (pfReject_read _)⟩
    · have waits : lanPortRefill b p = b := lanPortRefill_waits fun ⟨hs, ht⟩ => h.elim (fun h => h hs) (fun h => h (turnIff.mp ht))
      exact completes_run rfl (by rw [awake, show lanPortRefill s.blk p = s.blk from waits, ite_self])

end Sys2Proof.Machine
end

section
/-! PROOFS. The wakes of domains, their queue and their grants, and domains that go off, and with them the statement on domains on demand (R197, R201,
R250, R505, R507 to R510). -/
namespace Sys2Proof.Machine

variable {b : Block} {s : State} {d : Nat}

/-! ### The queue of wakes (R507, R508) -/

theorem wakeCause_iff : wakeCause b d = true ↔ d < 2 ∨ 17 < d ∨ d ∈ chuckWakes b ∨ d ∈ engineWakes b := by
  simp [wakeCause, or_assoc]

theorem wakeRequest_queues (hd : d < 24) (hn : b.pmc.on.getLsbD d = false) (hw : b.pmc.warming.getLsbD d = false) :
    wakeRequest b d = b.modPmc fun p => { p with queue := insertWake d b.cyc p.queue, warming := p.warming ||| domainBit d } := by
  have go : ¬ (24 ≤ d ∨ b.pmc.on.getLsbD d = true ∨ b.pmc.warming.getLsbD d = true) := by
    rw [hn, hw]; simp [hd]
  exact if_neg go

theorem wakeRequest_idle (h : ¬ (b.pmc.on.getLsbD d = false ∧ b.pmc.warming.getLsbD d = false)) : wakeRequest b d = b := by
  have stop : 24 ≤ d ∨ b.pmc.on.getLsbD d = true ∨ b.pmc.warming.getLsbD d = true := by
    simp only [not_and_or, Bool.not_eq_false] at h
    exact .inr h
  exact if_pos stop

/-- A wake goes behind those of its rank and those before it, and ahead of the others. -/
theorem insertWake_places (d t : Nat) : ∀ q : List (Nat × Nat), ∃ before after, q = before ++ after ∧ insertWake d t q = before ++ (d, t) :: after ∧
    (∀ p ∈ before, wakeRank p.1 ≤ wakeRank d) ∧ ∀ p, after.head? = some p → wakeRank d < wakeRank p.1
  | [] => ⟨[], [], rfl, rfl, by simp, by simp⟩
  | p :: rest => by
    by_cases h : wakeRank d < wakeRank p.1
    · exact ⟨[], p :: rest, rfl, if_pos h, by simp, by simpa using h⟩
    · obtain ⟨before, after, rfl, placed, lower, upper⟩ := insertWake_places d t rest
      refine ⟨p :: before, after, rfl, (if_neg h).trans (by rw [placed]; rfl), fun q hq => ?_, upper⟩
      rcases List.mem_cons.mp hq with rfl | hq
      · exact Nat.not_lt.mp h
      · exact lower q hq

/-! ### The grant at the head (R508, R510) -/

section
variable {e t : Nat} {rest : List (Nat × Nat)}

theorem railsHold_iff (p : Pmc) (cost : List Nat) : railsHold p cost = true ↔ ∀ r < 4, cost.getD r 0 ≤ Tab.get p.tokens 0 r := by
  simp [railsHold]

theorem wakeGrant_empty (h : b.pmc.queue = []) : wakeGrant b = b := by simp [wakeGrant, h]

theorem wakeGrant_waits (h : b.pmc.queue = (e, t) :: rest) (hn : ¬ railsHold b.pmc (wakeCost e) = true) : wakeGrant b = b := by
  simp [wakeGrant, h, hn]

theorem wakeGrant_grants (h : b.pmc.queue = (e, t) :: rest) (hh : railsHold b.pmc (wakeCost e) = true) : wakeGrant b =
    (b.modPmc fun p => { p with queue := rest, granted := p.granted ++ [(e, t)]
                                tokens := (List.range 4).map fun r => (r, Tab.get p.tokens 0 r - (wakeCost e).getD r 0) }).tally 154 := by
  simp [wakeGrant, h, hh]

/-- A rail's entry in a table of one entry for each of the four. -/
theorem get_rails (f : Nat → Nat) {r : Nat} (hr : r < 4) : Tab.get ((List.range 4).map fun r => (r, f r)) 0 r = f r := by
  rw [show List.range 4 = [0, 1, 2, 3] from rfl]
  have : r = 0 ∨ r = 1 ∨ r = 2 ∨ r = 3 := by omega
  rcases this with rfl | rfl | rfl | rfl <;> simp [Tab.get, Tab.get?]

end

/-! ### The end of the clock ramp (R509) -/

/-- The device as domain `d`, granted at cycle `t`, is on. -/
def rampOver (b : Block) (d t : Nat) : Block := b.modPmc fun p =>
  { p with granted := p.granted.filter (fun q => q.1 != d), on := p.on ||| domainBit d, warming := p.warming &&& ~~~ domainBit d
           retain := p.retain &&& ~~~ domainBit d, wmax := Tab.modify p.wmax 0 d (max (min (2 ^ 24 - 1) ((b.cyc - t) * 4 / 5))) }

section
variable {ret : DdrReturn}

theorem warmingEnd_over {t : Nat} (hw : b.pmc.restoring = false ∨ d < 2 ∨ 13 < d) (hg : b.pmc.granted.find? (fun p => p.1 == d) = some (d, t)) :
    warmingEnd b d ret = refreshHolds (domainUp (rampOver b d t) d ret) := by
  have free : ¬ (b.pmc.restoring = true ∧ 2 ≤ d ∧ d ≤ 13) := by
    rintro ⟨h, h2, h13⟩
    rcases hw with hw | hw | hw
    · simp [hw] at h
    · omega
    · omega
  simp only [warmingEnd, if_neg free, hg]
  rfl

theorem warmingEnd_waits (h : ¬ (b.pmc.restoring = false ∨ d < 2 ∨ 13 < d) ∨ ∀ p ∈ b.pmc.granted, p.1 ≠ d) : warmingEnd b d ret = b := by
  have none : (if b.pmc.restoring = true ∧ 2 ≤ d ∧ d ≤ 13 then none else b.pmc.granted.find? fun p => p.1 == d) = none := by
    rcases h with h | h
    · refine if_pos ?_
      simp only [not_or, Bool.not_eq_false, not_lt] at h
      exact h
    · rw [List.find?_eq_none.mpr (by simpa using h), ite_self]
  simp only [warmingEnd, none]

theorem completes_warmingEnd {d : Fin 24} {t : Block} (hr : s.blk.running = true) (hw : wfDdr ret = true) (ht : warmingEnd s.blk d ret = t) :
    Completes (.warmingEnd d ret) s (settle t) := by
  simp [Completes, exec, execWarmingEnd, act, hw, run, liveSettle, hr, ht]

end

/-! ### Domains that go off (R197, R201, R505) -/

/-- An idle engine domain that may go off. -/
def MayGoOff (b : Block) (d : Nat) : Prop :=
  2 ≤ d ∧ d ≤ 17 ∧ b.pmc.st ≤ 1 ∧ b.domainOn d = true ∧ b.pmc.keep.getLsbD d = false

/-- Flowstone is idle and has a batch to close first. -/
def ClosesFirst (b : Block) (d : Nat) : Prop := d = 17 ∧ flowstoneIdle b = true ∧ batchOpen b = true

theorem mayGoOff_iff : MayGoOff b d ↔
    ¬ (!(decide (2 ≤ d ∧ d ≤ 17) && decide (b.pmc.st ≤ 1) && b.domainOn d && !b.pmc.keep.getLsbD d)) = true := by
  simp only [MayGoOff, Bool.not_eq_true', Bool.not_eq_false, Bool.and_eq_true, decide_eq_true_eq, and_assoc]

theorem domainOff_kept (h : ¬ MayGoOff b d) : domainOff b d = b := by
  rw [mayGoOff_iff, not_not] at h
  exact if_pos h

theorem domainOff_may (h : MayGoOff b d) : domainOff b d =
    if d = 17 ∧ flowstoneIdle b = true ∧ batchOpen b = true then closeBatches b
    else if (!domainQuiet b d) = true then b
    else if d = 17 ∧ (!marksLow b) = true then lowerMarks b
    else refreshHolds (dropDomain b d) := if_neg (mayGoOff_iff.mp h)

section
variable (h : MayGoOff b d)
include h

theorem domainOff_closes (hc : ClosesFirst b d) : domainOff b d = closeBatches b := (domainOff_may h).trans (if_pos hc)

variable (hc : ¬ ClosesFirst b d)
include hc

theorem domainOff_stays : domainOff b d =
    if (!domainQuiet b d) = true then b
    else if d = 17 ∧ (!marksLow b) = true then lowerMarks b
    else refreshHolds (dropDomain b d) := (domainOff_may h).trans (if_neg hc)

theorem domainOff_busy (hq : domainQuiet b d = false) : domainOff b d = b := by
  rw [domainOff_stays h hc, hq, if_pos (by decide)]

theorem domainOff_lowers (hq : domainQuiet b d = true) (h17 : d = 17) (hm : marksLow b = false) : domainOff b d = lowerMarks b := by
  rw [domainOff_stays h hc, hq, hm, if_neg (by decide), if_pos ⟨h17, rfl⟩]

theorem domainOff_drops (hq : domainQuiet b d = true) (hm : d ≠ 17 ∨ marksLow b = true) :
    domainOff b d = refreshHolds (dropDomain b d) := by
  have low : ¬ (d = 17 ∧ (!marksLow b) = true) := by
    rintro ⟨h17, hl⟩
    rcases hm with hm | hm
    · exact hm h17
    · simp [hm] at hl
  rw [domainOff_stays h hc, hq, if_neg (by decide), if_neg low]

end

/-- A domain's drop leaves the power manager as it set it. -/
theorem dropDomain_on (b : Block) (d : Nat) : (dropDomain b d).pmc.on = b.pmc.on &&& ~~~ domainBit d := by
  unfold dropDomain
  extract_lets cluster off
  split
  · refine foldl_keeps (·.pmc.on) (fun _ _ => ?_) _ off
    rfl
  · split
    · rfl
    · exact foldl_keeps (fun b : Block => b.pmc.on) (fun b j => rfl : ∀ (b : Block) (j : Nat), (b.modCore (8 * (d - 2) + j)
        fun c => { c with st := .idle }).pmc.on = b.pmc.on) _ _

theorem domainBit_self (d : Nat) : (domainBit d).getLsbD d = decide (d < 24) := by
  show (BitVec.ofNat 24 (1 <<< d)).getLsbD d = decide (d < 24)
  rw [BitVec.getLsbD_ofNat, Nat.one_shiftLeft, Nat.testBit_two_pow_self, Bool.and_true]

theorem dropDomain_off (b : Block) (d : Nat) : (dropDomain b d).domainOn d = false := by
  have off : ((dropDomain b d).pmc.on).getLsbD d = false := by
    rw [dropDomain_on, BitVec.getLsbD_and, BitVec.getLsbD_not, domainBit_self]
    cases decide (d < 24) <;> simp
  simp only [Block.domainOn, off, Bool.false_and]

/-- Settles O57: each event of the wakes' queue and of a domain takes the course that its conditions name. -/
theorem domainWakes : Obligations.DomainWakes := by
  unfold Obligations.DomainWakes
  intro s d ret e t rest hr b bit free holds cause warms engine
  have request {t : Block} (ht : (if wakeCause b d = true then wakeRequest b d else b) = t) : Completes (.wakeRequest d) s t :=
    completes_live rfl hr ht
  have grant {t : Block} (ht : wakeGrant b = t) : Completes .wakeGrant s t := completes_live rfl hr ht
  have off {t : Block} (ht : domainOff b d = t) : Completes (.domainOff d) s (settle t) := completes_liveSettle rfl hr ht
  refine ⟨by decide, by decide, fun hf hc => ?_, fun h => ?_, insertWake_places d b.cyc b.pmc.queue, fun h => grant (wakeGrant_empty h),
    fun h hh => ?_, fun h hn => ?_, fun hw h => completes_warmingEnd hr hw (warmingEnd_waits h),
    fun hw h hg => completes_warmingEnd hr hw (warmingEnd_over h hg), fun he hc => off (domainOff_closes he hc),
    fun he hc hq hm => off (domainOff_drops he hc hq hm), dropDomain_off b d, fun he hc hq h17 hm => off (domainOff_lowers he hc hq h17 hm),
    fun h => off ?_, by simp [cancelWakes]⟩
  · exact request ((if_pos (wakeCause_iff.mpr hc)).trans (wakeRequest_queues d.isLt hf.1 hf.2))
  · refine request ?_
    rcases h with h | h
    · rw [wakeRequest_idle h, ite_self]
    · exact if_neg (by rwa [wakeCause_iff])
  · refine ⟨_, grant (wakeGrant_grants h ((railsHold_iff _ _).mpr hh)), rfl, rfl, rfl, fun r hr => ?_⟩
    exact get_rails (fun r => Tab.get b.pmc.tokens 0 r - (wakeCost e).getD r 0) hr
  · exact grant (wakeGrant_waits h (by rwa [railsHold_iff]))
  · by_cases he : MayGoOff b d
    · obtain ⟨hc, hq⟩ := h.resolve_left (not_not_intro he)
      exact domainOff_busy he hc hq
    · exact domainOff_kept he

end Sys2Proof.Machine
end

section
/-! PROOFS. What a denied access and a frame sent leave as it was, the frames that verify, heartbeats, isolation and the referee's declarations, and with
them the statement on heartbeats (R416, R473, R475, R487 to R489, R492). -/
namespace Sys2Proof.Machine

variable {b t : Block} {s : State} {f : Bytes} {e : KEnd}

/-! ### What an access of a DMA engine leaves (R411, R416 to R421) -/

/-- The device but for Belay, the Ferrules and the counters is as it was. -/
def Guarded (b t : Block) : Prop := ∃ y f c, t = { b with belay := y, ferrules := f, counters := c }

theorem Guarded.refl (b : Block) : Guarded b b := ⟨b.belay, b.ferrules, b.counters, rfl⟩

theorem Guarded.trans {t u : Block} (h : Guarded b t) (h' : Guarded t u) : Guarded b u := by
  obtain ⟨_, _, _, rfl⟩ := h
  obtain ⟨_, _, _, rfl⟩ := h'
  exact ⟨_, _, _, rfl⟩

theorem guarded_tally (b : Block) (k : Nat) : Guarded b (b.tally k) := ⟨_, _, _, rfl⟩
theorem guarded_modBelay (b : Block) (g : Belay → Belay) : Guarded b (b.modBelay g) := ⟨_, _, _, rfl⟩
theorem guarded_modFerrule (b : Block) (m : Nat) (g : Ferrule → Ferrule) : Guarded b (b.modFerrule m g) := ⟨_, _, _, rfl⟩
theorem guarded_ferruleRecord (b : Block) (m code : Nat) (cls : RClass) (who : Nat) : Guarded b (ferruleRecord b m code cls who) :=
  ⟨_, _, _, rfl⟩

theorem ferruleEscalate_guarded (b : Block) (m : Nat) (who : Option Nat) : Guarded b (ferruleEscalate b m who).2 := by
  unfold ferruleEscalate
  split_ifs
  · split
    · split_ifs
      · exact .refl b
      · exact ⟨_, _, _, rfl⟩
    · exact .refl b
  · cases who with
    | none => exact .refl b
    | some c => exact .refl b
  · exact ⟨_, _, _, rfl⟩
  · exact .refl b

theorem ferruleViolation_guarded (b : Block) (m : Nat) (k : AccessKind) (addr : Nat) (who : Option Nat) :
    Guarded b (ferruleViolation b m k addr who) := by
  unfold ferruleViolation
  extract_lets fl counted noted live esc
  have before : Guarded b live := ((guarded_tally b 146).trans (guarded_modFerrule _ m _)).trans (guarded_modBelay _ _)
  refine (before.trans (ferruleEscalate_guarded live m who)).trans ?_
  split
  · exact guarded_ferruleRecord _ _ _ _ _
  · split_ifs
    · exact .refl _
    · exact guarded_modFerrule _ _ _
    · exact (guarded_modFerrule _ _ _).trans (guarded_ferruleRecord _ _ _ _ _)

theorem ferruleAccess_guarded (b : Block) (m : Nat) (k : AccessKind) (addr : Nat) (who : Option Nat) :
    Guarded b (ferruleAccess b m k addr who).2 := by
  unfold ferruleAccess
  split
  · exact .refl b
  · exact ferruleViolation_guarded b m k addr who

theorem dmaOut_guarded (b : Block) (m : Nat) (who : Option Nat) (d : Bytes) : Guarded b (dmaOut b m who d).2 := by
  have h := ferruleAccess_guarded b m .read (dmaAddress m) who
  unfold dmaOut
  cases hf : ferruleAccess b m .read (dmaAddress m) who with
  | mk ok t => cases ok <;> simpa [hf] using h

theorem Guarded.kerard (h : Guarded b t) : t.kerard = b.kerard := by
  obtain ⟨_, _, _, rfl⟩ := h; rfl

/-! ### Frames sent (R466, R475) -/

theorem kEmit_kerard (b : Block) (p : KPort) (f : Bytes) : (kEmit b p f).kerard = b.kerard := by
  unfold kEmit
  split
  · exact (dmaOut_guarded b _ none f).kerard
  · rfl

theorem modKSeq_served (b : Block) (e : KEnd) (g : FSeq → FSeq) : (modKSeq b e g).kerard.served = b.kerard.served := by
  cases e <;> rfl

/-- A frame sent counts its sequence number and changes no pair. -/
theorem kSend_served (b : Block) (e : KEnd) (kind : Nat) (x : Bytes) (both : Bool) : (kSend b e kind x both).kerard.served = b.kerard.served := by
  simp only [kSend]
  split
  · rw [kEmit_kerard, kEmit_kerard, modKSeq_served]
  · rw [kEmit_kerard, modKSeq_served]

theorem kPair_kerard (b : Block) (g : Kerard → Kerard) : (kPair b g).kerard = g b.kerard := by
  unfold kPair
  extract_lets old t
  split
  · exact msix_kerard t 0 t.kerard.vector
  · rfl

theorem kPair_chuck (b : Block) (g : Kerard → Kerard) : (kPair b g).chuck = b.chuck := by
  unfold kPair
  extract_lets old t
  split
  · exact msix_chuck t 0 t.kerard.vector
  · rfl

/-! ### Frames that verify (R475, R492) -/

section
variable {opens : KEnd → Bool}

theorem kVerify_claim (h : claimDrops b f = true) : kVerify b f opens = (none, dropClaim b) := if_pos h

variable (hc : claimDrops b f = false)
include hc

theorem kVerify_stranger (hs : kSender b f = none) : kVerify b f opens = (none, dropAuth b) := by simp [kVerify, hc, hs]

variable (hs : kSender b f = some e)
include hs

theorem kVerify_unauthentic (ho : opens e = false) : kVerify b f opens = (none, dropAuth b) := by simp [kVerify, hc, hs, ho]

variable (ho : opens e = true)
include ho

theorem kVerify_old (hn : fSeq f < (kSeqOf b e).accepted ∨ fSeq f = 0) : kVerify b f opens = (none, dropAuth b) := by
  have new : ¬ (fSeq f = (kSeqOf b e).accepted ∧ fSeq f ≠ 0) := by omega
  simp only [kVerify, hc, hs, ho, if_neg new, if_pos hn, Bool.not_true, Bool.false_eq_true, if_false]

/-- A frame repeated on the other path is dropped and counts as nothing. -/
theorem kVerify_repeated (h0 : fSeq f ≠ 0) (hn : fSeq f = (kSeqOf b e).accepted) : kVerify b f opens = (none, b) := by
  simp only [kVerify, hc, hs, ho, if_pos (And.intro hn h0), Bool.not_true, Bool.false_eq_true, if_false]

end

/-! ### Heartbeats received (R487) -/

/-- The row HEARTBEAT of a frame that arrives. -/
theorem completes_heartbeat {p : KPort} (h : Arrives s p f 0x11) (ht : heartbeatReceive s.blk p f = t) :
    Completes (.heartbeat p f) s (settle t) :=
  completes_run (f := kerardLive p fun b => settle (heartbeatReceive b p f)) rfl (by rw [arrives_live h, ht])

theorem heartbeatReceive_peer {p : KPort} (h : Arrives s p f 0x11) (ha : Accepts s.blk f (cmacOpens s.blk f) .peer t) :
    heartbeatReceive s.blk p f = joinAnswered (t.modKerard fun k => { k with missPeer := 0, peerOk := true, lastBeat := t.now }) := by
  rw [heartbeatReceive, arrives_auth h ha]

theorem heartbeatReceive_referee {p : KPort} (h : Arrives s p f 0x11) (ha : Accepts s.blk f (cmacOpens s.blk f) .referee t) :
    heartbeatReceive s.blk p f =
      let u := t.modKerard fun k => { k with missRef := 0, refOk := true, lastBeat := t.now }
      joinAnswered (if leField (fPayload f) 4 1 = u.kerard.node ∧ leField (fPayload f) 2 2 = u.kerard.held ∧ u.kerard.role = .active then
        rejoinService u else u) := by
  rw [heartbeatReceive, arrives_auth h ha]

theorem heartbeatReceive_drops {p : KPort} (h : Arrives s p f 0x11) (hn : (kVerify s.blk f (cmacOpens s.blk f)).1 = none) :
    heartbeatReceive s.blk p f = joinAnswered (kVerify s.blk f (cmacOpens s.blk f)).2 := by
  have e : kVerify s.blk f (cmacOpens s.blk f) = (none, (kVerify s.blk f (cmacOpens s.blk f)).2) := Prod.ext hn rfl
  rw [heartbeatReceive, kAuth, arrives_intake h, e]

/-! ### Intervals missed (R487, R488) -/

theorem heartbeatMissed_unpaired {who : Party} (hp : b.paired = false) (hw : who = .peer ∨ who = .referee) : heartbeatMissed b who = b := by
  rcases hw with rfl | rfl <;> simp [heartbeatMissed, hp]

section
variable {pn : Nat} {r : RefPair}

theorem servedPair_modServed {g : RefPair → RefPair} (h : b.servedPair pn = some r) : (modServed b pn g).servedPair pn = some (g r) := by
  rw [modServed, h]
  exact Tab.get?_set_self _ _ _

/-- A pair a referee serves, with one more interval missed of one of its members. -/
def RefPair.missed (r : RefPair) (standby : Bool) : Nat := if standby then r.missS + 1 else r.missA + 1

def RefPair.withMissed (standby : Bool) (n : Nat) (r : RefPair) : RefPair := if standby then { r with missS := n } else { r with missA := n }

def RefPair.failed (r : RefPair) (standby : Bool) : Bool := if standby then r.failedS else r.failedA

theorem heartbeatMissed_served (standby : Bool) (h : b.servedPair pn = some r) : heartbeatMissed b (.served pn standby) =
    if r.missed standby = 8 ∧ (!r.failed standby) = true then
      declareFailed (modServed b pn (RefPair.withMissed standby (r.missed standby))) pn standby
    else modServed b pn (RefPair.withMissed standby (r.missed standby)) := by
  simp only [heartbeatMissed, h]
  rfl

/-! ### A referee's declaration of a failure (R488) -/

theorem servedPair_refereeGrant {toStandby : Bool} {reason : Nat} (h : b.servedPair pn = some r) (hc : r.claim < 65535) :
    (refereeGrant b pn toStandby reason).servedPair pn =
      let r1 := { r with claim := r.claim + 1, holder := if toStandby then r.standbyNode else r.activeNode }
      some (if toStandby then
        { r1 with activeNode := r.standbyNode, standbyNode := r.activeNode, missA := r.missS, missS := r.missA
                  failedA := r.failedS, failedS := r.failedA, keyA := r.keyS, keyS := r.keyA, sSync := false }
        else r1) := by
  simp only [refereeGrant, h, if_neg (Nat.not_le.mpr hc)]
  rw [Block.servedPair, kSend_served]
  exact Tab.get?_set_self _ _ _

theorem declareFailed_active (h : b.servedPair pn = some r) (h0 : r.claim ≠ 0) (hs : r.failedS = false) (hy : r.sSync = true) :
    declareFailed b pn false = refereeGrant (modServed b pn fun r => { r with failedA := true }) pn true 1 := by
  have now := servedPair_modServed (g := fun r => { r with failedA := true }) h
  simp [declareFailed, now, h0, hs, hy]

theorem declareFailed_standby (h : b.servedPair pn = some r) (h0 : r.claim ≠ 0) (ha : r.failedA = false) :
    declareFailed b pn true = refereeGrant (modServed b pn fun r => { r with failedS := true }) pn false 2 := by
  have now := servedPair_modServed (g := fun r => { r with failedS := true }) h
  simp [declareFailed, now, h0, ha]

end

/-! ### Isolation (R489) -/

theorem abandonReads_kerard (b : Block) (c : Nat) : (abandonReads b c).kerard = b.kerard := by
  unfold abandonReads
  refine foldl_keeps (fun b : Block => b.kerard) (fun b g => ?_) _ b
  rfl

theorem cutCommands_kerard (hj : b.kerard.joinMbx = none) (status : Nat) (spared : Mailbox → Bool) :
    (cutCommands b status spared).kerard = b.kerard := by
  unfold cutCommands
  refine List.foldlRecOn (motive := fun t : Block => t.kerard = b.kerard) _ _ rfl fun t h i _ => ?_
  dsimp only
  split
  · rw [modMbx_kerard, modKerard_kerard, modSump_kerard, h, hj]
    rfl
  · exact h

theorem discardUndispatched_empty (h : b.chuck.items = []) : discardUndispatched b = b := by simp [discardUndispatched, h]

/-- Where no item waits and no mailbox awaits a handshake, the end of service leaves the pair as it is. -/
theorem stopServing_kerard (hi : b.chuck.items = []) (hj : b.kerard.joinMbx = none) : (stopServing b).kerard = b.kerard := by
  unfold stopServing
  rw [discardUndispatched_empty hi]
  extract_lets quiet mute
  have reads : quiet.kerard = b.kerard := by
    refine foldl_keeps (fun b : Block => b.kerard) (fun b p => ?_) b.ch b
    exact abandonReads_kerard b p.1
  have still : mute.kerard = b.kerard := by rw [← reads]; exact modChuck_kerard quiet _
  rw [cutCommands_kerard (by rw [still, hj]), still]

/-- An active whose heartbeats no longer arrive: from a referee and its peer, or from its host and its peer. -/
def Alone (k : Kerard) : Prop := if k.refHost then k.hostLost = true ∧ 20 * k.hostTimeout ≤ k.missPeer else 8 ≤ k.missPeer ∧ 8 ≤ k.missRef

theorem alone_iff (k : Kerard) : Alone k ↔ (if k.refHost then k.hostLost && decide (20 * k.hostTimeout ≤ k.missPeer)
    else decide (8 ≤ k.missRef) && decide (8 ≤ k.missPeer)) = true := by
  unfold Alone
  split <;> simp [and_comm]

theorem isolateIfAlone_not (h : ¬ Alone b.kerard) : isolateIfAlone b = b := by
  rw [alone_iff] at h
  exact if_neg fun q => h q.2.2.2.2

/-- The pair's state as the device is isolated: it serves nobody, and keeps its claim. -/
def Kerard.isolate (k : Kerard) : Kerard :=
  { k with before := k.st, st := .isolated, egressClosed := true, released := k.released ++ k.out.flatMap (·.waiters)
           out := k.out.map fun m => { m with waiters := [] } }

theorem isolateIfAlone_isolates (hr : b.kerard.role = .active)
    (hs : b.kerard.st = .syncing ∨ b.kerard.st = .inSync ∨ b.kerard.st = .degraded) (ha : Alone b.kerard) :
    isolateIfAlone b = stopServing (kPair b Kerard.isolate) := by
  have on : b.kerard.st ≠ .isolated ∧ b.kerard.st ≠ .joining ∧ b.kerard.st ≠ .none := by
    rcases hs with h | h | h <;> simp [h]
  exact if_pos ⟨hr, on.1, on.2.1, on.2.2, (alone_iff _).mp ha⟩

theorem rejoinService_isolated (h : b.kerard.st = .isolated) :
    rejoinService b = kPair b fun k => { k with st := k.before, egressClosed := false } := if_pos h

/-! ### Heartbeats sent (R487) -/

theorem heartbeatSend_silent (h : b.life = 4 ∨ b.life = 5) : heartbeatSend b = b := if_pos h

/-- A member with a host referee and no pair to serve sends to its peer alone. -/
theorem heartbeatSend_peer (hl : ¬ (b.life = 4 ∨ b.life = 5)) (hr : b.kerard.role ≠ .none) (hk : b.kerard.linkKey ≠ [])
    (hs : b.kerard.st ≠ .isolated) (hh : b.kerard.refHost = true) (hn : b.kerard.served = []) : heartbeatSend b =
      kSend b .peer 0x11 (leBytes 1 (proleCode b.kerard.role) ++ leBytes 1 (pstateCode b.kerard.st) ++ leBytes 2 b.kerard.held ++
        leBytes 1 (if b.kerard.role = .active then b.kerard.node else b.kerard.peerNode) ++ zeros 1 ++ leBytes 6 b.kerard.mseq ++ zeros 4)
        true := by
  simp only [heartbeatSend, if_neg hl, hr, hk, hs, hh, true_or, or_true, or_self, if_false, if_true, kSend_served, hn, List.foldl_nil]

/-- Settles O59: each frame, each missed interval and each heartbeat due takes the course that its conditions name. -/
theorem heartbeats : Obligations.Heartbeats := by
  unfold Obligations.Heartbeats
  intro s p f e t pn standby r who b k check beat missed noted alone
  have miss {i : Party} {t : Block} (ht : heartbeatMissed b i = t) (hr : b.running = true) : Completes (.heartbeatMissed i) s (settle t) :=
    completes_liveSettle rfl hr ht
  refine ⟨fun h => accepts_verify h, fun h => kVerify_claim h, fun hc hs => kVerify_stranger hc hs,
    fun hc hs ho => kVerify_unauthentic hc hs ho, fun hc hs ho hn => kVerify_old hc hs ho hn,
    fun hc hs ho h0 hn => kVerify_repeated hc hs ho h0 hn, ⟨rfl, rfl⟩,
    fun h ha => completes_heartbeat h (heartbeatReceive_peer h ha), fun h ha => completes_heartbeat h (heartbeatReceive_referee h ha),
    fun h hn => completes_heartbeat h (heartbeatReceive_drops h hn), fun hr hp hk => ?_, fun hr hp hh hk => ?_,
    fun hr hp hw => miss (heartbeatMissed_unpaired hp hw) hr, fun hr hs hm => ?_, fun hr hs hm hf => ?_, fun hr hs ha hi hj => ?_,
    fun ha => isolateIfAlone_not ha, fun hs => ?_, fun hs h0 hc hf hy => ?_, fun hs h0 hc hf => ?_,
    fun hr hl => completes_live rfl hr (heartbeatSend_silent hl), fun hr h4 h5 hr' hk hs hh hn => ?_⟩
  · exact miss (if_neg (by simp [show b.paired = true from hp, show b.kerard.linkKey ≠ [] from hk])) hr
  · exact miss (if_neg (by simp [show b.paired = true from hp, show b.kerard.refHost = false from hh, show b.kerard.refKey ≠ [] from hk])) hr
  · exact miss ((heartbeatMissed_served standby hs).trans (if_neg fun h => hm h.1)) hr
  · exact miss ((heartbeatMissed_served standby hs).trans (if_pos ⟨hm, by rw [show r.failed standby = false from hf]; rfl⟩)) hr
  · have left : (isolateIfAlone b).kerard = b.kerard.isolate := by
      rw [isolateIfAlone_isolates hr hs ha, stopServing_kerard (by rw [kPair_chuck]; exact hi) (by rw [kPair_kerard]; exact hj), kPair_kerard]
    rw [left]
    exact ⟨rfl, rfl, rfl, rfl⟩
  · rw [rejoinService_isolated hs, kPair_kerard]
    exact ⟨rfl, rfl⟩
  · rw [declareFailed_active hs h0 hf hy, servedPair_refereeGrant (servedPair_modServed hs) hc]
    rfl
  · rw [declareFailed_standby hs h0 hf, servedPair_refereeGrant (servedPair_modServed hs) hc]
    rfl
  · exact completes_live rfl hr (heartbeatSend_peer (fun h => h.elim h4 h5) hr' hk hs hh hn)

end Sys2Proof.Machine
end

section
/-! PROOFS. The boot, READY and the rails, and with them the statement on the boot (R385 to R391, R443, R444, R448, R453 to R455, R555). -/
namespace Sys2Proof.Machine

variable {b : Block} {s : State} {errA errB lost : Bool} {bad : Option (BitVec 32)}

/-! ### The image that runs (R385 to R388) -/

/-- Why slot A cannot boot: its read failed, or its image is refused. -/
def slotAFailure (b : Block) (err : Bool) : Option Nat :=
  if err then some 6 else imageFailure b b.identity.slotA.header b.identity.slotA.body

/-- Why slot B cannot boot. -/
def slotBFailure (b : Block) (err : Bool) : Option Nat :=
  if err then some 6 else imageFailure b b.identity.slotB.header b.identity.slotB.body

theorem chooseSlot_neither {x y : Nat} (ha : slotAFailure b errA = some x) (hb : slotBFailure b errB = some y) :
    chooseSlot b errA errB = .error (x, y) := by
  unfold slotAFailure at ha; unfold slotBFailure at hb
  simp only [chooseSlot, ha, hb]

theorem chooseSlot_onlyA (ha : slotAFailure b errA = none) (hb : slotBFailure b errB ≠ none) : chooseSlot b errA errB = .ok 0 := by
  obtain ⟨y, hb⟩ := Option.ne_none_iff_exists'.mp hb
  unfold slotAFailure at ha; unfold slotBFailure at hb
  simp only [chooseSlot, ha, hb]

theorem chooseSlot_onlyB (ha : slotAFailure b errA ≠ none) (hb : slotBFailure b errB = none) : chooseSlot b errA errB = .ok 1 := by
  obtain ⟨x, ha⟩ := Option.ne_none_iff_exists'.mp ha
  unfold slotAFailure at ha; unfold slotBFailure at hb
  simp only [chooseSlot, ha, hb]

theorem chooseSlot_both (ha : slotAFailure b errA = none) (hb : slotBFailure b errB = none) :
    chooseSlot b errA errB = .ok (if slotAFirst b.identity.slotA.header b.identity.slotB.header then 0 else 1) := by
  unfold slotAFailure at ha; unfold slotBFailure at hb
  simp only [chooseSlot, ha, hb]

theorem slotAFirst_iff (a c : Bytes) :
    slotAFirst a c = true ↔ fwSvn c < fwSvn a ∨ (fwSvn c = fwSvn a ∧ fwVer c ≤ fwVer a) := by
  simp [slotAFirst]

/-- What the ROM found before the firmware starts: at a cold boot the flags, the state area and the BBRAM have had their check. -/
def romFound (b : Block) (lost : Bool) : Block :=
  if b.pmc.cause ≠ 0 then b
  else checkBbram (flaggedEntry (if lost then stateLost (commitPending b false) else commitPending b true))

section
variable (hr : b.running = true) (hb : b.pmc.booted = false) (hn : b.identity.noImage = false)
include hr hb hn

theorem boot_starts {slot : Nat} (h : chooseSlot b errA errB = .ok slot) (bad : Option Nat) :
    boot b none errA errB lost bad = firmwareStarts (romFound b lost) slot bad := by
  simp [boot, hr, hb, hn, h, romFound]

theorem boot_fails {x y : Nat} (h : chooseSlot b errA errB = .error (x, y)) (bad : Option Nat) :
    boot b none errA errB lost bad = { romRecord b 0x0140 0 .w x y with identity := { b.identity with noImage := true } } := by
  simp [boot, hr, hb, hn, h]

end

theorem boot_done (hd : b.pmc.booted = true ∨ b.identity.noImage = true) (bad : Option Nat) :
    boot b none errA errB lost bad = b := by
  rcases hd with hd | hd <;> simp [boot, hd]

theorem completes_boot {t : Block} (h : boot s.blk none errA errB lost (bad.map (·.toNat)) = t) :
    Completes (.boot none errA errB lost bad) s t :=
  h ▸ rfl

theorem headerFailure_keyIdx {h : Bytes} (hk : 4 ≤ fwKeyIdx h) : headerFailure b h ≠ none := by
  unfold headerFailure
  split
  · simp
  · simp [hk]

theorem headerFailure_revoked {h : Bytes} (hk : b.identity.revoked.getLsbD (fwKeyIdx h) = true) : headerFailure b h ≠ none := by
  unfold headerFailure
  split
  · simp
  · simp [hk]

theorem headerFailure_rollback {h : Bytes} (hs : fwSvn h < b.identity.arb) : headerFailure b h ≠ none := by
  unfold headerFailure
  split
  · simp
  · split
    · simp
    · split <;> simp

theorem fwSvn_of_headerFailure {h : Bytes} (hf : headerFailure b h = some 4) : fwSvn h < b.identity.arb := by
  by_contra hs
  unfold headerFailure at hf
  split at hf
  · cases hf
  · split at hf
    · cases hf
    · split at hf
      · cases hf
      · cases hf

/-! ### What the firmware starts with (R389, R390, R443) -/

theorem clampMonitors_keeps {β : Type} (g : Block → β) (hm : ∀ t k f, g (t.modMonitor k f) = g t) (hb : ∀ t f, g (t.modBelay f) = g t)
    (b : Block) : g (clampMonitors b) = g b := by
  unfold clampMonitors
  refine (hb _ _).trans (foldl_keeps g (fun t k => ?_) _ b)
  split
  · exact hm _ _ _
  · rfl

/-- The device as the firmware starts: the slot and its header, the rule sets of the boot, and the decode tables. -/
def slotTaken (b : Block) (slot : Nat) (bad : Option Nat) : Block :=
  { b with
    identity := { b.identity with
      slot := slot, running := (if slot = 0 then b.identity.slotA.header else b.identity.slotB.header).take 140 }
    ferrules := bootFerrules
    gallery := { b.gallery with tablesOk := bad.isNone } }

theorem firmwareStarts_booted (b : Block) (slot : Nat) (bad : Option Nat) : (firmwareStarts b slot bad).pmc.booted = true := rfl

/-- The device as the firmware starts, with Sump's keys derived and every monitor within its bounds. -/
def slotClamped (b : Block) (slot : Nat) (bad : Option Nat) : Block :=
  clampMonitors (if (slotTaken b slot bad).bbram.drk.isSome then deriveSumpKeys (slotTaken b slot bad) else slotTaken b slot bad)

/-- The report of a boot, after which the device has booted. -/
def bootReported (b : Block) (slot : Nat) (h : Bytes) : Block :=
  (b.report 0x0200 b.pmc.cause .none (fwVer h) (slot + 256 * fwSvn h) 0).modPmc fun p => { p with booted := true }

theorem firmwareStarts_eq (b : Block) (slot : Nat) (bad : Option Nat) : firmwareStarts b slot bad =
    bootReported (bad.elim (slotClamped b slot bad) fun a => (slotClamped b slot bad).report 0x0240 0 .w a 0 0) slot
      (if slot = 0 then b.identity.slotA.header else b.identity.slotB.header) := by
  cases bad <;> rfl

section
variable {β : Type} (g : Block → β) (hm : ∀ t k f, g (t.modMonitor k f) = g t) (hb : ∀ t f, g (t.modBelay f) = g t)
  (hk : ∀ t f, g (t.modKeys f) = g t)
include hm hb hk

theorem slotClamped_keeps (b : Block) (slot : Nat) (bad : Option Nat) : g (slotClamped b slot bad) = g (slotTaken b slot bad) := by
  refine (clampMonitors_keeps g hm hb _).trans ?_
  split
  · exact hk _ _
  · rfl

theorem firmwareStarts_keeps (hp : ∀ t f, g (t.modPmc f) = g t) (b : Block) (slot : Nat) (bad : Option Nat) :
    g (firmwareStarts b slot bad) = g (slotTaken b slot bad) := by
  have started (t : Block) (h : Bytes) : g (bootReported t slot h) = g t := (hp _ _).trans (hb _ _)
  rw [← slotClamped_keeps g hm hb hk]
  cases bad with
  | none => rw [firmwareStarts_eq, started, Option.elim_none]
  | some a => rw [firmwareStarts_eq, started, Option.elim_some]; exact hb _ _

end

theorem firmwareStarts_identity (b : Block) (slot : Nat) (bad : Option Nat) :
    (firmwareStarts b slot bad).identity = (slotTaken b slot bad).identity :=
  firmwareStarts_keeps (·.identity) (fun _ _ _ => rfl) (fun _ _ => rfl) (fun _ _ => rfl) (fun _ _ => rfl) b slot bad

theorem firmwareStarts_gallery (b : Block) (slot : Nat) (bad : Option Nat) :
    (firmwareStarts b slot bad).gallery = (slotTaken b slot bad).gallery :=
  firmwareStarts_keeps (·.gallery) (fun _ _ _ => rfl) (fun _ _ => rfl) (fun _ _ => rfl) (fun _ _ => rfl) b slot bad

/-! ### The BBRAM at a boot (R444, R453, R454) -/

theorem commitPending_pcc (hp : b.bbram.pending = []) (ho : b.bbram.overflow = 0) :
    (commitPending b true).strata.pcc = min (2 ^ 32 - 1) (b.strata.pcc + 1) := by
  simp [commitPending, hp, ho]

theorem checkBbram_ok (hm : b.bbram.markerOk = true) (hc : b.bbram.crcOk = true) : checkBbram b = b := by
  simp [checkBbram, hm, hc]

theorem evidenceAppend_life (b : Block) (r : Bytes) (torn : List Bytes) : (evidenceAppend b r torn).1.life = b.life := by
  unfold evidenceAppend
  dsimp only
  split
  · rfl
  · split
    · rfl
    · split <;> rfl

/-- A record that fills the evidence of a zeroised device asks for nothing more. -/
theorem evidenceIsFull_zeroised (h : b.life = 5) : evidenceIsFull b = b := by
  simp [evidenceIsFull, lock, h]

theorem romRecord_life_zeroised (h : b.life = 5) (code src : Nat) (cls : RClass) (p0 p1 : Nat) :
    (romRecord b code src cls p0 p1).life = 5 := by
  have appended (r : Bytes) : (evidenceAppend b r []).1.life = 5 := (evidenceAppend_life b r []).trans h
  unfold romRecord
  dsimp only
  split
  · rw [evidenceIsFull_zeroised (appended _), appended]
  · exact appended _

theorem monitorsFromCopy_life (b : Block) : (monitorsFromCopy b).life = b.life := by
  unfold monitorsFromCopy
  refine foldl_keeps (·.life) (fun t k => ?_) _ b
  dsimp only
  rw [modMonitor_life]

theorem setLifecycle_life (b : Block) (to_ cause : Nat) : (setLifecycle b to_ cause).life = to_ := rfl

theorem zeroise_life (h1 : 1 ≤ b.life) (h4 : b.life ≤ 4) (cause : Nat) : (zeroise b cause).life = 5 := by
  rw [zeroise_logged h1 h4, setLifecycle_life]

/-- The device after a check of the BBRAM's state area: a copy with a wrong CRC is made anew from Strata's. -/
def bbramRestored (b : Block) : Block :=
  if b.bbram.crcOk then b
  else { monitorsFromCopy b with bbram := { b.bbram with crcOk := true, lifecycle := b.life, pending := [] } }

theorem bbramRestored_life (b : Block) : (bbramRestored b).life = b.life := by
  unfold bbramRestored
  split
  · rfl
  · dsimp only
    rw [monitorsFromCopy_life]

theorem checkBbram_bad (h : b.bbram.markerOk = false ∨ b.bbram.crcOk = false) (h1 : 1 ≤ b.life) (h4 : b.life ≤ 4) :
    checkBbram b =
      romRecord (zeroise (bbramRestored b) 1) 0x0131 0xFE .z (b2n (!b.bbram.markerOk) + 2 * b2n (!b.bbram.crcOk)) 0 := by
  have bad : (!b.bbram.markerOk || !b.bbram.crcOk) = true := by rcases h with h | h <;> simp [h]
  have live : 1 ≤ (bbramRestored b).life ∧ (bbramRestored b).life ≤ 4 := by rw [bbramRestored_life]; exact ⟨h1, h4⟩
  exact if_pos ⟨bad, live⟩

theorem checkBbram_life (h : b.bbram.markerOk = false ∨ b.bbram.crcOk = false) (h1 : 1 ≤ b.life) (h4 : b.life ≤ 4) :
    (checkBbram b).life = 5 := by
  have live : 1 ≤ (bbramRestored b).life ∧ (bbramRestored b).life ≤ 4 := by rw [bbramRestored_life]; exact ⟨h1, h4⟩
  rw [checkBbram_bad h h1 h4]
  exact romRecord_life_zeroised (zeroise_life live.1 live.2 1) _ _ _ _ _

/-! ### READY (R391) -/

/-- What READY makes of the fuses: the security version and the keys that the image revokes. -/
def readyIdentity (b : Block) : Identity :=
  { b.identity with
    arb := max b.identity.arb (fwSvn b.identity.running)
    revoked := b.identity.revoked |||
      (BitVec.ofNat 4 (byteAt b.identity.running 7).toNat &&& ~~~ ((1 : BitVec 4) <<< fwKeyIdx b.identity.running)) }

/-- READY before its report: every mailbox that holds a command is busy. -/
def madeReady (b : Block) : Block :=
  (List.range 6).foldl (fun b i => b.modMbx i fun x => { x with busy := x.phase != .idle })
    (({ b with identity := readyIdentity b } : Block).modPmc fun p => { p with ready := true })

theorem deviceReady_eq (hr : b.running = true) (hb : b.pmc.booted = true) (hn : b.pmc.ready = false) :
    deviceReady b = (madeReady b).report 0x0201 0 .none (min (2 ^ 32 - 1) ((madeReady b).now - (madeReady b).pmc.reference)) 0 0 := by
  simp only [deviceReady, hr, hb, hn, Bool.not_true, Bool.false_eq_true, or_false, if_false]
  rfl

theorem deviceReady_done (hd : b.pmc.booted = false ∨ b.pmc.ready = true) : deviceReady b = b := by
  rcases hd with hd | hd <;> simp [deviceReady, hd]

theorem madeReady_keeps {β : Type} (g : Block → β) (hm : ∀ t i f, g (t.modMbx i f) = g t) (b : Block) :
    g (madeReady b) = g (({ b with identity := readyIdentity b } : Block).modPmc fun p => { p with ready := true }) :=
  foldl_keeps g (fun t i => hm t i _) _ _

/-- Setting every mailbox's BUSY by its phase sets it on those of the list and keeps every phase. -/
theorem busyFromPhase_mbx (i : Nat) (l : List Nat) (t : Block) :
    let r := l.foldl (fun b i => b.modMbx i fun x => { x with busy := x.phase != .idle }) t
    (r.mbx i).phase = (t.mbx i).phase ∧ (r.mbx i).busy = if i ∈ l then (t.mbx i).phase != .idle else (t.mbx i).busy := by
  induction l generalizing t with
  | nil => simp
  | cons j l ih =>
    obtain ⟨hp, hb⟩ := ih (t.modMbx j fun x => { x with busy := x.phase != .idle })
    by_cases hj : i = j
    · subst hj
      simp only [mbx_modMbx_self] at hp hb
      exact ⟨hp, hb.trans (by simp)⟩
    · simp only [mbx_modMbx_ne t _ hj] at hp hb
      exact ⟨hp, hb.trans (by simp [hj])⟩

theorem madeReady_mbx (b : Block) {i : Nat} (hi : i < 6) : ((madeReady b).mbx i).busy = ((b.mbx i).phase != .idle) := by
  obtain ⟨-, h⟩ := busyFromPhase_mbx i (List.range 6) (({ b with identity := readyIdentity b } : Block).modPmc fun p => { p with ready := true })
  rw [if_pos (List.mem_range.mpr hi)] at h
  exact h

/-- Settles O55: which slot runs and what its firmware starts with, what a boot without an image leaves, READY, and the rails. -/
theorem bootCommands : Obligations.BootCommands := by
  unfold Obligations.BootCommands
  intro s errA errB lost ring bad link b fa fb ha hb may first found boots runs h
  have starts {slot : Nat} (hm : may) (hc : chooseSlot b errA errB = .ok slot) : boots slot :=
    completes_boot (boot_starts hm.1 hm.2.1 hm.2.2 hc _)
  have order : slotAFirst ha hb = true ↔ first := slotAFirst_iff ha hb
  refine ⟨fun hm x y hx hy => completes_boot (boot_fails hm.1 hm.2.1 hm.2.2 (chooseSlot_neither hx hy) _),
    fun hm hx hy => starts hm (chooseSlot_onlyA hx hy), fun hm hx hy => starts hm (chooseSlot_onlyB hx hy),
    fun hm hx hy hf => starts hm ((chooseSlot_both hx hy).trans (by rw [if_pos (order.mpr hf)])),
    fun hm hx hy hf => starts hm ((chooseSlot_both hx hy).trans (by rw [if_neg (mt order.mp hf)])),
    fun _ hd => completes_boot (boot_done hd _),
    fun slot bad => ⟨rfl, by rw [firmwareStarts_identity]; rfl, by rw [firmwareStarts_gallery]; rfl,
      by rw [firmwareStarts_identity]; exact congrArg (List.take 140) (apply_ite FwSlot.header _ _ _).symm⟩,
    commitPending_pcc, checkBbram_life, checkBbram_ok,
    fun g => ⟨fwSvn_of_headerFailure, headerFailure_keyIdx, headerFailure_revoked, headerFailure_rollback⟩,
    fun hr hb hn => ⟨deviceReady b, rfl, ?_⟩, fun hd => completes_run rfl (deviceReady_done hd),
    fun hl hg => ?_, fun hl hg => ?_, fun p hl => ?_, rfl⟩
  · rw [deviceReady_eq hr hb hn]
    exact ⟨congrArg Pmc.ready (madeReady_keeps (·.pmc) (fun _ _ _ => rfl) b),
      congrArg Identity.arb (madeReady_keeps (·.identity) (fun _ _ _ => rfl) b),
      congrArg Identity.revoked (madeReady_keeps (·.identity) (fun _ _ _ => rfl) b), fun i hi => madeReady_mbx b hi⟩
  all_goals subst hl
  · subst hg; rfl
  · subst hg; rfl
  · rfl

end Sys2Proof.Machine
end

section
/-! PROOFS. The SPDM responder, DOE, the test access port and the debug port, and with them the statement on all of them (R395, R383, R416, R417,
R545 to R547). -/
namespace Sys2Proof.Machine

variable {b t : Block} {msg x : Bytes} {s : State}

/-- A row with a condition on its operands. -/
theorem completes_act {i : Instr} {ok : Bool} {f : Block → Block} (hi : exec i s = act ok s f) (hok : ok = true) (h : f s.blk = t) :
    Completes i s t := by
  simp [Completes, hi, act, hok, run, h]

/-! ### A request that is taken (R395) -/

theorem spdmTakes_of {code : Nat} (ho : b.hostOn = true) (hb : b.pmc.booted = true) (hl : 4 ≤ msg.length)
    (hc : byteAt msg 1 = BitVec.ofNat 8 code) : spdmTakes b code msg = true := by
  simp [spdmTakes, ho, hb, hl, hc]

theorem spdmSame_iff : spdmSame b msg = true ↔ byteAt msg 0 = (if b.spdm.version = 0 then 0x10 else BitVec.ofNat 8 b.spdm.version) := by
  simp [spdmSame, spdmVer]

theorem not_taken_false {code : Nat} (ht : spdmTakes b code msg = true) : ¬ (!spdmTakes b code msg) = true := by simp [ht]

/-! ### The connection's versions, capabilities and algorithms -/

section
variable (ht : spdmTakes b 0x84 msg = true)
include ht

theorem spdmGetVersion_answers (hv : byteAt msg 0 = 0x10) : spdmGetVersion b msg =
    doeAnswer { b with spdm := { Spdm.reset with vca := msg ++ [0x10, 0x04, 0, 0, 0, 2, 0x00, 0x11, 0x00, 0x12] } } 1
      [0x10, 0x04, 0, 0, 0, 2, 0x00, 0x11, 0x00, 0x12] :=
  (if_neg (not_taken_false ht)).trans (if_neg (not_not_intro hv))

theorem spdmGetVersion_mismatch (hv : byteAt msg 0 ≠ 0x10) : spdmGetVersion b msg = doeAnswer b 1 (spdmError Spdm.reset 0x41 0) :=
  (if_neg (not_taken_false ht)).trans (if_pos hv)

end

section
variable (ht : spdmTakes b 0xE1 msg = true)
include ht

theorem spdmGetCapabilities_unexpected (h : b.spdm.vca = [] ∨ b.spdm.caps = true) :
    spdmGetCapabilities b msg = doeAnswer b 1 (spdmError b.spdm 0x04 0) :=
  (if_neg (not_taken_false ht)).trans (if_pos h)

variable (hv : b.spdm.vca ≠ []) (hc : b.spdm.caps = false)
include hv hc

theorem spdmGetCapabilities_mismatch (h : (byteAt msg 0).toNat ≠ 0x11 ∧ (byteAt msg 0).toNat ≠ 0x12) :
    spdmGetCapabilities b msg = doeAnswer b 1 (spdmError b.spdm 0x41 0) :=
  (if_neg (not_taken_false ht)).trans ((if_neg (by simp [hv, hc])).trans (if_pos h))

/-- What GET_CAPABILITIES answers to a request of version `v`; the manual leaves the bytes of `free` open. -/
def capabilities (p : Spdm) (v : Nat) (free : Bytes) : Bytes :=
  spdmHead { p with version := v } 0x61 0 0 ++ [0] ++ free.take 1 ++ [0, 0, 0x16, 0, 0, 0] ++ (if v = 0x12 then free.drop 1 else [])

theorem spdmGetCapabilities_answers
    (h : (byteAt msg 0).toNat = 0x11 ∧ msg.length = 12 ∨ (byteAt msg 0).toNat = 0x12 ∧ msg.length = 20) :
    let r := capabilities b.spdm (byteAt msg 0).toNat (b.fresh 9).1
    spdmGetCapabilities b msg = doeAnswer { b with
      free := b.free + 1
      spdm := { b.spdm with version := (byteAt msg 0).toNat, caps := true, vca := b.spdm.vca ++ msg ++ r } } 1 r := by
  have known : ¬ ((byteAt msg 0).toNat ≠ 0x11 ∧ (byteAt msg 0).toNat ≠ 0x12) := by omega
  have whole : ¬ msg.length ≠ (if (byteAt msg 0).toNat = 0x12 then 20 else 12) := by
    rcases h with ⟨hv, hl⟩ | ⟨hv, hl⟩ <;> simp [hv, hl]
  exact (if_neg (not_taken_false ht)).trans ((if_neg (by simp [hv, hc])).trans ((if_neg known).trans (if_neg whole)))

end

section
variable (ht : spdmTakes b 0xE3 msg = true)
include ht

theorem spdmNegotiate_unexpected (h : b.spdm.caps = false ∨ b.spdm.algos = true) :
    spdmNegotiate b msg = doeAnswer b 1 (spdmError b.spdm 0x04 0) :=
  (if_neg (not_taken_false ht)).trans (if_pos (by simpa using h))

variable (hc : b.spdm.caps = true) (ha : b.spdm.algos = false)
include hc ha

theorem spdmNegotiate_mismatch (h : spdmSame b msg = false) : spdmNegotiate b msg = doeAnswer b 1 (spdmError b.spdm 0x41 0) :=
  (if_neg (not_taken_false ht)).trans ((if_neg (by simp [hc, ha])).trans (if_pos (by simp [h])))

/-- The algorithms that a request offers: ECDSA P-384, Ed448 under 1.2, SHA-384, SHA-512. -/
def offersEc (msg : Bytes) : Bool := bit (leField msg 8 4) 7
def offersEd (p : Spdm) (msg : Bytes) : Bool := bit (leField msg 8 4) 11 && p.version == 0x12
def offers384 (msg : Bytes) : Bool := bit (leField msg 12 4) 1
def offers512 (msg : Bytes) : Bool := bit (leField msg 12 4) 2

/-- A NEGOTIATE_ALGORITHMS without a signature or a hash that the device knows, or of another length than it states. -/
def negotiationRefused (p : Spdm) (msg : Bytes) : Prop :=
  msg.length < 32 ∨ leField msg 4 2 ≠ msg.length ∨ (!(offersEc msg || offersEd p msg)) = true ∨ (!(offers384 msg || offers512 msg)) = true

/-- The connection with the signature and the hash that were selected. -/
def selected (p : Spdm) (msg : Bytes) (pick : Nat) : Spdm :=
  { p with
    algos := true, asym448 := offersEd p msg && (!offersEc msg || bit pick 0), sha512 := offers512 msg && (!offers384 msg || bit pick 1) }

section
omit ht hc ha
variable {p : Spdm} {pick : Nat}

theorem negotiationRefused_iff : ¬ negotiationRefused p msg ↔ 32 ≤ msg.length ∧ leField msg 4 2 = msg.length ∧
    ((leField msg 8 4).testBit 7 = true ∨ ((leField msg 8 4).testBit 11 = true ∧ p.version = 0x12)) ∧
    ((leField msg 12 4).testBit 1 = true ∨ (leField msg 12 4).testBit 2 = true) := by
  unfold negotiationRefused
  simp only [offersEc, offersEd, offers384, offers512, bit]
  grind

theorem selected_plain (h : offersEd p msg = false) : (selected p msg pick).asym448 = false := by simp [selected, h]

theorem selected_ed (h : offersEc msg = false) (hn : ¬ negotiationRefused p msg) : (selected p msg pick).asym448 = true := by
  simp only [negotiationRefused] at hn
  simp_all [selected]

theorem selected_384 (h : offers512 msg = false) : (selected p msg pick).sha512 = false := by simp [selected, h]

theorem selected_512 (h : offers384 msg = false) (hn : ¬ negotiationRefused p msg) : (selected p msg pick).sha512 = true := by
  simp only [negotiationRefused] at hn
  simp_all [selected]

end

variable (hs : spdmSame b msg = true)
include hs

theorem spdmNegotiate_refused (h : negotiationRefused b.spdm msg) : spdmNegotiate b msg = doeAnswer b 1 (spdmError b.spdm 0x01 0) :=
  (if_neg (not_taken_false ht)).trans ((if_neg (by simp [hc, ha])).trans ((if_neg (by simp [hs])).trans (if_pos h)))

theorem spdmNegotiate_selects (h : ¬ negotiationRefused b.spdm msg) : ∃ r, ∃ pick : Nat, spdmNegotiate b msg =
    doeAnswer { b with free := b.free + 1, spdm := { selected b.spdm msg pick with vca := b.spdm.vca ++ msg ++ r } } 1 r :=
  ⟨_, (byteAt (b.fresh 1).1 0).toNat,
    (if_neg (not_taken_false ht)).trans ((if_neg (by simp [hc, ha])).trans ((if_neg (by simp [hs])).trans (if_neg h)))⟩

end

/-! ### Digests, certificates, challenges and measurements -/

theorem challenge_wellFormed (hl : msg.length = 36) (hslot : byteAt msg 2 = 0)
    (hk : (byteAt msg 3).toNat = 0 ∨ (byteAt msg 3).toNat = 1 ∨ (byteAt msg 3).toNat = 255) : ¬ (msg.length ≠ 36 ∨ byteAt msg 2 ≠ 0 ∨
    ((byteAt msg 3).toNat ≠ 0 ∧ (byteAt msg 3).toNat ≠ 1 ∧ (byteAt msg 3).toNat ≠ 0xFF)) := by
  rintro (h | h | h)
  · exact h hl
  · exact h hslot
  · omega

section
variable {code : Nat} (ht : spdmTakes b code msg = true)
include ht

theorem spdmAfter_unexpected (f : Block → Block) (h : b.spdm.algos = false) :
    spdmAfter b code msg f = doeAnswer b 1 (spdmError b.spdm 0x04 0) :=
  (if_neg (not_taken_false ht)).trans (if_pos (by simp [spdmReady, h]))

theorem spdmAfter_ready (f : Block → Block) (h : b.spdm.algos = true) (hs : spdmSame b msg = true) : spdmAfter b code msg f = f b :=
  (if_neg (not_taken_false ht)).trans ((if_neg (by simp [spdmReady, h])).trans (if_neg (by simp [hs])))

end

section
variable (ha : b.spdm.algos = true) (hs : spdmSame b msg = true)
include ha hs

theorem spdmGetCertificate_refused (ht : spdmTakes b 0x82 msg = true)
    (h : msg.length ≠ 8 ∨ byteAt msg 2 &&& 15 ≠ 0 ∨ (spdmChain b).length ≤ leField msg 4 2) :
    spdmGetCertificate b msg = doeAnswer b 1 (spdmError b.spdm 0x01 0) :=
  (spdmAfter_ready ht _ ha hs).trans (if_pos h)

/-- The answer to GET_CERTIFICATE: as much of the chain as the request asks for and the chain has. -/
def certificatePart (b : Block) (msg : Bytes) : Bytes :=
  let chain := spdmChain b
  let off := leField msg 4 2
  let len := min (leField msg 6 2) (chain.length - off)
  spdmHead b.spdm 0x02 0 0 ++ leBytes 2 len ++ leBytes 2 (chain.length - off - len) ++ slice chain off len

theorem spdmGetCertificate_answers (ht : spdmTakes b 0x82 msg = true) (hl : msg.length = 8) (hslot : byteAt msg 2 &&& 15 = 0)
    (ho : leField msg 4 2 < (spdmChain b).length) : spdmGetCertificate b msg =
      doeAnswer { b with spdm := { b.spdm with certs := b.spdm.certs ++ msg ++ certificatePart b msg } } 1 (certificatePart b msg) :=
  (spdmAfter_ready ht _ ha hs).trans (if_neg (by rintro (h | h | h); exacts [h hl, h hslot, Nat.not_le.mpr ho h]))

/-- A CHALLENGE's answer before its signature. -/
def challengeBody (b : Block) (kind : Nat) (x : Bytes) : Bytes :=
  let blocks := spdmBlocks (measurements b)
  spdmHead b.spdm 0x03 0 1 ++ spdmHash b.spdm (spdmChain b) ++ x.take 32 ++
    (if kind = 0 then [] else spdmHash b.spdm (if kind = 1 then (blocks.take 1).flatten else blocks.flatten)) ++ zeros 2

section
variable (ht : spdmTakes b 0x83 msg = true) (hl : msg.length = 36) (hslot : byteAt msg 2 = 0)
  (hk : (byteAt msg 3).toNat = 0 ∨ (byteAt msg 3).toNat = 1 ∨ (byteAt msg 3).toNat = 255)
include ht hl hslot hk

theorem spdmChallenge_unseeded (hd : b.draw 80 = none) : spdmChallenge b msg = doeAnswer b 1 (spdmError b.spdm 0x05 0) := by
  refine (spdmAfter_ready ht _ ha hs).trans ((if_neg (challenge_wellFormed hl hslot hk)).trans ?_)
  rw [hd]

theorem spdmChallenge_answers (hd : b.draw 80 = some (x, t)) :
    let body := challengeBody t (byteAt msg 3).toNat x
    spdmChallenge b msg = doeAnswer { t with spdm := { t.spdm with certs := [], meas := [] } } 1
      (body ++ spdmSign t "responder-challenge_auth signing" (t.spdm.vca ++ t.spdm.certs ++ msg ++ body) (x.drop 32)) := by
  refine (spdmAfter_ready ht _ ha hs).trans ((if_neg (challenge_wellFormed hl hslot hk)).trans ?_)
  rw [hd]
  rfl

end

/-- The measurement blocks that a GET_MEASUREMENTS asks for. -/
def chosenBlocks (b : Block) (op : Nat) : List Bytes :=
  if op = 0 then [] else if op = 0xFF then spdmBlocks (measurements b) else [(spdmBlocks (measurements b)).getD (op - 1) []]

/-- A GET_MEASUREMENTS' answer before its signature. -/
def measurementsBody (b : Block) (op : Nat) (x : Bytes) : Bytes :=
  let chosen := chosenBlocks b op
  spdmHead b.spdm 0x60 (if op = 0 then 5 else 0) 0 ++ leBytes 1 chosen.length ++ leBytes 3 chosen.flatten.length ++ chosen.flatten ++ x.take 32
    ++ zeros 2

section
variable (ht : spdmTakes b 0xE0 msg = true) (ho : (byteAt msg 3).toNat ≤ 5 ∨ (byteAt msg 3).toNat = 255)
include ht ho

theorem spdmGetMeasurements_plain (hsig : (byteAt msg 2).toNat.testBit 0 = false) (hl : msg.length = 4) (hd : b.draw 80 = some (x, t)) :
    let body := measurementsBody t (byteAt msg 3).toNat x
    spdmGetMeasurements b msg = doeAnswer { t with spdm := { t.spdm with meas := t.spdm.meas ++ msg ++ body } } 1 body := by
  have wf : ¬ (msg.length ≠ (if bit (byteAt msg 2).toNat 0 then 37 else 4) ∨ (5 < (byteAt msg 3).toNat ∧ (byteAt msg 3).toNat ≠ 0xFF) ∨
      (bit (byteAt msg 2).toNat 0 ∧ byteAt msg 36 ≠ 0)) := by
    simp only [bit, hsig, hl]
    simp
    omega
  refine (spdmAfter_ready ht _ ha hs).trans ((if_neg wf).trans ?_)
  rw [hd]
  exact if_neg (by simp [bit, hsig])

theorem spdmGetMeasurements_signed (hsig : (byteAt msg 2).toNat.testBit 0 = true) (hl : msg.length = 37) (hslot : byteAt msg 36 = 0)
    (hd : b.draw 80 = some (x, t)) :
    let body := measurementsBody t (byteAt msg 3).toNat x
    spdmGetMeasurements b msg = doeAnswer { t with spdm := { t.spdm with meas := [] } } 1
      (body ++ spdmSign t "responder-measurements signing"
        ((if t.spdm.version = 0x12 then t.spdm.vca else []) ++ (t.spdm.meas ++ msg ++ body)) (x.drop 32)) := by
  have wf : ¬ (msg.length ≠ (if bit (byteAt msg 2).toNat 0 then 37 else 4) ∨ (5 < (byteAt msg 3).toNat ∧ (byteAt msg 3).toNat ≠ 0xFF) ∨
      (bit (byteAt msg 2).toNat 0 ∧ byteAt msg 36 ≠ 0)) := by
    simp only [bit, hsig, hl, hslot]
    simp
    omega
  refine (spdmAfter_ready ht _ ha hs).trans ((if_neg wf).trans ?_)
  rw [hd]
  exact if_pos hsig

end

end

/-! ### Other requests and DOE -/

theorem spdmUnsupported_answers (ho : b.hostOn = true) (hb : b.pmc.booted = true) (hl : 4 ≤ msg.length)
    (hc : byteAt msg 1 ∉ [0x84, 0xE1, 0xE3, 0x81, 0x82, 0x83, 0xE0]) :
    spdmUnsupported b msg = doeAnswer b 1 (spdmError b.spdm 0x07 (byteAt msg 1).toNat) := by
  have unknown : byteAt msg 1 ∉ spdmCodes := hc
  exact if_neg (by simp [ho, hb, hl, unknown])

theorem doeDiscovery_answers (ho : b.hostOn = true) (hb : b.pmc.booted = true) (index : Nat) : doeDiscovery b index =
    doeAnswer b 0 (if index = 0 then [1, 0, 0, 1] else if index = 1 then [1, 0, 1, 0] else [0xFF, 0xFF, 0, 0]) := by
  refine (if_neg (by simp [ho, hb])).trans ?_
  split
  · rfl
  · split <;> rfl

/-! ### The test access port and the debug port (R383, R416, R417, R545 to R547) -/

theorem scanOpen_iff : scanOpen b = true ↔
    b.life = 0 ∨ b.life = 1 ∨ b.life = 6 ∨ ((b.life = 2 ∨ b.life = 3) ∧ (b.setting 3).testBit 2 = true) := by
  simp [scanOpen, bit, or_assoc]

theorem dapOpen_iff : dapOpen b = true ↔
    b.life = 0 ∨ b.life = 1 ∨ b.life = 6 ∨ (b.life = 2 ∧ (b.setting 3 % 4 = 1 ∨ b.setting 3 % 4 = 2)) ∨
      (b.life = 3 ∧ b.setting 3 % 4 = 2) := by
  simp [dapOpen, bits, or_assoc]

theorem jtagLoad_permitted {i : JtagIr} (hp : b.pmc.powerGood = true) (h : jtagPermits b i = true) :
    jtagLoad b i = { b with io := { b.io with ir := i } } := by
  simp [jtagLoad, hp, h]

theorem jtagLoad_refused {i : JtagIr} (hp : b.pmc.powerGood = true) (h : jtagPermits b i = false) :
    jtagLoad b i = { b with io := { b.io with ir := .bypass } } := by
  simp [jtagLoad, hp, h]

/-- An instruction is loaded where it is permitted, and is BYPASS where it is not. -/
theorem jtagLoad_loads {i : Instr} {ir : JtagIr} {p : Prop} (hi : exec i s = run s (jtagLoad · ir)) (hg : s.blk.pmc.powerGood = true)
    (hp : jtagPermits s.blk ir = true ↔ p) :
    (p → Completes i s { s.blk with io := { s.blk.io with ir := ir } }) ∧
    (¬ p → Completes i s { s.blk with io := { s.blk.io with ir := .bypass } }) :=
  ⟨fun h => completes_run hi (jtagLoad_permitted hg (hp.mpr h)),
    fun h => completes_run hi (jtagLoad_refused hg (Bool.eq_false_iff.mpr (mt hp.mp h)))⟩

/-- IDCODE: the part number 0x6480 between a revision and a maker that the manual leaves open. -/
theorem jtagIdcode_shows (hp : b.pmc.powerGood = true) : ∃ rev maker : Nat, rev < 16 ∧ maker < 2048 ∧ jtagIdcode b =
    ({ b with io := { b.io with ir := .idcode }, free := b.free + 1 } : Block).emit (.jtag (rev * 2 ^ 28 + 0x6480 * 2 ^ 12 + maker * 2 + 1)) := by
  refine ⟨leField (b.fresh 3).1 0 1 % 16, leField (b.fresh 3).1 1 2 % 2048, Nat.mod_lt _ (by decide), Nat.mod_lt _ (by decide), ?_⟩
  have loaded := jtagLoad_permitted (i := .idcode) hp rfl
  unfold jtagIdcode
  rw [loaded, Nat.mul_comm _ (2 ^ 28), Nat.mul_comm 0x6480, Nat.mul_comm _ 2]
  exact if_neg (by simp [hp])

theorem ofLe_lt (d : Bytes) : ofLe d < 256 ^ d.length := by
  induction d with
  | nil => simp [ofLe]
  | cons x d ih =>
    have hx := x.isLt
    simp only [ofLe, List.foldr_cons, List.length_cons, Nat.pow_succ] at ih ⊢
    omega

section
variable (hr : b.running = true) (hi : b.io.ir = .dap) (hd : dapOpen b = true) (addr : BitVec 40)
include hr hi hd

theorem dapAccess_write : dapAccess b true addr = (ferruleAccess b 79 .write addr.toNat none).2 :=
  (if_neg (by simp [hr, hi, hd])).trans (if_pos rfl)

theorem dapAccess_denied (h : (ferruleAccess b 79 .read addr.toNat none).1 = false) :
    dapAccess b false addr = (ferruleAccess b 79 .read addr.toNat none).2.emit (.jtag 0) :=
  (if_neg (by simp [hr, hi, hd])).trans ((if_neg Bool.false_ne_true).trans (if_neg (Bool.not_eq_true _ ▸ h)))

/-- An admitted read of the debug port answers a word that the manual leaves open. -/
theorem dapAccess_read (h : (ferruleAccess b 79 .read addr.toNat none).1 = true) : ∃ v, v < 2 ^ 32 ∧
    let t := (ferruleAccess b 79 .read addr.toNat none).2
    dapAccess b false addr = ({ t with free := t.free + 1 } : Block).emit (.jtag v) := by
  refine ⟨ofLe ((ferruleAccess b 79 .read addr.toNat none).2.fresh 4).1, ?_, ?_⟩
  · have := ofLe_lt ((ferruleAccess b 79 .read addr.toNat none).2.fresh 4).1
    rwa [Block.fresh, length_fit] at this
  · exact (if_neg (by simp [hr, hi, hd])).trans ((if_neg Bool.false_ne_true).trans (if_pos h))

end

theorem dapAccess_closed (write : Bool) (addr : BitVec 40) (h : b.io.ir ≠ .dap ∨ dapOpen b = false) : dapAccess b write addr = b :=
  if_pos (by rcases h with h | h <;> simp [h])

/-! ### The statement -/

/-- Settles O53: each SPDM request is answered by the connection's state, and the debug port works where the lifecycle permits it. -/
theorem attestationAndDebug : Obligations.AttestationAndDebug := by
  unfold Obligations.AttestationAndDebug
  refine ⟨?_, ?_⟩
  · intro s msg drawn b1 index ho hb b p code error same version free caps capsAnswer asym hash ec ed algosOk chain off len part digests certs q
      blocks kind summary auth chosen meas versions
    have takes {c : Nat} (h : code (BitVec.ofNat 8 c)) : spdmTakes b c msg = true := spdmTakes_of ho hb h.1 h.2
    have same_iff : spdmSame b msg = true ↔ same := spdmSame_iff
    have different (h : ¬ same) : spdmSame b msg = false := Bool.eq_false_iff.mpr (mt same_iff.mp h)
    have offered : ¬ negotiationRefused p msg ↔ algosOk := negotiationRefused_iff
    refine ⟨fun h hv => completes_run (f := (spdmGetVersion · msg)) rfl (spdmGetVersion_answers (takes h) hv),
      fun h hv => completes_run (f := (spdmGetVersion · msg)) rfl (spdmGetVersion_mismatch (takes h) hv),
      fun h => ⟨fun hu => completes_run (f := (spdmGetCapabilities · msg)) rfl (spdmGetCapabilities_unexpected (takes h) hu),
        fun hv hc h1 h2 => completes_run (f := (spdmGetCapabilities · msg)) rfl (spdmGetCapabilities_mismatch (takes h) hv hc ⟨h1, h2⟩),
        fun hv hc hl => completes_run (f := (spdmGetCapabilities · msg)) rfl (spdmGetCapabilities_answers (takes h) hv hc hl)⟩,
      fun h => ⟨fun hu => completes_run (f := (spdmNegotiate · msg)) rfl (spdmNegotiate_unexpected (takes h) hu),
        fun hc ha hs => completes_run (f := (spdmNegotiate · msg)) rfl (spdmNegotiate_mismatch (takes h) hc ha (different hs)),
        fun hc ha hs hn => completes_run (f := (spdmNegotiate · msg)) rfl
          (spdmNegotiate_refused (takes h) hc ha (same_iff.mpr hs) (Classical.byContradiction fun hr => hn (offered.mp hr))),
        fun hc ha hs hn => ?_⟩,
      fun h ha hs => completes_run (f := (spdmGetDigests · msg)) rfl (spdmAfter_ready (takes h) _ ha (same_iff.mpr hs)),
      fun h ha => completes_run (f := (spdmGetDigests · msg)) rfl (spdmAfter_unexpected (takes h) _ ha),
      fun h ha hs => ⟨fun hl hslot hoff => completes_run (f := (spdmGetCertificate · msg)) rfl
          (spdmGetCertificate_answers ha (same_iff.mpr hs) (takes h) hl hslot hoff),
        fun hn => completes_run (f := (spdmGetCertificate · msg)) rfl (spdmGetCertificate_refused ha (same_iff.mpr hs) (takes h) hn)⟩,
      fun h ha hs hl hslot hk => ⟨fun hd => completes_run (f := (spdmChallenge · msg)) rfl
          (spdmChallenge_unseeded ha (same_iff.mpr hs) (takes h) hl hslot hk hd),
        fun hd => completes_run (f := (spdmChallenge · msg)) rfl (spdmChallenge_answers ha (same_iff.mpr hs) (takes h) hl hslot hk hd)⟩,
      fun h ha hs hsig hl hk hd => completes_run (f := (spdmGetMeasurements · msg)) rfl
        (spdmGetMeasurements_plain ha (same_iff.mpr hs) (takes h) hk hsig hl hd),
      fun h ha hs hsig hl hslot hk hd =>
        completes_run (f := (spdmGetMeasurements · msg)) rfl (spdmGetMeasurements_signed ha (same_iff.mpr hs) (takes h) hk hsig hl hslot hd),
      fun hl hc => completes_run (f := (spdmUnsupported · msg)) rfl (spdmUnsupported_answers ho hb hl hc),
      fun hi => completes_act (f := (doeDiscovery · index)) rfl (decide_eq_true hi) (doeDiscovery_answers ho hb index),
      completes_run rfl (if_pos ho)⟩
    obtain ⟨r, pick, e⟩ := spdmNegotiate_selects (takes h) hc ha (same_iff.mpr hs) (offered.mpr hn)
    have noEd (he : ¬ ed) : offersEd p msg = false := Bool.eq_false_iff.mpr fun ho => he (by simpa [offersEd, bit] using ho)
    exact ⟨_, completes_run (f := (spdmNegotiate · msg)) rfl e, rfl, fun he => selected_plain (noEd he),
      fun he => selected_ed (Bool.eq_false_iff.mpr he) (offered.mpr hn), selected_384 (p := p),
      fun h1 => selected_512 h1 (offered.mpr hn), rfl, List.length_append⟩
  · intro s write addr b policy scan dap load loads kind access
    have permits : dapOpen b = true ↔ dap := dapOpen_iff
    refine ⟨fun hp => ⟨jtagLoad_loads rfl hp scanOpen_iff, jtagLoad_loads rfl hp scanOpen_iff, jtagLoad_loads rfl hp scanOpen_iff,
      jtagLoad_loads rfl hp scanOpen_iff, jtagLoad_loads rfl hp dapOpen_iff, jtagLoad_loads rfl hp (iff_of_true rfl trivial), ?_⟩,
      rfl, fun hr hi hd => ⟨fun hw => ?_, fun hw ha => ?_, fun hw ha => ?_⟩,
      fun h => completes_run (f := (dapAccess · write addr)) rfl
        (dapAccess_closed write addr (h.imp_right fun h => Bool.eq_false_iff.mpr (mt permits.mp h)))⟩
    · obtain ⟨rev, maker, hrev, hmaker, e⟩ := jtagIdcode_shows hp
      exact ⟨rev, maker, hrev, hmaker, completes_run rfl e⟩
    · subst hw
      exact completes_run (f := (dapAccess · true addr)) rfl (dapAccess_write hr hi (permits.mpr hd) addr)
    · subst hw
      exact completes_run (f := (dapAccess · false addr)) rfl (dapAccess_denied hr hi (permits.mpr hd) addr ha)
    · subst hw
      obtain ⟨v, hv, e⟩ := dapAccess_read hr hi (permits.mpr hd) addr ha
      exact ⟨v, hv, completes_run (f := (dapAccess · false addr)) rfl e⟩

end Sys2Proof.Machine
end

section
/-! PROOFS. The SMBus target and the board's inputs, and with them the statement on both (R489, R490, R499, R506, R508, R540 to R542, R549, R550,
R563). -/
namespace Sys2Proof.Machine

variable {b : Block} {s : State} {v pec : Byte} {d : Bytes}

/-! ### The target's answers (R540, R546) -/

theorem smbusOn_iff : smbusOn b = true ↔ b.pmc.powerGood = true ∧ b.io.ir ≠ .extest ∧ b.io.ir ≠ .highz ∧ b.io.ir ≠ .clamp := by
  simp [smbusOn, scanControl, and_assoc]

theorem not_smbusOn_false (h : smbusOn b = true) : ¬ (!smbusOn b) = true := by simp [h]

/-- A PEC is right for the bytes of a write. -/
def PecMatches (b : Block) (d : Bytes) (pec : Byte) : Prop := pec = smbusPec (smbusAddr b false ++ d)

section
variable (h : smbusOn b = true) (f : Block → Block)
include h

theorem smbusWrite_discarded (hp : ¬ PecMatches b d pec) : smbusWrite b d pec f = b.modSmbus fun s => { s with pec := true } :=
  (if_neg (not_smbusOn_false h)).trans (if_pos (Ne.symm hp))

theorem smbusWrite_taken (hp : PecMatches b d pec) : smbusWrite b d pec f = f b :=
  (if_neg (not_smbusOn_false h)).trans (if_neg (not_not_intro hp.symm))

end

theorem smbusWrite_off (h : smbusOn b = false) (f : Block → Block) : smbusWrite b d pec f = b := if_pos (by simp [h])

/-! ### Reads (R541) -/

theorem smbusStatus_answers (h : smbusOn b = true) (temp : BitVec 8) : smbusStatus b temp = smbusAnswer b [0x01]
    ([8, BitVec.ofNat 8 b.life, BitVec.ofNat 8 b.pmc.st, if b.pmc.ready then 1 else 0, 0] ++ leBytes 2 b.kerard.held ++ [temp, 0]) := by
  refine (if_neg (not_smbusOn_false h)).trans ?_
  cases b.pmc.ready <;> rfl

theorem smbusMbxStat_answers (h : smbusOn b = true) :
    let weigh (x : Bool) (k : Nat) : Nat := if x then k else 0
    smbusMbxStat b = smbusAnswer b [0x12] [BitVec.ofNat 8 (weigh (b.mbx 5).busy 1 + weigh (b.mbx 5).done 2 + weigh b.pmc.ready 4 +
      weigh b.smbus.pec 8 + weigh b.smbus.reqBusy 16 + weigh b.smbus.overrun 32 + weigh b.smbus.range 64)] := by
  refine (if_neg (not_smbusOn_false h)).trans ?_
  simp only [mul_b2n]
  rfl

theorem smbusMbxRsp_refused (h : smbusOn b = true) (off : BitVec 16) {count : Byte} (hc : count = 0 ∨ 240 < count.toNat) :
    smbusMbxRsp b off count = b.emit (.smbus none) :=
  (if_neg (not_smbusOn_false h)).trans (if_pos hc)

/-- The bytes of the response buffer that a read of the sideband returns. -/
def mailboxBytes (b : Block) (off n : Nat) : Bytes :=
  (List.range n).map fun i => if off + i < 4096 then (b.mbx 5).rsp.read (off + i) else 0

/-- A read beyond the response buffer sets RANGE. -/
def readBeyond (b : Block) (off n : Nat) : Block := if 4096 < off + n then b.modSmbus fun s => { s with range := true } else b

theorem smbusMbxRsp_answers (h : smbusOn b = true) (off : BitVec 16) {count : Byte} (h0 : count ≠ 0) (hc : count.toNat ≤ 240) :
    smbusMbxRsp b off count = smbusAnswer (readBeyond b off.toNat count.toNat) ([0x13, 3] ++ leBytes 2 off.toNat ++ [count])
      ([count] ++ mailboxBytes b off.toNat count.toNat) :=
  (if_neg (not_smbusOn_false h)).trans (if_neg (by rintro (h | h); exacts [h0 h, absurd hc (Nat.not_le.mpr h)]))

/-! ### Writes into the mailbox (R541, R542) -/

section
variable (h : smbusOn b = true) (hl : 3 ≤ d.length) (hu : d.length ≤ 255) (hp : PecMatches b ([0x10] ++ leBytes 1 d.length ++ d) pec)
include h hl hu hp

theorem smbusMbxReq_busy (hb : (b.mbx 5).busy = true) : smbusMbxReq b d pec = b.modSmbus fun s => { s with reqBusy := true } :=
  (smbusWrite_taken h _ hp).trans ((if_neg (by omega)).trans (if_pos hb))

theorem smbusMbxReq_beyond (hb : (b.mbx 5).busy = false) (hr : 4096 < leField d 0 2 + (d.length - 2)) :
    smbusMbxReq b d pec = b.modSmbus fun s => { s with range := true } :=
  (smbusWrite_taken h _ hp).trans ((if_neg (by omega)).trans ((if_neg (Bool.eq_false_iff.mp hb)).trans (if_pos hr)))

theorem smbusMbxReq_writes (hb : (b.mbx 5).busy = false) (hr : leField d 0 2 + (d.length - 2) ≤ 4096) :
    smbusMbxReq b d pec = b.modMbx 5 fun x => { x with req := x.req.writeBytes (leField d 0 2) (d.drop 2) } :=
  (smbusWrite_taken h _ hp).trans ((if_neg (by omega)).trans ((if_neg (Bool.eq_false_iff.mp hb)).trans (if_neg (Nat.not_lt.mpr hr))))

end

section
variable (h : smbusOn b = true)
include h

theorem smbusMbxGo_overrun (hp : PecMatches b [0x11, v] pec) (hv : v = 1) (hx : (b.mbx 5).busy = true ∨ (b.mbx 5).done = true) :
    smbusMbxGo b v pec = b.modSmbus fun s => { s with overrun := true } :=
  (smbusWrite_taken h _ hp).trans ((if_neg (not_not_intro hv)).trans (if_pos hx))

theorem smbusMbxGo_goes (hp : PecMatches b [0x11, v] pec) (hv : v = 1) (hb : (b.mbx 5).busy = false) (hd : (b.mbx 5).done = false) :
    smbusMbxGo b v pec = mbxGo b .sb :=
  (smbusWrite_taken h _ hp).trans ((if_neg (not_not_intro hv)).trans (if_neg (by simp [hb, hd])))

theorem smbusHostbeat_beats (hp : PecMatches b [0x20, v] pec) (hv : v = 1) : smbusHostbeat b v pec = hostBeat b :=
  (smbusWrite_taken h _ hp).trans (if_pos hv)

end

/-! ### The board's inputs (R490, R506, R549, R550) -/

/-- A pin held a new level for four samples. -/
def PinMoves (b : Block) (n : Nat) (level : Bool) (samples : Nat) : Prop := b.io.inputs.getLsbD n ≠ level ∧ 4 ≤ samples

/-- A pin caused a wake or a beat less than 10 us ago. -/
def PinRecent (b : Block) (n : Nat) : Prop := ∃ t, Tab.get? b.io.lastWake n = some t ∧ b.now < t + 10

theorem gpioRecent_iff {n : Nat} : gpioRecent b n = true ↔ PinRecent b n := by
  unfold gpioRecent PinRecent
  cases Tab.get? b.io.lastWake n <;> simp

section
variable {n samples : Nat} {level : Bool}

theorem pin_still (h : gpioOn b = false ∨ ¬ PinMoves b n level samples) :
    (!gpioOn b) = true ∨ gpioIn b n = level ∨ (!pinPasses samples) = true := by
  rcases h with h | h
  · simp [h]
  · by_cases hl : gpioIn b n = level
    · exact .inr (.inl hl)
    · exact .inr (.inr (by simpa [pinPasses] using fun hs => h ⟨hl, hs⟩))

theorem gpioWake_still (h : gpioOn b = false ∨ ¬ PinMoves b n level samples) : gpioWake b n level samples = b := if_pos (pin_still h)

theorem gpioBeat_still (h : gpioOn b = false ∨ ¬ PinMoves b n level samples) : gpioBeat b n level samples = b := if_pos (pin_still h)

theorem pin_active (hc : Tab.get b.io.gpio 0 n % 16 = 2) (ha : level ≠ (Tab.get b.io.gpio 0 n).testBit 4) :
    ¬ (Tab.get b.io.gpio 0 n % 16 ≠ 2 ∨ level = bit (Tab.get b.io.gpio 0 n) 4) := by
  rintro (h | h)
  · exact h hc
  · exact ha h

variable (h : gpioOn b = true) (hm : PinMoves b n level samples)
include h hm

theorem pin_moved : ¬ ((!gpioOn b) = true ∨ gpioIn b n = level ∨ (!pinPasses samples) = true) := by
  simp [h, gpioIn, hm.1, pinPasses, hm.2]

theorem gpioBeat_beats (hc : Tab.get b.io.gpio 0 n % 16 = 3) (hr : ¬ PinRecent b n) :
    gpioBeat b n level samples = hostBeat (gpioMark (gpioSet b n level) n) := by
  have old : gpioRecent (gpioSet b n level) n = false := Bool.eq_false_iff.mpr (mt gpioRecent_iff.mp hr)
  exact (if_neg (pin_moved h hm)).trans (if_neg (by rw [old]; simpa [gpioSet] using hc))

theorem gpioBeat_recent (hr : PinRecent b n) : gpioBeat b n level samples = gpioSet b n level := by
  have recent : gpioRecent (gpioSet b n level) n = true := gpioRecent_iff.mpr hr
  exact (if_neg (pin_moved h hm)).trans (if_pos (.inr recent))

theorem gpioWake_inert (hc : Tab.get b.io.gpio 0 n % 16 ≠ 2 ∨ level = (Tab.get b.io.gpio 0 n).testBit 4) :
    gpioWake b n level samples = gpioSet b n level :=
  (if_neg (pin_moved h hm)).trans (if_pos hc)

variable (hc : Tab.get b.io.gpio 0 n % 16 = 2) (ha : level ≠ (Tab.get b.io.gpio 0 n).testBit 4)
include hc ha

theorem gpioWake_suppressed (hr : PinRecent b n) : gpioWake b n level samples =
    { gpioSet b n level with io := { (gpioSet b n level).io with
      suppressed := (gpioSet b n level).io.suppressed ||| ((1 : BitVec 8) <<< n) } } := by
  have recent : gpioRecent (gpioSet b n level) n = true := gpioRecent_iff.mpr hr
  exact (if_neg (pin_moved h hm)).trans ((if_neg (pin_active hc ha)).trans (if_pos recent))

theorem gpioWake_wakes (hr : ¬ PinRecent b n) (hrun : b.running = true) :
    gpioWake b n level samples = ladderExit (gpioMark (gpioSet b n level) n) := by
  have old : gpioRecent (gpioSet b n level) n = false := Bool.eq_false_iff.mpr (mt gpioRecent_iff.mp hr)
  exact (if_neg (pin_moved h hm)).trans
    ((if_neg (pin_active hc ha)).trans ((if_neg (Bool.eq_false_iff.mp old)).trans (if_pos hrun)))

end

/-- Settles O51: what the sideband's commands do, and the beats and wakes of the board's inputs. -/
theorem sidebandAndInputs : Obligations.SidebandAndInputs := by
  unfold Obligations.SidebandAndInputs
  refine ⟨?_, ?_⟩
  · intro s temp v pec count off d b on x u w r put answer at_ valid bit_ read beyond
    have isOn (h : on) : smbusOn b = true := smbusOn_iff.mpr h
    have isOff (h : b.pmc.powerGood = false) : smbusOn b = false := Bool.eq_false_iff.mpr fun ho => by simp [(smbusOn_iff.mp ho).1] at h
    refine ⟨fun h => completes_run (f := (smbusStatus · temp)) rfl (smbusStatus_answers (isOn h) temp),
      fun h hd hp => completes_act (f := (smbusMbxReq · d pec)) rfl hd (smbusWrite_discarded (isOn h) _ hp),
      fun h hd hl hu hp => ⟨fun hb => completes_act (f := (smbusMbxReq · d pec)) rfl hd (smbusMbxReq_busy (isOn h) hl hu hp hb),
        fun hb hr => completes_act (f := (smbusMbxReq · d pec)) rfl hd (smbusMbxReq_beyond (isOn h) hl hu hp hb hr),
        fun hb hr => completes_act (f := (smbusMbxReq · d pec)) rfl hd (smbusMbxReq_writes (isOn h) hl hu hp hb hr)⟩,
      fun h hp hv => ⟨fun hx => completes_run (f := (smbusMbxGo · v pec)) rfl (smbusMbxGo_overrun (isOn h) hp hv hx),
        fun hb hd => completes_run (f := (smbusMbxGo · v pec)) rfl (smbusMbxGo_goes (isOn h) hp hv hb hd)⟩,
      fun h => completes_run rfl (smbusMbxStat_answers (isOn h)),
      fun h hc => completes_run (f := (smbusMbxRsp · off count)) rfl (smbusMbxRsp_refused (isOn h) off hc),
      fun h h0 hc => completes_run (f := (smbusMbxRsp · off count)) rfl ((smbusMbxRsp_answers (isOn h) off h0 hc).trans ?_),
      fun h hp => completes_run (f := (smbusMbxAck · v pec)) rfl (smbusWrite_taken (isOn h) _ hp),
      fun h hp hv => completes_run (f := (smbusHostbeat · v pec)) rfl (smbusHostbeat_beats (isOn h) hp hv),
      fun h => completes_run rfl (if_pos (isOn h)),
      fun h => ⟨completes_run (f := (smbusStatus · temp)) rfl (if_pos (by rw [isOff h]; rfl)),
        completes_run rfl (if_pos (by rw [isOff h]; rfl)), completes_run rfl (if_neg (Bool.eq_false_iff.mp (isOff h)))⟩⟩
    have addr : (readBeyond b off.toNat count.toNat).smbus.addr = b.smbus.addr := by
      unfold readBeyond
      split <;> rfl
    simp only [smbusAnswer, smbusAddr, addr]
    rfl
  · intro s n level v samples b on cfg moves pin inputs seen recent marked
    have isOn (h : on) : gpioOn b = true := smbusOn_iff.mpr h
    refine ⟨fun hh => ⟨fun hv => completes_pfRequest rfl hh rfl ((if_neg (by decide)).trans (if_pos hv)),
        fun hv => completes_pfRequest rfl hh rfl ((if_neg (by decide)).trans (if_neg (Bool.eq_false_iff.mp hv))),
        completes_pfRequest rfl hh rfl (if_pos rfl)⟩,
      fun h hm hc => ⟨fun hr => completes_run (f := (gpioBeat · n level samples)) rfl (gpioBeat_beats (isOn h) hm hc hr),
        fun hr => completes_run (f := (gpioBeat · n level samples)) rfl (gpioBeat_recent (isOn h) hm hr)⟩,
      fun _ hm => ⟨completes_run (f := (gpioBeat · n level samples)) rfl (gpioBeat_still (.inr hm)),
        completes_run (f := (gpioWake · n level samples)) rfl (gpioWake_still (.inr hm))⟩,
      fun h hm hc ha => ⟨fun hr hrun => completes_run (f := (gpioWake · n level samples)) rfl (gpioWake_wakes (isOn h) hm hc ha hr hrun),
        fun hr => completes_run (f := (gpioWake · n level samples)) rfl (gpioWake_suppressed (isOn h) hm hc ha hr)⟩,
      fun h hm hc => completes_run (f := (gpioWake · n level samples)) rfl (gpioWake_inert (isOn h) hm hc),
      fun hr => completes_liveSettle rfl hr rfl⟩

end Sys2Proof.Machine
end

section
/-! PROOFS. Sessions, tokens and the end of a command, and with them the statement on all of them (R338, R340, R342, R343, R346, R349 to R353, R355,
R359, R516). -/
namespace Sys2Proof.Machine

variable {b t : Block} {s : State} {m : Mbx} {p : Bytes}

/-! ### HELLO (R343, R359) -/

theorem grantVersion_zero (minor : Nat) : grantVersion 0 minor = none := rfl

/-- The version that a request for one gets: the highest minor of its major, or the highest of all. -/
theorem grantVersion_of {major : Nat} (h : major ≠ 0) (minor : Nat) : grantVersion major minor =
    some (if major = 1 then (1, min minor 2) else if major = 2 then (2, min minor 3) else if major = 3 then (3, min minor 1) else (3, 1)) := by
  unfold grantVersion
  rw [if_neg h]
  split
  · rfl
  · split
    · rfl
    · split <;> rfl

theorem not_misshaped {n : Nat} {zeros : List (Nat × Nat)} (hs : shaped p n zeros = true) : ¬ (!shaped p n zeros) = true := by simp [hs]

/-- What HELLO answers to a request that is granted version `v`. -/
def helloAnswer (b : Block) (v : Nat × Nat) : Bytes :=
  [BitVec.ofNat 8 v.1, BitVec.ofNat 8 v.2, BitVec.ofNat 8 b.life, BitVec.ofNat 8 b.nlog2] ++ leBytes 2 b.claim ++ [1, 0]
    ++ fit 8 b.device ++ leBytes 4 b.fwver ++ zeros 4

section
variable (hs : shaped p 4 [(2, 2)] = true)
include hs

theorem cmdHello_unversioned (h : pb p 0 = 0) : cmdHello m b p = .reply b 0x0105 0 [] := by
  refine (if_neg (not_misshaped hs)).trans ?_
  rw [h, grantVersion_zero]
  rfl

theorem cmdHello_grants {v : Nat × Nat} (h : grantVersion (pb p 0) (pb p 1) = some v) :
    cmdHello m b p = .reply (b.modMbx (mbxNo m) fun x => { x with vmaj := v.1, vmin := v.2 }) 0 0 (helloAnswer b v) := by
  refine (if_neg (not_misshaped hs)).trans ?_
  rw [h]
  rfl

end

/-! ### Tokens (R349 to R353) -/

/-- The device without the AUTHREFs whose time is over. -/
def withoutStale (b : Block) : Block := cancelAuths b fun a => decide (a.issued + authLife ≤ b.now)

/-- The scope is one that the request's class knows. -/
def ScopeSuits (b : Block) (r : CmdRow) (scope : Nat) : Prop :=
  (r.cls = .cs ∧ scope = 0xFF) ∨ (r.cls = .cc ∧ scope < b.n) ∨ (r.cls = .cx ∧ (scope = 0xFF ∨ scope < b.n))

/-- The AUTHREF that AUTH_CHALLENGE issues. -/
def challengeRef (b : Block) (m : Mbx) (p nonce : Bytes) : AuthRef :=
  { ref := b.bimor.nextRef, nonce := nonce, command := leField p 0 2, slice := mbxNo m, scope := pb p 2, rdigest := slice p 4 64
    issued := b.now, counted := [] }

/-- AUTH_CHALLENGE of a request that is well formed, on a device without stale AUTHREFs. -/
def issueRef (m : Mbx) (b : Block) (p : Bytes) : Res :=
  if !scopeExists b (pb p 2) then no b stObjectState
  else if authLimit ≤ b.bimor.auths.length then no b stBusy
  else match b.draw 32 with
    | none => no b stRng
    | some (nonce, b) =>
      ok (b.modBimor fun y => { y with auths := y.auths ++ [challengeRef b m p nonce], nextRef := b.bimor.nextRef + 1 })
        (leBytes 4 b.bimor.nextRef ++ nonce ++ leBytes 4 ((b.now + authLife) / 1000000 % 2 ^ 32)
          ++ [BitVec.ofNat 8 (scopeCustodians b (pb p 2)).k, BitVec.ofNat 8 (scopeCustodians b (pb p 2)).keys.length, 0, 0])

theorem challenge_scope (he : scopeExists b (pb p 2) = true) : ¬ (!scopeExists (withoutStale b) (pb p 2)) = true := by
  rw [show scopeExists (withoutStale b) (pb p 2) = true from he]
  decide

section
variable {r : CmdRow} {nonce : Bytes} (hr : cmdRow (leField p 0 2) = some r) (hs : shaped p 68 [(3, 1)] = true) (hu : ScopeSuits b r (pb p 2))
include hr hs hu

theorem cmdAuthChallenge_form : cmdAuthChallenge m b p = issueRef m (withoutStale b) p := by
  refine (if_neg ?_).trans rfl
  rcases hu with ⟨hc, h⟩ | ⟨hc, h⟩ | ⟨hc, h⟩
  · simp [hs, hr, hc, h]
  · simp [hs, hr, hc, h]
  · simp only [hs, hr, hc, scopeValid]
    simpa using or_iff_not_imp_left.mp h

theorem cmdAuthChallenge_absent (h : scopeExists b (pb p 2) = false) : cmdAuthChallenge m b p = .reply (withoutStale b) 0x0106 0 [] :=
  (cmdAuthChallenge_form hr hs hu).trans (if_pos (by rw [show scopeExists (withoutStale b) (pb p 2) = false from h]; rfl))

variable (he : scopeExists b (pb p 2) = true)
include he

theorem cmdAuthChallenge_full (h : 16 ≤ (withoutStale b).bimor.auths.length) :
    cmdAuthChallenge m b p = .reply (withoutStale b) 0x0104 0 [] :=
  (cmdAuthChallenge_form hr hs hu).trans ((if_neg (challenge_scope he)).trans (if_pos h))

variable (hl : (withoutStale b).bimor.auths.length < 16)
include hl

theorem cmdAuthChallenge_unseeded (hd : (withoutStale b).draw 32 = none) : cmdAuthChallenge m b p = .reply (withoutStale b) 0x0040 0 [] := by
  refine (cmdAuthChallenge_form hr hs hu).trans ((if_neg (challenge_scope he)).trans ((if_neg (Nat.not_le.mpr hl)).trans ?_))
  rw [hd]
  rfl

theorem cmdAuthChallenge_issues (hd : (withoutStale b).draw 32 = some (nonce, t)) : cmdAuthChallenge m b p =
    .reply (t.modBimor fun y => { y with auths := y.auths ++ [challengeRef t m p nonce], nextRef := t.bimor.nextRef + 1 }) 0 0
      (leBytes 4 t.bimor.nextRef ++ nonce ++ leBytes 4 ((t.now + authLife) / 1000000 % 2 ^ 32)
        ++ [BitVec.ofNat 8 (scopeCustodians t (pb p 2)).k, BitVec.ofNat 8 (scopeCustodians t (pb p 2)).keys.length, 0, 0]) := by
  refine (cmdAuthChallenge_form hr hs hu).trans ((if_neg (challenge_scope he)).trans ((if_neg (Nat.not_le.mpr hl)).trans ?_))
  rw [hd]
  rfl

end

/-- A token of the submission verifies under the custodian that it names. -/
def TokenGood (b : Block) (a : AuthRef) (e : Nat × Nat × Bytes) : Prop :=
  e.1 < (scopeCustodians b a.scope).keys.length ∧
    edCheck true false (ascii "VWAUTH") ((scopeCustodians b a.scope).keys.getD e.1 []) (authToken b a) e.2.2 = true

/-- A submission's form. -/
def SubmissionFormed (p : Bytes) : Prop :=
  1 ≤ pb p 4 ∧ pb p 4 ≤ 16 ∧ shaped p (8 + 116 * pb p 4) [(5, 3)] = true ∧ ∀ e ∈ tokenEntries p 8 (pb p 4), e.2.1 = 0

section
variable {a : AuthRef} (hf : SubmissionFormed p) (ho : openAuth b (leField p 0 4) = some a)
include hf

theorem submission_formed : ¬ (pb p 4 = 0 ∨ 16 < pb p 4 ∨ (!shaped p (8 + 116 * pb p 4) [(5, 3)]) = true ∨
    ((tokenEntries p 8 (pb p 4)).any fun e => e.2.1 != 0) = true) := by
  obtain ⟨h1, h16, hs, he⟩ := hf
  rintro (h | h | h | h)
  · omega
  · omega
  · exact not_misshaped hs h
  · obtain ⟨e, hm, hn⟩ := List.any_eq_true.mp h
    simp [he e hm] at hn

include ho

theorem cmdAuthSubmit_counts (hg : ∀ e ∈ tokenEntries p 8 (pb p 4), TokenGood b a e) :
    let counted := dedup (a.counted ++ (tokenEntries p 8 (pb p 4)).map (·.1))
    cmdAuthSubmit m b p = .reply (b.modBimor fun y =>
      { y with auths := y.auths.map fun x => if x.ref = a.ref then { x with counted := counted } else x }) 0 0
      (leBytes 2 (counted.map fun k => 2 ^ k).sum ++ [BitVec.ofNat 8 (scopeCustodians b a.scope).k, 0]) := by
  refine (if_neg (submission_formed hf)).trans ?_
  rw [ho]
  refine if_neg ?_
  simpa [TokenGood] using hg

theorem cmdAuthSubmit_fails (hg : ∃ e ∈ tokenEntries p 8 (pb p 4), ¬ TokenGood b a e) : cmdAuthSubmit m b p = .reply b 0x0101 0 [] := by
  obtain ⟨e, hm, hn⟩ := hg
  refine (if_neg (submission_formed hf)).trans ?_
  rw [ho]
  refine if_pos ?_
  rw [Bool.not_eq_true', List.all_eq_false]
  exact ⟨e, hm, by simpa [TokenGood] using hn⟩

end

/-- A command that is called runs with the scope of the AUTHREF that its request names. -/
theorem called_named {code : Nat} (h : Called s m code p b) (f : Block → Bytes → Res) : ∃ r, cmdRow code = some r ∧
    authorise (entered s.blk m r) ((entered s.blk m r).mbx (mbxNo m)) r = (none, b) ∧
    startCommand s.blk m code f = settleRes m (namedScope (entered s.blk m r) ((entered s.blk m r).mbx (mbxNo m))) (f b p) := by
  obtain ⟨r, hr, hl, had, hau, hp⟩ := h.admitted
  exact ⟨r, hr, hau, by rw [startCommand_runs h.starts hr h.header h.restored hl had, execCommand_runs hau, hp]⟩

/-- A command whose request's authorisation left the device as it was runs with the scope that it names there. -/
theorem called_unconsumed {code : Nat} (h : Called s m code p b)
    (hu : ∀ r t x, cmdRow code = some r → authorise t x r = (none, b) → b = t) (f : Block → Bytes → Res) :
    startCommand s.blk m code f = settleRes m (namedScope b (b.mbx (mbxNo m))) (f b p) := by
  obtain ⟨r, hr, hau, e⟩ := called_named h f
  rw [e, ← hu r _ _ hr hau]

/-- AUTH_SUBMIT asks for no authorisation. -/
theorem submit_free {r : CmdRow} {x : Mailbox} (hr : cmdRow 0x0003 = some r) (ha : authorise t x r = (none, b)) : b = t := by
  have free : r.cls = .o := by
    have h3 : (cmdRow 0x0003).map (·.cls) = some .o := by decide
    rw [hr] at h3
    exact Option.some.inj h3
  exact congrArg Prod.snd (ha.symm.trans (authorise_free (.inr free)))

/-! ### Sessions (R355) -/

theorem cmdAuthCancel_cancels {a : AuthRef} (hl : p.length = 4) (ho : openAuth b (leField p 0 4) = some a) :
    cmdAuthCancel m b p = .reply (cancelAuths b fun x => x.ref == a.ref) 0 0 [] := by
  refine (if_neg (not_misshaped (by simp [shaped, hl]))).trans ?_
  rw [ho]
  rfl

theorem cmdCeremonyOpen_unseeded (hp : p = []) (hd : b.draw 56 = none) : cmdCeremonyOpen m b p = .reply b 0x0040 0 [] := by
  refine (if_neg (not_not_intro hp)).trans ?_
  rw [hd]
  rfl

theorem cmdCeremonyOpen_opens {scalar : Bytes} (hp : p = []) (hd : b.draw 56 = some (scalar, t)) : cmdCeremonyOpen m b p =
    .reply (t.modBimor fun y =>
      { y with sessions := [{ id := t.bimor.nextSession, scope := 0, scalar := scalar, opened := t.now, attributes := [], parts := [] }]
               nextSession := t.bimor.nextSession + 1 }) 0 0
      (leBytes 4 t.bimor.nextSession ++ fit 56 (montPublic true scalar) ++ zeros 4) := by
  refine (if_neg (not_not_intro hp)).trans ?_
  rw [hd]
  rfl

theorem cmdCeremonyClose_closes {x : Session} (hl : p.length = 4) (ho : openSession b (leField p 0 4) = some x) : cmdCeremonyClose m b p =
    .reply (b.modBimor fun y => { y with sessions := y.sessions.filter fun y => y.id != x.id }) 0 0 [] := by
  refine (if_neg (not_misshaped (by simp [shaped, hl]))).trans ?_
  rw [ho]
  rfl

/-! ### A command's end (R346, log entry 113) -/

section
variable {status detail : Nat} {payload : Bytes}

/-- A mailbox with a command's end in it. -/
def commandOver (status detail : Nat) (payload : Bytes) (x : Mailbox) : Mailbox :=
  { x with status := status, detail := detail, payload := payload, hold := [], await := .nothing, failed := none, phase := .respond }

/-- The device with a command's end in its mailbox, and charged where it completed. -/
def commandEnded (b : Block) (m : Mbx) (status detail : Nat) (payload : Bytes) (leaf : Bool) : Block :=
  let ended := b.modMbx (mbxNo m) (commandOver status detail payload)
  if status = 0 then chargeCommand ended (mbxCode (b.mbx (mbxNo m))) (reqPayload (b.mbx (mbxNo m))) leaf else ended

theorem finishCommand_form (hs : status ≠ 0x0101) : finishCommand b m status detail payload 0xFE =
    let x := commandOver status detail payload (b.mbx (mbxNo m))
    let t := commandEnded b m status detail payload (x.leaf == .entry)
    if x.leaf = .entry then
      (queueLeaf t .system { src := .mailbox m, body := commandLeaf (mbxNo m) x }).modMbx (mbxNo m) fun y =>
        { y with leaf := .waiting, phase := .leaf }
    else t := by
  have kept : (b.modMbx (mbxNo m) (commandOver status detail payload)).mbx (mbxNo m) = commandOver status detail payload (b.mbx (mbxNo m)) :=
    mbx_modMbx_self _ _ _
  have notFailed : status ≠ stAuthFailed := hs
  unfold finishCommand
  extract_lets i b0 x b1 b2 b3 y t
  have hx : x = commandOver status detail payload (b.mbx (mbxNo m)) := kept
  have h1 : b1 = b0 := if_neg notFailed
  have h2 : b2 = commandEnded b m status detail payload (x.leaf == .entry) := by
    simp only [b2, h1, notFailed, false_and, or_false]
    rw [hx]
    rfl
  simp only [b3, h2, hx]
  rfl

theorem finishCommand_leafless (hs : status ≠ 0x0101) (hl : (b.mbx (mbxNo m)).leaf ≠ .entry) :
    finishCommand b m status detail payload 0xFE = commandEnded b m status detail payload false := by
  rw [finishCommand_form hs]
  exact (if_neg hl).trans (congrArg _ (beq_false_of_ne hl))

theorem finishCommand_leaf (hs : status ≠ 0x0101) (hl : (b.mbx (mbxNo m)).leaf = .entry) :
    finishCommand b m status detail payload 0xFE =
      (queueLeaf (commandEnded b m status detail payload true) .system
        { src := .mailbox m, body := commandLeaf (mbxNo m) (commandOver status detail payload (b.mbx (mbxNo m))) }).modMbx (mbxNo m)
        fun y => { y with leaf := .waiting, phase := .leaf } := by
  have e : ((commandOver status detail payload (b.mbx (mbxNo m))).leaf == .entry) = true := beq_iff_eq.mpr hl
  rw [finishCommand_form hs]
  dsimp only
  rw [e]
  exact if_pos hl

end

/-! ### The response (R338, R340, R516) -/

theorem undefinedCommand_settled (h : (b.mbx (mbxNo m)).phase ≠ .running) : undefinedCommand b m = b := if_neg fun hr => h hr.1

/-- The mailbox with its response written. -/
def responseDone (x y : Mailbox) : Mailbox :=
  { y with rsp := y.rsp.writeBytes 0 (responseBytes x), busy := false, done := true, phase := .idle, leaf := .none }

theorem mbxRespond_silent (h : (b.mbx (mbxNo m)).phase ≠ .respond) : mbxRespond b m = b := if_pos h

section
variable (h : (b.mbx (mbxNo m)).phase = .respond)
include h

theorem mbxRespond_discarded (hd : (b.mbx (mbxNo m)).discard = true) : mbxRespond b m =
    b.modMbx (mbxNo m) fun x => { x with phase := .idle, busy := false, discard := false, leaf := .none } :=
  (if_neg (not_not_intro h)).trans (if_pos hd)

variable (hd : (b.mbx (mbxNo m)).discard = false)
include hd

theorem mbxRespond_responds : mbxRespond b m =
    let x := b.mbx (mbxNo m)
    let d := b.modMbx (mbxNo m) (responseDone x)
    let r := if mbxCode x = 0x0805 ∧ x.status = 0 then d.modPmc fun p => { p with resetScheduled := true } else d
    if x.irqEn then r.msix 0 x.vector else r :=
  (if_neg (not_not_intro h)).trans (if_neg (Bool.eq_false_iff.mp hd))

theorem mbxRespond_done (hn : ¬ (mbxCode (b.mbx (mbxNo m)) = 0x0805 ∧ (b.mbx (mbxNo m)).status = 0)) : mbxRespond b m =
    let d := b.modMbx (mbxNo m) (responseDone (b.mbx (mbxNo m)))
    if (b.mbx (mbxNo m)).irqEn then d.msix 0 (b.mbx (mbxNo m)).vector else d := by
  rw [mbxRespond_responds h hd]
  dsimp only
  rw [if_neg hn]

theorem mbxRespond_reset (hr : mbxCode (b.mbx (mbxNo m)) = 0x0805 ∧ (b.mbx (mbxNo m)).status = 0) (hq : (b.mbx (mbxNo m)).irqEn = false) :
    mbxRespond b m =
      (b.modMbx (mbxNo m) (responseDone (b.mbx (mbxNo m)))).modPmc fun p => { p with resetScheduled := true } := by
  rw [mbxRespond_responds h hd]
  dsimp only
  rw [if_pos hr, hq]
  rfl

end

theorem completes_bimorResponse (hr : s.blk.running = true) (hp : (s.blk.mbx (mbxNo m)).phase ≠ .running) (ht : mbxRespond s.blk m = t) :
    Completes (.bimorResponse m) s (settle t) :=
  completes_liveSettle rfl hr (by rw [undefinedCommand_settled hp, ht])

/-- Settles O43: the commands of sessions and tokens, a command's end, and its response. -/
theorem sessionCommands : Obligations.SessionCommands := by
  unfold Obligations.SessionCommands
  refine ⟨?_, ?_⟩
  · intro s m p b b1 nonce scalar a r ses ref i scope kept granted suits set exists_ asked isOpen sessionOpen entries formed good counted
    have absent (h : ¬ exists_) : scopeExists b scope = false := by simpa [scopeExists, exists_] using h
    have present (h : exists_) : scopeExists b scope = true := by simpa [scopeExists, exists_] using h
    refine ⟨fun h hs => ⟨fun h0 => completes_answers h rfl (cmdHello_unversioned hs h0) (by decide),
        fun h0 => completes_answers h rfl (cmdHello_grants hs (grantVersion_of h0 _)) (by decide)⟩,
      fun h ⟨hr, hs, hu⟩ => ⟨fun he => completes_answers h rfl (cmdAuthChallenge_absent hr hs hu (absent he)) (by decide),
        fun he hl => completes_answers h rfl (cmdAuthChallenge_full hr hs hu (present he) hl) (by decide),
        fun he hl hd => completes_answers h rfl (cmdAuthChallenge_unseeded hr hs hu (present he) hl hd) (by decide),
        fun he hl hd => completes_answers h rfl (cmdAuthChallenge_issues hr hs hu (present he) hl hd) (by decide)⟩,
      fun h hf ho hg => completes_answers h rfl (cmdAuthSubmit_counts hf ho hg) (by decide),
      fun h hf ho hg => ?_,
      fun h hl ho => completes_answers h rfl (cmdAuthCancel_cancels hl ho) (by decide),
      fun hr => completes_live rfl hr rfl,
      fun h hp hd => completes_answers h rfl (cmdCeremonyOpen_unseeded hp hd) (by decide),
      fun h hp hd => completes_answers h rfl (cmdCeremonyOpen_opens hp hd) (by decide),
      fun h hl ho => completes_answers h rfl (cmdCeremonyClose_closes hl ho) (by decide),
      fun hr => completes_live rfl hr rfl⟩
    exact completes_liveSettle rfl h.live (by rw [called_unconsumed h fun _ _ _ => submit_free, cmdAuthSubmit_fails hf ho hg]; rfl)
  · intro s m b status detail payload i put over_ x answer done ended
    refine ⟨fun hs hl => ?_, fun hs hl => ?_,
      fun hr hp hd => completes_bimorResponse hr (by rw [hp]; decide) (mbxRespond_discarded hp hd),
      fun hr hp hd hn => ⟨fun hq => ?_, fun hq => ?_⟩,
      fun hr hp hd hc hst hq => completes_bimorResponse hr (by rw [hp]; decide) (mbxRespond_reset hp hd ⟨hc, hst⟩ hq),
      fun hr hp => completes_bimorResponse hr (by rcases hp with hp | hp | hp <;> rw [hp] <;> decide)
        (mbxRespond_silent (by rcases hp with hp | hp | hp <;> rw [hp] <;> decide))⟩
    · exact finishCommand_leafless hs hl
    · rw [finishCommand_leaf hs hl]
      simp only [put, mbx_modMbx_self]
      rfl
    · exact completes_bimorResponse hr (by rw [hp]; decide) ((mbxRespond_done hp hd (by tauto)).trans (if_neg (by rw [hq]; decide)))
    · exact completes_bimorResponse hr (by rw [hp]; decide) ((mbxRespond_done hp hd (by tauto)).trans (if_pos hq))

end Sys2Proof.Machine
end

section
/-! PROOFS. The lifecycle, firmware, tamper and I/O commands, and with them the statement on all of them (R366, R370 to R377, R380, R381, R389, R393,
R431, R445, R453, R516, R544, R548, R550). -/
namespace Sys2Proof.Machine

variable {b t : Block} {s : State} {m : Mbx} {p : Bytes}

/-! ### LIFECYCLE_SET (R370 to R376) -/

/-- A request of LIFECYCLE_SET for another state than COMMISSIONED is well formed. -/
def TargetWell (p : Bytes) : Prop := p.length = 4 ∧ allZero (slice p 1 3) = true

/-- The evidence and the lifecycle log have room for a transition. -/
def LogQuiet (b : Block) : Prop := b.strata.evidenceFull = false ∧ b.lcount < 4092

section
variable (hw : TargetWell p)
include hw

theorem cmdLifecycleSet_provisions (ht : pb p 0 = 1) (hl : b.life = 0) : cmdLifecycleSet m b p = provision b := by
  simp [cmdLifecycleSet, hw.1, hw.2, ht, hl]

theorem cmdLifecycleSet_zeroises (ht : pb p 0 = 5) (hl : b.life = 1) :
    cmdLifecycleSet m b p = .reply (setLifecycle (zeroiseWork b) 5 0) 0 0 [5, 0, 0, 0] := by
  simp [cmdLifecycleSet, hw.1, hw.2, ht, hl, ok, setLifecycle_life]

theorem cmdLifecycleSet_starts (ht : pb p 0 = 3) (hl : b.life = 2) (hc : b.lcount < 4092) :
    cmdLifecycleSet m b p = .reply (setLifecycle b 3 0) 0 0 [3, 0, 0, 0] := by
  simp [cmdLifecycleSet, hw.1, hw.2, ht, hl, ok, logHasRoom, hc, setLifecycle_life]

theorem cmdLifecycleSet_ends (ht : pb p 0 = 6 ∨ pb p 0 = 7) (hl : b.life = 5) :
    cmdLifecycleSet m b p = .reply (setLifecycle b (pb p 0) 0) 0 0 [BitVec.ofNat 8 (pb p 0), 0, 0, 0] := by
  rcases ht with ht | ht <;> simp [cmdLifecycleSet, hw.1, hw.2, ht, hl, ok, setLifecycle_life]

theorem cmdLifecycleSet_unknown (ht : pb p 0 = 0 ∨ pb p 0 = 4 ∨ 7 < pb p 0 ∨ (pb p 0 = 3 ∧ b.life ≠ 2)) :
    cmdLifecycleSet m b p = .reply b 0x0103 0 [] := by
  have h1 : pb p 0 ≠ 1 := by omega
  have h2 : pb p 0 ≠ 2 := by omega
  have h5 : pb p 0 ≠ 5 := by omega
  have h6 : ¬ (pb p 0 = 6 ∨ pb p 0 = 7) := by omega
  have h3 : ¬ (b.life = 2 ∧ pb p 0 = 3) := by omega
  simp [cmdLifecycleSet, hw.1, hw.2, h1, h2, h5, h6, h3, no, stLifecycle]

end

theorem provision_refused (h : ¬ LogQuiet b ∨ monitorAlarms b ≠ 0 ∨ batteryLow b = true) : provision b = .reply b 0x0103 0 [] := by
  refine if_pos ?_
  rcases h with h | h | h
  · by_cases he : b.strata.evidenceFull = true
    · exact .inl he
    · exact .inr (.inr (.inr (by simpa [logHasRoom] using fun hc => h ⟨Bool.eq_false_iff.mpr he, hc⟩)))
  · exact .inr (.inl h)
  · exact .inr (.inr (.inl h))

section
variable (hq : LogQuiet b) (ha : monitorAlarms b = 0) (hb : batteryLow b = false)
include hq ha hb

theorem provision_form : provision b = match drawDrk b with
    | none => no b stRng
    | some b => ok (setLifecycle (b.modBelay fun y => { y with armed := true }) 1 0) [1, 0, 0, 0] := by
  refine (if_neg ?_).trans rfl
  simp [hq.1, ha, hb, logHasRoom, hq.2]

theorem provision_unseeded (hd : b.draw 32 = none) : provision b = .reply b 0x0040 0 [] := by
  rw [provision_form hq ha hb, drawDrk, hd]
  rfl

/-- The device with a new DRK, and its monitors armed. -/
def drkArmed (b : Block) (key : Bytes) : Block :=
  ({ b with bbram := { b.bbram with drk := some key, markerOk := true } } : Block).modBelay fun y => { y with armed := true }

theorem provision_draws {key : Bytes} (hd : b.draw 32 = some (key, t)) :
    provision b = .reply (setLifecycle (drkArmed t key) 1 0) 0 0 [1, 0, 0, 0] := by
  rw [provision_form hq ha hb, drawDrk, hd]
  rfl

end

/-! ### Commissioning (R374 to R376) -/

section
variable (ht : pb p 0 = 2) (hl : b.life = 1) (h8 : 8 ≤ p.length) (hk : blockOk p = true) (hz : allZero (slice p 1 3) = true)
include ht hl h8 hk hz

theorem cmdLifecycleSet_commissions : cmdLifecycleSet m b p = commission m b p := by
  simp [cmdLifecycleSet, ht, hl, h8, hk, hz]

end

theorem commission_unproved (hq : LogQuiet b) (hp : proofsHold b p = false) : commission m b p = .reply b 0x0101 0 [] :=
  (if_neg (by simp [hq.1, logHasRoom, hq.2])).trans (if_pos (by simp [hp]))

/-- The device whose Sump is made anew under the DRK, without records. -/
def commissionSump (b : Block) : Block := initSump (deriveSumpKeys { b with records := none })

/-- The device with which commissioning draws the system chain's keys. -/
def commissionReady (b : Block) : Block := (commissionSump b).modKeys fun k => { k with sysHandleKey := systemHandleKey (commissionSump b) }

theorem commission_draws {ed q : Bytes} {g g2 : Nat} {writes : List NewRecord} (hl : b.life = 1) (hq : LogQuiet b)
    (hp : proofsHold b p = true) (hr : b.lantern.st = .running) (hd : b.sump.ddr.trained = true)
    (hn : newAuditKeys (commissionReady b) 64 ((pb p 6).testBit 0) = .ok ((ed, q, g, g2, writes), t)) :
    commission m b p = .wait (persist t m writes) [ed, q, leBytes 8 g, leBytes 8 g2] := by
  have running : ¬ (!b.delivering) = true := by simp [Block.delivering, hr]
  have notZeroised : ¬ b.life = 5 := by omega
  refine (if_neg (by simp [hq.1, logHasRoom, hq.2])).trans ((if_neg (by simp [hp])).trans ((if_neg running).trans
    ((if_neg (by simp [hd])).trans ?_)))
  rw [if_neg notZeroised]
  change (match newAuditKeys (commissionReady b) 64 ((pb p 6).testBit 0) with
    | .error s => no _ s
    | .ok ((ed, q, g, g2, writes), b) => Res.wait (persist b m writes) [ed, q, leBytes 8 g, leBytes 8 g2]) = _
  rw [hn]

/-! ### What the system chain's creation leaves (R191, R197, R376) -/

theorem holdAuditKeys_keeps {β : Type} (g : Block → β) (hkeys : ∀ t f, g (Block.modKeys t f) = g t) (b : Block) (i : ChainId) (pq : Bool)
    (keys : ChainKeys) : g (holdAuditKeys b i pq keys) = g b := by
  cases i with
  | system =>
    simp only [holdAuditKeys]
    exact hkeys _ _
  | chamber c => rfl

section
variable {β : Type} (g : Block → β) (hchain : ∀ t i f, g (Block.modChain t i f) = g t)
  (hgallery : ∀ (t : Block) x, g { t with gallery := x } = g t) (hauger : ∀ (t : Block) x, g { t with auger := x } = g t)
include hchain hgallery

theorem askMarked_keeps (b : Block) (i : ChainId) (n : Nat) (pq : Bool) (f : Header → Header) : g (askMarked b i n pq f) = g b := by
  unfold askMarked askSignature
  split
  next u hu =>
    split at hu
    · cases hu
      exact (hchain _ _ _).trans (hgallery _ _)
    · cases hu
  next => rfl

theorem askHeader_keeps (b : Block) (i : ChainId) (h : Header) : g (askHeader b i h) = g b := by
  have asked (q : Prop) [Decidable q] (t : Block) (n : Nat) (pq : Bool) (f : Header → Header) :
      g (if q then t else askMarked t i n pq f) = g t := by
    split
    · rfl
    · exact askMarked_keeps g hchain hgallery _ _ _ _ _
  exact (asked _ _ h.pos true _).trans (asked _ b h.pos false _)

include hauger

theorem makeHeader_keeps (b : Block) (i : ChainId) (h : HeaderBody) (n : Nat) : g (makeHeader b i h n) = g b := by
  refine (foldl_keeps g (fun t h => askHeader_keeps g hchain hgallery t i h) _ _).trans ?_
  unfold Block.flowHash
  split
  · exact hchain _ _ _
  · exact (hauger _ _).trans (hchain _ _ _)

theorem createChain_keeps (hkeys : ∀ t f, g (Block.modKeys t f) = g t) (b : Block) (i : ChainId) (pq : Bool) (keys : ChainKeys) :
    g (createChain b i pq keys) = g b := by
  refine (makeHeader_keeps g hchain hgallery hauger _ i _ _).trans ?_
  exact (holdAuditKeys_keeps g hkeys _ i pq keys).trans (hchain _ _ _)

end

theorem createChain_present (b : Block) (i : ChainId) (pq : Bool) (keys : ChainKeys) : ((createChain b i pq keys).chain i).present = true := by
  obtain ⟨digest, l, e⟩ := makeHeader_chain (holdAuditKeys (b.modChain i fun _ => chainWithKeys pq 0 (zeros 64) keys Chain.absent) i pq keys) i
    { kind := 2, close := 0, firstSeq := 0
      claim := (holdAuditKeys (b.modChain i fun _ => chainWithKeys pq 0 (zeros 64) keys Chain.absent) i pq keys).claim
      count := 0
      openTime := (holdAuditKeys (b.modChain i fun _ => chainWithKeys pq 0 (zeros 64) keys Chain.absent) i pq keys).now
      closeTime := (holdAuditKeys (b.modChain i fun _ => chainWithKeys pq 0 (zeros 64) keys Chain.absent) i pq keys).now
      gapFirst := 0, gapCount := 0, root := zeros 64, nextKids := [] } 0
  have made : (createChain b i pq keys).chain i = _ := e
  rw [made, Block.chain, (holdAuditKeys_chains _ i pq keys).1]
  exact congrArg Chain.present (chain_modChain_self b i _)

theorem chainWrite_eq (b : Block) (i : ChainId) (w : Waiter) :
    ∃ r, chainWrite b i w = ({ b with free := b.free + 1 } : Block).modSump fun s => { s with queue := s.queue ++ [r] } := ⟨_, rfl⟩

theorem seqReserve_keeps {β : Type} (g : Block → β) (hchain : ∀ t i f, g (Block.modChain t i f) = g t)
    (hfree : ∀ (t : Block) x, g { t with free := x } = g t) (hsump : ∀ t f, g (Block.modSump t f) = g t) (b : Block) (i : ChainId) :
    g (seqReserve b i) = g b := by
  unfold seqReserve
  extract_lets c next u
  split
  · obtain ⟨r, e⟩ := chainWrite_eq u i (.seqMark i u.claim next)
    rw [e, hsump, hfree]
    exact hchain _ _ _
  · rfl

theorem seqReserve_present (b : Block) (i : ChainId) : ((seqReserve b i).chain i).present = (b.chain i).present := by
  unfold seqReserve
  extract_lets c next u
  split
  · have kept : (chainWrite u i (.seqMark i u.claim next)).chain i = u.chain i := rfl
    rw [kept, chain_modChain_self]
  · rfl

/-- The system's custodians and chain, COMMISSIONED, and no ring bound. -/
def commissionBound (b : Block) (p : Bytes) (hold : List Bytes) : Block :=
  (setLifecycle (createChain (b.modBimor fun x => { x with custodians := { k := pb p 4, keys := blockKeys p } }) .system ((pb p 6).testBit 0)
    (hold.getD 0 [], hold.getD 1 [], ofLe (hold.getD 2 []), ofLe (hold.getD 3 []))) 2 0).modBimor fun x => { x with binds := [] }

theorem commission2_eq (hold : List Bytes) :
    commission2 m b p hold = .wait (awaits (seqReserve (commissionBound b p hold) .system) m .firstEntry) [] := rfl

theorem bound_custodians (u : Block) :
    ((setLifecycle u 2 0).modBimor fun x => { x with binds := [] }).bimor.custodians = u.bimor.custodians := rfl

theorem bound_present (u : Block) :
    (((setLifecycle u 2 0).modBimor fun x => { x with binds := [] }).chain .system).present = (u.chain .system).present := rfl

theorem commissionBound_custodians (hold : List Bytes) :
    (commissionBound b p hold).bimor.custodians = { k := pb p 4, keys := blockKeys p } := by
  have e := createChain_keeps (·.bimor) (fun _ _ _ => rfl) (fun _ _ => rfl) (fun _ _ => rfl) (fun _ _ => rfl)
    (b.modBimor fun x => { x with custodians := { k := pb p 4, keys := blockKeys p } }) .system ((pb p 6).testBit 0)
    (hold.getD 0 [], hold.getD 1 [], ofLe (hold.getD 2 []), ofLe (hold.getD 3 []))
  exact (bound_custodians _).trans (congrArg Bimor.custodians e)

theorem commissionBound_present (hold : List Bytes) : ((commissionBound b p hold).chain .system).present = true :=
  (bound_present _).trans (createChain_present _ .system _ _)

/-- The device where mailbox `m` waits for the system chain's first entry, whose sequence numbers are being reserved. -/
def awaitingEntry (u : Block) (m : Mbx) : Block := awaits (seqReserve u .system) m .firstEntry

theorem awaitingEntry_life (u : Block) : (awaitingEntry u m).life = u.life :=
  seqReserve_keeps (·.life) (fun _ _ _ => rfl) (fun _ _ => rfl) (fun _ _ => rfl) u .system

theorem awaitingEntry_bimor (u : Block) : (awaitingEntry u m).bimor.custodians = u.bimor.custodians ∧
    (awaitingEntry u m).bimor.binds = u.bimor.binds := by
  have e : (seqReserve u .system).bimor = u.bimor :=
    seqReserve_keeps (·.bimor) (fun _ _ _ => rfl) (fun _ _ => rfl) (fun _ _ => rfl) u .system
  rw [← e]
  exact ⟨rfl, rfl⟩

theorem awaitingEntry_present (u : Block) : ((awaitingEntry u m).chain .system).present = (u.chain .system).present := seqReserve_present u .system

theorem awaitingEntry_awaits (u : Block) : ((awaitingEntry u m).mbx (mbxNo m)).await = .firstEntry :=
  congrArg Mailbox.await (mbx_modMbx_self _ _ _)

/-- The device whose command of commissioning waits for its leaf. -/
def awaitsFirst (b : Block) (m : Mbx) (p : Bytes) (hold : List Bytes) : Block := awaitingEntry (commissionBound b p hold) m

theorem awaitsFirst_commissioned (hold : List Bytes) : (awaitsFirst b m p hold).life = 2 ∧
    (awaitsFirst b m p hold).bimor.custodians = { k := pb p 4, keys := blockKeys p } ∧ (awaitsFirst b m p hold).bimor.binds = [] ∧
    ((awaitsFirst b m p hold).chain .system).present = true ∧ ((awaitsFirst b m p hold).mbx (mbxNo m)).await = .firstEntry := by
  unfold awaitsFirst
  rw [awaitingEntry_life, (awaitingEntry_bimor _).1, (awaitingEntry_bimor _).2, awaitingEntry_present, awaitingEntry_awaits,
    commissionBound_custodians, commissionBound_present]
  exact ⟨rfl, rfl, rfl, rfl, rfl⟩

theorem settleMailbox_commissions {hold : List Bytes} (h : GoesOn b m 0x0801 1 p hold) : settleMailbox b m =
    (awaitsFirst (resumed b m) m p hold).modMbx (mbxNo m) fun x => { x with phase := .waiting, cont := x.cont + 1, hold := [] } := by
  have stage : stageOf m (resumed b m) 0x0801 1 p hold = commission2 m (resumed b m) p hold := rfl
  rw [settleMailbox_goesOn h (by decide), stage, commission2_eq]
  rfl

/-! ### UNLOCK and ZEROISE (R371, R380, R453) -/

theorem cmdUnlock_refused (hp : p = []) (h : mayUnlock b = false) : cmdUnlock m b p = .reply b 0x0103 0 [] :=
  (if_neg (not_not_intro hp)).trans (if_pos (by simp [h]))

theorem cmdUnlock_unlocks (hp : p = []) (h : mayUnlock b = true) : cmdUnlock m b p =
    .reply ((chainIds (setLifecycle b (lockedFrom b) 0)).foldl unlockChain (setLifecycle b (lockedFrom b) 0)) 0 0 [] :=
  (if_neg (not_not_intro hp)).trans (if_neg (by simp [h]))

theorem shaped_of {n : Nat} {o k : Nat} (hl : p.length = n) (hz : allZero (slice p o k) = true) : shaped p n [(o, k)] = true := by
  simp [shaped, hl, hz]

/-! ### Firmware (R389, R544) -/

theorem cmdFwStage_form (hl : 9 ≤ p.length) (hz : allZero (slice p 4 4) = true) : cmdFwStage m b p =
    if fwLimit < leField p 0 4 + (p.drop 8).length then no b stNoRoom
    else ok (b.modBimor fun x => { x with
      fwStage := x.fwStage.writeBytes (leField p 0 4) (p.drop 8), fwStaged := max x.fwStaged (leField p 0 4 + (p.drop 8).length) }) [] :=
  if_neg (by simp [hz]; omega)

/-- The image that a FW_COMMIT names, as a slot holds it. -/
def stagedSlot (b : Block) (p : Bytes) : FwSlot :=
  { header := (b.bimor.fwStage.readBytes 0 (leField p 0 4)).take 256, body := (b.bimor.fwStage.readBytes 0 (leField p 0 4)).drop 256 }

/-- The image that a FW_COMMIT names is the one that was staged. -/
def ImageStaged (b : Block) (p : Bytes) : Prop := shaped p 72 [(4, 4)] = true ∧ 257 ≤ leField p 0 4 ∧ leField p 0 4 ≤ b.bimor.fwStaged ∧
  shake256 (b.bimor.fwStage.readBytes 0 (leField p 0 4)) 64 = slice p 8 64

/-- The staged image verifies. -/
def ImageVerifies (b : Block) (p : Bytes) : Prop :=
  imageFailure b (stagedSlot b p).header (stagedSlot b p).body = none ∧ fwLen (stagedSlot b p).header = leField p 0 4 - 256

section
variable (hi : ImageStaged b p)
include hi

theorem image_wellFormed : ¬ ((!shaped p 72 [(4, 4)]) = true ∨ leField p 0 4 < 257 ∨ b.bimor.fwStaged < leField p 0 4) := by
  obtain ⟨hs, hn, hl, -⟩ := hi
  rintro (h | h | h)
  · exact not_misshaped hs h
  · omega
  · omega

theorem cmdFwCommit_fails (hv : ¬ ImageVerifies b p) : cmdFwCommit m b p = .reply b 0x0101 0 [] := by
  refine (if_neg (image_wellFormed hi)).trans ((if_neg (not_not_intro hi.2.2.2)).trans (if_pos ?_))
  by_contra hn
  rw [not_or, Bool.not_eq_true, Option.isSome_eq_false_iff, Option.isNone_iff_eq_none, not_not] at hn
  exact hv hn

theorem cmdFwCommit_commits (hv : ImageVerifies b p) : cmdFwCommit m b p = .reply { b with identity :=
    if b.identity.slot = 0 then { b.identity with slotB := stagedSlot b p } else { b.identity with slotA := stagedSlot b p } } 0 0 [] := by
  refine (if_neg (image_wellFormed hi)).trans ((if_neg (not_not_intro hi.2.2.2)).trans (if_neg ?_))
  rintro (h | h)
  · change (imageFailure b (stagedSlot b p).header (stagedSlot b p).body).isSome = true at h
    rw [hv.1] at h
    cases h
  · exact h hv.2

end

/-! ### Monitors and I/O (R431, R548, R550) -/

section
variable {mn mx wn wx : Nat} (hs : shaped p 4 [(3, 1)] = true)
include hs

theorem cmdTamperSet_unknown (hb : monitorBounds b (pb p 0) = none) : cmdTamperSet m b p = .reply b 0x0020 0 [] := by
  refine (if_neg (not_misshaped hs)).trans ?_
  rw [hb]
  rfl

variable (hb : monitorBounds b (pb p 0) = some (mn, mx, wn, wx))
include hb

theorem cmdTamperSet_bounded : cmdTamperSet m b p =
    if pb p 1 < mn ∨ mx < pb p 1 ∨ pb p 2 < wn ∨ wx < pb p 2 then no b stFormat else ok (monitorSet b (pb p 0) (pb p 1) (pb p 2)) [] := by
  refine (if_neg (not_misshaped hs)).trans ?_
  rw [hb]

theorem cmdTamperSet_outside (h : ¬ (mn ≤ pb p 1 ∧ pb p 1 ≤ mx ∧ wn ≤ pb p 2 ∧ pb p 2 ≤ wx)) :
    cmdTamperSet m b p = .reply b 0x0020 0 [] :=
  (cmdTamperSet_bounded hs hb).trans (if_pos (by omega))

theorem cmdTamperSet_sets (h : mn ≤ pb p 1 ∧ pb p 1 ≤ mx ∧ wn ≤ pb p 2 ∧ pb p 2 ≤ wx) :
    cmdTamperSet m b p = .reply (monitorSet b (pb p 0) (pb p 1) (pb p 2)) 0 0 [] :=
  (cmdTamperSet_bounded hs hb).trans (if_neg (by omega))

end

theorem cmdIoConfig_commits (hi : ioOk p = true) (hs : b.sump.st = .ready) : cmdIoConfig m b p = .wait (persist b m []) [] :=
  (if_pos hi).trans (needSump_ready hs _)

theorem cmdIoConfig_refused (hi : ioOk p = false) : cmdIoConfig m b p = .reply b 0x0020 0 [] := if_neg (Bool.eq_false_iff.mp hi)

theorem settleMailbox_configures {hold : List Bytes} (h : GoesOn b m 0x0900 1 p hold) :
    settleMailbox b m = finishCommand (applyIo (resumed b m) p) m 0 0 [] 0xFE := by
  have stage : stageOf m (resumed b m) 0x0900 1 p hold = .reply (applyIo (resumed b m) p) 0 0 [] := rfl
  exact settleMailbox_ends h (by decide) stage

/-! ### The scope that a failed command names (R352) -/

theorem entered_command (b : Block) (m : Mbx) (r : CmdRow) : ((entered b m r).mbx (mbxNo m)).command = (b.mbx (mbxNo m)).command := by
  unfold entered
  split
  · rw [mbx_modMbx_self]
    rfl
  · rfl

theorem namedScope_congr {x y : Mailbox} (b : Block) (h : x.command = y.command) : namedScope b x = namedScope b y := by
  unfold namedScope mbxCode reqAuthref
  rw [h]

/-- An authorisation changes the device by the AUTHREF that it consumes, or not at all. -/
theorem authorise_keeps (b : Block) (x : Mailbox) (r : CmdRow) : (authorise b x r).2 = b ∨ (authorise b x r).2 = consumed b x := by
  unfold authorise
  split
  · exact .inl rfl
  · split
    · split <;> exact .inl rfl
    · split
      · exact .inl rfl
      · extract_lets gone
        split
        · exact .inr rfl
        · split <;> exact .inr rfl

theorem authorise_life (b : Block) (x : Mailbox) (r : CmdRow) : (authorise b x r).2.life = b.life := by
  rcases authorise_keeps b x r with h | h <;> rw [h]
  rfl

/-- Where no custodians are enrolled an authorisation leaves the device as it is. -/
theorem authorise_uncommissioned {r : CmdRow} {x : Mailbox} (hl : b.life = 1) (ha : authorise t x r = (none, b)) : b = t := by
  have life := authorise_life t x r
  rw [ha, hl] at life
  have e : b = (authorise t x r).2 := by rw [ha]
  rw [e]
  unfold authorise
  split
  · rfl
  · rw [if_pos (by rw [← life]; rfl)]
    split <;> rfl

theorem completes_failed {code : Nat} {i : Instr} {f : Block → Bytes → Res} {scope : Nat} (h : Called s m code p b)
    (hi : exec i s = run s (liveSettle fun b => startCommand b m code f))
    (ht : startCommand s.blk m code f = settleRes m scope (f b p)) (hf : f b p = .reply b 0x0101 0 []) :
    Completes i s (settle (finishCommand b m 0x0101 0 [] scope)) :=
  completes_liveSettle hi h.live (by rw [ht, hf]; rfl)

/-- Settles O50: the commands of the lifecycle, of firmware, of the monitors and of the board's I/O. -/
theorem lifecycleCommands : Obligations.LifecycleCommands := by
  unfold Obligations.LifecycleCommands
  refine ⟨?_, ?_⟩
  · intro s m p b b1 key ed q g g2 writes hold target i quiet well report set drawn armed made proofs ready
    refine ⟨fun h hl => completes_answers h rfl (if_neg (not_not_intro hl)) (by decide),
      fun h hw ht hl => ⟨fun hn => completes_answers h rfl ((cmdLifecycleSet_provisions hw ht hl).trans (provision_refused hn)) (by decide),
        fun hq ha hb hd => completes_answers h rfl ((cmdLifecycleSet_provisions hw ht hl).trans (provision_unseeded hq ha hb hd)) (by decide),
        fun hq ha hb hd => completes_answers h rfl ((cmdLifecycleSet_provisions hw ht hl).trans (provision_draws hq ha hb hd)) (by decide)⟩,
      fun h hw ht hl => completes_answers h rfl (cmdLifecycleSet_zeroises hw ht hl) (by decide),
      fun h hw ht hl hc => completes_answers h rfl (cmdLifecycleSet_starts hw ht hl hc) (by decide),
      fun h hw ht hl => completes_answers h rfl (cmdLifecycleSet_ends hw ht hl) (by decide),
      fun h hw ht => completes_answers h rfl (cmdLifecycleSet_unknown hw ht) (by decide),
      fun h ht hl hproofs hready hn => ?_,
      fun h ht hl h8 hk hz hq hp => completes_failed h rfl (called_unconsumed h (fun _ _ _ _ => authorise_uncommissioned hl) _)
        ((cmdLifecycleSet_commissions ht hl h8 hk hz).trans (commission_unproved hq hp)),
      fun h => ⟨awaitsFirst (resumed b m) m p hold, settleMailbox_commissions h, awaitsFirst_commissioned hold⟩,
      fun h hp => ⟨fun hu => completes_answers h rfl (cmdUnlock_refused hp hu) (by decide),
        fun hu => completes_answers h rfl (cmdUnlock_unlocks hp hu) (by decide)⟩,
      fun h hl hz => completes_answers h rfl (if_neg (not_misshaped (shaped_of hl hz))) (by decide)⟩
    obtain ⟨h8, hk, hz, hp⟩ := hproofs
    obtain ⟨hq, hr, hd⟩ := hready
    exact completes_waits h rfl ((cmdLifecycleSet_commissions ht hl h8 hk hz).trans (commission_draws hl hq hp hr hd hn))
  · intro s m p b hold mn mx wn wx off d n x slot image verifies within t levels
    refine ⟨fun h hl hz => ⟨fun hn => completes_answers h rfl ((cmdFwStage_form hl hz).trans (if_neg (Nat.not_lt.mpr hn))) (by decide),
        fun hn => completes_answers h rfl ((cmdFwStage_form hl hz).trans (if_pos hn)) (by decide)⟩,
      fun h hi => ⟨fun hv h0 => completes_answers h rfl ((cmdFwCommit_commits hi hv).trans (by rw [if_pos h0]; rfl)) (by decide),
        fun hv h0 => completes_answers h rfl ((cmdFwCommit_commits hi hv).trans (by rw [if_neg h0]; rfl)) (by decide),
        fun r hr hv => ?_⟩,
      fun h hs => ⟨fun hb => completes_answers h rfl (cmdTamperSet_unknown hs hb) (by decide),
        fun hb hn => completes_answers h rfl (cmdTamperSet_outside hs hb hn) (by decide),
        fun hb hn => completes_answers h rfl (cmdTamperSet_sets hs hb hn) (by decide)⟩,
      fun h hl hz => completes_answers h rfl (if_pos (shaped_of hl hz)) (by decide),
      fun h hi hs => completes_waits h rfl (cmdIoConfig_commits hi hs),
      fun h hi => completes_answers h rfl (cmdIoConfig_refused hi) (by decide),
      settleMailbox_configures,
      fun h hp => completes_answers h rfl (if_neg (not_not_intro hp)) (by decide)⟩
    obtain ⟨r', hr', -, e⟩ := called_named h (cmdFwCommit m)
    obtain rfl : r = r' := Option.some.inj (hr.symm.trans hr')
    rw [namedScope_congr _ (entered_command _ _ _)] at e
    exact completes_failed h rfl e (cmdFwCommit_fails hi hv)

end Sys2Proof.Machine
end

section
/-! PROOFS. A ring referee's handshake at its timeout, and with it the refutation of the statement on the pair commands (R11, R477, log entry 121). -/
namespace Sys2Proof.Machine

/-- A referee's entry for a new pair: the member on node 1 has sent its PAIR_JOIN and been answered, the one on node 2 has not. -/
def halfJoined : RefPair :=
  { pairId := [], activeNode := 1, standbyNode := 2, claim := 0, holder := 0, missA := 0, missS := 0, failedA := false, failedS := false
    sSync := false, keyA := [], keyS := [], joinA := some (zeros 210), joinS := none, scalarA := zeros 56, scalarS := [], rejoin := false }

/-- A device that serves as the referee of that pair, and is of no pair itself. -/
def halfServed : Block :=
  { Block.reset with
    life := 3, pmc := { Pmc.reset with on := 0xFFFFFF, booted := true, ready := true, perstN := false }
    kerard := { Kerard.reset with served := [(1, halfJoined)] } }

/-- The referee drops the entry at the timeout, for the handshake is over. -/
theorem joinTimeout_halfServed : joinTimeout halfServed = halfServed.modKerard Kerard.dropServed := by
  unfold joinTimeout
  exact if_neg (by decide)

/-- The entry stays or goes, whatever else goes on. -/
theorem halfServed_entries : (settle halfServed).kerard.served.length = 1 ∧
    (settle (halfServed.modKerard Kerard.dropServed)).kerard.served.length = 0 := by decide +kernel

/-- Refutes O49: a PAIR_JOIN_TIMEOUT of a device that is of no handshake of its own is said to leave it as it was, but a referee whose second member's
PAIR_JOIN has not come drops the entry and its scalar (R11, R477, log entry 121): one entry is served before, and none after. -/
theorem not_pairCommands : ¬ Obligations.PairCommands := by
  unfold Obligations.PairCommands
  rintro ⟨-, h⟩
  obtain ⟨-, -, -, -, -, -, -, -, idle, -⟩ := h { blk := halfServed, pending := [] } .ka [] [] .peer halfServed 0 false
  have claimed := idle (by decide) (.inr rfl)
  have actual : Completes .pairJoinTimeout { blk := halfServed, pending := [] } (settle (halfServed.modKerard Kerard.dropServed)) :=
    completes_liveSettle rfl (by decide) joinTimeout_halfServed
  have same := congrArg (fun b => b.kerard.served.length) (claimed.unique actual)
  simp only [halfServed_entries] at same
  exact absurd same (by decide)

end Sys2Proof.Machine
end

section
/-! PROOFS. What goes on by itself leaves the power state as it is: no function on its way changes `pmc`.
A lemma that holds by unfolding is proved `by rfl`: `simp` then also uses it for the step of a fold (`foldl_pmc`). -/
namespace Sys2Proof.Machine

variable {b : Block}

/-! ### Choices, folds and results -/

/-- The device that a command's stage leaves. -/
def Res.device : Res → Block
  | .reply b _ _ _ => b
  | .wait b _ => b

@[simp] theorem reply_device (b : Block) (status detail : Nat) (p : Bytes) : (Res.reply b status detail p).device = b := rfl

@[simp] theorem wait_device (b : Block) (hold : List Bytes) : (Res.wait b hold).device = b := rfl

@[simp] theorem no_device (b : Block) (status : Nat) : (no b status).device = b := rfl

@[simp] theorem ok_device (b : Block) (p : Bytes) : (ok b p).device = b := rfl

@[simp] theorem ite_pmc (q : Prop) [Decidable q] (b t : Block) : (if q then b else t).pmc = if q then b.pmc else t.pmc := apply_ite (·.pmc) q b t

@[simp] theorem ite_device (q : Prop) [Decidable q] (r x : Res) : (if q then r else x).device = if q then r.device else x.device :=
  apply_ite Res.device q r x

@[simp] theorem foldl_pmc {α : Type} {f : Block → α → Block} (hf : ∀ b x, (f b x).pmc = b.pmc) (l : List α) (b : Block) :
    (l.foldl f b).pmc = b.pmc := foldl_keeps (·.pmc) hf l b

/-! ### Items, jobs and their leaves -/

@[simp] theorem releaseSlots_pmc (c : Nat) (creates : List NewRecord) : (releaseSlots b c creates).pmc = b.pmc := by rfl

@[simp] theorem recordWait_pmc (n : Nat) : (recordWait b n).pmc = b.pmc := by
  unfold recordWait
  split <;> simp

@[simp] theorem endRefs_pmc (r : Resolved) : (endRefs b r).pmc = b.pmc := by
  unfold endRefs
  refine foldl_pmc (fun b g => ?_) _ b
  dsimp only
  split
  · split <;> rfl
  · split <;> rfl

@[simp] theorem endJobRefs_pmc (j : Job) : (endJobRefs b j).pmc = b.pmc := by
  unfold endJobRefs
  dsimp only
  repeat' split
  all_goals simp

@[simp] theorem startClearing_pmc (k : Nat) : (startClearing b k).pmc = b.pmc := by rfl

@[simp] theorem dropEntry_pmc (i : ChainId) : (dropEntry b i).pmc = b.pmc := by rfl

@[simp] theorem dropItemLeaf_pmc (n : Nat) (i : Item) : (dropItemLeaf b n i).pmc = b.pmc := by
  unfold dropItemLeaf
  dsimp only
  repeat' split
  all_goals simp

@[simp] theorem queueLeaf_pmc (i : ChainId) (r : LeafReq) : (queueLeaf b i r).pmc = b.pmc := by rfl

@[simp] theorem flowHash_pmc (slots : Nat) : (b.flowHash slots).pmc = b.pmc := by simp [Block.flowHash]

@[simp] theorem takeEntry_pmc (i : ChainId) : (takeEntry b i).pmc = b.pmc := by rfl

@[simp] theorem cacheNodes_pmc (nodes : List (Nat × Bytes)) : (cacheNodes b nodes).pmc = b.pmc := by rfl

@[simp] theorem sumpFailure_pmc (i level kind : Nat) : (sumpFailure b i level kind).pmc = b.pmc := by simp [sumpFailure]

@[simp] theorem readSlots_pmc (ret : DdrReturn) (gidx : Nat) : (readSlots b ret gidx).2.pmc = b.pmc := by
  unfold readSlots
  split
  · dsimp only
    split
    · simp
    · refine (foldl_keeps (fun acc : Except (Nat × Nat) (List (Bytes × Nat)) × Block => acc.2.pmc) (fun acc k => ?_) _ _).trans (cacheNodes_pmc _)
      split
      · split <;> simp
      · rfl
  · rfl
  · simp

@[simp] theorem passes_pmc (source : SpSource) (payer n : Nat) : (b.passes source payer n).pmc = b.pmc := by simp [Block.passes]

@[simp] theorem sealPasses_pmc (payer n : Nat) : (b.sealPasses payer n).pmc = b.pmc := by simp [Block.sealPasses]

@[simp] theorem readWhole_pmc (ret : DdrReturn) (gidx : Nat) : (readWhole b ret gidx).2.pmc = b.pmc := by
  have read := readSlots_pmc (b := b) ret gidx
  unfold readWhole
  split
  next h =>
    rw [h] at read
    simpa using read
  next => exact read

@[simp] theorem auditKeyReads_pmc (i : ChainId) : (auditKeyReads b i).pmc = b.pmc := by
  unfold auditKeyReads
  split <;> simp

@[simp] theorem closeLeaf_pmc (n : Nat) : (closeLeaf b n).pmc = b.pmc := by
  unfold closeLeaf
  dsimp only
  repeat' split
  all_goals simp

@[simp] theorem closeItem_pmc (n : Nat) (o : Outcome) : (closeItem b n o).pmc = b.pmc := by
  unfold closeItem
  dsimp only
  repeat' split
  all_goals simp

@[simp] theorem closeTicket_pmc (k t : Nat) (o : Outcome) (outLen : Nat) : (closeTicket b k t o outLen).pmc = b.pmc := by simp [closeTicket]

@[simp] theorem jobCommitted_pmc (r : Requester) (writes : List NewRecord) (status : Nat) : (jobCommitted b r writes status).pmc = b.pmc := by
  unfold jobCommitted
  dsimp only
  repeat' split
  all_goals simp

/-! ### The key cache and the chains' headers -/

@[simp] theorem failMailbox_pmc (m : Mbx) (s : Nat) : (failMailbox b m s).pmc = b.pmc := by rfl

@[simp] theorem wakeCounts_pmc (gidx : Nat) : (wakeCounts b gidx).pmc = b.pmc := by simp [wakeCounts]

@[simp] theorem modPlace_pmc (p : Place) (f : Slot → Slot) : (modPlace b p f).pmc = b.pmc := by
  unfold modPlace
  split <;> simp

@[simp] theorem modSlot_pmc (gidx : Nat) (f : Slot → Slot) : (modSlot b gidx f).pmc = b.pmc := by
  unfold modSlot
  split <;> simp

@[simp] theorem counterReserved_pmc (gidx epoch count : Nat) : (counterReserved b gidx epoch count).pmc = b.pmc := by simp [counterReserved]

theorem askSignature_pmc (i : ChainId) (pos : Nat) (pq : Bool) {t : Block} (h : askSignature b i pos pq = some t) : t.pmc = b.pmc := by
  unfold askSignature at h
  split at h
  · cases h
    rfl
  · cases h

@[simp] theorem modHeader_pmc (i : ChainId) (pos : Nat) (f : Header → Header) : (modHeader b i pos f).pmc = b.pmc := by rfl

@[simp] theorem askHeader_pmc (i : ChainId) (h : Header) : (askHeader b i h).pmc = b.pmc :=
  askHeader_keeps (·.pmc) (fun _ _ _ => rfl) (fun _ _ => rfl) b i h

@[simp] theorem pumpHeaders_pmc (i : ChainId) : (pumpHeaders b i).pmc = b.pmc := by simp [pumpHeaders]

@[simp] theorem makeHeader_pmc (i : ChainId) (h : HeaderBody) (nextSeq : Nat) : (makeHeader b i h nextSeq).pmc = b.pmc := by simp [makeHeader]

@[simp] theorem endBatch_pmc (i : ChainId) (close : Nat) : (endBatch b i close).pmc = b.pmc := by
  unfold endBatch
  split <;> simp

@[simp] theorem endStall_pmc (i : ChainId) (w : Waiter) : (endStall b i w).pmc = b.pmc := by
  unfold endStall
  dsimp only
  split <;> simp

@[simp] theorem seqReserved_pmc (i : ChainId) (epoch count : Nat) : (seqReserved b i epoch count).pmc = b.pmc := by simp [seqReserved]

@[simp] theorem sumpQueue_pmc (r : SumpReq) : (b.sumpQueue r).pmc = b.pmc := by rfl

/-! ### Ferrules, and the frames of a pair -/

@[simp] theorem transportWrite_pmc (cls : Option Nat) (line : Bytes) (mark : Nat) : (transportWrite b cls line mark).pmc = b.pmc := by rfl

@[simp] theorem transportReserve_pmc : (transportReserve b).pmc = b.pmc := by simp [transportReserve]

@[simp] theorem fresh_pmc (n : Nat) : (Block.fresh b n).2.pmc = b.pmc := by rfl

@[simp] theorem transportIv_pmc : (transportIv b).2.pmc = b.pmc := by simp [transportIv]

@[simp] theorem modKSeq_pmc (e : KEnd) (f : FSeq → FSeq) : (modKSeq b e f).pmc = b.pmc := by
  unfold modKSeq
  split <;> simp

@[simp] theorem ferruleEscalate_pmc (m : Nat) (who : Option Nat) : (ferruleEscalate b m who).2.pmc = b.pmc := by
  unfold ferruleEscalate
  dsimp only
  repeat' split
  all_goals simp

@[simp] theorem ferruleRecord_pmc (m code : Nat) (cls : RClass) (who : Nat) : (ferruleRecord b m code cls who).pmc = b.pmc := by rfl

@[simp] theorem ferruleViolation_pmc (m : Nat) (k : AccessKind) (addr : Nat) (who : Option Nat) :
    (ferruleViolation b m k addr who).pmc = b.pmc := by
  unfold ferruleViolation
  dsimp only
  split <;> simp

@[simp] theorem ferruleAccess_pmc (m : Nat) (k : AccessKind) (addr : Nat) (who : Option Nat) : (ferruleAccess b m k addr who).2.pmc = b.pmc := by
  unfold ferruleAccess
  split <;> simp

@[simp] theorem dmaOut_pmc (m : Nat) (who : Option Nat) (d : Bytes) : (dmaOut b m who d).2.pmc = b.pmc := by
  have access := ferruleAccess_pmc (b := b) m .read (dmaAddress m) who
  unfold dmaOut
  split
  all_goals
    next h =>
      rw [h] at access
      exact access

@[simp] theorem kEmit_pmc (p : KPort) (f : Bytes) : (kEmit b p f).pmc = b.pmc := by simp [kEmit]

@[simp] theorem transmit_pmc (m : MirrorOut) (retry : Bool) : (transmit b m retry).pmc = b.pmc := by simp [transmit]

@[simp] theorem mirrorSend_pmc (m : MirrorOut) : (mirrorSend b m).pmc = b.pmc := by simp [mirrorSend]

@[simp] theorem mirrorHeaders_pmc (i : ChainId) : (mirrorHeaders b i).pmc = b.pmc := by simp [mirrorHeaders]

@[simp] theorem chainWrite_pmc (i : ChainId) (waiter : Waiter) : (chainWrite b i waiter).pmc = b.pmc := by rfl

@[simp] theorem askRecord_pmc (i : ChainId) : (askRecord b i).pmc = b.pmc := by
  unfold askRecord
  dsimp only
  split <;> simp

@[simp] theorem headerRecorded_pmc (i : ChainId) (pos : Nat) : (headerRecorded b i pos).pmc = b.pmc := by
  unfold headerRecorded
  split <;> simp

/-! ### Pins, set-ups and waiters -/

@[simp] theorem markPinned_pmc (gidx w : Nat) (on : Bool) : (markPinned b gidx w on).pmc = b.pmc := by simp [markPinned]

@[simp] theorem pinRecord_pmc (gidx w : Nat) : (pinRecord b gidx w).pmc = b.pmc := by simp [pinRecord]

@[simp] theorem pinOwn_pmc (gidx w : Nat) : (pinOwn b gidx w).pmc = b.pmc := by simp [pinOwn]

@[simp] theorem pinAuditKeys_pmc (i : ChainId) : (pinAuditKeys b i).pmc = b.pmc := by
  unfold pinAuditKeys
  split <;> simp

@[simp] theorem auditKeysStand_pmc (i : ChainId) : (auditKeysStand b i).pmc = b.pmc := by simp [auditKeysStand]

@[simp] theorem wipeChamberSets_pmc (c : Nat) : (wipeChamberSets b c).pmc = b.pmc := by rfl

@[simp] theorem modRing_pmc (i : ChainId) (f : Ring → Ring) : (modRing b i f).pmc = b.pmc := by rfl

@[simp] theorem installRecipe_pmc (r : Recipe) (words : List Nat) : (installRecipe b r words).pmc = b.pmc := by rfl

@[simp] theorem removeRecipe_pmc (id : Nat) : (removeRecipe b id).pmc = b.pmc := by rfl

@[simp] theorem loadImage_pmc (x : Bytes) : (loadImage b x).pmc = b.pmc := by rfl

@[simp] theorem applySetup_pmc (s : Setup) : (applySetup b s).pmc = b.pmc := by
  unfold applySetup
  split <;> simp

@[simp] theorem kSend_pmc (e : KEnd) (kind : Nat) (payload : Bytes) (both : Bool) : (kSend b e kind payload both).pmc = b.pmc := by simp [kSend]

@[simp] theorem mirrorAckSend_pmc (akind scope no : Nat) : (mirrorAckSend b akind scope no).pmc = b.pmc := by simp [mirrorAckSend]

@[simp] theorem kPair_pmc (f : Kerard → Kerard) : (kPair b f).pmc = b.pmc := by
  unfold kPair
  dsimp only
  split <;> simp

@[simp] theorem mirrorApplied_pmc (n : Nat) : (mirrorApplied b n).pmc = b.pmc := by
  unfold mirrorApplied
  dsimp only
  repeat' split
  all_goals simp

@[simp] theorem rangeErased_pmc (c next : Nat) : (rangeErased b c next).pmc = b.pmc := by rfl

@[simp] theorem notify_pmc (w : Waiter) (status : Nat) : (notify b w status).pmc = b.pmc := by
  unfold notify
  split <;> simp

@[simp] theorem drainReleased_pmc : (drainReleased b).pmc = b.pmc := by simp [drainReleased]

/-! ### A command's end -/

@[simp] theorem authFailed_pmc (i : Nat) (x : Mailbox) (scope : Nat) : (authFailed b i x scope).pmc = b.pmc := by rfl

@[simp] theorem headGallery_pmc (payer : Nat) (lattice : Bool) : (b.headGallery payer lattice).pmc = b.pmc := by rfl

@[simp] theorem headHash_pmc (slots : Nat) : (b.headHash slots).pmc = b.pmc := by rfl

@[simp] theorem chargeCommand_pmc (code : Nat) (p : Bytes) (leaf : Bool) : (chargeCommand b code p leaf).pmc = b.pmc := by simp [chargeCommand]

@[simp] theorem finishCommand_pmc (m : Mbx) (status detail : Nat) (payload : Bytes) (scope : Nat) :
    (finishCommand b m status detail payload scope).pmc = b.pmc := by simp [finishCommand]

@[simp] theorem undoCommand_pmc (x : Mailbox) : (undoCommand b x).pmc = b.pmc := by simp [undoCommand]

@[simp] theorem cancelAuths_pmc (f : AuthRef → Bool) : (cancelAuths b f).pmc = b.pmc := by rfl

@[simp] theorem authorise_pmc (x : Mailbox) (r : CmdRow) : (authorise b x r).2.pmc = b.pmc := by
  unfold authorise
  dsimp only
  repeat' split
  all_goals simp

@[simp] theorem settleRes_pmc (m : Mbx) (scope : Nat) (r : Res) : (settleRes m scope r).pmc = r.device.pmc := by
  unfold settleRes
  split <;> simp

theorem execCommand_pmc (m : Mbx) (r : CmdRow) (run : Block → Bytes → Res) (h : ∀ b p, (run b p).device.pmc = b.pmc) :
    (execCommand b m r run).pmc = b.pmc := by
  have kept := authorise_pmc (b := b) (b.mbx (mbxNo m)) r
  unfold execCommand
  dsimp only
  split
  all_goals
    next e =>
      rw [e] at kept
      simpa [h] using kept

/-! ### The commands that a standby runs -/

@[simp] theorem cmdAuthSubmit_pmc (m : Mbx) (p : Bytes) : (cmdAuthSubmit m b p).device.pmc = b.pmc := by
  unfold cmdAuthSubmit
  split <;> simp

@[simp] theorem cmdAuthCancel_pmc (m : Mbx) (p : Bytes) : (cmdAuthCancel m b p).device.pmc = b.pmc := by
  unfold cmdAuthCancel
  split
  · rfl
  · split <;> rfl

theorem needSump_pmc (r : Res) (h : r.device.pmc = b.pmc) : (needSump b r).device.pmc = b.pmc := by
  unfold needSump
  split
  · rfl
  · exact h

@[simp] theorem systemRecord_pmc : (systemRecord b).2.pmc = b.pmc := by rfl

@[simp] theorem askCommit_pmc (m : Mbx) (writes : List NewRecord) : (askCommit b m writes).pmc = b.pmc := by rfl

@[simp] theorem persist_pmc (m : Mbx) (writes : List NewRecord) : (persist b m writes).pmc = b.pmc := by rfl

@[simp] theorem sysWrite_pmc (waiter : Waiter) : (sysWrite b waiter).pmc = b.pmc := by rfl

@[simp] theorem unpair_pmc : (unpair b).pmc = b.pmc := by simp [unpair]

@[simp] theorem dissolveHeld_pmc : (dissolveHeld b).pmc = b.pmc := by simp [dissolveHeld]

@[simp] theorem freeChamberCounters_pmc (c : Nat) : (freeChamberCounters b c).pmc = b.pmc := by rfl

@[simp] theorem dropChamber_pmc (c : Nat) : (dropChamber b c).pmc = b.pmc := by rfl

@[simp] theorem forgetMiss_pmc (r : Requester) : (forgetMiss b r).pmc = b.pmc := by rfl

@[simp] theorem galleryWithdraw_pmc (r : Requester) : (galleryWithdraw b r).2.pmc = b.pmc := by
  unfold galleryWithdraw
  dsimp only
  split <;> simp

@[simp] theorem augerWithdraw_pmc (r : Requester) : (augerWithdraw b r).pmc = b.pmc := by rfl

@[simp] theorem spindleWithdraw_pmc (r : Requester) : (spindleWithdraw b r).pmc = b.pmc := by rfl

@[simp] theorem withdraw_pmc (r : Requester) : (withdraw b r).pmc = b.pmc := by simp [withdraw]

@[simp] theorem abortTicket_pmc (k t : Nat) : (abortTicket b k t).pmc = b.pmc := by
  unfold abortTicket
  dsimp only
  repeat' split
  all_goals simp

@[simp] theorem stopCore_pmc (k : Nat) : (stopCore b k).pmc = b.pmc := by
  unfold stopCore
  refine (startClearing_pmc k).trans ?_
  exact foldl_pmc (fun t n => abortTicket_pmc k n) _ b

@[simp] theorem stopItem_pmc (n : Nat) (i : Item) : (stopItem b n i).pmc = b.pmc := by
  unfold stopItem
  dsimp only
  repeat' split
  all_goals simp

@[simp] theorem removeItem_pmc (n : Nat) : (removeItem b n).pmc = b.pmc := by rfl

@[simp] theorem discardItem_pmc (n : Nat) : (discardItem b n).pmc = b.pmc := by
  unfold discardItem
  split <;> simp

@[simp] theorem closeBatch_pmc (i : ChainId) (close : Nat) : (closeBatch b i close).pmc = b.pmc := by simp [closeBatch]

@[simp] theorem abortSignatures_pmc (i : ChainId) : (abortSignatures b i).pmc = b.pmc := by
  unfold abortSignatures
  refine (foldl_pmc (fun t q => ?_) _ _).trans rfl
  split <;> rfl

@[simp] theorem beginReset_pmc (c : Nat) : (beginReset b c).pmc = b.pmc := by simp [beginReset]

@[simp] theorem dropMirrored_pmc : (dropMirrored b).pmc = b.pmc := by simp [dropMirrored]

theorem drawOne_pmc {b t : Block} {d : Bytes} (n : Nat) (h : drawOne b n = some (d, t)) : t.pmc = b.pmc := by
  unfold drawOne at h
  split at h
  · cases h
    rfl
  · cases h

theorem drawMany_pmc {fuel n : Nat} {b t : Block} {d : Bytes} (h : drawMany fuel b n = some (d, t)) : t.pmc = b.pmc := by
  induction fuel generalizing b n d t with
  | zero =>
    cases h
    rfl
  | succ fuel ih =>
    unfold drawMany at h
    split at h
    · cases h
      rfl
    · split at h
      · cases h
      next one =>
        split at h
        · cases h
        next many =>
          cases h
          exact (ih many).trans (drawOne_pmc _ one)

theorem draw_pmc (n : Nat) {d : Bytes} {t : Block} (h : Block.draw b n = some (d, t)) : t.pmc = b.pmc := by
  unfold Block.draw at h
  split at h
  · cases h
    rfl
  · exact drawMany_pmc h

theorem newAuditKeys_pmc (c : Nat) (pq : Bool) {d : Bytes × Bytes × Nat × Nat × List NewRecord} {t : Block}
    (h : newAuditKeys b c pq = .ok (d, t)) : t.pmc = b.pmc := by
  unfold newAuditKeys at h
  split at h
  · cases h
  next first =>
    split at h
    · cases h
    · dsimp only at h
      split at h
      · cases h
        exact draw_pmc _ first
      · split at h
        · cases h
        next second =>
          split at h
          · cases h
          · cases h
            exact (draw_pmc _ second).trans (draw_pmc _ first)

@[simp] theorem holdAuditKeys_pmc (i : ChainId) (pq : Bool) (keys : Bytes × Bytes × Nat × Nat) : (holdAuditKeys b i pq keys).pmc = b.pmc := by
  unfold holdAuditKeys
  split <;> simp

@[simp] theorem emptyBatch_pmc (i : ChainId) (kind first gapFirst gapCount nextSeq : Nat) :
    (emptyBatch b i kind first gapFirst gapCount nextSeq).pmc = b.pmc := by simp [emptyBatch]

@[simp] theorem createChain_pmc (i : ChainId) (pq : Bool) (keys : Bytes × Bytes × Nat × Nat) :
    (createChain b i pq keys).pmc = b.pmc := by simp [createChain]

theorem newSystemChain_pmc (pq : Bool) {d : List NewRecord} {t : Block} (h : newSystemChain b pq = some (t, d)) : t.pmc = b.pmc := by
  unfold newSystemChain at h
  split at h
  · cases h
  next keys =>
    cases h
    exact (createChain_pmc _ _ _).trans (newAuditKeys_pmc _ _ keys)

@[simp] theorem leavePair_pmc : (leavePair b).pmc = b.pmc := by
  unfold leavePair
  dsimp only
  split
  next chain => simp [newSystemChain_pmc _ chain]
  next => simp

@[simp] theorem cmdPairDissolve_pmc (m : Mbx) (p : Bytes) : (cmdPairDissolve m b p).device.pmc = b.pmc := by
  unfold cmdPairDissolve
  split
  · rfl
  · split
    · rfl
    · refine needSump_pmc _ ?_
      repeat' split
      all_goals simp

@[simp] theorem resyncHeaders_pmc : (resyncHeaders b).pmc = b.pmc := by simp [resyncHeaders]

@[simp] theorem resyncStart_pmc : (resyncStart b).pmc = b.pmc := by simp [resyncStart]

@[simp] theorem firstClaim_pmc (c : Nat) : (firstClaim b c).pmc = b.pmc := by
  unfold firstClaim
  dsimp only
  split <;> simp

@[simp] theorem claimRises_pmc (i : ChainId) (newClaim : Nat) : (claimRises b i newClaim).pmc = b.pmc := by simp [claimRises]

@[simp] theorem claimAgain_pmc (c : Nat) : (claimAgain b c).pmc = b.pmc := by simp [claimAgain]

@[simp] theorem emptyQueues_pmc : (emptyQueues b).pmc = b.pmc := by simp [emptyQueues]

@[simp] theorem backToRecord_pmc (i : ChainId) : (backToRecord b i).pmc = b.pmc := by rfl

@[simp] theorem resumeWithGap_pmc (i : ChainId) : (resumeWithGap b i).pmc = b.pmc := by simp [resumeWithGap]

@[simp] theorem loadKeyFile_pmc : (loadKeyFile b).pmc = b.pmc := by
  unfold loadKeyFile
  dsimp only
  split
  · rfl
  · refine foldl_pmc (fun t g => ?_) _ b
    have read := readWhole_pmc (b := t) .faithful g
    split
    all_goals
      next e =>
        rw [e] at read
        exact read

@[simp] theorem takeOver_pmc (c : Nat) : (takeOver b c).pmc = b.pmc := by
  unfold takeOver
  extract_lets b1 b2 b3 b4
  have kept : b4.pmc = b.pmc := by
    refine (foldl_pmc (fun t i => ?_) _ _).trans (by simp [b1, b2, b3])
    dsimp only
    split <;> simp
  split <;> simp [kept]

@[simp] theorem gainClaim_pmc (c : Nat) : (gainClaim b c).pmc = b.pmc := by simp [gainClaim]

@[simp] theorem joinAnswered_pmc : (joinAnswered b).pmc = b.pmc := by
  unfold joinAnswered
  split <;> simp

@[simp] theorem abandonReads_pmc (c : Nat) : (abandonReads b c).pmc = b.pmc := by
  unfold abandonReads
  refine foldl_pmc (fun t g => ?_) _ b
  simp

@[simp] theorem discardUndispatched_pmc : (discardUndispatched b).pmc = b.pmc := by simp [discardUndispatched]

@[simp] theorem cutCommands_pmc (status : Nat) (spared : Mailbox → Bool) : (cutCommands b status spared).pmc = b.pmc := by
  unfold cutCommands
  refine foldl_pmc (fun t i => ?_) _ b
  dsimp only
  split <;> rfl

@[simp] theorem stopServing_pmc : (stopServing b).pmc = b.pmc := by simp [stopServing]

@[simp] theorem learnClaim_pmc (c : Nat) : (learnClaim b c).pmc = b.pmc := by simp [learnClaim]

@[simp] theorem cmdClaimGrant_pmc (m : Mbx) (p : Bytes) : (cmdClaimGrant m b p).device.pmc = b.pmc := by
  unfold cmdClaimGrant
  dsimp only
  repeat' split
  all_goals simp

@[simp] theorem cmdDeviceReset_pmc (m : Mbx) (p : Bytes) : (cmdDeviceReset m b p).device.pmc = b.pmc := by simp [cmdDeviceReset]

@[simp] theorem standbyRun_pmc (code : Nat) (m : Mbx) (p : Bytes) : (standbyRun code m b p).device.pmc = b.pmc := by
  unfold standbyRun
  repeat' split
  all_goals simp

/-! ### The later stages of the other commands -/

@[simp] theorem cmdChamberCreate2_pmc (m : Mbx) (p : Bytes) (hold : List Bytes) :
    (cmdChamberCreate2 m b p hold).device.pmc = b.pmc := by simp [cmdChamberCreate2]

@[simp] theorem cmdChamberDelete2_pmc (m : Mbx) (p : Bytes) : (cmdChamberDelete2 m b p).device.pmc = b.pmc := by rfl

@[simp] theorem cmdChamberDelete3_pmc (m : Mbx) (p : Bytes) : (cmdChamberDelete3 m b p).device.pmc = b.pmc := by rfl

@[simp] theorem awaits_pmc (m : Mbx) (a : MbxAwait) : (awaits b m a).pmc = b.pmc := by rfl

@[simp] theorem quiesceItem_pmc (n : Nat) : (quiesceItem b n).pmc = b.pmc := by
  unfold quiesceItem
  dsimp only
  repeat' split
  all_goals simp

@[simp] theorem zeroDeficits_pmc (c : Nat) : (zeroDeficits b c).pmc = b.pmc := by
  unfold zeroDeficits
  refine foldl_pmc (fun t g => ?_) _ b
  split <;> rfl

@[simp] theorem quiesceChamber_pmc (c reason : Nat) (spare : Option Nat) : (quiesceChamber b c reason spare).pmc = b.pmc := by simp [quiesceChamber]

@[simp] theorem cmdChamberQuiesce2_pmc (m : Mbx) (p : Bytes) (hold : List Bytes) :
    (cmdChamberQuiesce2 m b p hold).device.pmc = b.pmc := by simp [cmdChamberQuiesce2]

@[simp] theorem cmdChamberConfig2_pmc (m : Mbx) (p : Bytes) : (cmdChamberConfig2 m b p).device.pmc = b.pmc := by simp [cmdChamberConfig2]

@[simp] theorem cmdChamberPinpol2_pmc (m : Mbx) (p : Bytes) : (cmdChamberPinpol2 m b p).device.pmc = b.pmc := by rfl

@[simp] theorem cmdDectabLoad2_pmc (m : Mbx) (p : Bytes) : (cmdDectabLoad2 m b p).device.pmc = b.pmc := by rfl

@[simp] theorem cmdCqCreate2_pmc (m : Mbx) (p : Bytes) : (cmdCqCreate2 m b p).device.pmc = b.pmc := by rfl

@[simp] theorem cmdSqCreate2_pmc (m : Mbx) (p : Bytes) : (cmdSqCreate2 m b p).device.pmc = b.pmc := by rfl

@[simp] theorem cmdQueueDelete2_pmc (m : Mbx) (p : Bytes) : (cmdQueueDelete2 m b p).device.pmc = b.pmc := by rfl

@[simp] theorem cmdQueueDelete3_pmc (m : Mbx) (p : Bytes) : (cmdQueueDelete3 m b p).device.pmc = b.pmc := by rfl

theorem continueChamber_pmc (m : Mbx) (code cont : Nat) (p : Bytes) (hold : List Bytes) {r : Res}
    (h : continueChamber m b code cont p hold = some r) : r.device.pmc = b.pmc := by
  unfold continueChamber at h
  repeat' split at h
  all_goals cases h
  all_goals simp

@[simp] theorem answerHeld_pmc (hold : List Bytes) : (answerHeld b hold).device.pmc = b.pmc := by rfl

@[simp] theorem unpinRecord_pmc (gidx w : Nat) : (unpinRecord b gidx w).pmc = b.pmc := by simp [unpinRecord]

@[simp] theorem pinOrLimit_pmc (gidx w : Nat) : (pinOrLimit b gidx w).device.pmc = b.pmc := by simp [pinOrLimit]

@[simp] theorem cmdKeyPin_pmc (m : Mbx) (p : Bytes) : (cmdKeyPin m b p).device.pmc = b.pmc := by
  unfold cmdKeyPin
  dsimp only
  repeat' split
  all_goals simp

@[simp] theorem cmdCustodianSet2_pmc (m : Mbx) (p : Bytes) : (cmdCustodianSet2 m b p).device.pmc = b.pmc := by simp [cmdCustodianSet2]

@[simp] theorem cmdAuditRingCreate2_pmc (m : Mbx) (p : Bytes) : (cmdAuditRingCreate2 m b p).device.pmc = b.pmc := by rfl

@[simp] theorem cmdAuditRingDelete2_pmc (m : Mbx) (p : Bytes) : (cmdAuditRingDelete2 m b p).device.pmc = b.pmc := by rfl

@[simp] theorem cmdRecipeLoad2_pmc (m : Mbx) (p : Bytes) (hold : List Bytes) : (cmdRecipeLoad2 m b p hold).device.pmc = b.pmc := by rfl

@[simp] theorem cmdRecipeMask2_pmc (m : Mbx) (p : Bytes) : (cmdRecipeMask2 m b p).device.pmc = b.pmc := by rfl

@[simp] theorem cmdRecipeDelete2_pmc (m : Mbx) (p : Bytes) : (cmdRecipeDelete2 m b p).device.pmc = b.pmc := by rfl

@[simp] theorem decodeInstalled_pmc : (decodeInstalled b).pmc = b.pmc := by rfl

@[simp] theorem cmdDecodeLoad2_pmc (m : Mbx) (p : Bytes) : (cmdDecodeLoad2 m b p).device.pmc = b.pmc := by simp [cmdDecodeLoad2]

@[simp] theorem cmdDecodeMask2_pmc (m : Mbx) (p : Bytes) : (cmdDecodeMask2 m b p).device.pmc = b.pmc := by rfl

theorem continueKeys_pmc (m : Mbx) (code : Nat) (p : Bytes) (hold : List Bytes) {r : Res} (h : continueKeys m b code p hold = some r) :
    r.device.pmc = b.pmc := by
  unfold continueKeys at h
  repeat' split at h
  all_goals cases h
  all_goals simp

@[simp] theorem cmdSumpSave2_pmc (m : Mbx) (p : Bytes) : (cmdSumpSave2 m b p).device.pmc = b.pmc := by rfl

@[simp] theorem wipeCache_pmc : (wipeCache b).pmc = b.pmc := by rfl

@[simp] theorem sumpInit_pmc : (sumpInit b).pmc = b.pmc := by rfl

@[simp] theorem resumeChain_pmc (p : Nat × Chain) : (resumeChain b p).pmc = b.pmc := by simp [resumeChain]

@[simp] theorem applyIo_pmc (p : Bytes) : (applyIo b p).pmc = b.pmc := by rfl

@[simp] theorem restoreFromSump_pmc : (restoreFromSump b).pmc = b.pmc := by
  unfold restoreFromSump
  dsimp only
  repeat' split
  all_goals simp

@[simp] theorem restoreSystem_pmc : (restoreSystem b).pmc = b.pmc := by
  unfold restoreSystem
  split <;> simp

@[simp] theorem initSump_pmc : (initSump b).pmc = b.pmc := by simp [initSump]

@[simp] theorem cmdPairCreate2_pmc (m : Mbx) (p : Bytes) : (cmdPairCreate2 m b p).device.pmc = b.pmc := by rfl

@[simp] theorem setLifecycle_pmc (to_ cause : Nat) : (setLifecycle b to_ cause).pmc = b.pmc := by rfl

@[simp] theorem seqReserve_pmc (i : ChainId) : (seqReserve b i).pmc = b.pmc := by simp [seqReserve]

@[simp] theorem commission2_pmc (m : Mbx) (p : Bytes) (hold : List Bytes) : (commission2 m b p hold).device.pmc = b.pmc := by simp [commission2]

@[simp] theorem commission3_pmc (m : Mbx) : (commission3 m b).device.pmc = b.pmc := by
  unfold commission3
  split <;> simp

@[simp] theorem cmdIoConfig2_pmc (m : Mbx) (p : Bytes) : (cmdIoConfig2 m b p).device.pmc = b.pmc := by rfl

@[simp] theorem answerPlain_pmc : (answerPlain b).device.pmc = b.pmc := by rfl

@[simp] theorem continueDevice_pmc (m : Mbx) (code cont : Nat) (p : Bytes) (hold : List Bytes) :
    (continueDevice m b code cont p hold).device.pmc = b.pmc := by simp [continueDevice]

/-! ### What goes on by itself -/

@[simp] theorem continueCommand_pmc (m : Mbx) : (continueCommand b m).pmc = b.pmc := by
  have rest (t : Block) (x : Mailbox) : ((continueChamber m t (mbxCode x) x.cont (reqPayload x) x.hold).getD
      ((continueKeys m t (mbxCode x) (reqPayload x) x.hold).getD
        (continueDevice m t (mbxCode x) x.cont (reqPayload x) x.hold))).device.pmc = t.pmc := by
    cases chamber : continueChamber m t (mbxCode x) x.cont (reqPayload x) x.hold with
    | some r => exact continueChamber_pmc _ _ _ _ _ chamber
    | none =>
      cases keys : continueKeys m t (mbxCode x) (reqPayload x) x.hold with
      | some r => exact continueKeys_pmc _ _ _ _ keys
      | none => exact continueDevice_pmc _ _ _ _ _
  unfold continueCommand
  extract_lets x code p t
  split
  · split
    · exact execCommand_pmc _ _ _ fun u q => standbyRun_pmc _ _ _
    · rfl
  · exact (settleRes_pmc _ _ _).trans (rest t x)

@[simp] theorem settleMailbox_pmc (m : Mbx) : (settleMailbox b m).pmc = b.pmc := by
  unfold settleMailbox
  dsimp only
  repeat' split
  all_goals simp

@[simp] theorem settle_pmc : (settle b).pmc = b.pmc := by
  unfold settle
  extract_lets released closed headed
  have pumped : headed.pmc = closed.pmc := foldl_pmc (fun t i => by simp) _ _
  have leaves : closed.pmc = released.pmc := foldl_pmc (fun t p => by simp) _ _
  have drained : released.pmc = b.pmc := by simp [released]
  exact (foldl_pmc (fun t m => settleMailbox_pmc m) _ _).trans (pumped.trans (leaves.trans drained))

end Sys2Proof.Machine
end

section
/-! PROOFS. Tamper monitors, Strata's records and the supplies (R424 to R427, R440 to R446, R451 to R458, R555), and with them their statement. -/
namespace Sys2Proof.Machine

variable {b t : Block} {s : State} {k : Nat} {detB : Bool}

/-! ### The filter of a detector (R424) -/

theorem step_same_last {f : Filter} {v : Bool} (h : f.last = v) : f.step v = { f with same := min 4 (f.same + 1), changes := 0 } := by
  simp [Filter.step, h]

theorem step_changed {f : Filter} {v : Bool} (h : f.last ≠ v) : f.step v = { last := v, same := 1, changes := min 3 (f.changes + 1) } := by
  simp [Filter.step, Ne.symm h]

theorem step_last (f : Filter) (v : Bool) : (f.step v).last = v := by
  unfold Filter.step
  split
  next h => exact h.symm
  next => rfl

theorem one_le_step_same (f : Filter) (v : Bool) : 1 ≤ (f.step v).same := by
  unfold Filter.step
  split
  · dsimp only
    omega
  · exact le_rfl

/-- Four equal samples set the output. -/
theorem four_equal_output (f : Filter) (v out : Bool) : ([v, v, v, v].foldl Filter.step f).output out = v := by
  have start := one_le_step_same f v
  simp only [List.foldl_cons, List.foldl_nil]
  rw [step_same_last (f := ((f.step v).step v).step v) (step_last _ v), step_same_last (f := (f.step v).step v) (step_last _ v),
    step_same_last (f := f.step v) (step_last f v)]
  have full : min 4 (min 4 (min 4 ((f.step v).same + 1) + 1) + 1) = 4 := by omega
  simp [Filter.output, full, step_last]

/-- Three changes in a row make the output active. -/
theorem three_changes_output {f : Filter} {v : Bool} (out : Bool) (h : f.last = !v) : ([v, !v, v].foldl Filter.step f).output out = true := by
  simp only [List.foldl_cons, List.foldl_nil]
  rw [step_changed (f := f) (v := v) (by simp [h]), step_changed (v := !v) (by simp), step_changed (v := v) (by simp)]
  simp [Filter.output]

theorem output_kept {f : Filter} (out : Bool) (hc : f.changes < 3) (hs : f.same < 4) : f.output out = out := by
  have changes : f.changes ≠ 3 := by omega
  have same : f.same ≠ 4 := by omega
  simp [Filter.output, changes, same]

/-! ### A monitor's commands (R424 to R427, R446) -/

/-- An event is counted; it raises the alarm at M, and in REARMING returns the monitor to it. -/
theorem monitorCount_eq (b : Block) (k : Nat) (detB : Bool) : monitorCount b k detB =
    let t := b.modMonitor k fun m =>
      if detB then { m with countB := min 255 (m.countB + 1) } else { m with countA := min 255 (m.countA + 1) }
    if (t.monitor k).st = .idle ∧ ((t.monitor k).m ≤ (t.monitor k).countA ∨ (t.monitor k).m ≤ (t.monitor k).countB) then
      monitorReport (t.modMonitor k fun m => { m with st := .alarm }) k 0x0100 (monitorClass t k)
    else if (t.monitor k).st = .rearming then t.modMonitor k fun m => { m with st := .alarm }
    else t := by
  unfold monitorCount
  extract_lets t m
  have state : t.monitor k = m := rfl
  rw [state]
  cases m.st <;> simp

theorem monitorRest_eq (b : Block) (k : Nat) : monitorRest b k = b.modMonitor k fun m =>
    if m.st = .alarm ∧ m.actA = false ∧ m.actB = false then { m with st := .rearming } else m := by
  simp only [monitorRest, Bool.not_eq_true']

/-- A sample passes the filter: no change of the output, its rise, or its fall. -/
theorem detectorSample_eq (b : Block) (k : Nat) (detB v : Bool) : detectorSample k detB b v =
    let f := (if detB then (b.monitor k).filterB else (b.monitor k).filterA).step v
    let out := if detB then (b.monitor k).actB else (b.monitor k).actA
    let t := b.modMonitor k fun m => if detB then { m with filterB := f } else { m with filterA := f }
    if f.output out = out then t
    else if f.output out = true then monitorCount (t.modMonitor k fun m => if detB then { m with actB := true } else { m with actA := true }) k detB
    else monitorRest (t.modMonitor k fun m => if detB then { m with actB := false } else { m with actA := false }) k := rfl

theorem detectorEvent_off (h : monitorRuns b k = false) (e : DetEvent) : detectorEvent b k detB e = b := by simp [detectorEvent, h]

theorem detectorEvent_samples (h : monitorRuns b k = true) (raw : List Bool) :
    detectorEvent b k detB (.samples raw) = raw.foldl (detectorSample k detB) b := by simp [detectorEvent, h]

theorem detectorEvent_pulse (h : monitorRuns b k = true) : detectorEvent b k detB .pulse =
    if countsPulses k detB = true then monitorRest (monitorCount b k detB) k else b := by simp [detectorEvent, h]

theorem sustainedEvent_eq (b : Block) (k : Nat) (detB : Bool) : sustainedEvent b k detB =
    if monitorRuns b k = true ∧ (if detB then (b.monitor k).actB else (b.monitor k).actA) = true then monitorCount b k detB else b := by
  simp only [sustainedEvent, Bool.and_eq_true]

theorem windowExpiry_eq (h : k ≤ 18) (detB : Bool) : windowExpiry b k detB = b.modMonitor k fun m =>
    if detB then { m with countB := m.countB - 1 } else { m with countA := m.countA - 1 } := if_neg (by omega)

theorem rearmExpiry_eq (h : k ≤ 18) : rearmExpiry b k = b.modMonitor k fun m =>
    if m.st = .rearming ∧ m.actA = false ∧ m.actB = false then { m with st := .idle } else m := by
  simp only [rearmExpiry, if_neg (show ¬ 18 < k by omega), Bool.not_eq_true']

/-- The detectors differ, or a stimulus is outstanding under power. -/
theorem detectorFault_eq (b : Block) (k : Nat) : detectorFault b k =
    if monitorRuns b k = true ∧ (b.monitor k).dfault = false ∧ ((b.monitor k).actA ≠ (b.monitor k).actB ∨
      (hasStimulus k = true ∧ b.pmc.powerGood = true ∧ ((b.monitor k).stimA = true ∨ (b.monitor k).stimB = true))) then
      monitorReport (b.modMonitor k fun m => { m with dfault := true, answered := false }) k 0x0101 .l
    else b := by
  unfold detectorFault
  extract_lets m
  refine (if_congr ?_ rfl rfl).trans (ite_not _ _ _)
  simp only [m, Bool.not_eq_true']
  grind

theorem builtinStimulus_eq (hk : hasStimulus k = true) (hp : b.pmc.powerGood = true) (answers : Bool) :
    builtinStimulus b k detB answers = b.modMonitor k fun m =>
      { m with stimA := if detB then m.stimA else !answers, stimB := if detB then !answers else m.stimB
               answered := m.answered || answers } := by
  simp [builtinStimulus, hk, hp]

theorem builtinStimulus_none (h : hasStimulus k = false ∨ b.pmc.powerGood = false) (answers : Bool) :
    builtinStimulus b k detB answers = b := if_pos (by simpa using h)

theorem dfaultClear_eq (h : k ≤ 18) : dfaultClear b k = b.modMonitor k fun m =>
    if m.dfault = true ∧ m.actA = m.actB ∧ (hasStimulus k = false ∨ (m.answered = true ∧ m.stimA = false ∧ m.stimB = false)) then
      { m with dfault := false }
    else m := by
  simp only [dfaultClear, if_neg (show ¬ 18 < k by omega), Bool.not_eq_true']

/-! ### Strata's records (R440, R442, R444, R455 to R458) -/

theorem powered_on {f : Block → Block} (h : b.pmc.powerGood = true) : powered f b = f b := if_pos h

theorem evidenceWrite_none (torn : List Bytes) (h : b.belay.evidence = []) : evidenceWrite b torn = b := by simp [evidenceWrite, h]

/-- The block after a record left Belay's queue of evidence. -/
def evidenceLeft (b : Block) (rest : List Bytes) : Block := b.modBelay fun y => { y with evidence := rest }

theorem evidenceWrite_cons {r : Bytes} {rest : List Bytes} (torn : List Bytes) (h : b.belay.evidence = r :: rest) :
    evidenceWrite b torn = if (evidenceAppend (evidenceLeft b rest) r torn).2 = true
      then evidenceIsFull (evidenceAppend (evidenceLeft b rest) r torn).1 else (evidenceAppend (evidenceLeft b rest) r torn).1 := by
  unfold evidenceWrite
  rw [h]
  rfl

theorem evidenceAppend_room (r : Bytes) (torn : List Bytes) (h : b.strata.evidence.length < 8176) :
    evidenceAppend b r torn = (b.modStrata fun x => evidenceProgram x r torn, false) := if_pos h

/-- Past the reserved slots only the codes of the last slots are programmed. -/
theorem evidenceAppend_full (r : Bytes) (torn : List Bytes) (h : 8176 ≤ b.strata.evidence.length) (hf : b.strata.evidenceFull = true) :
    evidenceAppend b r torn = (if recordCode r ∈ lastSlotCodes then b.modStrata fun x => evidenceProgram x r torn else b, false) := by
  unfold evidenceAppend
  extract_lets x
  refine (if_neg (Nat.not_lt.mpr h)).trans ((if_neg (by simp [x, hf])).trans ?_)
  simp only [List.contains_iff_mem]
  split <;> rfl

/-- The record that reaches the reserved slots adds the record of the full log first. -/
theorem evidenceAppend_filling (r : Bytes) (torn : List Bytes) (h : 8176 ≤ b.strata.evidence.length) (hf : b.strata.evidenceFull = false) :
    evidenceAppend b r torn =
      let full := b.modStrata fun x => { x with evidence := x.evidence ++ [evidenceFullRecord b], evidenceFull := true }
      (if recordCode r ∈ lastSlotCodes then full.modStrata fun x => evidenceProgram x r torn else full, true) := by
  unfold evidenceAppend
  extract_lets x full filled written
  refine (if_neg (Nat.not_lt.mpr h)).trans ((if_pos (by simp [x, hf])).trans ?_)
  simp only [written, filled, List.contains_iff_mem]
  split <;> rfl

theorem recorderWrite_held (h : b.belay.evidence ≠ []) : recorderWrite b = b := if_pos h

theorem recorderWrite_cons {r : Bytes} {rest : List Bytes} (he : b.belay.evidence = []) (hr : b.belay.recorder = r :: rest) :
    recorderWrite b = recorderAppend (b.modBelay fun y => { y with recorder := rest }) b.recorderC r := by
  simp [recorderWrite, he, hr]

theorem recorderAppend_room {c : Nat} (r : Bytes) (h : c ≠ 32768 ∨ b.strata.serial < 32767) : recorderAppend b c r =
    b.modStrata fun x => { x with recorder := Tab.set x.recorder (recorderSlot c b.strata.serial) r, serial := b.strata.serial + 1 } :=
  if_neg (by omega)

theorem recorderAppend_full {c : Nat} (r : Bytes) (hc : c = 32768) (h : 32767 ≤ b.strata.serial) : recorderAppend b c r =
    b.modStrata fun x => { x with fullCount := min (2 ^ 32 - 1) (x.fullCount + 1), fullLast := leField r 0 2 } := if_pos ⟨hc, h⟩

theorem recorderFull_eq {c : Nat} (hc : c = 32768) (h : 32767 ≤ b.strata.serial) (hn : b.strata.fullCount ≠ 0) : recorderFull b c =
    let full := recordBytes b
      { code := 0x0250, src := 0, cls := .none, p0 := b.strata.fullCount, p1 := b.strata.fullLast, p2 := 0
        rom := false, overrun := false, quiesce := 64, detected := b.now } false
    b.modStrata fun x => { x with recorder := Tab.set x.recorder 32767 full, serial := 32768 } := if_pos ⟨hc, h, hn⟩

/-! ### The supplies (R446, R500, R555, R556) -/

theorem bypassClose_pmc (b : Block) : (bypassClose b).pmc = b.pmc := rfl

theorem endMailbox_pmc (b : Block) (i : Nat) : (endMailbox b i).pmc = b.pmc := by
  unfold endMailbox
  split <;> rfl

theorem stopWork_pmc (b : Block) : (stopWork b).pmc = b.pmc := by
  unfold stopWork
  extract_lets chuck chisel engines mailboxes closed
  have bypassed : closed.pmc = mailboxes.pmc := (bypassClose_pmc _).trans (modSump_pmc _ _)
  have ended : mailboxes.pmc = engines.pmc := foldl_pmc endMailbox_pmc _ _
  rw [settle_pmc, modKerard_pmc, bypassed, ended]

theorem supplySwitchover_eq {battery : Bool} (h : battery = false ∨ b.pmc.powerGood = false) :
    supplySwitchover b battery = b.modPmc fun p => { p with onBattery := battery } := if_neg (by
  rcases h with h | h <;> simp [h])

/-- What a loss of main power leaves: the switch to the battery, and no work, key or report that only the supply held. -/
def LostMainPower (t : Block) : Prop :=
  t.pmc.powerGood = false ∧ t.pmc.onBattery = true ∧ t.ch = [] ∧ t.belay.evidence = [] ∧ t.belay.recorder = [] ∧ t.chuck = Chuck.reset ∧
  t.keys = Keys.reset ∧ t.lantern.st = .off ∧ t.sump.ddr = Sump.reset.ddr ∧ t.bbram.batSeconds = 0 ∧ t.belay.responses = []

theorem mainPowerLoss_lost (h : b.pmc.powerGood = true) : LostMainPower (mainPowerLoss b) := by
  unfold mainPowerLoss
  rw [if_neg (by simp [h])]
  exact ⟨rfl, rfl, rfl, rfl, rfl, rfl, rfl, rfl, rfl, rfl, rfl⟩

theorem powerLoss_eq (h : b.pmc.powerGood = true) : powerLoss b = mainPowerLoss (stopWork b) := if_pos h

/-! ### The statement -/

theorem filterPasses (f : Filter) (v out : Bool) :
    ([v, v, v, v].foldl Filter.step f).output out = v ∧
    (f.last = !v → ([v, !v, v].foldl Filter.step f).output out = true) ∧
    ((f.step v).changes < 3 → (f.step v).same < 4 → (f.step v).output out = out) ∧
    (f.last = v → (f.step v).changes = 0 ∧ (f.step v).same = min 4 (f.same + 1)) ∧
    (f.last ≠ v → (f.step v).changes = min 3 (f.changes + 1) ∧ (f.step v).same = 1) := by
  refine ⟨four_equal_output f v out, three_changes_output out, output_kept out, fun h => ?_, fun h => ?_⟩
  · simp [step_same_last h]
  · simp [step_changed h]

/-- Settles O31: the filter, the monitors' commands and those of Strata and the supplies, each by its equation; at a loss of main power what was
at work is stopped first, which leaves the power state as it was. -/
theorem monitorsAndStrata : Obligations.MonitorsAndStrata := by
  unfold Obligations.MonitorsAndStrata
  refine ⟨filterPasses, ?_, ?_⟩
  · intro s k detB answers raw
    have hk : (k : Nat) ≤ 18 := by omega
    extract_lets b m act turned filter event rest sample
    have hevent : (monitorCount · k detB) = event := funext fun t => monitorCount_eq t k detB
    have hrest : (monitorRest · k) = rest := funext fun t => monitorRest_eq t k
    have hsample : detectorSample k detB = sample := by
      funext t v
      simp only [sample, ← hevent, ← hrest]
      rfl
    have hactive : (if detB then m.actB else m.actA) = act m := rfl
    refine ⟨fun hr => ?_, fun hr ha => ?_, fun hr hc => ?_, fun hr hc => ?_, fun e hr => ?_, fun h => ?_, ?_, ?_, ⟨fun h => ?_, fun h => ?_⟩,
      fun hs hp => ?_, fun h => ?_, ?_, fun hp => ?_⟩
    · rw [← hsample]
      exact completes_run (f := (detectorEvent · k detB _)) rfl (detectorEvent_samples hr raw)
    · rw [← hevent]
      exact completes_run (f := (sustainedEvent · k detB)) rfl ((sustainedEvent_eq _ _ _).trans (if_pos ⟨hr, ha⟩))
    · rw [← hevent, ← hrest]
      exact completes_run (f := (detectorEvent · k detB _)) rfl ((detectorEvent_pulse hr).trans (if_pos hc))
    · exact completes_run (f := (detectorEvent · k detB _)) rfl ((detectorEvent_pulse hr).trans (if_neg (by simp [hc])))
    · exact completes_run (f := (detectorEvent · k detB _)) rfl (detectorEvent_off hr e)
    · refine completes_run (f := (sustainedEvent · k detB)) rfl ((sustainedEvent_eq _ _ _).trans (if_neg ?_))
      rintro ⟨hr, ha⟩
      rcases h with h | h
      · exact Bool.false_ne_true (h.symm.trans hr)
      · exact Bool.false_ne_true (h.symm.trans ha)
    · exact completes_run (f := (windowExpiry · k detB)) rfl (windowExpiry_eq hk detB)
    · exact completes_run (f := (rearmExpiry · k)) rfl (rearmExpiry_eq hk)
    · exact completes_run (f := (detectorFault · k)) rfl ((detectorFault_eq _ _).trans (if_pos h))
    · exact completes_run (f := (detectorFault · k)) rfl ((detectorFault_eq _ _).trans (if_neg h))
    · exact completes_run (f := (builtinStimulus · k detB answers)) rfl (builtinStimulus_eq hs hp answers)
    · exact completes_run (f := (builtinStimulus · k detB answers)) rfl (builtinStimulus_none h answers)
    · exact completes_run (f := (dfaultClear · k)) rfl (dfaultClear_eq hk)
    · exact completes_run (f := powerOnTmp) rfl (if_neg (by simp [b] at hp; simp [hp]))
  · intro s r rest torn battery
    extract_lets b left failed put serial
    have hput (t : Block) : (t.modStrata fun x => evidenceProgram x r torn) = t.modStrata put := rfl
    have written (hp : b.pmc.powerGood = true) (hw : wfTorn torn = true) {t : Block} (h : evidenceWrite b torn = t) :
        Completes (.evidenceWrite torn) s t :=
      completes_act (f := powered (evidenceWrite · torn)) rfl hw ((powered_on hp).trans h)
    refine ⟨fun hp hw he hl => ?_, fun hp hw he hl hf => ?_, fun hp hw he hl hf => ?_, fun hp hw he => ?_, fun hp he => ?_,
      fun hp he hr hc => ?_, fun hp he hr hc hl => ?_, fun hp hc hl hn => ?_, fun hp => ?_, fun hb => ?_, fun hb => ?_, fun h => ?_,
      fun hp => ?_, fun hp => ?_⟩
    · refine written hp hw ((evidenceWrite_cons torn he).trans ?_)
      rw [evidenceAppend_room (b := evidenceLeft b rest) r torn hl]
      rfl
    · refine written hp hw ((evidenceWrite_cons torn he).trans ?_)
      rw [evidenceAppend_full (b := evidenceLeft b rest) r torn hl hf]
      rfl
    · refine written hp hw ((evidenceWrite_cons torn he).trans ?_)
      rw [evidenceAppend_filling (b := evidenceLeft b rest) r torn hl hf]
      rfl
    · exact written hp hw (evidenceWrite_none torn he)
    · exact completes_run (f := powered recorderWrite) rfl ((powered_on hp).trans (recorderWrite_held he))
    · exact completes_run (f := powered recorderWrite) rfl ((powered_on hp).trans ((recorderWrite_cons he hr).trans (recorderAppend_room r hc)))
    · exact completes_run (f := powered recorderWrite) rfl ((powered_on hp).trans ((recorderWrite_cons he hr).trans (recorderAppend_full r hc hl)))
    · exact completes_run (f := powered fun b => recorderFull b b.recorderC) rfl ((powered_on hp).trans (recorderFull_eq hc hl hn))
    · exact completes_run (f := optBaseWrite) rfl (if_pos hp)
    · exact completes_run (f := batterySecond) rfl (if_pos hb)
    · exact completes_run (f := batterySecond) rfl (if_neg (by simp only [b] at hb; simp [hb]))
    · exact completes_run (f := (supplySwitchover · battery)) rfl (supplySwitchover_eq h)
    · exact completes_run (f := batteryLoss) rfl (if_neg (by simp only [b] at hp; simp [hp]))
    · have stopped : (stopWork b).pmc.powerGood = true := by rw [stopWork_pmc, hp]
      have lost : Completes .mainPowerLoss s (mainPowerLoss (stopWork b)) := completes_run (f := powerLoss) rfl (powerLoss_eq hp)
      have cleared := mainPowerLoss_lost stopped
      generalize mainPowerLoss (stopWork b) = t at lost cleared
      exact ⟨_, lost, rfl, cleared⟩

end Sys2Proof.Machine
end
